-- ==== Sys2Proof/Word.lean ====
section
/-!
DEFINITION. The words of the part and their plainest arithmetic: 64-bit words, bytes, bit ranges (R9 to R11),
the numbers that name the units of the part (R36, R48, R264), and little-endian byte order (R10).
-/
namespace Sys2Proof

/-- A 64-bit word: a register, a scalar, an address in computation. -/
abbrev Word := BitVec 64

/-- One byte. -/
abbrev Byte := BitVec 8

/-- A logical core, 0 to 287 (R36). -/
abbrev CoreId := Fin 288

/-- An engine, 0 to 2,303 (R36). -/
abbrev EngId := Fin 2304

/-- A groom thread, 0 to 7 (R171). -/
abbrev ThreadId := Fin 8

/-- An input queue or output rein of an engine, 0 to 15 (R141). -/
abbrev ReinNo := Fin 16

/-- An address generator of an engine, 0 to 3 (R237). -/
abbrev AgNo := Fin 4

/-- A tier port as R271 numbers them: 0 to 7 HBM3E stacks, 8 to 23 LPDDR5X, 24 to 39 NAND. -/
abbrev PortId := Fin 40

/-- A link, 0 to 5 (R467). -/
abbrev LinkId := Fin 6

/-- A Hitch, 0 to 3 (R48). -/
abbrev HitchId := Fin 4

/-- An Ostler core, 0 to 7 (R48). -/
abbrev OstlerId := Fin 8

/-- A ring pair, 0 to 15 (R509). -/
abbrev RingId := Fin 16

/-- A scalar register number (R176). -/
abbrev RegNo := BitVec 6

/-- Bits [hi:lo] of `w` as a number; both ends included (R11). -/
def bitsOf (w : Word) (hi lo : Nat) : Nat :=
  (w.toNat >>> lo) % 2 ^ (hi + 1 - lo)

/-- Bit `i` of `w`. -/
def bitOf (w : Word) (i : Nat) : Bool := w.getLsbD i

/-- `v` placed at bit `lo` of a register image. -/
def atBit (lo v : Nat) : Word := BitVec.ofNat 64 (v <<< lo)

/-- A flag placed at bit `i` of a register image. -/
def flagAt (i : Nat) (b : Bool) : Word := if b then atBit i 1 else 0#64

/-- A flag as a number. -/
def bit01 (b : Bool) : Nat := if b then 1 else 0

/-- The `n` bytes of `v`, least significant first (R10). -/
def bytesLE : Nat → Nat → List Byte
  | 0, _ => []
  | n + 1, v => BitVec.ofNat 8 v :: bytesLE n (v / 256)

/-- The number that bytes spell, least significant first (R10). -/
def numLE : List Byte → Nat
  | [] => 0
  | b :: bs => b.toNat + 256 * numLE bs

/-- `a / b` rounded up. -/
def ceilDiv (a b : Nat) : Nat := (a + b - 1) / b

/-- `x` placed in a list that rises by `key`. -/
def insertOn {α : Type} (key : α → Nat) (x : α) : List α → List α
  | [] => [x]
  | y :: l => if key x < key y then x :: y :: l else y :: insertOn key x l

/-- A list sorted by `key`, equal keys in the order they had. -/
def sortOn {α : Type} (key : α → Nat) (l : List α) : List α := l.foldl (fun m x => insertOn key x m) []

end Sys2Proof
end

