-- ==== Sys2Proof/Tack.lean ====
section
/-!
DEFINITION. The parts of a tack image (R433, R434). What the spec lays out in bytes arrives as bytes: the header, gait descriptors
(R131), schedules (R135), the object table (R289), the synchronisation table (R336), the Hitch tables (R350, R351) and the serving
descriptor (R382). The Stride Ledger (R89), the rein configuration (R145) and the core images have no inner layout in the spec and
arrive as data (log 11).
-/
namespace Sys2Proof

/-- AG_PROGn or VEC_PROG of a gait descriptor: bit 31 AG_EN, bits [22:0] the program's scratchpad offset (R131). -/
structure ProgRef where
  en  : Bool := false
  off : Nat := 0
  deriving DecidableEq, Repr

/-- A gait descriptor's fields (R131). `rsvd`: some reserved bit is 1. -/
structure Gait where
  valid    : Bool := false
  epoch    : BitVec 3 := 0
  mix      : BitVec 2 := 0
  source   : Bool := false
  inMask   : BitVec 16 := 0
  outMask  : BitVec 16 := 0
  mixSpan  : Nat := 0
  accBase  : Nat := 0
  accCount : Nat := 0
  resBase  : Nat := 0
  resLen   : Nat := 0
  ag0      : ProgRef := {}
  ag1      : ProgRef := {}
  ag2      : ProgRef := {}
  ag3      : ProgRef := {}
  vec      : ProgRef := {}
  rsvd     : Bool := false
  deriving DecidableEq, Repr

/-- AG_PROGn of a gait. -/
def Gait.ag (g : Gait) (n : AgNo) : ProgRef :=
  match n.val with
  | 0 => g.ag0
  | 1 => g.ag1
  | 2 => g.ag2
  | _ => g.ag3

/-- One entry of a gait schedule: slot, firings, and whether its firings do tile work (R135, R175). -/
structure SchedEntry where
  slot    : Fin 8
  firings : Nat
  tile    : Bool
  deriving DecidableEq, Repr

/-- The figures of the Ledger (R89). -/
inductive FigKind where
  | issueFc | gaitSwitches | tiles | tokens | bytes | linkBytes
  deriving DecidableEq, Repr

/-- One figure of one step: `unit` the engine, core, rein (producer engine × 16 + port), port × 8 + class, or link × 2 + direction,
0 sent and 1 received; no rule counts what is received (R499, log 78). -/
structure Figure where
  kind  : FigKind
  unit  : Nat
  exact : Bool
  value : Nat
  deriving DecidableEq, Repr

/-- An entry of the reconvergence table (R150): the reins of the short path, the rein that enters the join, Δ. A rein is named
by its consumer, engine × 16 + queue. -/
structure Reconv where
  short : List Nat
  join  : Nat
  delta : Nat
  deriving DecidableEq, Repr

/-- The Stride Ledger of a tack (R89, R147, R150, R164). `bounds`: the stated N of a rein, named by its consumer, engine × 16 +
queue (R147). -/
structure Ledger where
  lBase      : Nat := 16384
  period     : Nat := 1
  lFixed     : Nat := 0
  drainDepth : Nat := 0
  chips      : Nat := 1
  steps      : List (List Figure) := []
  bounds     : List (Nat × Nat) := []
  reconv     : List Reconv := []
  deriving DecidableEq, Repr

/-- REIN_IN_CFG and REIN_IN_BUF as the tack gives them (R145). -/
structure ReinInCfg where
  srcChip   : Nat := 0
  srcEngine : Nat := 0
  srcPort   : Nat := 0
  dstGait   : Nat := 0
  credits   : Nat := 0
  q         : Nat := 0
  en        : Bool := false
  tagBase   : Nat := 0
  slotBase  : Nat := 0
  deriving DecidableEq, Repr

/-- REIN_OUT_CFG as the tack gives it (R145). -/
structure ReinOutCfg where
  dstChip   : Nat := 0
  dstEngine : Nat := 0
  dstQueue  : Nat := 0
  srcGait   : Nat := 0
  credits   : Nat := 0
  p         : Nat := 0
  en        : Bool := false
  deriving DecidableEq, Repr

/-- One core's part of sections 4 and 5: scratchpad blocks, thread entry PCs and engine owners per step, scalars. -/
structure CoreImage where
  core    : CoreId
  blocks  : List (Nat × List Byte) := []
  entries : List (List (ThreadId × Nat)) := []
  owners  : List (List (Fin 8 × ThreadId)) := []
  sregs   : List (RegNo × Word) := []
  deriving DecidableEq, Repr

/-- One engine's part of section 2: the 64 bytes of each gait descriptor (R131), per step the 16-bit entries of its schedule
(R135), each with its mark of tile work (R175), and the Curb class of each gait (R265). -/
structure EngineCfg where
  engine  : EngId
  gaits   : List (Fin 8 × BitVec 512) := []
  sched   : List (List (BitVec 16 × Bool)) := []
  classes : List (Fin 8 × Nat) := []
  deriving DecidableEq, Repr

/-- An object-table entry (R289). -/
structure ObjEntry where
  objId    : Nat
  tier     : Nat := 0
  die      : Nat := 0
  pin      : Bool := false
  writable : Bool := false
  evict    : Bool := false
  resident : Bool := false
  bytes    : Nat := 64
  backing  : Nat := 0
  sreg     : RegNo := 0
  rsvd     : Bool := false
  deriving DecidableEq, Repr

/-- A synchronisation-table entry with its claimants (R336). -/
structure SyncEntry where
  obj       : Nat
  type      : Nat
  param     : Nat := 0
  waitLimit : Nat := 1
  init      : Int := 0
  claimants : List (Nat × Nat) := []
  nclaim    : Nat := 0
  rsvd      : Bool := false
  deriving DecidableEq, Repr

/-- A Hitch layer descriptor (R350); the defaults are those of 64 bytes of 0. -/
structure Hld where
  valid      : Bool := false
  top2       : Bool := false
  next       : Bool := false
  ret16      : Bool := false
  outFmt     : Nat := 0
  epoch      : BitVec 3 := 0
  spill      : Nat := 0
  experts    : Nat := 1
  cshift     : Nat := 0
  cap        : Nat := 0
  rowUnits   : Nat := 0
  retUnits   : Nat := 0
  retWait    : Nat := 0
  nsrc       : Nat := 64
  readyObj   : Nat := 0
  doneObj    : Nat := 0
  readyArr   : Nat := 0
  srcIdx     : Nat := 0
  mapIdx     : Nat := 0
  rowHdr     : Nat := 0
  routeBase  : Nat := 0
  rowsBase   : Nat := 0
  gatherBase : Nat := 0
  outBase    : Nat := 0
  rsvd       : Bool := false
  deriving DecidableEq, Repr

/-- An expert-map entry (R351). -/
structure MapEntry where
  chip   : Nat := 0
  core   : Nat := 0
  inOff  : Nat := 0
  outOff : Nat := 0
  inObj  : Nat := 0
  outObj : Nat := 0
  deriving DecidableEq, Repr

/-- One Hitch's part of section 8: descriptors and map entries by index, each as its bytes. -/
structure HitchCfg where
  hitch : HitchId
  hlds  : List (Nat × BitVec 512) := []
  map   : List (Nat × BitVec 128) := []
  deriving DecidableEq, Repr

/-- The serving descriptor (R382). -/
structure Serving where
  prefillRows    : Nat := 0
  decodeRows     : Nat := 0
  prefillCadence : Nat := 1
  decodeCadence  : Nat := 1
  prefillDone    : Nat := 0
  decodeDone     : Nat := 0
  maxNodes       : Nat := 1
  rowQuiet       : Nat := 0
  sessions       : Nat := 1
  vocab          : Nat := 0
  slotBytes      : Nat := 64
  maxCtx         : Nat := 1
  kvFmt          : Nat := 0
  poolH          : Nat := 0
  poolL          : Nat := 0
  plObj          : Nat := 0
  serveObj       : Nat := 0
  rsvd           : Bool := false
  deriving DecidableEq, Repr

/-- A section entry of the image header (R433, R434); `zero` is what its 2 bytes of 0 hold. -/
structure Section where
  type   : Nat
  zero   : Nat
  length : Nat
  offset : Nat
  deriving DecidableEq, Repr

/-- A tack image: the 256 bytes of its header (R433) and the sections of R434, each as far as the spec lays it out (log 11). -/
structure Tack where
  header        : BitVec 2048 := 0
  ledger        : Ledger := {}
  engines       : List EngineCfg := []
  reinIn        : List (Nat × ReinInCfg) := []
  reinOut       : List (Nat × ReinOutCfg) := []
  cores         : List CoreImage := []
  objects       : List (BitVec 256) := []
  sync          : List (BitVec 128 × List (BitVec 64)) := []
  hitch         : List HitchCfg := []
  serve         : Option (BitVec 512) := none
  keep          : List Nat := []
  budgets       : List (Nat × Nat) := []
  expansion     : List (CoreId × Nat × Nat) := []
  deriving DecidableEq, Repr

end Sys2Proof
end

