-- ==== Sys2Proof/Syntax.lean ====
section
/-!
DEFINITION. The commands of the part: one constructor of `Instr` per row of the opcode table, and their operands. The
table gives its rows no bits and no fields; an operand is a decoded field of an instruction word (scalar R176, tile
R178, vector R204, stream R248) or a fact that the surroundings or a sequencer of the part supply (log 1).
-/
namespace Sys2Proof

/-! ## Instruction fields -/

/-- Fields of an 8-byte scalar instruction (R176). `rsvd` is bits [31:26]; a value other than 0 also stands for an instruction whose opcode
R176 reserves (R177). -/
structure ScalarF where
  rsvd : BitVec 6 := 0
  dst  : RegNo := 0
  src1 : RegNo := 0
  src2 : RegNo := 0
  imm  : BitVec 32 := 0
  deriving DecidableEq, Repr

/-- Fields of a TMAC or TOUT (R178, R187). `rsvd`: some reserved bit is 1, or the opcode is one that R193 reserves; the command then
stands for that instruction. -/
structure TileF where
  cmaskReg : RegNo := 0
  rmaskReg : RegNo := 0
  ksrc     : BitVec 2 := 0
  nsrc     : BitVec 2 := 0
  msrc     : BitVec 2 := 0
  accFirst : BitVec 5 := 0
  sgranW   : BitVec 2 := 0
  sgranA   : BitVec 2 := 0
  afmt     : BitVec 1 := 0
  wfmt     : BitVec 3 := 0
  shift    : BitVec 7 := 0
  tags     : Bool := false
  rqCol    : Bool := false
  satLame  : Bool := false
  keep     : Bool := false
  init     : Bool := false
  gait     : Fin 8 := 0
  eng      : Fin 8 := 0
  kExt     : BitVec 16 := 0
  nExt     : BitVec 16 := 0
  mExt     : BitVec 16 := 0
  tagOut   : RegNo := 0
  tagIn    : RegNo := 0
  rqBase   : RegNo := 0
  outPitch : RegNo := 0
  outBase  : RegNo := 0
  swBase   : RegNo := 0
  saBase   : RegNo := 0
  aPitch   : RegNo := 0
  aBase    : RegNo := 0
  resOff   : BitVec 18 := 0
  rsvd     : Bool := false
  deriving DecidableEq, Repr

/-- Fields of a RESLOAD (R188). `rsvd`: some other bit is 1. -/
structure ResloadF where
  gait   : Fin 8 := 0
  eng    : Fin 8 := 0
  src    : RegNo := 0
  len    : BitVec 19 := 0
  resOff : BitVec 18 := 0
  rsvd   : Bool := false
  deriving DecidableEq, Repr

/-- A vector operand descriptor (R206). -/
structure VecOperand where
  space : BitVec 2 := 0
  bc    : BitVec 2 := 0
  fstep : BitVec 11 := 0
  pitch : BitVec 16 := 0
  base  : BitVec 23 := 0
  rsvd  : Bool := false
  deriving DecidableEq, Repr

/-- Word 0 of a vector instruction less its opcode, and its three descriptors (R204). `rsvd`: bit 63 is 1, or the opcode is one that
R211 reserves; the command then stands for that instruction. -/
structure VecF where
  colsM1 : BitVec 12 := 0
  rowsM1 : BitVec 12 := 0
  sh     : BitVec 7 := 0
  parg   : RegNo := 0
  pinv   : Bool := false
  psrc   : BitVec 2 := 0
  cin    : Bool := false
  dacc   : Bool := false
  skv3   : Bool := false
  sfn    : BitVec 3 := 0
  fb     : BitVec 3 := 0
  fa     : BitVec 3 := 0
  fd     : BitVec 3 := 0
  rsvd   : Bool := false
  d      : VecOperand := {}
  a      : VecOperand := {}
  b      : VecOperand := {}
  deriving DecidableEq, Repr

/-- The operations of R211. -/
inductive VecOp where
  | add | sub | mul | mulsh | mulrs | min | max | abs | and | or | xor | shl | sar | srhe | cvt | emask
  | rsum | rmax | rmin | csum | cmax | cmin | sfn | sfnmul | expsub | vend | adc | sbb | mulw
  deriving DecidableEq, Repr

/-- Fields of a stream instruction (R248). -/
structure StreamF where
  imm  : BitVec 32 := 0
  lvl  : BitVec 2 := 0
  creg : Bool := false
  src  : RegNo := 0
  sreg : Bool := false
  cov  : BitVec 2 := 0
  port : ReinNo := 0
  ta   : BitVec 2 := 0
  sa   : BitVec 2 := 0
  da   : BitVec 2 := 0
  nrow : BitVec 13 := 0
  len  : BitVec 32 := 0
  rsvd : Bool := false
  deriving DecidableEq, Repr

/-! ## Facts the surroundings supply -/

/-- Who reaches a register: the host through BAR0, by a TLP over the IDE stream or outside it (R522), an Ostler core through the register
space. -/
inductive RegPath where
  | host (viaIde : Bool)
  | ostler
  deriving DecidableEq, Repr

/-- What decoding a stored unit found (R301). -/
inductive Ecc where
  | clean | corrected | code | crc
  deriving DecidableEq, Repr

/-- What an error pattern too wide to correct does (R301, R303): the code finds it, the CRC finds it, or it escapes both and the unit
decodes as other bytes, counted as a corrected error or not. -/
inductive Wide where
  | code | crc
  | escaped (counted : Bool) (bytes : List Byte)
  deriving DecidableEq, Repr

/-- A stored unit as a read finds it (R301): wrong symbols of its code, on tier F wrong bits of its codeword; what a pattern too wide
does; the read-retry levels tried. -/
structure UnitErr where
  wrong   : Nat := 0
  wide    : Wide := .code
  retries : Nat := 0
  deriving DecidableEq, Repr

/-- Outcome of a read: the units found with wrong symbols, by address, the lowest first (R301), or a port that failed (R306). -/
inductive ReadEnd where
  | data (errs : List (BitVec 48 × UnitErr))
  | portFailed
  deriving DecidableEq, Repr

/-- Who reads a stored unit (R304): for a vector instruction, its engine, opcode and fields. For a session entry, `portFailed` says that
neither copy could be read (R387). -/
inductive Reader where
  | streamLoad (e : EngId) (ag : AgNo)
  | scalarLoad (c : CoreId) (t : ThreadId)
  | fetch (c : CoreId) (t : ThreadId)
  | tileOperand (e : EngId)
  | vectorOperand (e : EngId) (op : VecOp) (v : VecF)
  | streamSpad (e : EngId) (ag : AgNo) (post : Bool)
  | resload (e : EngId)
  | etxia
  | ostler (o : Fin 8)
  | pageIn
  | host
  | hitchTable (h : HitchId)
  | hitchRow (h : HitchId) (hld : Fin 64) (row : Nat)
  | session
  deriving DecidableEq, Repr

/-- What a boundary finds: average power of the ending stride, idle power when it had idle time, readings of the die sensors from 0 on
(R532), and how many of the newest changes of budget, THROTTLE_N and POWER_FAIL_N came less than 128 fc before it (R81). -/
structure BoundaryIn where
  pMeasW : Nat := 0
  idleFc : Nat := 0
  tailW  : Nat := 0
  temps  : List Int := []
  late   : Nat := 0
  deriving DecidableEq, Repr

/-- A stride marker (R72, R483). -/
structure Marker where
  stride  : Nat := 0
  len     : Nat := 16384
  delay   : Nat := 0
  advance : Bool := false
  code    : Nat := 0
  tackId  : Nat := 0
  deriving DecidableEq, Repr

/-- A token on its way to a queue (R139, R482 TYPE 1). -/
structure TokenMsg where
  srcChip   : BitVec 16 := 0
  srcEngine : EngId := 0
  srcPort   : ReinNo := 0
  dstEngine : EngId := 0
  dstQueue  : ReinNo := 0
  tag       : BitVec 16 := 0
  payload   : BitVec 512 := 0
  deriving DecidableEq, Repr

/-- A synchronisation request (R346, R482 TYPE 3): issuing chip, core, thread and epoch, and the object. -/
structure SyncReq where
  chip   : BitVec 16 := 0
  core   : CoreId := 0
  thread : ThreadId := 0
  epoch  : BitVec 3 := 0
  obj    : Fin 8192 := 0
  info   : BitVec 48 := 0
  deriving DecidableEq, Repr

/-- A Hitch message header (R366, R368). -/
structure HitchHdr where
  batch : BitVec 8 := 0
  epoch : BitVec 3 := 0
  src   : Nat := 0
  chip  : BitVec 16 := 0
  hitch : HitchId := 0
  hld   : Fin 64 := 0
  token : Nat := 0
  deriving DecidableEq, Repr

/-- A serving request (R394), with the tokens and parents the part reads from host memory at admission. `parentsAt` is PARENTS;
`rsvd`: some reserved bit of its entry is 1 (R513). -/
structure ServeReq where
  ring     : RingId := 0
  reqTag   : Nat := 0
  session  : Nat := 0
  client   : Nat := 0
  kvTier   : Nat := 0
  src      : Nat := 0
  tokens   : List Nat := []
  count    : Nat := 0
  parents  : List Nat := []
  parentsAt : Nat := 0
  out      : Nat := 0
  maxNew   : Nat := 0
  endToken : Nat := 0xFFFFFFFF
  target   : Nat := 0
  rsvd     : Bool := false
  readOk   : Bool := true
  deriving DecidableEq, Repr

/-- A weight command (R419). `rsvd`: some reserved bit of its entry is 1 (R513). -/
structure WeightCmd where
  ring    : RingId := 0
  cmdTag  : Nat := 0
  objId   : Nat := 0
  tier    : Nat := 0
  die     : Nat := 0
  adapter : Bool := false
  modelId : Nat := 0
  src     : Nat := 0
  bytes   : Nat := 64
  slot    : Fin 2 := 0
  session : Nat := 0
  status  : Nat := 0
  desc    : Nat := 0
  hops    : Nat := 0
  rsvd    : Bool := false
  deriving DecidableEq, Repr

/-- A hop of a relay (R423). -/
structure Hop where
  chip    : Nat := 0
  tier    : Nat := 0
  die     : Nat := 0
  objId   : Nat := 0
  keepOff : Nat := 0
  keepLen : Nat := 0
  rsvd    : Bool := false
  deriving DecidableEq, Repr

/-- What the first chunk of a relay brings to a hop behind hop 0 (R423, R482): the hop list, the hop's place in it, the
kind, model and size of the object. -/
structure RelayIntro where
  hops    : List (BitVec 256) := []
  me      : Nat := 1
  adapter : Bool := false
  modelId : Nat := 0
  bytes   : Nat := 64
  deriving DecidableEq, Repr

/-- A job command (R444). `rsvd`: some reserved bit of its entry is 1 (R513). -/
structure JobCmd where
  ring   : RingId := 0
  cmdTag : Nat := 0
  tackId : Nat := 0
  cls    : Fin 16 := 0
  client : Nat := 0
  tenant : BitVec 16 := 0
  term   : Nat := 1
  endEn  : Bool := false
  endObj : Fin 8192 := 0
  target : Nat := 0
  rsvd   : Bool := false
  deriving DecidableEq, Repr

/-- What a region test of the Farrier finds (R325 to R328): banks whose TEST read differs, or a SAVE that fails. -/
inductive RegionOutcome where
  | pass
  | saveFail (bank : Nat)
  | mismatch (banks : List Nat)
  deriving DecidableEq, Repr

/-- What the Farrier tests: a core's scratchpad or an Ostler core's SRAM (R323). -/
inductive FarrierUnit where
  | core (c : CoreId)
  | ostler (o : OstlerId)
  deriving DecidableEq, Repr

/-- Who writes through an atomic address (R321, R322). -/
inductive AtomicWriter where
  | groom (c : CoreId) (t : ThreadId)
  | stream (e : EngId) (ag : AgNo)
  deriving DecidableEq, Repr

/-- The outcome of a link's training (R468, R474, R494): the lanes up at this end and at the peer's, the last LINKCTL flit of the peer up
to its parity, with its IDENT and echo, and the fc at which it came. -/
structure LinkTrain where
  ok       : Bool := true
  lanes    : BitVec 8 := 0xFF
  peerLanes : BitVec 8 := 0xFF
  ctl      : BitVec 2112 := 0
  now      : Nat := 0
  deriving DecidableEq, Repr

/-- What Etxia has learnt of a job group as an install begins: the longest marker path in fc as it measures it (R74), INSTALL_STRIDES of
the domain root (R439), the links of the group's other chips, (chip, link), that are not UP (R488), the group's chips, the pairs of them
that a rein or a Hitch expert map joins (R489), the chips whose Hitch tables break R352 or repeat a SRC_IDX (R353), and the types of the
synchronisation objects of other chips, (chip, object, type) (R339, R498). -/
structure GroupView where
  pathFc      : Nat := 0
  rootStrides : Nat := 3
  downs       : List (Nat × Nat) := []
  chips       : List Nat := []
  joined      : List (Nat × Nat) := []
  hitchBad    : List Nat := []
  objects     : List (Nat × Nat × Nat) := []
  deriving DecidableEq, Repr

/-- A packet (R481, R482). -/
structure Packet where
  dstChip : BitVec 16 := 0
  srcChip : BitVec 16 := 0
  type    : Nat := 0
  epoch   : BitVec 3 := 0
  reissue : Bool := false
  dstDie  : Nat := 0
  rsvd    : Bool := false
  body    : Nat := 0
  info    : Word := 0
  data    : List Word := []
  fromLink : LinkId := 0
  deriving DecidableEq, Repr

/-- What takes a link DOWN from outside (R495): fc without a valid flit, or lanes that have lost lock and for how many fc. -/
inductive DownCause where
  | silence (fc : Nat)
  | lockLoss (lanes fc : Nat)
  deriving DecidableEq, Repr

/-- One ring's part of a snapshot: the four indices of its index block and the entries of 64 bytes that its SQ holds from SQ_CI on
(R509, R510, R513). -/
structure RingView where
  sqPi    : BitVec 32 := 0
  cqCi    : BitVec 32 := 0
  sqCi    : BitVec 32 := 0
  cqPi    : BitVec 32 := 0
  entries : List (BitVec 512) := []
  deriving DecidableEq, Repr

/-- An EtherCAT state (R537). -/
inductive AlState where
  | init | preOp | safeOp | op | boot
  deriving DecidableEq, Repr

/-- The output process image (R542). -/
structure OutImage where
  budget : Nat := 1150
  cycle  : BitVec 16 := 0
  rack   : BitVec 8 := 0
  deriving DecidableEq, Repr

/-- A ward (R552, R589). -/
inductive Ward where
  | protMode | tumblerFloor | etxiaFloor | ownerKeyHash
  deriving DecidableEq, Repr

/-- The three paths to the debug block, in the order of R582. -/
inductive DbgPath where
  | jtag | field | bar0
  deriving DecidableEq, Repr

/-- What start-up finds (R597 to R600): fuse and secret checks, image checks, ports that failed training. -/
structure StartIn where
  fuseOk    : Bool := true
  secretOk  : Bool := true
  dirOk     : List Bool := [true, true]
  imageOk   : List Bool := [true, true, true, true]
  failed    : List Nat := []
  absent    : List Nat := []
  sftImage  : List (List Int) := []
  sftId     : Nat := 0x00040001
  nonce     : Word := 0
  deriving DecidableEq, Repr

/-- Who stops the chip in CHIP_FAULT: a code, and whether the writing Ostler core makes progress (R610). -/
structure ChipFaultIn where
  code     : Nat
  progress : Bool := true
  deriving DecidableEq, Repr

/-- Data rate of the LPDDR5X ports in MT/s (R273, R274). -/
inductive LpRate where
  | mt10667 | mt8533 | mt6400
  deriving DecidableEq, Repr

/-- Data rate of the NAND channels in MT/s (R273, R274). -/
inductive NandRate where
  | mt3600 | mt2400 | mt1600
  deriving DecidableEq, Repr

/-! ## The commands -/

/-- The rows of the opcode table. -/
inductive Instr where
  -- registers (00)
  | registerWrite (path : RegPath) (off size : Nat) (value hw : Word)
  | readLowWordLatch (off size : Nat) (viaIde : Bool)
  | bar0UnimplementedAccess (write : Bool) (off size : Nat) (viaIde : Bool)
  -- stride (02)
  | strideBoundary (b : BoundaryIn)
  | issueSpanStart
  | stepBegin (c : CoreId)
  | strideWatchdog
  | boundaryTimer (elapsed : Nat)
  | markerSend
  | markerReceive (body : BitVec 256) (phase : Int)
  | markerLoss
  | lenReqReceive (chip : BitVec 16) (body : BitVec 256)
  | strideEventReceive (chip : BitVec 16) (body : BitVec 256)
  | strideInEdge (sinceLast : Nat)
  | strideInTimeout (sinceLast : Nat)
  | sync0Event (time : Word)
  | throttleNChange (low : Bool)
  | powerFailNFall (dcTime : Word)
  | powerFailNRise
  | odOvfClear (index sub value : Nat) (saturates : BitVec 16)
  -- tile instructions (05)
  | tmac (c : CoreId) (t : ThreadId) (f : TileF)
  | tout (c : CoreId) (t : ThreadId) (f : TileF)
  | resload (c : CoreId) (t : ThreadId) (f : ResloadF)
  | tileInstructionComplete (e : EngId)
  -- scalar instructions (05)
  | li (c : CoreId) (t : ThreadId) (f : ScalarF)
  | lui (c : CoreId) (t : ThreadId) (f : ScalarF)
  | add (c : CoreId) (t : ThreadId) (f : ScalarF)
  | sub (c : CoreId) (t : ThreadId) (f : ScalarF)
  | mul (c : CoreId) (t : ThreadId) (f : ScalarF)
  | shl (c : CoreId) (t : ThreadId) (f : ScalarF)
  | shr (c : CoreId) (t : ThreadId) (f : ScalarF)
  | sar (c : CoreId) (t : ThreadId) (f : ScalarF)
  | and (c : CoreId) (t : ThreadId) (f : ScalarF)
  | or (c : CoreId) (t : ThreadId) (f : ScalarF)
  | xor (c : CoreId) (t : ThreadId) (f : ScalarF)
  | min (c : CoreId) (t : ThreadId) (f : ScalarF)
  | max (c : CoreId) (t : ThreadId) (f : ScalarF)
  | ld (c : CoreId) (t : ThreadId) (f : ScalarF)
  | st (c : CoreId) (t : ThreadId) (f : ScalarF)
  | beq (c : CoreId) (t : ThreadId) (f : ScalarF)
  | bne (c : CoreId) (t : ThreadId) (f : ScalarF)
  | blt (c : CoreId) (t : ThreadId) (f : ScalarF)
  | jmp (c : CoreId) (t : ThreadId) (f : ScalarF)
  | twait (c : CoreId) (t : ThreadId) (f : ScalarF)
  | stepEnd (c : CoreId) (t : ThreadId) (f : ScalarF)
  | scalarLoadReturn (c : CoreId) (t : ThreadId)
  -- engines and reins (04)
  | gaitFire (e : EngId)
  | gaitSwitch (e : EngId)
  | creditReturnSend (e : EngId) (q : ReinNo)
  | creditReturn (e : EngId) (o : ReinNo) (count : BitVec 5) (epoch : BitVec 3)
  | tokenArrive (m : TokenMsg)
  | earlyTokenExpire (e : EngId)
  | drainBegin
  | drainComplete
  | drainTimeout
  | hardStop
  | creditWriteOff
  | hingeFlitFailed (retries elapsed : Nat) (recovered : Bool)
  -- vector (06)
  | vecAdd (e : EngId) (v : VecF)
  | vecSub (e : EngId) (v : VecF)
  | vecMul (e : EngId) (v : VecF)
  | mulsh (e : EngId) (v : VecF)
  | mulrs (e : EngId) (v : VecF)
  | vecMin (e : EngId) (v : VecF)
  | vecMax (e : EngId) (v : VecF)
  | abs (e : EngId) (v : VecF)
  | vecAnd (e : EngId) (v : VecF)
  | vecOr (e : EngId) (v : VecF)
  | vecXor (e : EngId) (v : VecF)
  | vecShl (e : EngId) (v : VecF)
  | vecSar (e : EngId) (v : VecF)
  | srhe (e : EngId) (v : VecF)
  | cvt (e : EngId) (v : VecF)
  | emask (e : EngId) (v : VecF)
  | rsum (e : EngId) (v : VecF)
  | rmax (e : EngId) (v : VecF)
  | rmin (e : EngId) (v : VecF)
  | csum (e : EngId) (v : VecF)
  | cmax (e : EngId) (v : VecF)
  | cmin (e : EngId) (v : VecF)
  | sfn (e : EngId) (v : VecF)
  | sfnmul (e : EngId) (v : VecF)
  | expsub (e : EngId) (v : VecF)
  | vecVend (e : EngId) (v : VecF)
  | adc (e : EngId) (v : VecF)
  | sbb (e : EngId) (v : VecF)
  | mulw (e : EngId) (v : VecF)
  -- special-function tables (06)
  | sftLoad
  | sftLoadDone
  | sftCancel
  | sftCommit
  -- stream programs (07)
  | seta (e : EngId) (ag : AgNo) (post : Bool) (f : StreamF)
  | adda (e : EngId) (ag : AgNo) (post : Bool) (f : StreamF)
  | loop (e : EngId) (ag : AgNo) (post : Bool) (f : StreamF)
  | endl (e : EngId) (ag : AgNo) (post : Bool) (f : StreamF)
  | streamLoad (e : EngId) (ag : AgNo) (f : StreamF)
  | store (e : EngId) (ag : AgNo) (f : StreamF)
  | recv (e : EngId) (ag : AgNo) (f : StreamF)
  | send (e : EngId) (ag : AgNo) (f : StreamF)
  | streamSync (e : EngId) (ag : AgNo) (f : StreamF)
  | fin (e : EngId) (ag : AgNo) (post : Bool) (f : StreamF)
  -- Curb and tiers (07, 08)
  | curbAdmit (p : PortId) (k : Fin 8)
  | curbArbitrate (p : PortId)
  | tierReadReturn (r : Reader) (addr : BitVec 48) (how : ReadEnd) (overwritten : Bool)
  | runCommit (e : EngId) (ag : AgNo)
  | readDeadline (e : EngId) (ag : AgNo) (addr : BitVec 48) (elapsed : Nat)
  | agResume (e : EngId) (ag : AgNo)
  | runResume (e : EngId) (ag : AgNo)
  | pageIn (addr : BitVec 48)
  | pageInComplete (addr : BitVec 48) (failed : Option (BitVec 48))
  | pageEvict (addr : BitVec 48)
  | evictWriteBack (addr : BitVec 48)
  | portRetrain (p : PortId) (attempts : Nat) (regained : Bool)
  | portRestore (p : Nat)
  | portRestoreDone (p : PortId) (trained : Bool)
  -- scratchpad and Farrier (09)
  | aliasWrite (w : AtomicWriter) (x : UnitErr)
  | farrierRegionTest (u : FarrierUnit) (corrected : List (Fin 256)) (o : RegionOutcome)
  | patrolScrub (p : PortId) (errs : List UnitErr)
  -- synchronisation (09)
  | counterSet (r : SyncReq) (data : Word)
  | counterFetchIncrement (r : SyncReq)
  | counterAdd (r : SyncReq) (data : Word)
  | counterWait (r : SyncReq) (bound : Word)
  | barrierArriveWait (r : SyncReq)
  | barrierArrive (r : SyncReq)
  | workctrClaim (r : SyncReq) (seq : BitVec 16)
  | syncWaitTimeout (o : Fin 8192)
  | syncResponse (c : CoreId) (t : ThreadId) (result : Word)
  | syncReissue (c : CoreId) (t : ThreadId) (reason elapsed : Nat)
  -- Hitch (10)
  | launchOpen (h : HitchId) (i : Fin 64)
  | hitchDispatchArrive (h : HitchId) (m : HitchHdr) (tag : BitVec 16) (slots : List (Nat × Nat)) (row : List Byte)
  | hitchEndMarker (h : HitchId) (m : HitchHdr)
  | expertReturnSend (h : HitchId) (i : Fin 64) (expert : Nat)
  | hitchReturnArrive (h : HitchId) (m : HitchHdr) (expert : Nat) (tag : BitVec 16) (row : List Byte)
  | hitchCreditReturn (h : HitchId) (chip : BitVec 16) (peer : HitchId) (credits : Nat)
  | launchTimeout (h : HitchId) (i : Fin 64)
  -- serving (11)
  | sessOpen (r : ServeReq)
  | sessAppend (r : ServeReq)
  | sessVerify (r : ServeReq)
  | sessCancel (r : ServeReq)
  | sessClose (r : ServeReq)
  | closeComplete (n : Fin 16384)
  | prefillWaveStart
  | decodeWaveStart
  | stepCommit (n : Fin 16384)
  | prefillCommit (n : Fin 16384)
  | requestFaultEnd
  | slotRelease (addr : BitVec 48)
  | completionPost (r : RingId)
  -- weights and switch-in (12)
  | weightLoad (w : WeightCmd) (readOk : Bool) (data : List Byte)
  | weightRelay (w : WeightCmd) (readOk : Bool) (hops : List (BitVec 256))
  | weightDrop (w : WeightCmd)
  | weightStage (w : WeightCmd) (readOk : Bool) (t : Tack) (image : List Byte)
  | weightBind (w : WeightCmd)
  | weightList (w : WeightCmd)
  | objectStateUpdate
  | relayChunkReceive (slot : Fin 2) (intro : Option RelayIntro) (chunk : Nat) (crc : Option (BitVec 32)) (data : List Byte)
  | relayAck (slot : Fin 2) (chip : BitVec 16) (chunk : Nat)
  | relayHopUnreachable (slot : Fin 2) (hop : Nat)
  | relayResumeQuery (slot : Fin 2) (chip : BitVec 16)
  | relayComplete (slot : Fin 2) (results : List (Nat × Nat))
  | tackInstall (g : GroupView)
  | installPhaseAdvance
  | installComplete
  | switchOverrun (bytes : Nat)
  -- jobs and changeover (13)
  | jobSubmit (j : JobCmd)
  | jobEnd (j : JobCmd)
  | jobTenant (j : JobCmd)
  | tenantReq (value : BitVec 16)
  | termExpiry
  | jobSelection
  | changeoverOpen (keyOk : Bool)
  | changeoverZero (writeOk : Bool)
  | changeoverClose
  -- links (14)
  | linkTrain (l : LinkId) (t : LinkTrain)
  | linkRetrain (l : LinkId)
  | linkRecal (l : LinkId)
  | laneRecal (l : LinkId) (lane : Fin 8)
  | laneRestore (l : LinkId) (ok : Bool)
  | flitReceive (l : LinkId) (raw : BitVec 2304) (fixed : Option (BitVec 2112))
  | replayTimeout (l : LinkId) (elapsed : Nat)
  | packetReceive (l : LinkId) (vc : Fin 10)
  | linkGoesDown (l : LinkId) (why : DownCause)
  | unreachReceive (header : BitVec 128) (reason : Nat)
  | linkDown
  | linkUp (l : LinkId) (t : LinkTrain)
  -- host (15)
  | bar2Read (off size : Nat) (errs : List (BitVec 48 × UnitErr)) (viaIde : Bool)
  | bar2Write (off : Nat) (bytes : List Byte) (errs : List (BitVec 48 × UnitErr)) (viaIde urOn : Bool)
  | perstNAssert
  | ringSnapshot (views : List (RingId × RingView))
  | ringEnable (r : RingId) (en viaIde : Bool)
  | pcieLinkDown
  | pcieLinkUp (width rate : BitVec 4)
  | ideIntegrityFailure
  | supplyLost (rail : Nat)
  | thermalThrottle (sensor : Fin 32) (tempDC : Int)
  | thermalTrip (sensor : Fin 32) (tempDC : Int)
  | mgmtClockLost (mc : Nat)
  -- management (16)
  | outputImageAccept (o : OutImage)
  | alStateRequest (a : AlState) (sm2 sm3 : Nat)
  | sdoRead (index sub : Nat)
  | sdoWrite (index sub : Nat) (value : Nat)
  | masterLost (elapsedMs : Nat) (accepted : Bool)
  | wardWrite (w : Ward) (value : Nat)
  | wardBitBurn (ok : Bool)
  | wardAuth (bytes : BitVec 1024)
  -- Tally (16)
  | tallyHandover
  | tallyRelease
  | tallyNextPop
  | tallyReaderWrite (value : Nat)
  -- SPDM (17)
  | getVersion
  | getCapabilities
  | negotiateAlgorithms (supported : Bool)
  | getDigests
  | getCertificate (slot : Nat)
  | challenge (slot : Nat)
  | getMeasurements (index : Nat) (signed : Bool)
  | keyExchange (slot : Nat)
  | finish (session : Fin 2) (macOk : Bool)
  | heartbeat (session : Fin 2)
  | keyUpdate (session : Fin 2)
  | endSession (session : Fin 2)
  | vendorDefinedRequest (session : Fin 2) (stream : Nat) (go : Bool)
  | entropyFailed (test : Nat)
  -- debug (17)
  | dbgOpen (path : DbgPath) (level : BitVec 2)
  | dbgClose (path : DbgPath)
  | dbgHalt
  | dbgStep
  | dbgResume
  | dbgDataRead
  | dbgDataWrite (value : Word)
  | tapReset (trstN : Bool)
  | dumpDataRead
  -- reset, dump and live service (18)
  | coldReset
  | warmReset
  | startUp (i : StartIn)
  | chipFault (f : ChipFaultIn)
  | dumpFCopy
  | reducedDump
  | droopTrip (c : CoreId)
  | coreStateLost
  | ostlerLeaveService (o : OstlerId)
  | ostlerReadmit (o : OstlerId)
  | imgData (bytes : List Byte) (programmed : Bool)
  | imgBegin
  | imgVerify (signed : Bool) (lpRate : LpRate) (nandRate : NandRate)
  | activate
  | imgAbort
  | rollingUpdateStep
  | tumblerRestart
  | tumblerRestartTimeout
  | thermalThrottleEnd (temps : List Int)
  | tumblerRestartEnd (nonce : Word)
  | perstNRelease
  | ethercatPortLinkChange (portB up : Bool)
  | distributedClockFailure
  | slotStagedReport (chip : BitVec 16) (tackId : Nat)
  deriving DecidableEq, Repr

end Sys2Proof
end

