-- ==== Sys2Proof/Machine/Flags.lean ====
section
/-!
DEFINITION. Arithmetic that many commands share: two's-complement reading (R9), saturation (R105, R114), the rounding
right shift (R115), serial-number comparison (R23), CRC-32C (PRESUMED: the Castagnoli polynomial, log 16).
-/
namespace Sys2Proof.Machine

/-- The signed value of the low `w` bits of `n` (R9). -/
def toSigned (w n : Nat) : Int :=
  let m := n % 2 ^ w
  if 2 * m < 2 ^ w then (m : Int) else (m : Int) - 2 ^ w

/-- The `w` low bits that hold `x` (R9). -/
def ofSigned (w : Nat) (x : Int) : Nat := (x % (2 ^ w : Int)).toNat

/-- `x` clamped to the range of a signed `w`-bit field (R105). -/
def satInt (w : Nat) (x : Int) : Int :=
  if x < -(2 ^ (w - 1) : Int) then -(2 ^ (w - 1) : Int)
  else if (2 ^ (w - 1) : Int) - 1 < x then (2 ^ (w - 1) : Int) - 1
  else x

/-- `satInt` changes `x`. -/
def clamps (w : Nat) (x : Int) : Bool := satInt w x ≠ x

/-- `x` shifted right by `d`, rounding half to even; `x` itself at `d = 0` (R115, R123). -/
def rhe (x : Int) (d : Nat) : Int :=
  if d = 0 then x else
  let q := x / (2 ^ d : Int)
  let r := x - q * 2 ^ d
  let h : Int := 2 ^ (d - 1)
  if h < r then q + 1 else if r = h && q % 2 = 1 then q + 1 else q

/-- The aligned term of R114 with whether its saturation clamps. -/
def alignTerm (m : Int) (d : Int) : Int × Bool :=
  if 0 < d then (rhe m d.toNat, false)
  else
    let x := m * 2 ^ (-d).toNat
    (satInt 48 x, clamps 48 x)

/-- R23: `a` precedes `b` among `n`-bit SEQ values; `none` at the distance whose order R23 leaves undefined. -/
def seqPrecedes (n a b : Nat) : Option Bool :=
  let d := (b + 2 ^ n - a % 2 ^ n) % 2 ^ n
  if d = 2 ^ (n - 1) then none else some (1 ≤ d && d < 2 ^ (n - 1))

/-- One bit of the CRC-32C shift register, reflected. -/
def crcBit (c : BitVec 32) : BitVec 32 := if c.getLsbD 0 then (c >>> 1) ^^^ 0x82F63B78#32 else c >>> 1

/-- Bytes padded with 0 to `n`. -/
def padTo (n : Nat) (bs : List Byte) : List Byte := (bs ++ List.replicate (n - bs.length) 0#8).take n

/-- One byte into the CRC-32C register. -/
def crcByte (c : BitVec 32) (b : Byte) : BitVec 32 :=
  crcBit (crcBit (crcBit (crcBit (crcBit (crcBit (crcBit (crcBit (c ^^^ b.zeroExtend 32))))))))

/-- CRC-32C of bytes. -/
def crc32c (bs : List Byte) : BitVec 32 := ~~~(bs.foldl crcByte 0xFFFFFFFF#32)

end Sys2Proof.Machine
end

