-- ==== Sys2Proof/Config.lean ====
section
/-!
DEFINITION. What the spec leaves open: the free values of the model. None has a body, so no proof sees a value (log 7).
The functions of R568 to R574 that the spec takes from named standards are uninterpreted in the same way (log 10).
-/
namespace Sys2Proof

/-- The `n`-th free value as a number: entropy, nonces, an order the spec calls undefined (log 7). -/
opaque Config.freeNat (n : Nat) : Nat

/-- The `n`-th free 64-bit value (log 7). -/
opaque Config.freeWord (n : Nat) : Word

/-- XTS-AES-256 under the `gen`-th tenant key on one 64-byte data unit with its tweak (R308): some permutation (log 9). -/
opaque Config.xts (gen tweak : Nat) : Equiv.Perm (BitVec 512)

/-- The 70 check bytes of a tier F codeword: BCH over GF(2^14), whose field polynomial the spec does not give (R299, log 81). -/
opaque Config.bch (codeword : Nat) : BitVec 560

/-- The 12 parity bytes of a flit's RS(144,132) codeword from its 132 bytes: the spec gives neither the field polynomial nor the generator
(R476, log 92). -/
opaque Config.rsParity (codeword : List Byte) : BitVec 96

/-- Byte `off` of a dump section whose contents the model does not hold (R612, log 14). -/
opaque Config.dumpByte (index sect off : Nat) : Byte

/-- SHA-256 or SHA-384 of data named by numbers (R568, log 10). -/
opaque Config.digest (kind : Nat) (data : List Nat) : Nat

/-- An ECDSA P-256 signature over a message verifies under a public key (R567, R581, log 10). -/
opaque Config.verify (key : BitVec 512) (message : List Byte) (signature : BitVec 512) : Bool

/-- A signature or MAC over data named by numbers (R577, log 10). -/
opaque Config.sign (key : Nat) (data : List Nat) : Nat

/-- The certificate bytes of slot 0, named by the running image's version (R578, log 10). -/
opaque Config.certificate (version : Nat) : Nat

/-- Wyterdo's vendor ID, a number the spec does not give (R505, R537, log 7). -/
opaque Config.vendorId : Nat

/-- Byte `off` of Tally bank `bank` where the part has written nothing since SEQ stood at `seq` (R558, log 17). -/
opaque Config.tallyByte (seq bank off : Nat) : Byte

end Sys2Proof
end

