-- ==== Sys2Proof/Machine/Sparse.lean ====
section
/-!
DEFINITION. Sparse stores in one canonical form: a list of (key, value) pairs whose keys rise strictly and which
lists no entry equal to the value `d` that an unlisted key has. Memory and every array of like units use them.
-/
namespace Sys2Proof.Machine

/-- A sparse store of values of type `α` keyed by number. -/
abbrev Sparse (α : Type) := List (Nat × α)

/-- The value at `k`; `d` where `k` is not listed. -/
def sget {α : Type} (d : α) : Sparse α → Nat → α
  | [], _ => d
  | (j, x) :: m, k => if k = j then x else if k < j then d else sget d m k

/-- The store without key `k`. -/
def sdel {α : Type} : Sparse α → Nat → Sparse α
  | [], _ => []
  | (j, x) :: m, k => if k = j then m else if k < j then (j, x) :: m else (j, x) :: sdel m k

/-- The store with `v` listed at `k`. -/
def sins {α : Type} : Sparse α → Nat → α → Sparse α
  | [], k, v => [(k, v)]
  | (j, x) :: m, k, v =>
    if k = j then (j, v) :: m else if k < j then (k, v) :: (j, x) :: m else (j, x) :: sins m k v

/-- The store with `v` at `k`; writing the value an unlisted key has removes the entry. -/
def sset {α : Type} [DecidableEq α] (d : α) (m : Sparse α) (k : Nat) (v : α) : Sparse α :=
  if v = d then sdel m k else sins m k v

/-- The store with the value at `k` replaced by its image under `f`. -/
def smod {α : Type} [DecidableEq α] (d : α) (m : Sparse α) (k : Nat) (f : α → α) : Sparse α :=
  sset d m k (f (sget d m k))

/-- Keys rise strictly and all exceed `lo` (`none`: no bound yet), and no entry is `d`. -/
def scanon {α : Type} [DecidableEq α] (d : α) : Option Nat → Sparse α → Bool
  | _, [] => true
  | lo, (j, x) :: m =>
    (match lo with | none => true | some l => decide (l < j)) && decide (x ≠ d) && scanon d (some j) m

/-- The store without the keys from `lo` up to, not including, `hi`. -/
def sclear {α : Type} (m : Sparse α) (lo hi : Nat) : Sparse α :=
  m.filter (fun p => p.1 < lo || hi ≤ p.1)

/-- Every listed value replaced by its image, entries that become `d` removed. -/
def smap {α : Type} [DecidableEq α] (d : α) (f : Nat → α → α) (m : Sparse α) : Sparse α :=
  (m.map (fun p => (p.1, f p.1 p.2))).filter (fun p => decide (p.2 ≠ d))

end Sys2Proof.Machine
end

