-- ==== Sys2Proof/Machine/Types.lean ====
section
/-!
DEFINITION. The parts that `State` is made of, one group per chapter of the spec. Every default is the part's value at
reset; a value no rule states names its log entry.
-/
namespace Sys2Proof.Machine

/-- A STAT counter with its sticky overflow flag (R22). -/
structure Stat where
  n   : Nat := 0
  ovf : Bool := false
  deriving DecidableEq, Repr

/-- A Tally record (R556): TYPE 1 FAULT, 2 EVENT, 3 GAP; `detail` its bytes, at most 16. -/
structure TallyRec where
  type   : Nat
  level  : Nat := 0
  cont   : Bool := false
  code   : Nat
  seq    : BitVec 32
  stride : Nat
  detail : List Byte := []
  deriving DecidableEq, Repr

/-! ## Fuses, board, pins, resets (01, 15, 18) -/

/-- Fuse contents (R37, R38, R78, R328 to R330, R552, R589); reference values, log 3. -/
structure Fuses where
  serial       : Nat := 0
  major        : Nat := 1
  minor        : Nat := 0
  protCount    : Nat := 0
  tumblerFloor : Nat := 0
  etxiaFloor   : Nat := 0
  ownerHash    : Nat := 0
  pTailW       : Nat := 250
  unbound      : List (Nat × Nat) :=
    [(0, 108), (0, 109), (0, 110), (0, 111), (0, 148), (0, 149),
     (1, 108), (1, 109), (1, 110), (1, 111), (1, 148), (1, 149)]
  retired      : List (Nat × Nat) := []
  rowMaps      : List (Nat × Nat × Nat × Nat) := []
  ostlerRows   : List (Nat × Nat × Nat) := []
  ostlersRetired : List Nat := []
  deriving DecidableEq, Repr

/-- Capacity of an LPDDR5X port (R273). -/
inductive LpSize where
  | gib16 | gib32 | gib64 | gib128
  deriving DecidableEq, Repr

/-- Capacity of a NAND channel (R273). -/
inductive NandSize where
  | gib512 | tib1 | tib2 | tib4
  deriving DecidableEq, Repr

/-- Board facts of the reference configuration (R32, R273), log 3: capacities, and the pages of a NAND block as a power of two of at
least 256 (R276). -/
structure Board where
  lp        : LpSize := .gib128
  nand      : NandSize := .tib2
  blockLog2 : Nat := 8
  deriving DecidableEq, Repr

/-- GiB of an LPDDR5X port. -/
def Board.lpGib (b : Board) : Nat := match b.lp with | .gib16 => 16 | .gib32 => 32 | .gib64 => 64 | .gib128 => 128

/-- GiB of a NAND channel. -/
def Board.nandGib (b : Board) : Nat := match b.nand with | .gib512 => 512 | .tib1 => 1024 | .tib2 => 2048 | .tib4 => 4096

/-- The binding of a logical core (R38, R58 CORE_IDENT). Unbacked until start-up binds it. -/
structure Binding where
  phys     : Nat := 0xFF
  unbacked : Bool := true
  remapped : Bool := false
  deriving DecidableEq, Repr

/-- Warning, reset and stride pins and TRST_N, which a pull-down keeps low while nothing drives it, as the part sees or drives them (R524,
R531, R534), log 3. -/
structure Pins where
  porstN    : Bool := true
  wrstN     : Bool := true
  perstN    : Bool := true
  throttleN : Bool := true
  powerFailN : Bool := true
  thermtripN : Bool := true
  strideOut : Nat := 0
  trstN     : Bool := false
  deriving DecidableEq, Repr

/-- Temperature (R532): the readings of the 32 die sensors in 0.1 °C, thermal throttle, clocks stopped by THERMAL_TRIP. -/
structure Thermal where
  sensors  : Sparse Int := []
  throttle : Bool := false
  tripped  : Bool := false
  deriving DecidableEq, Repr

/-- A dump (R611, R612): the header fields that vary and the sections with their STATUS,
the bytes of the small ones, and the parts of large ones that the model holds, by TYPE and offset: every PORT_STATUS (R314), the session
table, the directory. `hinge`: the Hinge retry count at the fault (R169, log 14). -/
structure Dump where
  kind     : Nat
  valid    : Bool
  copied   : Bool := false
  code     : Nat
  writer   : Nat
  tio      : Bool
  stride   : Nat
  jobStride : Nat
  tackId   : Nat
  serial   : Nat
  chip     : Nat
  tenant   : Nat
  health   : Nat
  journal  : Nat
  debugCount : Nat
  keyGen   : Nat
  powerState : Nat
  rackState  : Nat
  cause    : Nat
  faults   : Nat
  index    : Nat
  sections : List (Nat × Nat)
  body     : List (Nat × List Byte) := []
  parts    : List (Nat × Nat × List Byte) := []
  deriving DecidableEq, Repr

/-- A power-fail journal entry (R606). -/
structure JournalEntry where
  num      : Nat
  stride   : Nat
  dcTime   : Nat
  tackId   : Nat
  tenant   : Nat
  jobState : Nat
  powerState : Nat
  health   : Nat
  pMeasW   : Nat
  tempDC   : Int
  rackState : Nat
  budgetW  : Nat
  journal  : Nat
  lenFc    : Nat
  nextSeq  : Nat
  faults   : List TallyRec
  deriving DecidableEq, Repr

/-- An image slot of the boot NOR (R594, R596): the bytes from the header on, none while those of manufacture stand (log 3). `valid`: an
image that VERIFY accepted. A configuration image selects the memory rates (R274), in settings whose layout the spec does not give. -/
structure ImgSlot where
  valid   : Bool := true
  bytes   : List Byte := []
  lpRate  : LpRate := .mt10667
  nandRate : NandRate := .mt3600
  deriving DecidableEq, Repr

/-- A copy of the image directory (R595): its sequence number and the active slots, 0 A and 1 B. -/
structure DirCopy where
  seq     : BitVec 32 := 0
  tumbler : Nat := 0
  config  : Nat := 0
  deriving DecidableEq, Repr

/-- Start-up, images and live update (R595 to R601, R620 to R623). `ranTumbler` and `ranConfig` are the images that run, as they were read,
whatever their slots hold later (R598, R621); `etxia` the configuration image whose Etxia part is held in Etxia H (R617). -/
structure Boot where
  stage      : Nat := 0
  cause      : Nat := 1
  code       : Nat := 0
  stopped    : Bool := false
  dir0       : DirCopy := {}
  dir1       : DirCopy := {}
  dirCur     : Nat := 0
  tumA       : ImgSlot := {}
  tumB       : ImgSlot := {}
  cfgA       : ImgSlot := {}
  cfgB       : ImgSlot := {}
  runTumbler : Nat := 0
  runConfig  : Nat := 0
  fellTumbler : Bool := false
  fellConfig  : Bool := false
  runProto   : Nat := 0
  ranTumbler : ImgSlot := {}
  ranConfig  : ImgSlot := {}
  etxia      : ImgSlot := {}
  target     : Nat := 0
  imgState   : Nat := 0
  imgErr     : Nat := 0
  segments   : Nat := 0
  rolling    : Option (Nat × Nat) := none
  restart    : Bool := false
  restartDue : Bool := false
  deriving DecidableEq, Repr

/-- Dumps and the power-fail journal, which survive resets (R604, R607, R609, R610), log 3; `left` the 64-byte units by port that the
dump or the copy that is being written has yet to move (R266), `onF` that it goes to Dump F alone, `copying` that it is the copy. -/
structure Dumps where
  dumpL    : Option Dump := none
  dumpF    : Sparse (Option Dump) := []
  nor      : Sparse (Option Dump) := []
  index    : BitVec 32 := 0
  rindex   : BitVec 32 := 0
  lastCode : Nat := 0
  writing  : Bool := false
  tumblerOwns : Bool := false
  journal  : List JournalEntry := []
  pfCount  : BitVec 32 := 0
  offset   : Nat := 0
  source   : Nat := 0
  left     : Sparse Nat := []
  onF      : Bool := false
  copying  : Bool := false
  deriving DecidableEq, Repr

/-- An Ostler core (R614, R615) and the tests of its SRAM (R323 to R330): `regions` counts those passed in a row while it is offline
(R617), `tested` is STRIDE_COUNT at the last; `image` is the digest of the Etxia image it runs (R575). -/
structure Ostler where
  online  : Bool := false
  svc     : BitVec 8 := 0
  loaded  : BitVec 8 := 0
  version : Nat := 0
  image   : Nat := 0
  region  : Nat := 0
  passes  : BitVec 32 := 0
  retire  : Bool := false
  spares  : List (Nat × Nat) := []
  regions : Nat := 0
  tested  : Nat := 0
  downFor : Nat := 0
  deriving DecidableEq, Repr

/-! ## Memory under keys (08) -/

/-- Generation of the tenant keys in use, 0 before any, and the generation under which each 64-byte sector of tiers L and F was last
written (R308 to R310). -/
structure Keying where
  gen     : Nat := 0
  sectors : Sparse Nat := []
  deriving DecidableEq, Repr

/-! ## Stride (02) -/

/-- What a change of budget, THROTTLE_N or POWER_FAIL_N sets (R80, R81): the budget in W, and whether each pin counts as low. -/
structure Settings where
  budget    : Nat := 1150
  throttle  : Bool := false
  powerFail : Bool := false
  deriving DecidableEq, Repr

/-- Stride timing (R95) and what alignment, markers and lengths need (R67, R72, R75, R81, R82); `act` the highest boundary
action of R68 taken in the open window, `lastLen` the length of the stride before, `sendCode` and `sendTack` what the root's next marker
carries; `inForce` the settings that govern L, `settings` those of each change since the last boundary, oldest first (R81). -/
structure Stride where
  len        : Nat := 16384
  base       : Nat := 16384
  lastLen    : Nat := 16384
  count      : Nat := 0
  source     : Nat := 0
  sourceNow  : Nat := 0
  aligned    : Bool := false
  fallback   : Bool := false
  root       : Bool := false
  fixed      : Bool := false
  budgetUnmet : Bool := false
  domainRoot : Nat := 0
  markerLead : Nat := 1536
  leadNow    : Nat := 1536
  slips      : Stat := {}
  mismatches : Stat := {}
  policy     : Nat := 0
  policyNow  : Nat := 0
  fixedPermit : Nat := 0
  floorW     : Nat := 400
  throttleFactor : Nat := 4
  factorNow  : Nat := 4
  phaseErr   : Int := 0
  lenReq     : Nat := 16384
  pMeasW     : Nat := 0
  pTailW     : Nat := 250
  window     : Bool := false
  act        : Nat := 0
  missing    : Nat := 0
  freeRun    : Bool := false
  edgeSeen   : Bool := false
  requests   : Sparse Nat := []
  markerLen  : Option Nat := none
  markerCode : Nat := 0
  markerTack : Nat := 0
  sendCode   : Nat := 0
  sendTack   : Nat := 0
  markerAdvance : Bool := false
  placeAt    : Option Int := none
  overFixed  : Bool := false
  inForce    : Settings := {}
  settings   : List Settings := []
  deriving DecidableEq, Repr

/-! ## Jobs (12, 13) -/

/-- A measured Ledger figure of a step instance (R90). -/
structure Meas where
  step  : Nat
  kind  : FigKind
  unit  : Nat
  value : Nat
  deriving DecidableEq, Repr

/-- Per-client counters (R454). -/
structure Client where
  started   : Stat := {}
  completed : Stat := {}
  failed    : Stat := {}
  deriving DecidableEq, Repr

/-- CHG_JOURNAL (R463). -/
structure ChgJournal where
  newTenant : BitVec 16 := 0
  oldTenant : BitVec 16 := 0
  attempts  : Nat := 0
  phase     : Nat := 1
  deriving DecidableEq, Repr

/-- An install in progress (R437): phase 0 CONTROL, 1 IMAGE, 2 LOWER, 3 ARM, strides done, S, the tack and its SUBMIT. -/
structure Install where
  phase   : Nat
  strides : Nat
  total   : Nat
  slot    : Fin 2
  tack    : Tack
  job     : JobCmd
  deriving DecidableEq, Repr

/-- The running job (R444 to R447, R465): `code` the first fault recorded, `stop` the fault that causes the hard stop (R165), `fell` this
chip's links of the link set that fell while it installed (R501). -/
structure Running where
  cmd      : JobCmd
  tack     : Tack
  termLeft : Nat
  stride   : Nat := 0
  avail    : Nat := 0
  stridesRun : Nat := 0
  charged  : Nat := 0
  reason   : Option Nat := none
  code     : Nat := 0
  draining : Bool := false
  drainAge : Nat := 0
  drainStart : Nat := 0
  hardStop : Bool := false
  stop     : Nat := 0
  progressed : Bool := false
  quiet    : Nat := 0
  openSteps : List Nat := []
  unchecked : List Nat := []
  meas     : List Meas := []
  started  : Bool := false
  uncheckedCount : Nat := 0
  endBy    : Bool := false
  linkSet  : List (Nat × Nat) := []
  linkLost : Bool := false
  askedAt  : Option Nat := none
  coresLost : List Nat := []
  group    : List Nat := []
  fell     : List Nat := []
  deriving DecidableEq, Repr

/-- Job state (R465) and the changeover (R456 to R464); `retEpoch` the RET_EPOCH of every core (R159). -/
structure Job where
  status    : Nat := 0
  run       : Option Running := none
  install   : Option Install := none
  pending   : List JobCmd := []
  chosen    : Option JobCmd := none
  weights   : Sparse Nat := []
  used      : Sparse Nat := []
  busy      : List Nat := []
  tenant    : BitVec 16 := 0
  tenantReq : Option (BitVec 16) := none
  chg       : ChgJournal := {}
  chgOpen   : Bool := false
  chgStrides : Nat := 0
  changeovers : BitVec 32 := 0
  clientSelect : Nat := 0
  clients   : Sparse Client := []
  epoch     : BitVec 3 := 0
  retEpoch  : BitVec 3 := 0
  hardAge   : Option Nat := none
  groupReady : List (Nat × Nat) := []
  members   : List (Nat × Nat) := []
  deriving DecidableEq, Repr

/-! ## Cores (05) -/

/-- What a thread waits on (R173, R176, R258, R343, R345, R498): `tiles` its own tile instructions, `claim` the claim of its core
that is under way, `bank` the bank that its alias write has yet to reach (R321). `obj` of `remote` is chip × 2^16 + object × 4 + word. -/
inductive Wait where
  | none
  | tiles
  | claim
  | bank (addr : Nat) (v : Word)
  | mem (dst : RegNo) (addr : Nat)
  | page (base : Nat)
  | sync (dst : RegNo) (obj : Nat)
  | remote (dst : RegNo) (obj : Nat) (seq : BitVec 16) (eligible : Bool) (reissues : Nat)
  deriving DecidableEq, Repr

/-- A groom thread (R171 to R175, R196): `full` the engine index it found holding 4 instructions, `step` the step instance it is
in, `upto` the first it has yet to begin. -/
structure Thread where
  pc     : Nat := 0
  en     : Bool := false
  done   : Bool := false
  full   : Option (Fin 8) := none
  step   : Nat := 0
  upto   : Nat := 0
  wait   : Wait := .none
  deriving DecidableEq, Repr

/-- Scratchpad error counters (R145 SPAD_ERR, SPAD_ERR_LAST). -/
structure SpadErr where
  corr   : Stat := {}
  uncorr : Stat := {}
  kind   : Nat := 0
  addr   : Nat := 0
  deriving DecidableEq, Repr

/-- TILE_FAULT and TILE_FAULT_PC (R196). -/
structure TileFault where
  code   : Nat := 0
  thread : Nat := 0
  engine : Nat := 0
  need   : Nat := 0
  have_  : Nat := 0
  pc     : Nat := 0
  deriving DecidableEq, Repr

/-- FAR_CORE_STAT and FAR_CORE_FAIL (R333), the rows a test mapped to spares (R328), and STRIDE_COUNT at the last test (R324). -/
structure FarCore where
  retire  : Bool := false
  hold    : Bool := false
  region  : Nat := 0
  passes  : BitVec 32 := 0
  bank    : Nat := 0
  addr    : Nat := 0
  spares  : List (Nat × Nat) := []
  tested  : Nat := 0
  deriving DecidableEq, Repr

/-- A core: its groom, scratchpad bookkeeping, credits owed, service epoch (R171, R145, R196, R242, R333, R614). -/
structure Core where
  sreg     : Sparse Word := []
  threads  : Sparse Thread := []
  tileDone : BitVec 32 := 0
  halted   : Bool := false
  fault    : TileFault := {}
  retCount : Nat := 0
  spad     : SpadErr := {}
  snaps    : Sparse (Option (Sparse Word)) := []
  seen     : Sparse (Option (Sparse Word)) := []
  svc      : BitVec 8 := 0
  loaded   : BitVec 8 := 0
  claim    : Bool := false
  far      : FarCore := {}
  dbgHalt  : Bool := false
  lastThread : Nat := 7
  deriving DecidableEq, Repr

/-! ## Engines and reins (03, 04, 05, 06, 07) -/

/-- An accumulator tile register (R117, R118, R192): element (r, c) at key 32 r + c. -/
structure Tile where
  t    : Nat := 0
  sat  : BitVec 16 := 0
  lame : BitVec 16 := 0
  el   : Sparse Int := []
  deriving DecidableEq, Repr

/-- What an accepted tile instruction does. -/
inductive TileKind where
  | tmac | tout | resload
  deriving DecidableEq, Repr

/-- An accepted tile instruction with every value it took at acceptance (R179, R190). -/
structure HeldTile where
  kind     : TileKind
  thread   : ThreadId
  step     : Nat
  pc       : Nat
  f        : TileF := {}
  m        : Nat := 0
  n        : Nat := 0
  k        : Nat := 0
  aBase    : Nat := 0
  aPitch   : Nat := 0
  saBase   : Nat := 0
  swBase   : Nat := 0
  outBase  : Nat := 0
  outPitch : Nat := 0
  rqBase   : Nat := 0
  tagIn    : Nat := 0
  tagOut   : Nat := 0
  rmask    : List Bool := []
  descs    : List Nat := []
  cmask    : List Bool := []
  src      : Nat := 0
  len      : Nat := 0
  resOff   : Nat := 0
  gait     : Fin 8 := 0
  deriving DecidableEq, Repr

/-- Where one request of a run stands: at the Curb, admitted, returned with its bytes, or past its deadline. -/
inductive ReqStage where
  | waiting | admitted | served | returned | dead
  deriving DecidableEq, Repr

/-- One request of a LOAD, STORE or RESLOAD (R188, R254) with what R261 needs. -/
structure Req where
  addr  : Nat
  bytes : Nat
  dst   : Nat
  off   : Nat
  total : Nat
  cov   : Nat
  tags  : Nat
  nrow  : Nat
  stage : ReqStage
  data  : List Byte := []
  deriving DecidableEq, Repr

/-- A firing in progress (R134, R203). Of a RESLOAD: `asked` bytes requested, `reload` its requests that have not returned, `miss`
the absent page it stands at, `resume` as a run's (R259). -/
structure Firing where
  slot    : Fin 8
  f       : Nat
  step    : Nat
  tile    : Option HeldTile := none
  inVec   : Bool := false
  vecIdx  : Nat := 0
  latched : Sparse Word := []
  asked   : Nat := 0
  reload  : List Req := []
  miss    : Option Nat := none
  resume  : Nat := 0
  deriving DecidableEq, Repr

/-- A token a RECV took, with its destinations (R255). -/
structure Taken where
  queue   : Nat
  addr    : Nat
  tagAddr : Nat
  msg     : TokenMsg
  deriving DecidableEq, Repr

/-- One execution of a stream program for one firing (R237 to R256): `done` counts the bytes or tokens of the instruction in progress,
`toBank` the words of an alias write that have yet to reach their banks (R321), `losts` the codes and details of reads lost under COV 2
with `sentRows` the rows sent since (R261, R262), `post` tells that the program has a POST phase, `win` the lame rows of its mixing window
(R154), `miss` the absent page its phase stands at, `resume`: 1 RESUME written since, 2 a boundary window has begun since (R259). -/
structure Run where
  slot    : Fin 8
  f       : Nat
  step    : Nat
  pcIdx   : Nat := 0
  regs    : Sparse Word := []
  loops   : Sparse Nat := []
  backs   : Sparse Nat := []
  preDone : Bool := false
  reqs    : List Req := []
  taken   : List Taken := []
  committed : Bool := false
  fired   : Bool := false
  complete : Bool := false
  ended   : Bool := false
  sent    : List (Nat × Nat) := []
  lame    : List Nat := []
  losts   : List (Nat × List Byte) := []
  sentRows : List Nat := []
  win     : List Nat := []
  toBank  : List (Nat × Word) := []
  done    : Nat := 0
  post    : Bool := false
  miss    : Option Nat := none
  resume  : Nat := 0
  deriving DecidableEq, Repr

/-- An address generator (R237, R271). Runs oldest first; `begun` counts the runs begun in step `begunStep`. -/
structure Ag where
  runsDone : BitVec 32 := 0
  bytes    : Nat := 0
  missAddr : Nat := 0
  regs     : Sparse Word := []
  loops    : Sparse Nat := []
  runs     : List Run := []
  begun    : Nat := 0
  begunStep : Nat := 0
  deriving DecidableEq, Repr

/-- An engine (R33, R131 to R138, R145, R160, R175). Its configuration epoch is the chip's (R157), `Job.epoch`. -/
structure Engine where
  gaits    : Sparse Gait := []
  classes  : Sparse Nat := []
  active   : Fin 8 := 0
  wait     : Nat := 4
  stale    : Stat := {}
  early    : List (TokenMsg × Nat) := []
  step     : Nat := 0
  upto     : Nat := 0
  entries  : List SchedEntry := []
  left     : Nat := 0
  fired    : Sparse Nat := []
  held     : List HeldTile := []
  firing   : Option Firing := none
  tiles    : Sparse Tile := []
  res      : Sparse Byte := []
  windows  : Sparse (List Nat) := []
  ags      : Sparse Ag := []
  deriving DecidableEq, Repr

/-- An input queue (R145 REIN_IN registers): its tokens oldest first, those claimed by RECVs, credits freed and the step of the
firing that freed the last of them. -/
structure ReinIn where
  cfg      : ReinInCfg := {}
  recvSeq  : BitVec 32 := 0
  tokens   : List TokenMsg := []
  claimed  : Nat := 0
  exceeded : Bool := false
  bound    : Nat := 0
  occMax   : Nat := 0
  freed    : List (BitVec 3 × Nat) := []
  freedStep : Nat := 0
  deriving DecidableEq, Repr

/-- An output rein (R145 REIN_OUT registers); `owed`: tokens started firings have yet to send (R257). -/
structure ReinOut where
  cfg     : ReinOutCfg := {}
  sentSeq : BitVec 32 := 0
  avail   : Nat := 0
  owed    : Nat := 0
  deriving DecidableEq, Repr

/-! ## Special-function tables (06) -/

/-- The special-function block (R224 to R230). Banks and the staging area are sparse bytes, offset from 0. -/
structure Sft where
  stage    : Sparse Byte := []
  hdrCrc   : BitVec 32 := 0
  hdrId    : BitVec 32 := 0
  activeId : BitVec 32 := 0
  shadowId : BitVec 32 := 0
  active   : Sparse Byte := []
  shadow   : Sparse Byte := []
  errSlot  : Nat := 0
  errSeam  : Nat := 0
  err      : Nat := 0
  deferred : Bool := false
  pending  : Bool := false
  busy     : Bool := false
  commits  : BitVec 32 := 0
  deriving DecidableEq, Repr

/-! ## Curb and tiers (07, 08) -/

/-- A request held at a Curb: the requester's engine, address generator and address, its units of 64 bytes (R266), its place in
the order of admission (R267); `reload`: a RESLOAD's, not a run's. -/
structure CurbReq where
  engine : Nat
  ag     : Nat
  addr   : Nat
  units  : Nat
  order  : Nat
  reload : Bool := false
  deriving DecidableEq, Repr

/-- One class of one Curb (R266, R271 CURB_BUDGET, CURB_STAT) with its round-robin position (R267); `carried` the overshoot with
which the stride began. -/
structure Curb where
  budget    : Nat := 0xFFFFFFFF
  budgetNow : Nat := 0xFFFFFFFF
  spent     : Nat := 0
  carried   : Nat := 0
  exhausted : Stat := {}
  waiting   : List CurbReq := []
  admitted  : List CurbReq := []
  rrCore    : Nat := 0
  rrTurns   : Nat := 0
  deriving DecidableEq, Repr

/-- A tier port (R312 PORT_STATUS); `restoring` a PORT_RESTORE trains it, `zeroLeft` the units of its zero-fill
that have yet to be written (R266, R278). -/
structure Port where
  state    : Nat := 1
  cap      : Nat := 0xF
  rate     : Nat := 0xF
  retrains : Stat := {}
  restoring : Bool := false
  zeroLeft : Nat := 0
  deriving DecidableEq, Repr

/-- MEM_ERR and MEM_ERR_LAST (R312). -/
structure MemErr where
  corr   : Stat := {}
  uncorr : Stat := {}
  crc    : Stat := {}
  kind   : Nat := 0
  addr   : Nat := 0
  deriving DecidableEq, Repr

/-- A placement page (R292); ABSENT names its backing. -/
inductive Page where
  | unmapped
  | present (backing : Nat)
  | absent (backing : Nat)
  deriving DecidableEq, Repr

/-- An object placed for the running job: its entry, base and pages. -/
structure Placed where
  entry : ObjEntry
  base  : Nat
  deriving DecidableEq, Repr

/-- The memory tiers (R273 to R313). `leaving` the objects of an ended job that the next action 6 releases (R418), `remap` that it
writes the placement map. `order` counts admissions (R267), `orderB` its value at the last boundary; `mapc` the placement
pages that each die's map cache holds, the newest last (R292); `checks` the check sectors that each LPDDR5X port keeps (R284) and
`bufs` the logical pages that each NAND channel buffers (R286), the most recently used last; `pageReads` the channel's page reads
outstanding; `blocks` the physical block of each logical block where it differs, by `blockKey` (R281). -/
structure Tiers where
  ports    : Sparse Port := []
  errs     : Sparse MemErr := []
  curbs    : Sparse Curb := []
  order    : Nat := 0
  orderB   : Nat := 0
  mapc     : Sparse (List Nat) := []
  checks   : Sparse (List Nat) := []
  bufs     : Sparse (List Nat) := []
  pageReads : Sparse (List Nat) := []
  blocks   : Sparse Nat := []
  pages    : Sparse Page := []
  placed   : List Placed := []
  leaving  : List Placed := []
  remap    : Bool := false
  evicting : List Nat := []
  pagingIn : List Nat := []
  dlL      : Nat := 0x1000
  dlF      : Nat := 0x40000
  odDlL    : Nat := 4096
  odDlF    : Nat := 262144
  dlPendL  : Bool := false
  dlPendF  : Bool := false
  keyGen   : BitVec 8 := 0
  fEn      : Bool := false
  lEn      : Bool := false
  tio      : Bool := false
  pageIns32 : BitVec 32 := 0
  mapMiss  : Stat := {}
  pageIns  : Nat := 0
  corrTotal : Nat := 0
  uncorrTotal : Nat := 0
  quotaH   : Nat := 392192
  quotaL   : Nat := 1965056
  quotaF   : Nat := 32752
  quotaHNow : Nat := 392192
  quotaLNow : Nat := 1965056
  quotaFNow : Nat := 32752
  shareHitch : Nat := 16
  shareEtxia : Nat := 32
  shareHost  : Nat := 16
  shareFarrier : Nat := 1
  uncapped4 : Bool := false
  deriving DecidableEq, Repr

/-! ## Synchronisation and the Farrier (09) -/

/-- One journal slot of a WORKCTR (R344). -/
structure Claim where
  chip   : Nat
  core   : Nat
  valid  : Bool := false
  seq    : BitVec 16 := 0
  result : Word := 0
  deriving DecidableEq, Repr

/-- A wait on an object (R337, R343): boundaries it has spanned. -/
structure Waiter where
  chip   : Nat
  core   : CoreId
  thread : ThreadId
  bound  : Int
  spans  : Nat := 0
  info   : BitVec 48 := 0
  deriving DecidableEq, Repr

/-- A synchronisation object (R335 to R344); type 0 NONE, 1 COUNTER, 2 BARRIER, 3 WORKCTR. -/
structure SyncObj where
  type      : Nat := 0
  param     : Nat := 0
  waitLimit : Nat := 0
  ovf       : Bool := false
  value     : Int := 0
  count     : Nat := 0
  gen       : BitVec 32 := 0
  next      : Nat := 0
  limit     : Nat := 0
  claims    : List Claim := []
  waiters   : List Waiter := []
  deriving DecidableEq, Repr

/-- Synchronisation objects and the Farrier (R334, R348). -/
structure Sync where
  objs     : Sparse SyncObj := []
  replays  : Stat := {}
  stale    : Stat := {}
  reissues : Stat := {}
  farEn    : Nat := 0x07
  farEnNow : Nat := 0x07
  interval : Nat := 64
  passes   : Nat := 0
  scrubH   : BitVec 32 := 0
  scrubL   : BitVec 32 := 0
  scrubAt  : Sparse Nat := []
  scrubUncorr : Stat := {}
  farPaused : Bool := false
  remote   : Sparse Nat := []
  deriving DecidableEq, Repr

/-! ## Hitch (10) -/

/-- A contribution of a row: expert, slot, weight, and the tag of its return once accepted (R364, R368). -/
structure Contrib where
  expert : Nat
  slot   : Nat
  weight : Nat
  ret    : Option (BitVec 16) := none
  deriving DecidableEq, Repr

/-- A row of an open launch: its input tag, its contributions; lame or cancelled rows take no part (R362). -/
structure HRow where
  tag       : BitVec 16
  accepted  : List Contrib := []
  lame      : Bool := false
  cancelled : Bool := false
  written   : Bool := false
  deriving DecidableEq, Repr

/-- HLD_STATE (R378) and the rows of the open launch; `bad`: reads of a row that failed, 0 its route record, 1 its dispatch
row, 2 its gather area; `step` the Ledger step of the launch (R90), `late` it has timed out and what is missing is no longer awaited
(R373), `gone` the returns of cancelled rows that closed launches did not see, by batch, token and expert (R376), `miss` the absent page
that the Hitch waits for (R292). -/
structure HldState where
  launch : Nat := 0
  isOpen : Bool := false
  waited : Nat := 0
  rows   : List HRow := []
  bad    : List (Nat × Nat) := []
  step   : Nat := 0
  late   : Bool := false
  gone   : List (Nat × Nat × Nat) := []
  miss   : Option Nat := none
  deriving DecidableEq, Repr

/-- A filled slot of an expert's input area, with what its return names (R360, R368). -/
structure ExpSlot where
  batch  : Nat
  expert : Nat
  slot   : Nat
  chip   : Nat
  hitch  : Nat
  token  : Nat
  deriving DecidableEq, Repr

/-- Expert side of an HLD (R360): end markers in by batch and source, filled slots, launches whose markers are all in, and
the launches each expert has returned. -/
structure ExpSide where
  ends   : List (Nat × Nat) := []
  filled : List ExpSlot := []
  ready  : Nat := 0
  served : Sparse Nat := []
  deriving DecidableEq, Repr

/-- A message between Hitches (R366, R368). -/
inductive HitchMsg where
  | dispatch (m : HitchHdr) (tag : BitVec 16) (slots : List (Nat × Nat)) (row : List Byte)
  | fin (m : HitchHdr)
  | ret (m : HitchHdr) (expert : Nat) (tag : BitVec 16) (row : List Byte)
  deriving DecidableEq, Repr

/-- A message that waits for credit (R366, R367): the chip and the Hitch it goes to, and the Ledger step it counts against (R90). -/
structure HitchOut where
  chip : Nat
  peer : Nat
  step : Nat
  msg  : HitchMsg
  deriving DecidableEq, Repr

/-- A Hitch (R350, R378): `grant` the credits each peer grants it, `owed` those in use by peer, `outbox` messages that wait
for credit (R367). -/
structure Hitch where
  hlds     : Sparse Hld := []
  map      : Sparse MapEntry := []
  launches : BitVec 32 := 0
  halted   : Bool := false
  staleRet : Stat := {}
  cancelRet : Stat := {}
  dropped  : Stat := {}
  spills   : Stat := {}
  st       : Sparse HldState := []
  exp      : Sparse ExpSide := []
  grant    : Nat := 0
  owed     : Sparse Nat := []
  outbox   : List HitchOut := []
  deriving DecidableEq, Repr

/-! ## Serving (11) -/

/-- A session entry (R388); STATE 0 FREE, 1 IDLE, 2 PREFILL, 3 DECODE, 4 CLOSING. -/
structure Session where
  state     : Nat := 0
  kvTier    : Nat := 0
  pendValid : Bool := false
  client    : Nat := 0
  gen       : BitVec 32 := 0
  len       : Nat := 0
  pend      : Nat := 0
  plAddr    : Nat := 0
  curTag    : Nat := 0
  remain    : Nat := 0
  endToken  : Nat := 0
  rowFirst  : Nat := 0
  rowCount  : Nat := 0
  kvFmt     : Nat := 0
  tokensOut : Nat := 0
  accepted  : Nat := 0
  lastCode  : Nat := 0
  lastKind  : Nat := 0
  steps     : Nat := 0
  deriving DecidableEq, Repr

/-- KIND of a serving request (R394). -/
inductive ServeKind where
  | opn | append | verify
  deriving DecidableEq, Repr

/-- A request of a session, running or queued (R396, R397): prompt tokens left, the wave of the chunk or step in flight with
its rows, tokens emitted and accepted, the first code recorded against its rows, the slots of the chunk or step, the row and value of
a y out of range that a chunk has committed (R409). -/
structure Request where
  kind    : ServeKind
  req     : ServeReq
  handle  : Nat
  left    : List Nat := []
  first   : Bool := true
  wave    : Option Nat := none
  row0    : Nat := 0
  chunk   : Nat := 0
  emitted : Nat := 0
  acc     : Nat := 0
  code    : Nat := 0
  slots   : List Nat := []
  bad     : Option (Nat × Nat) := none
  deriving DecidableEq, Repr

/-- A slot freed under R393: it returns once `wave` waves of its kind have completed and ROW_QUIET boundaries passed since. `pos` is
its position in the page list where a CLOSE freed it, `need` the ROW_QUIET of the job that freed it, `byClose` whether a CLOSE waits for
it (R412). -/
structure Freeing where
  addr   : Nat
  sess   : Nat
  decode : Bool
  wave   : Nat
  quiet  : Option Nat := none
  pos    : Option Nat := none
  need   : Nat := 0
  byClose : Bool := false
  deriving DecidableEq, Repr

/-- A row in use (R402): its wave, the session and adapter slot it serves, whether its step is still open, and the
boundaries since its wave was complete. -/
structure RowUse where
  row    : Nat
  decode : Bool
  sess   : Nat
  wave   : Nat
  aslot  : Nat := 0
  live   : Bool := true
  quiet  : Option Nat := none
  deriving DecidableEq, Repr

/-- Sessions, requests, waves and slots (11): `order` the sessions whose request runs, in the order they started; `cancels` the CANCELs
and CLOSEs admitted, with the stride count; `recent` the completed tags of each session; `pools` the pool objects each KV_FMT has used;
`stuck` the steps for which the last decode wave had no rows, in order; `written` by session the LENs of its last commits with the stride
count of each. -/
structure Serve where
  sessions : Sparse Session := []
  running  : Sparse (Option Request) := []
  queues   : Sparse (List Request) := []
  order    : List Nat := []
  cancels  : List (Bool × ServeReq × Nat) := []
  prefillWaves : Nat := 0
  decodeWaves  : Nat := 0
  prefillAt : Option Nat := none
  decodeAt  : Option Nat := none
  rows     : List RowUse := []
  used     : List Nat := []
  poolPages : List Nat := []
  freeing  : List Freeing := []
  recent   : List (Nat × Nat) := []
  closing  : Sparse (List ServeReq) := []
  pools    : List (Nat × Nat) := []
  stuck    : List Nat := []
  written  : Sparse (List (Nat × Nat)) := []
  deriving DecidableEq, Repr

/-! ## Weights (12) -/

/-- A resident-directory entry (R416); state 0 LOADING, 1 READY, 2 BOUND, 3 RELEASING; `stored` all its bytes are in place,
`dropReq` a DROP waits, `byJob` the running job binds it, `since` STRIDE_COUNT when its last byte
was stored or it turned RELEASING. -/
structure DirEntry where
  objId   : Nat
  tier    : Nat
  die     : Nat
  kind    : Nat
  state   : Nat
  bytes   : Nat
  base    : Nat
  modelId : Nat
  stored  : Bool := true
  dropReq : Bool := false
  byJob   : Bool := false
  since   : Nat := 0
  deriving DecidableEq, Repr

/-- A tack cache slot (R435); state 0 EMPTY, 1 STAGING, 2 STAGED, 3 ACTIVE. `cmd` the STAGE that fills it and `readOk` whether the host
read succeeds (R422); `image` the bytes, `left` the units that class 4 has yet to move at each port. -/
structure CacheSlot where
  state  : Nat := 0
  tack   : Option Tack := none
  digest : Nat := 0
  bytes  : Nat := 0
  cmd    : Option WeightCmd := none
  readOk : Bool := true
  image  : List Byte := []
  left   : Sparse Nat := []
  deriving DecidableEq, Repr

/-- A LOAD in progress (R421): its command, the object's bytes, and the units that class 4 has yet to move at each port. -/
structure Load where
  cmd  : WeightCmd
  data : List Byte
  left : Sparse Nat
  deriving DecidableEq, Repr

/-- A chunk of which segments have arrived over a link (R482). -/
structure RelayPart where
  chunk : Nat := 0
  bytes : List Byte := []
  deriving DecidableEq, Repr

/-- A relay in progress on this chip (R424 to R428). `got`: the lowest chunk not received, `ahead`: those received beyond it. `kept`: chunks
forwarded and not acknowledged, `there`: those of them that the next hop has received. `waiting`: chunks to be forwarded. `owe`: chunks
this hop has still to acknowledge. `asking`: the hop whose answer to a resume query is awaited. `results`: failed hops. `tries`: times a
chunk was asked for again. -/
structure Relay where
  cmd     : Option WeightCmd := none
  hops    : List Hop := []
  me      : Nat := 0
  adapter : Bool := false
  modelId : Nat := 0
  bytes   : Nat := 0
  got     : Nat := 0
  ahead   : List Nat := []
  kept    : List (Nat × List Byte) := []
  there   : List Nat := []
  waiting : List (Nat × List Byte) := []
  owe     : List Nat := []
  next    : Nat := 1
  asking  : Option Nat := none
  results : Sparse (Option (Nat × Nat)) := []
  refused : Bool := false
  failed  : Bool := false
  tries   : Sparse Nat := []
  deriving DecidableEq, Repr

/-- Weight delivery (12). -/
structure Weights where
  dir      : List DirEntry := []
  slotA    : CacheSlot := {}
  slotB    : CacheSlot := {}
  deflt    : Nat := 0
  bindings : Sparse Nat := []
  adapters : Sparse Nat := []
  relays   : Sparse (Option Relay) := []
  parts    : Sparse RelayPart := []
  loads    : List Load := []
  deriving DecidableEq, Repr

/-! ## Links (14) -/

/-- The payload of a LINKCTL flit (R477): `echoT`, `echoR` in fc, IDENT by its fields. -/
structure LinkCtl where
  credits : List Nat := []
  nak     : Bool := false
  laneOp  : Nat := 0
  lane    : Nat := 0
  echoT   : Nat := 0
  echoR   : Nat := 0
  chip    : Nat := 0
  link    : Nat := 0
  spine   : Bool := false
  plane   : Nat := 0
  deriving DecidableEq, Repr

/-- A flit as its bytes give it (R476, R477): `kind` is FTYPE, `ctl` the payload read as LINKCTL, `rsvd` whether a byte of it that R477
does not name is other than 0, `payload` its 256 bytes. -/
structure Flit where
  kind    : Nat
  seq     : Nat
  ack     : Nat
  vc      : Nat
  crcOk   : Bool
  ctl     : LinkCtl
  rsvd    : Bool
  payload : List Byte
  deriving DecidableEq, Repr

/-- A DATA flit that was sent and is not acknowledged (R478): its payload, and the packets whose last byte it carries. -/
structure OutFlit where
  seq   : Nat
  vc    : Nat
  bytes : List Byte
  ends  : List Packet
  deriving DecidableEq, Repr

/-- A packet in the receive buffer of a link (R479): its VC, and the flits of buffer that its taking up frees. -/
structure InPacket where
  vc    : Nat
  pkt   : Packet
  frees : Nat
  deriving DecidableEq, Repr

/-- A chip link (R502) with its replay state (R478, R479: SEQ last accepted, ACK last received, SEQ last sent, replays since ACK
advanced, flits outstanding on each VC), the packets that wait for a credit on a VC and the flits sent and not acknowledged, the class
that the round robin serves with the flits it has left (R480), lane recalibration, strides since the last lane's turn, flits received,
and for each lane those it has corrected since its recalibration and the flits received until then (R475), STRIDE_COUNT at the last valid
flit (R504); on the receiving side the packets that are whole, and the bytes of one that is not, with its VC and the flits it holds
(R479, R481). -/
structure Link where
  state   : Nat := 0
  lanesUp : BitVec 8 := 0
  retired : BitVec 8 := 0
  delay   : Nat := 0
  peerChip : Nat := 0
  peerLink : Nat := 0
  downs   : BitVec 32 := 0
  fecCorr : Stat := {}
  replays : Stat := {}
  crcFail : Stat := {}
  lastSeq : Nat := 4095
  lastAck : Nat := 4095
  sentSeq : Nat := 4095
  stuck   : Nat := 0
  outVc   : Sparse Nat := []
  lane    : Option (Fin 8) := none
  nextLane : Nat := 0
  fails   : Sparse Nat := []
  wait    : List (Nat × Packet) := []
  sent    : List OutFlit := []
  rrClass : Nat := 2
  rrLeft  : Nat := 4
  turnAge : Nat := 0
  flitAt   : Nat := 0
  flits   : Nat := 0
  laneFix : Sparse Nat := []
  laneAt  : Sparse Nat := []
  inPkts  : List InPacket := []
  part    : List Byte := []
  partVc  : Nat := 0
  partFlits : Nat := 0
  deriving DecidableEq, Repr

/-- Coordinates, links, routes and their counters (R469, R502, R503); `racksNow` SYSTEM_RACKS as the last install took it (R470, R503),
`gathered` the links of other chips that are not UP and `joined` the pairs of chips that a rein or an expert map joins, as Etxia has
gathered them (R488, R489), `asm` the segments of a Hitch message that has not all arrived, by source chip and Hitch (R482). -/
structure Links where
  rack    : Nat := 0xFFFF
  tray    : Nat := 0xFF
  slot    : Nat := 0xFF
  racks   : Nat := 192
  racksNow : Option Nat := none
  links   : Sparse Link := []
  routes  : Sparse (BitVec 8) := []
  downs   : BitVec 32 := 0
  recalInterval : Nat := 65536
  unreach : Stat := {}
  gathered : List (Nat × Nat) := []
  asm     : Sparse (List Byte) := []
  joined  : List (Nat × Nat) := []
  deriving DecidableEq, Repr

/-! ## Host (15) -/

/-- A completion (R398, R446, R514); `order` counts the completions decided before it (R515). -/
structure Completion where
  order  : Nat := 0
  space  : Nat
  kind   : Nat
  reason : Nat := 0
  code   : Nat := 0
  sess   : Nat := 0
  tag    : Nat
  w2     : Nat := 0
  w3     : Nat := 0
  deriving DecidableEq, Repr

/-- A ring pair (R509 to R520): `fetched` the entries not yet admitted, each with its SQ slot; `fresh` EN was set and no
snapshot followed; `lost` a reset took the ring's registers and it has not been active since (R508, R519). -/
structure Ring where
  sqAddr  : Nat := 0
  sqLog2  : Nat := 4
  cqAddr  : Nat := 0
  cqLog2  : Nat := 4
  idxAddr : Nat := 0
  spaces  : BitVec 3 := 7
  vector  : Nat := 0
  irqEn   : Bool := false
  en      : Bool := false
  active  : Bool := false
  ringErr : Bool := false
  admitted : BitVec 32 := 0
  outstanding : Nat := 0
  sqCi    : BitVec 32 := 0
  cqPi    : BitVec 32 := 0
  cqCi    : BitVec 32 := 0
  fetched : List (BitVec 512 × Nat) := []
  decided : List Completion := []
  heldOut : List (Nat × List Nat) := []
  fresh   : Bool := false
  held    : Bool := false
  lost    : Bool := false
  deriving DecidableEq, Repr

/-- The host interface (R505 to R523): `pba` the vectors that wait behind their masks, `decided` the completions decided so far. -/
structure HostIf where
  rings    : Sparse Ring := []
  ide      : Nat := 0
  width    : Nat := 0
  rate     : Nat := 0
  bar0Ref  : Stat := {}
  bar2Ref  : Stat := {}
  bar2Poi  : Stat := {}
  bar2Base : Nat := 0
  bar2En   : Bool := false
  rotate   : Nat := 0
  heldOut  : Nat := 0
  latch    : Sparse (Option Nat) := []
  msix     : Sparse Word := []
  data     : List Byte := []
  status   : Nat := 0
  polled   : Bool := false
  pba      : Nat := 0
  decided  : Nat := 0
  deriving DecidableEq, Repr

/-! ## Management and Tally (16) -/

/-- One bank of the Tally FIFO (R558, R560). -/
structure Bank where
  recs   : List TallyRec := []
  handed : Bool := false
  stride : Nat := 0
  deriving DecidableEq, Repr

/-- The Tally FIFO (R556 to R564). -/
structure Tally where
  bank0   : Bank := {}
  bank1   : Bank := {}
  writer  : Nat := 0
  next    : Nat := 0
  popped  : Nat := 0
  seq     : BitVec 32 := 0
  gaps    : BitVec 32 := 0
  gap     : Option (BitVec 32 × Nat × Nat) := none
  released : BitVec 32 := 0
  irqEn   : Bool := false
  reader  : Nat := 0
  records : Nat := 0
  dropped : Nat := 0
  last    : List TallyRec := []
  deriving DecidableEq, Repr

/-- The EtherCAT slave and OD 0x2100, 0x2700 (R537 to R555). -/
structure Mgmt where
  al       : AlState := .init
  alCode   : Nat := 0
  portA    : Bool := true
  portB    : Bool := true
  budget   : Nat := 1150
  rmCycle  : BitVec 16 := 0
  rmImage  : BitVec 16 := 0
  rmEcho   : BitVec 16 := 0
  rack     : BitVec 8 := 0
  watchdogMs : Nat := 100
  watchdogNow : Nat := 100
  powerFails : BitVec 32 := 0
  losses   : BitVec 32 := 0
  masterLost : Bool := false
  frozen   : Bool := false
  backInOp : Bool := false
  heldBudget : Option Nat := none
  image    : List Byte := []
  ternary  : Stat := {}
  satRows  : Stat := {}
  sfnDomain : Stat := {}
  weightClamp : Stat := {}
  combineClamp : Stat := {}
  pageMisses : Stat := {}
  hingeRetries : Stat := {}
  chgDiscards : Stat := {}
  badPackets : Stat := {}
  linkDiscards : Stat := {}
  staleDrops : Stat := {}
  wardPending : BitVec 3 := 0
  burn     : Option (Ward × Nat × Nat) := none
  sdoAbort : Nat := 0
  sdoData  : Nat := 0
  dcTime   : Nat := 0
  clockLost : Bool := false
  deriving DecidableEq, Repr

/-! ## Security and debug (17) -/

/-- An SPDM session (R577). -/
structure SpdmSess where
  up    : Bool := false
  fin   : Bool := false
  keys  : Nat := 0
  deriving DecidableEq, Repr

/-- Security objects, SPDM and the debug block (R575 to R589). -/
structure Sec where
  measGen   : BitVec 32 := 0
  nonce     : Word := 0
  fused     : List Nat := []
  auth      : Option (BitVec 1024 × Word) := none
  authAge   : Nat := 0
  authFails : Stat := {}
  version   : Bool := false
  algos     : Bool := false
  sessions  : Sparse SpdmSess := []
  reply     : List Nat := []
  altered   : Bool := false
  maxLevel  : Nat := 0
  path      : Nat := 0
  level     : Nat := 0
  dbgOpen   : Bool := false
  count     : Nat := 0
  base      : Nat := 0
  addr      : Nat := 0
  core      : Nat := 0
  policy    : Nat := 0
  data      : Word := 0
  deriving DecidableEq, Repr

/-- What leaves the part: messages to other units and chips, host memory writes, interrupts (log 12). -/
inductive Effect where
  | token (m : TokenMsg) (dstChip : Nat)
  | credit (dstChip dstEngine port count : Nat) (epoch : BitVec 3)
  | syncRequest (chip obj word : Nat) (st : Bool) (core thread : Nat) (data : Word) (reissue : Bool)
  | syncResponse (chip core thread : Nat) (result : Word)
  | hitch (chip peer : Nat) (m : HitchMsg)
  | hitchCredits (chip hitch peer credits : Nat)
  | stride (chip sub : Nat) (m : Marker)
  | cq (ring addr : Nat) (entry : List Byte)
  | outData (ring addr : Nat) (tokens : List Nat)
  | hostWrite (addr : Nat) (words : List Nat)
  | msix (vector : Nat)
  | relayChunk (chip slot chunk : Nat) (bytes : List Byte)
  | relayNote (chip slot kind chunk : Nat)
  | unreach (chip reason : Nat) (p : Packet)
  | flit (link : Nat) (bytes : List Byte)
  | urError (addr : Nat)
  deriving DecidableEq, Repr

end Sys2Proof.Machine
end

