-- ==== Sys2Proof/Machine/State.lean ====
section
/-!
DEFINITION. The state of the part and the state right after the rise of PORST_N, before start-up has run (R597, R602).
-/
namespace Sys2Proof.Machine

/-- Why a run stops with a fault. The spec gives every command an effect, so no meaning raises one. -/
inductive Fault where
  /-- Raised by no meaning: kept because a machine has a fault type. Safe: it can only make a claim unprovable. -/
  | none
  deriving DecidableEq, Repr

/-- Why a command has no meaning. -/
inductive Refusal where
  /-- Raised by an arm of `exec` whose command has no meaning yet. Safe: a run stops there. -/
  | notModelled (mnemonic : String)
  deriving DecidableEq, Repr

/-- The whole part. Parts of types `Sparse` list only what differs from its reset value. -/
structure State where
  pending  : List Instr
  mem      : Sparse Byte
  scr      : Keying
  free     : Nat
  fuses    : Fuses
  board    : Board
  pins     : Pins
  thermal  : Thermal
  boot     : Boot
  dumps    : Dumps
  chipFault : Option Nat
  chipFaults : Nat
  bindings : Sparse Binding
  spares   : Sparse Nat
  ostlers  : Sparse Ostler
  stride   : Stride
  job      : Job
  cores    : Sparse Core
  engines  : Sparse Engine
  reinIn   : Sparse ReinIn
  reinOut  : Sparse ReinOut
  sft      : Sft
  tiers    : Tiers
  sync     : Sync
  hitches  : Sparse Hitch
  serve    : Serve
  weights  : Weights
  links    : Links
  host     : HostIf
  mgmt     : Mgmt
  tally    : Tally
  sec      : Sec
  out      : List Effect
  deriving DecidableEq, Repr

/-- The part at the rise of PORST_N: every register at its Reset value, nothing loaded, the queue empty. -/
def State.reset : State where
  pending := []
  mem := []
  scr := {}
  free := 0
  fuses := {}
  board := {}
  pins := {}
  thermal := {}
  boot := {}
  dumps := {}
  chipFault := none
  chipFaults := 0
  bindings := []
  spares := []
  ostlers := []
  stride := {}
  job := {}
  cores := []
  engines := []
  reinIn := []
  reinOut := []
  sft := {}
  tiers := {}
  sync := {}
  hitches := []
  serve := {}
  weights := {}
  links := {}
  host := {}
  mgmt := {}
  tally := {}
  sec := {}
  out := []

end Sys2Proof.Machine
end

