-- ==== Sys2Proof/Machine/Ops.lean ====
section
/-!
DEFINITION. The named operations over the units of the part: reading and changing one unit, counters (R22), what leaves
the part, the Tally FIFO (R556 to R561), and faults of levels 1 and 2 (R27, R31).
-/
namespace Sys2Proof

/-! ## The header of a tack (R433) -/

/-- `n` bytes of the header from byte `b` on. -/
def Tack.field (k : Tack) (b n : Nat) : Nat := (k.header.extractLsb' (8 * b) (8 * n)).toNat
/-- TACK_VER. -/
def Tack.ver (k : Tack) : Nat := k.field 0 4
/-- FLAGS bit 0, COMPAT. -/
def Tack.compat (k : Tack) : Bool := k.header.getLsbD 32
/-- FLAGS bit 1, SERVING. -/
def Tack.serving (k : Tack) : Bool := k.header.getLsbD 33
/-- A bit of the header that must be 0 is 1. -/
def Tack.headerRsvd (k : Tack) : Bool := k.header.extractLsb' 34 30 ≠ 0 || k.field 0x1D 3 ≠ 0
/-- TACK_ID. -/
def Tack.tackId (k : Tack) : Nat := k.field 8 8
/-- SFT_ID. -/
def Tack.sftId (k : Tack) : Nat := k.field 0x10 4
/-- GROUP_CHIPS. -/
def Tack.groupChips (k : Tack) : Nat := k.field 0x14 2
/-- GROUP_RANK. -/
def Tack.groupRank (k : Tack) : Nat := k.field 0x16 2
/-- INSTALL_STRIDES. -/
def Tack.installStrides (k : Tack) : Nat := k.field 0x18 4
/-- ADAPTER_SLOTS. -/
def Tack.adapterSlots (k : Tack) : Nat := k.field 0x1C 1
/-- The 14 section entries. -/
def Tack.sections (k : Tack) : List Section :=
  (List.range 14).map (fun i =>
    let b := 0x20 + 16 * i
    { type := k.field b 2, zero := k.field (b + 2) 2, length := k.field (b + 4) 4, offset := k.field (b + 8) 8 })

end Sys2Proof

namespace Sys2Proof.Machine

/-- The outcome of a command. -/
abbrev Out := Host.Outcome State Fault Refusal

/-! ## Units -/

/-- The core numbered `c`. -/
def coreOf (s : State) (c : Nat) : Core := sget {} s.cores c
/-- The state with core `c` changed by `f`. -/
def modCore (c : Nat) (f : Core → Core) (s : State) : State := { s with cores := smod {} s.cores c f }
/-- Thread `t` of core `c`. -/
def threadOf (s : State) (c t : Nat) : Thread := sget {} (coreOf s c).threads t
/-- The state with thread `t` of core `c` changed by `f`. -/
def modThread (c t : Nat) (f : Thread → Thread) (s : State) : State :=
  modCore c (fun k => { k with threads := smod {} k.threads t f }) s
/-- The engine numbered `e`. -/
def engOf (s : State) (e : Nat) : Engine := sget {} s.engines e
/-- The state with engine `e` changed by `f`. -/
def modEng (e : Nat) (f : Engine → Engine) (s : State) : State := { s with engines := smod {} s.engines e f }
/-- Address generator `a` of engine `e`. -/
def agOf (s : State) (e a : Nat) : Ag := sget {} (engOf s e).ags a
/-- The state with address generator `a` of engine `e` changed by `f`. -/
def modAg (e a : Nat) (f : Ag → Ag) (s : State) : State :=
  modEng e (fun g => { g with ags := smod {} g.ags a f }) s
/-- The core an engine belongs to (R36). -/
def coreOfEng (e : Nat) : Nat := e / 8
/-- Input queue `q` of engine `e`. -/
def rinOf (s : State) (e q : Nat) : ReinIn := sget {} s.reinIn (e * 16 + q)
/-- The state with input queue `q` of engine `e` changed by `f`. -/
def modRin (e q : Nat) (f : ReinIn → ReinIn) (s : State) : State := { s with reinIn := smod {} s.reinIn (e * 16 + q) f }
/-- Output rein `o` of engine `e`. -/
def routOf (s : State) (e o : Nat) : ReinOut := sget {} s.reinOut (e * 16 + o)
/-- The state with output rein `o` of engine `e` changed by `f`. -/
def modRout (e o : Nat) (f : ReinOut → ReinOut) (s : State) : State :=
  { s with reinOut := smod {} s.reinOut (e * 16 + o) f }
/-- Tier port `p`. -/
def portOf (s : State) (p : Nat) : Port := sget {} s.tiers.ports p
/-- The state with the tiers changed by `f`. -/
def modTiers (f : Tiers → Tiers) (s : State) : State := { s with tiers := f s.tiers }
/-- The state with tier port `p` changed by `f`. -/
def modPort (p : Nat) (f : Port → Port) (s : State) : State :=
  modTiers (fun t => { t with ports := smod {} t.ports p f }) s
/-- Class `k` of the Curb of port `p` (R264). -/
def curbOf (s : State) (p k : Nat) : Curb := sget {} s.tiers.curbs (p * 8 + k)
/-- The state with class `k` of the Curb of port `p` changed by `f`. -/
def modCurb (p k : Nat) (f : Curb → Curb) (s : State) : State :=
  modTiers (fun t => { t with curbs := smod {} t.curbs (p * 8 + k) f }) s
/-- Synchronisation object `n`. -/
def objOf (s : State) (n : Nat) : SyncObj := sget {} s.sync.objs n
/-- The state with the synchronisation block changed by `f`. -/
def modSync (f : Sync → Sync) (s : State) : State := { s with sync := f s.sync }
/-- The state with synchronisation object `n` changed by `f`. -/
def modObj (n : Nat) (f : SyncObj → SyncObj) (s : State) : State :=
  modSync (fun y => { y with objs := smod {} y.objs n f }) s
/-- Hitch `h`. -/
def hitchOf (s : State) (h : Nat) : Hitch := sget {} s.hitches h
/-- The state with Hitch `h` changed by `f`. -/
def modHitch (h : Nat) (f : Hitch → Hitch) (s : State) : State := { s with hitches := smod {} s.hitches h f }
/-- The state with serving changed by `f`. -/
def modServe (f : Serve → Serve) (s : State) : State := { s with serve := f s.serve }
/-- Session entry `n`. -/
def sessOf (s : State) (n : Nat) : Session := sget {} s.serve.sessions n
/-- The state with session entry `n` changed by `f`. -/
def modSess (n : Nat) (f : Session → Session) (s : State) : State :=
  modServe (fun v => { v with sessions := smod {} v.sessions n f }) s
/-- The request of session `n` that runs. -/
def reqOf (s : State) (n : Nat) : Option Request := sget none s.serve.running n
/-- The state with the running request of session `n` changed by `f`. -/
def modReq (n : Nat) (f : Request → Request) (s : State) : State :=
  modServe (fun v => { v with running := smod none v.running n (Option.map f) }) s
/-- The state with weight delivery changed by `f`. -/
def modWeights (f : Weights → Weights) (s : State) : State := { s with weights := f s.weights }
/-- The state with the links changed by `f`. -/
def modLinks (f : Links → Links) (s : State) : State := { s with links := f s.links }
/-- Link `l`. -/
def linkOf (s : State) (l : Nat) : Link := sget {} s.links.links l
/-- The state with link `l` changed by `f`. -/
def modLink (l : Nat) (f : Link → Link) (s : State) : State :=
  modLinks (fun k => { k with links := smod {} k.links l f }) s
/-- The state with the host interface changed by `f`. -/
def modHost (f : HostIf → HostIf) (s : State) : State := { s with host := f s.host }
/-- Ring pair `r`. -/
def ringOf (s : State) (r : Nat) : Ring := sget {} s.host.rings r
/-- The state with ring pair `r` changed by `f`. -/
def modRing (r : Nat) (f : Ring → Ring) (s : State) : State :=
  modHost (fun h => { h with rings := smod {} h.rings r f }) s
/-- Ostler core `n`. -/
def ostlerOf (s : State) (n : Nat) : Ostler := sget {} s.ostlers n
/-- The state with Ostler core `n` changed by `f`. -/
def modOstler (n : Nat) (f : Ostler → Ostler) (s : State) : State := { s with ostlers := smod {} s.ostlers n f }
/-- The state with the stride unit changed by `f`. -/
def modStride (f : Stride → Stride) (s : State) : State := { s with stride := f s.stride }
/-- The state with the job unit changed by `f`. -/
def modJob (f : Job → Job) (s : State) : State := { s with job := f s.job }
/-- The state with the running job, if one is loaded, changed by `f`. -/
def modRun (f : Running → Running) (s : State) : State := modJob (fun j => { j with run := j.run.map f }) s
/-- The state with the management unit changed by `f`. -/
def modMgmt (f : Mgmt → Mgmt) (s : State) : State := { s with mgmt := f s.mgmt }
/-- The state with the Tally FIFO changed by `f`. -/
def modTally (f : Tally → Tally) (s : State) : State := { s with tally := f s.tally }
/-- The state with the security unit changed by `f`. -/
def modSec (f : Sec → Sec) (s : State) : State := { s with sec := f s.sec }
/-- The state with start-up and images changed by `f`. -/
def modBoot (f : Boot → Boot) (s : State) : State := { s with boot := f s.boot }
/-- The state with the dumps changed by `f`. -/
def modDumps (f : Dumps → Dumps) (s : State) : State := { s with dumps := f s.dumps }
/-- The state with the special-function block changed by `f`. -/
def modSft (f : Sft → Sft) (s : State) : State := { s with sft := f s.sft }

/-- One effect that leaves the part (log 12). -/
def emit (e : Effect) (s : State) : State := { s with out := s.out ++ [e] }

/-- `f` where `b` holds, else nothing. -/
def whenB (b : Bool) (f : State → State) (s : State) : State := if b then f s else s

/-- `f` applied for every element of a list, in order. -/
def forEach {α : Type} (l : List α) (f : α → State → State) (s : State) : State := l.foldl (fun t x => f x t) s

/-- A free value and the state in which the next one differs (log 7). -/
def takeFree (s : State) : Nat × State := (Config.freeNat s.free, { s with free := s.free + 1 })

/-- A fault code of the ranges of R28 that the number `n` picks: every high byte 0x01 to 0x0C and low byte 0x01 to 0x7F (R28, R29,
log 27). -/
def someFaultCode (n : Nat) : Nat := (n % 12 + 1) * 256 + n / 12 % 127 + 1

/-- Faults of a whole domain that a marker or an EVENT packet carries: STRIDE_ALIGN_LOST and LINK_DOWN (R98, R497). -/
def domainFault (code : Nat) : Bool := code = 0x0103 || code = 0x0801

/-- The chip faults that the spec's fault tables list (R27, R28). -/
def isChipFault (code : Nat) : Bool :=
  [0x0105, 0x0209, 0x0264, 0x0425, 0x0507, 0x0905, 0x0906, 0x0A01, 0x0A02, 0x0B01, 0x0B02, 0x0C01, 0x0C02, 0x0C03, 0x0C04].contains code

/-! ## Counters (R22) -/

/-- A STAT counter of width `w` raised by `k`: it holds at its maximum and sets its overflow flag. -/
def statAdd (w k : Nat) (c : Stat) : Stat :=
  if c.n + k < 2 ^ w then { c with n := c.n + k } else { n := 2 ^ w - 1, ovf := true }

/-- A STAT counter raised by 1. -/
def statInc (w : Nat) (c : Stat) : Stat := statAdd w 1 c

/-- A STAT counter cleared with its flag. -/
def statClear (_ : Stat) : Stat := {}

/-- An ACCT counter raised by `k`: it holds at 2^64 − 1. -/
def acctAdd (k n : Nat) : Nat := Nat.min (n + k) (2 ^ 64 - 1)

/-! ## Facts many rules use -/

/-- Coordinates are set (R469). -/
def coordsSet (s : State) : Bool := s.links.rack < 512 && s.links.tray < 32 && s.links.slot < 4

/-- The part's own chip number (R469), 0 while unset (R502 LINK_SELF). -/
def ownChip (s : State) : Nat :=
  if coordsSet s then s.links.rack * 128 + s.links.tray * 4 + s.links.slot else 0

/-- A logical core is of Courser type (R36). -/
def isCourser (c : Nat) : Bool := 108 ≤ c % 144

/-- The binding of a logical core (R38). -/
def bindingOf (s : State) (c : Nat) : Binding := sget {} s.bindings c

/-- Backed bytes of a core's scratchpad slot (R54). -/
def spadBytes (s : State) (c : Nat) : Nat :=
  if c < 288 && !(bindingOf s c).unbacked then (if isCourser c then 0x600000 else 0x300000) else 0

/-- A logical core is stale (R614). -/
def coreStale (s : State) (c : Nat) : Bool := (coreOf s c).svc != (coreOf s c).loaded

/-- A job is loaded. -/
def jobLoaded (s : State) : Bool := s.job.run.isSome

/-- The epoch of an engine's gait slot equals the engine's, and the slot is VALID (R133). -/
def gaitOf (s : State) (e g : Nat) : Gait := sget {} (engOf s e).gaits g

/-- The gait in slot `g` may run (R133). -/
def gaitLive (s : State) (e g : Nat) : Bool :=
  (gaitOf s e g).valid && (gaitOf s e g).epoch == s.job.epoch

/-- AG_PROGn or VEC_PROG from its 32 bits (R131). -/
def progDecode (w : BitVec 32) : ProgRef := { en := w.getLsbD 31, off := (w.extractLsb' 0 23).toNat }

/-- A gait descriptor from its 64 bytes, the first lowest (R10, R131). -/
def gaitDecode (d : BitVec 512) : Gait :=
  let f := fun (byte lo n : Nat) => (d.extractLsb' (8 * byte + lo) n).toNat
  let prog := fun (byte : Nat) => d.extractLsb' (8 * byte) 32
  { valid := d.getLsbD 0, epoch := d.extractLsb' 1 3, mix := d.extractLsb' 4 2, source := d.getLsbD 8
    inMask := d.extractLsb' 16 16, outMask := d.extractLsb' 32 16, mixSpan := f 0x06 0 16
    accBase := f 0x08 0 5, accCount := f 0x08 5 6, resBase := f 0x0C 0 18, resLen := f 0x10 0 19
    ag0 := progDecode (prog 0x14), ag1 := progDecode (prog 0x18), ag2 := progDecode (prog 0x1C), ag3 := progDecode (prog 0x20)
    vec := progDecode (prog 0x24)
    rsvd := f 0x00 6 2 ≠ 0 || f 0x01 1 7 ≠ 0 || f 0x08 11 5 ≠ 0 || f 0x0A 0 16 ≠ 0 || f 0x0C 18 14 ≠ 0 || f 0x10 19 13 ≠ 0 ||
      [0x14, 0x18, 0x1C, 0x20, 0x24].any (fun b => f b 23 8 ≠ 0) || f 0x28 0 192 ≠ 0 }

/-- The gait descriptors of an engine in a tack. -/
def cfgGaits (x : EngineCfg) : List (Fin 8 × Gait) := x.gaits.map (fun p => (p.1, gaitDecode p.2))

/-- An object-table entry from its 32 bytes, the first lowest (R10, R289). -/
def objDecode (d : BitVec 256) : ObjEntry :=
  let f := fun (byte lo n : Nat) => (d.extractLsb' (8 * byte + lo) n).toNat
  { objId := f 0 0 32, tier := f 4 0 2, die := f 4 2 1, pin := d.getLsbD 35, writable := d.getLsbD 36, evict := d.getLsbD 37
    resident := d.getLsbD 38, bytes := f 8 0 64, backing := f 0x10 0 48, sreg := d.extractLsb' 192 6
    rsvd := f 4 7 1 ≠ 0 || f 5 0 24 ≠ 0 || f 0x10 48 16 ≠ 0 || f 0x18 6 2 ≠ 0 || f 0x19 0 56 ≠ 0 }

/-- A synchronisation-table entry from its 16 bytes and its claimants' 8 each (R336). -/
def syncDecode (x : BitVec 128 × List (BitVec 64)) : SyncEntry :=
  let type := (x.1.extractLsb' 16 8).toNat
  { obj := (x.1.extractLsb' 0 16).toNat, type := type, nclaim := (x.1.extractLsb' 24 8).toNat
    param := (x.1.extractLsb' 32 16).toNat, waitLimit := (x.1.extractLsb' 48 16).toNat
    init := if type = 1 then (x.1.extractLsb' 64 64).toInt else (x.1.extractLsb' 64 64).toNat
    claimants := x.2.map (fun c => ((c.extractLsb' 0 16).toNat, (c.extractLsb' 16 16).toNat))
    rsvd := x.2.any (fun c => c.extractLsb' 32 32 ≠ 0) || x.2.length ≠ (x.1.extractLsb' 24 8).toNat }

/-- The synchronisation table of a tack. -/
def tackSync (k : Tack) : List SyncEntry := k.sync.map syncDecode

/-- A Hitch layer descriptor from its 64 bytes (R350); NSRC 0 stands for 64 (log 87). -/
def hldDecode (x : BitVec 512) : Hld :=
  let f := fun (byte lo n : Nat) => (x.extractLsb' (8 * byte + lo) n).toNat
  { valid := x.getLsbD 0, top2 := x.getLsbD 1, next := x.getLsbD 2, ret16 := x.getLsbD 3, outFmt := f 0 4 2
    epoch := x.extractLsb' 8 3, spill := f 1 3 4, experts := f 2 0 8 + 1, cshift := f 3 0 6, cap := f 4 0 16, rowUnits := f 6 0 16
    retUnits := f 8 0 16, retWait := f 10 0 8, nsrc := if f 11 0 6 = 0 then 64 else f 11 0 6, readyObj := f 12 0 16, doneObj := f 14 0 16
    readyArr := f 16 0 16, srcIdx := f 18 0 6, mapIdx := f 20 0 12, rowHdr := f 24 0 48, routeBase := f 32 0 48, rowsBase := f 40 0 48
    gatherBase := f 48 0 48, outBase := f 56 0 48
    rsvd := f 0 6 2 ≠ 0 || f 1 7 1 ≠ 0 || f 3 6 2 ≠ 0 || f 11 6 2 ≠ 0 || f 18 6 2 ≠ 0 || f 19 0 8 ≠ 0 || f 20 12 4 ≠ 0 || f 22 0 16 ≠ 0 ||
      [30, 38, 46, 54, 62].any (fun b => f b 0 16 ≠ 0) }

/-- An expert-map entry from its 16 bytes (R351). -/
def mapDecode (x : BitVec 128) : MapEntry :=
  { chip := (x.extractLsb' 0 16).toNat, core := (x.extractLsb' 16 16).toNat, inOff := (x.extractLsb' 32 32).toNat
    outOff := (x.extractLsb' 64 32).toNat, inObj := (x.extractLsb' 96 16).toNat, outObj := (x.extractLsb' 112 16).toNat }

/-- The descriptors of one Hitch's part of a tack. -/
def cfgHlds (g : HitchCfg) : List (Nat × Hld) := g.hlds.map (fun x => (x.1, hldDecode x.2))

/-- The expert map of one Hitch's part of a tack. -/
def cfgMap (g : HitchCfg) : List (Nat × MapEntry) := g.map.map (fun x => (x.1, mapDecode x.2))

/-- A serving descriptor from its 64 bytes (R382). -/
def serveDecode (x : BitVec 512) : Serving :=
  let f := fun (byte lo n : Nat) => (x.extractLsb' (8 * byte + lo) n).toNat
  { prefillRows := f 0 0 13, decodeRows := f 2 0 13, prefillCadence := f 4 0 21, decodeCadence := f 8 0 21, prefillDone := f 0x0C 0 13
    decodeDone := f 0x0E 0 13, maxNodes := f 0x10 0 7, rowQuiet := f 0x11 0 8, sessions := f 0x12 0 15, vocab := f 0x14 0 32
    slotBytes := f 0x18 0 32, maxCtx := f 0x1C 0 24, kvFmt := f 0x20 0 32, poolH := f 0x24 0 32, poolL := f 0x28 0 32
    plObj := f 0x2C 0 32, serveObj := f 0x30 0 32
    rsvd := f 0 13 3 ≠ 0 || f 2 13 3 ≠ 0 || f 4 21 11 ≠ 0 || f 8 21 11 ≠ 0 || f 0x0C 13 3 ≠ 0 || f 0x0E 13 3 ≠ 0 || f 0x10 7 1 ≠ 0 ||
      f 0x12 15 1 ≠ 0 || f 0x1F 0 8 ≠ 0 || f 0x34 0 96 ≠ 0 }

/-- The serving descriptor of a tack that serves (R382, R433). -/
def tackServe (k : Tack) : Option Serving := if k.serving then some (serveDecode (k.serve.getD 0)) else none

/-- The object is one of the tack's KV pools, whose pages R392 allocates (log 26). -/
def tackPool (k : Tack) (id : Nat) : Bool :=
  match tackServe k with | none => false | some v => id ≠ 0 && (id = v.poolH || id = v.poolL)

/-- The object table of a tack. -/
def tackObjects (k : Tack) : List ObjEntry := k.objects.map objDecode

/-- A schedule entry from its 16 bits and its mark (R135, R175). -/
def schedDecode (p : BitVec 16 × Bool) : SchedEntry :=
  { slot := (p.1.extractLsb' 13 3).toFin, firings := (p.1.extractLsb' 0 13).toNat, tile := p.2 }

/-- A step's schedule up to the entry that ends it (R135). -/
def schedList (l : List (BitVec 16 × Bool)) : List SchedEntry := (l.map schedDecode).takeWhile (fun q => q.firings ≠ 0)

/-- The engines of a tack that hold a VALID gait (R451). -/
def tackEngines (t : Tack) : List Nat :=
  (t.engines.filter (fun e => (cfgGaits e).any (fun g => g.2.valid))).map (fun e => e.engine.val)

/-- The cores on which a tack places work (R40): those of its engines and of its core images. -/
def tackCores (t : Tack) : List Nat :=
  ((t.engines.map (fun (e : EngineCfg) => e.engine.val / 8)) ++
    (t.cores.map (fun (c : CoreImage) => c.core.val))).eraseDups

/-- The running job's tack. -/
def jobTack (s : State) : Option Tack := s.job.run.map (fun r => r.tack)

/-- The engines of the running job. -/
def jobEngines (s : State) : List Nat := match s.job.run with | none => [] | some r => tackEngines r.tack

/-- The cores of the running job. -/
def jobCores (s : State) : List Nat := match s.job.run with | none => [] | some r => tackCores r.tack

/-- A core of the job is held by a debug session (R585). -/
def jobHeld (s : State) : Bool := (jobCores s).any (fun c => (coreOf s c).dbgHalt)

/-- Input queues of an engine that a mask names, in ascending order. -/
def maskList (m : BitVec 16) : List Nat := (List.range 16).filter (fun i => m.getLsbD i)

/-- All cores, all engines. -/
def allCores : List Nat := List.range 288

/-- The engines of a core. -/
def coreEngines (c : Nat) : List Nat := (List.range 8).map (fun i => c * 8 + i)

/-! ## The Tally FIFO (R556 to R561) -/

/-- An item of DETAIL: `n` bytes, little-endian. -/
def item (n v : Nat) : List Byte := bytesLE n v

/-- Bank `b` of the Tally FIFO. -/
def bankOf (t : Tally) (b : Nat) : Bank := if b = 0 then t.bank0 else t.bank1

/-- The FIFO with bank `b` set. -/
def setBank (t : Tally) (b : Nat) (k : Bank) : Tally := if b = 0 then { t with bank0 := k } else { t with bank1 := k }

/-- An MSI-X vector is raised (R505): masked by bit 32 of the second word of its table entry, it becomes pending (log 34). -/
def raiseMsix (v : Nat) (s : State) : State :=
  if bitOf (sget 0x100000000#64 s.host.msix (2 * v + 1)) 32 then modHost (fun h => { h with pba := h.pba ||| 2 ^ v }) s
  else emit (.msix v) s

/-- Vectors that are pending and no longer masked are raised (R505, log 34). -/
def msixUnmask (s : State) : State :=
  forEach ((List.range 17).filter (fun v => s.host.pba.testBit v && !bitOf (sget 0x100000000#64 s.host.msix (2 * v + 1)) 32))
    (fun v t => emit (.msix v) (modHost (fun h => { h with pba := h.pba ^^^ 2 ^ v }) t)) s

/-- The writer sees the other bank as free (R559). -/
def otherFree (t : Tally) : Bool := !(bankOf t (1 - t.writer)).handed

/-- The writer hands its bank over and starts the other (R560): the header holds STRIDE_COUNT at handover. -/
def tallyHand (s : State) : State :=
  let t := s.tally
  let w := t.writer
  let b := bankOf t w
  if otherFree t && !b.recs.isEmpty then
    let t1 := setBank (setBank t w { b with handed := true, stride := s.stride.count }) (1 - w) {}
    let s1 := { s with tally := { t1 with writer := 1 - w } }
    if t.irqEn && t.reader = 0 then raiseMsix 16 s1 else s1
  else s

/-- One record takes SEQ and is stored or dropped (R556, R561). A bank that fills is handed over at once (R560). -/
def tallyPut (r : TallyRec) (s : State) : State :=
  let t := s.tally
  let r := { r with seq := t.seq, stride := s.stride.count }
  let l := t.last ++ [r]
  let last := if r.type = 1 then (l.take (l.length - 4)).filter (fun x => x.stride = r.stride) ++ l.drop (l.length - 4)
              else t.last
  let t := { t with seq := t.seq + 1, records := acctAdd 1 t.records, last := last }
  match t.gap with
  | some (q, d, n) =>
    { s with tally := { t with dropped := acctAdd 1 t.dropped, gap := some (q, d, Nat.min (n + 1) (2 ^ 32 - 1)) } }
  | none =>
    let b := bankOf t t.writer
    if b.recs.length + 2 ≤ 127 || otherFree t then
      let s1 := { s with tally := setBank t t.writer { b with recs := b.recs ++ [r] } }
      if b.recs.length + 1 = 127 then tallyHand s1 else s1
    else
      { s with tally := { t with dropped := acctAdd 1 t.dropped, gaps := t.gaps + 1, gap := some (r.seq, r.stride, 1) } }

/-- DETAIL cut into pieces of 16 bytes, at least one (R556). -/
def tallyPieces (d : List Byte) : List (List Byte) :=
  (List.range (Nat.max 1 (ceilDiv d.length 16))).map (fun i => (d.drop (16 * i)).take 16)

/-- A FAULT (1) or EVENT (2) record with its CONT records (R556). -/
def record (type level code : Nat) (detail : List Byte) (s : State) : State :=
  let ps := tallyPieces detail
  (List.range ps.length).foldl (fun t i =>
    tallyPut { type := type, level := level, cont := i + 1 < ps.length, code := code, seq := 0, stride := 0
               detail := ps.getD i [] } t) s

/-- An EVENT record (R557). -/
def event (code : Nat) (detail : List Byte) (s : State) : State := record 2 0 code detail s

/-! ## Containment (R27, R31) -/

/-- Codes after which a drain is the one of R500: LINK_DOWN and LINK_UNREACHABLE. -/
def linkCode (code : Nat) : Bool := code = 0x0801 || code = 0x0802

/-- A fault of level 2: recorded; the first code recorded is the job's status, and its end is REASON 4 (R31, R455). -/
def jobFault (code : Nat) (detail : List Byte) (s : State) : State :=
  modRun (fun r => { r with code := if r.code = 0 then code else r.code, reason := some 4
                            linkLost := r.linkLost || linkCode code }) (record 1 2 code detail s)

/-- A fault of level 1: recorded (R27). What it ends, its rule says. -/
def requestFault (code : Nat) (detail : List Byte) (s : State) : State := record 1 1 code detail s

/-- The rows of a wave whose request takes `code`: each running request that owns a row keeps its first code (R119, R304). -/
def rowsFault (code : Nat) (rows : List Nat) (s : State) : State :=
  forEach (s.serve.rows.filter (fun b => b.live && rows.contains b.row)) (fun b t =>
    modReq b.sess (fun q => { q with code := if q.code = 0 then code else q.code }) t) s

/-- An uncorrectable or corrected error counted in OD 0x2300:0A or 0B (R301). -/
def countEcc (corrected : Bool) (s : State) : State :=
  modTiers (fun t => if corrected then { t with corrTotal := acctAdd 1 t.corrTotal }
                     else { t with uncorrTotal := acctAdd 1 t.uncorrTotal }) s

/-- Credits of epoch `ep` freed at a queue join those it has yet to return (R142). -/
def addFreed (ep : BitVec 3) (n : Nat) : List (BitVec 3 × Nat) → List (BitVec 3 × Nat)
  | [] => if n = 0 then [] else [(ep, n)]
  | (q, k) :: l => if q = ep then (q, k + n) :: l else (q, k) :: addFreed ep n l

/-- The epoch of a token (R139). -/
def tagEpoch (tag : BitVec 16) : BitVec 3 := BitVec.ofNat 3 (tag.toNat / 4096)
/-- The row of a token (R139). -/
def tagRow (tag : BitVec 16) : Nat := tag.toNat % 4096
/-- The lame bit of a token (R139). -/
def tagLame (tag : BitVec 16) : Bool := tag.getLsbD 15
/-- A tag (R139). -/
def mkTag (lame : Bool) (ep : BitVec 3) (row : Nat) : BitVec 16 :=
  BitVec.ofNat 16 (bit01 lame * 32768 + ep.toNat * 4096 + row % 4096)

end Sys2Proof.Machine
end

