-- ==== Sys2Proof/Machine/Route.lean ====
section
/-!
DEFINITION. The measured Ledger figures (R89, R90), routes between chips (R485 to R490), packets that leave the part
(R482, R499) and the loss of one (R496).
-/
namespace Sys2Proof.Machine

/-! ## Measured figures (R89, R90) -/

/-- The measured figure `m` is the one of this step, kind and unit. -/
def measIs (n : Nat) (kind : FigKind) (unit : Nat) (m : Meas) : Bool :=
  decide (m.step = n) && decide (m.kind = kind) && decide (m.unit = unit)

/-- A list of measured figures with one raised by `v`. -/
def measList (n : Nat) (kind : FigKind) (unit v : Nat) (l : List Meas) : List Meas :=
  if l.any (measIs n kind unit) then
    l.map (fun m => if measIs n kind unit m then { m with value := m.value + v } else m)
  else l ++ [{ step := n, kind := kind, unit := unit, value := v }]

/-- A measured figure of a step of the running job raised by `v`. -/
def measAdd (n : Nat) (kind : FigKind) (unit v : Nat) (s : State) : State :=
  modRun (fun r => { r with meas := measList n kind unit v r.meas }) s

/-- The steps in progress are not checked (R92). -/
def uncheckSteps (s : State) : State := modRun (fun r => { r with unchecked := (r.unchecked ++ r.openSteps).eraseDups }) s

/-- The job makes forward progress in this stride (R86). -/
def progress (s : State) : State := modRun (fun r => { r with progressed := true }) s

/-- The job-relative stride number; 0 with no job. -/
def jobStride (s : State) : Nat := match s.job.run with | none => 0 | some r => r.stride

/-! ## Routes -/

/-- Rack, tray and slot of a chip number (R469). -/
def chipAt (d : Nat) : Nat × Nat × Nat := (d / 128, d / 4 % 32, d % 4)

/-- The route entry of a chip (R487, R502): UNREACH for one outside the racks of the system, from the first install on (R470). -/
def routeEntry (s : State) (d : Nat) : BitVec 8 :=
  let e := sget 0 s.links.routes d
  match s.links.racksNow with
  | some n => if n ≤ d / 128 then e ||| 0x10#8 else e
  | none => e

/-- Where a packet goes next: to this chip, over a link, or nowhere, with its REASON (R482). -/
inductive NextHop where
  | here
  | link (l : Nat)
  | nowhere (reason : Nat)
  deriving DecidableEq, Repr

/-- The Z link of a plane (R467). -/
def zLink (plane : Nat) : Nat := if plane % 2 = 0 then 2 else 5

/-- The link R485 chooses from chip `own` for chip `d` under route entry `e`. -/
def routeLink (own d die : Nat) (e : BitVec 8) : Nat :=
  let (r0, t0, s0) := chipAt own
  let (r1, t1, s1) := chipAt d
  let z := zLink (die + bit01 (e.getLsbD 2))
  if e.getLsbD 3 then z
  else if r1 ≠ r0 && s1 = s0 && t1 = t0 then z
  else if s1 ≠ s0 then
    let plus := (s1 + 4 - s0) % 4 ≤ 2
    if plus != e.getLsbD 0 then 0 else 1
  else if t1 ≠ t0 then
    let plus := (t1 + 32 - t0) % 32 ≤ 16
    if plus != e.getLsbD 1 then 3 else 4
  else z

/-- A link is DOWN (R502). -/
def isDown (s : State) (l : Nat) : Bool := (linkOf s l).state = 4

/-- The link carries packets: UP or RECAL (R468, R475). -/
def linkLive (s : State) (l : Nat) : Bool := (linkOf s l).state = 2 || (linkOf s l).state = 3

/-- The next link of a packet (R485), with the live failover of R490 for the classes that have it; a link in another state than UP or RECAL
carries no packet and is passed by as one that is DOWN. -/
def routeNext (s : State) (d die : Nat) (failover : Bool) : NextHop :=
  let e := routeEntry s d
  if d = ownChip s then .here
  else if e.getLsbD 4 then .nowhere 2
  else
    let l := routeLink (ownChip s) d die e
    let plane := die + bit01 (e.getLsbD 2)
    if linkLive s l then .link l
    else if !failover then .nowhere 1
    else if linkLive s (zLink plane) then .link (zLink plane)
    else if linkLive s (zLink (plane + 1)) then .link (zLink (plane + 1))
    else .nowhere 1

/-- The dateline bit of the next hop's VC (R486): `dl` is that of the VC on which the packet arrived over `fromLink`, if it did. -/
def dateline (s : State) (fromLink : Option Nat) (dl : Nat) (l : Nat) : Nat :=
  let (_, t, k) := chipAt (ownChip s)
  let axis := fun (x : Nat) => if x < 2 then 0 else if x = 2 || x = 5 then 2 else 1
  let wraps := (l = 0 && k = 3) || (l = 1 && k = 0) || (l = 3 && t = 31) || (l = 4 && t = 0)
  let cur := match fromLink with | some f => if axis f = axis l then dl else 0 | none => 0
  if axis l = 2 then 0 else if wraps then 1 else cur

/-! ## Packets -/

/-- Class of a packet TYPE (R482): 0 CTRL, 1 RESP, 2 REQ, 3 HITCH, 4 ETX. -/
def packetClass (type : Nat) : Nat :=
  if type = 8 then 0 else if type = 2 || type = 4 || type = 6 || type = 9 then 1
  else if type = 1 || type = 3 then 2 else if type = 5 then 3 else 4

/-- A TYPE fails over (R490): of the classes CTRL, ETX and RESP all but the credits, and SYNC_REQ. -/
def failsOver (type : Nat) : Bool := packetClass type = 0 || packetClass type = 4 || type = 4 || type = 9 || type = 3

/-- The 16 header bytes of a packet (R481). -/
def headerBytes (p : Packet) : List Byte :=
  bytesLE 2 p.dstChip.toNat ++ bytesLE 2 p.srcChip.toNat ++
  bytesLE 1 (p.type + 16 * p.epoch.toNat + 128 * bit01 p.reissue) ++ bytesLE 1 p.dstDie ++ bytesLE 2 p.body ++
  bytesLE 8 p.info.toNat

/-- Link bytes of the classes REQ, RESP and HITCH count in the Ledger's link figures (R499). -/
def linkCount (n0 l : Nat) (p : Packet) (s : State) : State :=
  if (packetClass p.type = 1 || packetClass p.type = 2 || packetClass p.type = 3) && !p.reissue then
    measAdd n0 .linkBytes (2 * l) (16 + 16 * p.body) s
  else s

/-- The bytes of a packet: its header and its body (R481). -/
def packetBytes (p : Packet) : List Byte :=
  headerBytes p ++ (p.data.flatMap (fun w => bytesLE 8 w.toNat) ++ List.replicate (16 * p.body) 0#8).take (16 * p.body)

/-- Bits of INFO from which on a TYPE uses none, and HCREDIT's gap (R482). -/
def infoRsvd (type : Nat) (i : Word) : Bool :=
  let top := if type = 1 || type = 3 || type = 4 then 48 else if type = 2 then 21 else if type = 5 then 46 else if type = 6 then 30
    else if type = 7 then 38 else if type = 9 then 8 else if type = 10 then 64 else 0
  i.toNat / 2 ^ top ≠ 0 || (type = 6 && bitsOf i 15 2 ≠ 0)

/-- A packet from its 16 header bytes and its body (R481, R482). -/
def packetDecode (h : BitVec 128) (data : List Word) : Packet :=
  let f := fun (byte lo n : Nat) => (h.extractLsb' (8 * byte + lo) n).toNat
  let type := f 4 0 4
  { dstChip := h.extractLsb' 0 16, srcChip := h.extractLsb' 16 16, type := type, epoch := h.extractLsb' 36 3, reissue := h.getLsbD 39
    dstDie := f 5 0 1, body := f 6 0 16, info := h.extractLsb' 64 64, data := data
    rsvd := f 5 1 7 ≠ 0 || 32 < f 6 0 16 || infoRsvd type (h.extractLsb' 64 64) }

/-- The words of a packet's body. -/
def bodyWords (b : List Byte) : List Word := (List.range (b.length / 8)).map (fun i => BitVec.ofNat 64 (numLE ((b.drop (8 * i)).take 8)))

/-- The packets that stand whole in a run of bytes of one VC, at most `n`, and the bytes of the one that does not (R481). A PAD packet
takes the rest; so does a header whose BODY is past its range, which no packet can follow (log 92). -/
def packetsIn : Nat → List Byte → List Packet × List Byte
  | 0, b => ([], b)
  | n + 1, b =>
    if b.length < 16 then ([], [])
    else
      let p := packetDecode (BitVec.ofNat 128 (numLE (b.take 16))) []
      let size := 16 + 16 * p.body
      if p.type = 0 then ([], [])
      else if 32 < p.body then ([p], [])
      else if b.length < size then ([], b)
      else
        let x := packetsIn n (b.drop size)
        ({ p with data := bodyWords ((b.take size).drop 16) } :: x.1, x.2)

/-! ## Flits (R476 to R480) -/

/-- The first 264 bytes of a flit (R476): header, 256 payload bytes, CRC-32C. -/
def flitBody (kind seq ack vc : Nat) (payload : List Byte) : List Byte :=
  let b := bytesLE 4 (kind * 2 ^ 28 + seq * 2 ^ 16 + ack * 16 + vc) ++ padTo 256 payload
  b ++ bytesLE 4 (crc32c b).toNat

/-- Every second byte of a list, from the first on. -/
def evenBytes : List Byte → List Byte
  | [] => []
  | [b] => [b]
  | b :: _ :: l => b :: evenBytes l

/-- The 24 parity bytes of a flit: codeword 0 of the even bytes and codeword 1 of the odd ones, interleaved (R476). -/
def flitParity (body : List Byte) : List Byte :=
  let p0 := bytesLE 12 (Config.rsParity (evenBytes body)).toNat
  let p1 := bytesLE 12 (Config.rsParity (evenBytes (body.drop 1))).toNat
  (List.range 12).flatMap (fun i => [p0.getD i 0#8, p1.getD i 0#8])

/-- The 288 bytes of a flit (R476). -/
def flitBytes (kind seq ack vc : Nat) (payload : List Byte) : List Byte :=
  let b := flitBody kind seq ack vc payload
  b ++ flitParity b

/-- The payload of a LINKCTL flit (R477). -/
def ctlPayload (c : LinkCtl) : List Byte :=
  (List.range 10).flatMap (fun v => bytesLE 1 (c.credits.getD v 0)) ++ bytesLE 1 (bit01 c.nak) ++ bytesLE 1 c.laneOp ++ bytesLE 1 c.lane ++
  bytesLE 3 0 ++ bytesLE 4 c.echoT ++ bytesLE 4 c.echoR ++
  bytesLE 4 (c.chip % 65536 + c.link % 16 * 2 ^ 16 + bit01 c.spine * 2 ^ 20 + c.plane % 2 * 2 ^ 21)

/-- A flit with its ACK leaves over link `l` (R478). -/
def flitOut (l kind seq vc : Nat) (payload : List Byte) (s : State) : State :=
  emit (.flit l (flitBytes kind seq (linkOf s l).lastSeq vc payload)) s

/-- A LINKCTL flit leaves (R477). -/
def ctlOut (l : Nat) (c : LinkCtl) (s : State) : State := flitOut l 2 0 0 (ctlPayload c) s

/-- The next flit slot with nothing else to carry takes an IDLE flit, whose ACK tells the sender what was accepted (R476, R478). -/
def idleOut (l : Nat) (s : State) : State := flitOut l 0 0 0 [] s

/-- Flits of a packet that begins a flit of its own (R476, R481, log 32). -/
def flitsOf (p : Packet) : Nat := ceilDiv (16 + 16 * p.body) 256

/-- DATA flits of a link that are sent and not acknowledged. -/
def unacked (k : Link) : Nat := (k.sentSeq + 4096 - k.lastAck) % 4096

/-- Flits of buffer that the receiver has for a VC (R479). -/
def vcBuffer (v : Nat) : Nat := if v < 2 then 4 else 15

/-- The first packet that waits on a VC, when the VC has credits and the replay buffer room for all its flits (R478, R479, R481). -/
def vcReady (k : Link) (v : Nat) : Option Packet :=
  match k.wait.find? (fun x => x.1 = v) with
  | none => none
  | some x => if sget 0 k.outVc v + flitsOf x.2 ≤ vcBuffer v && unacked k + flitsOf x.2 ≤ 256 then some x.2 else none

/-- The VC of a class that has a packet ready; DL 1 before DL 0 (log 32). -/
def classReady (k : Link) (c : Nat) : Option Nat := [2 * c + 1, 2 * c].find? (fun v => (vcReady k v).isSome)

/-- Flits of a turn of the round robin (R480). -/
def rrWeight (c : Nat) : Nat := if c = 4 then 1 else 4

/-- The VC served next (R480): CTRL, then RESP, then the round robin of REQ, HITCH and ETX; the class whose turn it is and what its turn
has left. -/
def nextVc (k : Link) : Option (Nat × Nat × Nat) :=
  match (classReady k 0).or (classReady k 1) with
  | some v => some (v, k.rrClass, k.rrLeft)
  | none => match (if k.rrLeft = 0 then none else classReady k k.rrClass) with
    | some v => some (v, k.rrClass, k.rrLeft)
    | none => [1, 2, 3].findSome? (fun i =>
        let c := 2 + (k.rrClass - 2 + i) % 3
        (classReady k c).map (fun v => (v, c, rrWeight c)))

/-- Packets of a VC, in order, that fit into `room` bytes. -/
def fitting (v : Nat) : Nat → List (Nat × Packet) → List Packet
  | _, [] => []
  | room, x :: l =>
    if x.1 ≠ v then fitting v room l
    else if 16 + 16 * x.2.body ≤ room then x.2 :: fitting v (room - (16 + 16 * x.2.body)) l
    else []

/-- The first packet of a VC and those behind it that its last flit still holds (R481, log 92). -/
def burstOf (v : Nat) (p : Packet) (k : Link) : List Packet :=
  p :: fitting v (256 * flitsOf p - (16 + 16 * p.body)) (k.wait.eraseP (fun x => x.1 = v))

/-- A PAD packet that fills `n` bytes, a multiple of 16 (R481, R482). -/
def padBytes (n : Nat) : List Byte :=
  if n < 16 then [] else packetBytes { dstChip := 0, srcChip := 0, type := 0, epoch := 0, body := n / 16 - 1 }

/-- The payloads of a burst: its packets, and a PAD packet in what is left of the last flit. -/
def burstPayloads (l : List Packet) (n : Nat) : List (List Byte) :=
  let b := l.flatMap packetBytes
  let b := b ++ padBytes (256 * n - b.length)
  (List.range n).map (fun i => (b.drop (256 * i)).take 256)

/-- Packets of VC `v` taken from the queue, in order. -/
def dropWait (v : Nat) : Nat → List (Nat × Packet) → List (Nat × Packet)
  | 0, l => l
  | n + 1, l => dropWait v n (l.eraseP (fun x => x.1 = v))

/-- The burst that begins with the first packet that waits on VC `v` is sent: its flits take SEQ values, one after another, and are
outstanding (R478 to R481). -/
def vcSend (v : Nat) (p : Packet) (k : Link) : Link × List OutFlit :=
  let n := flitsOf p
  let b := burstOf v p k
  let fs : List OutFlit := (burstPayloads b n).zipIdx.map (fun x =>
    { seq := (k.sentSeq + 1 + x.2) % 4096, vc := v, bytes := x.1, ends := if x.2 + 1 = n then b else [] })
  ({ k with wait := dropWait v b.length k.wait, sent := k.sent ++ fs, sentSeq := (k.sentSeq + n) % 4096
            outVc := smod 0 k.outVc v (· + n), rrLeft := if 4 ≤ v then k.rrLeft - n else k.rrLeft }, fs)

/-- At most `n` bursts that may go are sent, with the flits that this takes. -/
def linkServe : Nat → Link → Link × List OutFlit
  | 0, k => (k, [])
  | n + 1, k => match nextVc k with
    | none => (k, [])
    | some x => match vcReady k x.1 with
      | none => (k, [])
      | some p =>
        let y := vcSend x.1 p { k with rrClass := x.2.1, rrLeft := x.2.2 }
        let z := linkServe n y.1
        (z.1, y.2 ++ z.2)

/-- Every packet of a link that may go is sent. -/
def linkFlush (l : Nat) (s : State) : State :=
  let x := linkServe (linkOf s l).wait.length (linkOf s l)
  forEach x.2 (fun f t => flitOut l 1 f.seq f.vc f.bytes t) (modLink l (fun _ => x.1) s)

/-- A packet is queued for a link on a VC (R480). -/
def linkQueue (l vc : Nat) (p : Packet) (s : State) : State :=
  linkFlush l (modLink l (fun k => { k with wait := k.wait ++ [(vc, p)] }) s)

/-- A packet leaves over link `l`, as it came over `fromLink` on dateline bit `dl` or from this chip. -/
def linkSend (n0 l : Nat) (fromLink : Option Nat) (dl : Nat) (p : Packet) (s : State) : State :=
  linkQueue l (2 * packetClass p.type + dateline s fromLink dl l) p (linkCount n0 l p s)

/-- An unreachable completion this chip generates (R503). -/
def countUnreach (s : State) : State := modLinks (fun k => { k with unreach := statInc 32 k.unreach }) s

/-- The loss of a token, credit, Hitch message or Hitch credit (R496): LINK_UNREACHABLE for the job of its epoch. -/
def lostJob (p : Packet) (reason : Nat) (s : State) : State :=
  if p.epoch = s.job.epoch then jobFault 0x0802 (headerBytes p ++ item 1 reason) s else s

/-- The packets of a message of this chip, `eff`, go on their way (R485), counted against step `n0`; a message without a route completes
as unreachable here, which `lost` acts on. -/
def segmentsOut (n0 : Nat) (l : List Packet) (eff : Effect) (lost : Nat → State → State) (s : State) : State :=
  let p := l.headD {}
  match routeNext s p.dstChip.toNat p.dstDie (failsOver p.type) with
  | .here => emit eff s
  | .link k => forEach l (linkSend n0 k none 0) (emit eff s)
  | .nowhere r => lost r (countUnreach s)

/-- A message of one packet goes on its way. -/
def packetOut (n0 : Nat) (p : Packet) (eff : Effect) (lost : Nat → State → State) (s : State) : State := segmentsOut n0 [p] eff lost s

/-- A packet that is discarded and counted under R496. -/
def linkDiscard (s : State) : State := modMgmt (fun m => { m with linkDiscards := statInc 32 m.linkDiscards }) s

/-- Die of an engine (R36). -/
def dieOfEng (e : Nat) : Nat := if e < 1152 then 0 else 1

/-- The TOKEN packet of a token (R482). -/
def tokenPacket (s : State) (m : TokenMsg) (dst : Nat) : Packet :=
  { dstChip := BitVec.ofNat 16 dst, srcChip := BitVec.ofNat 16 (ownChip s), type := 1, epoch := tagEpoch m.tag
    dstDie := dieOfEng m.dstEngine.val, body := 4, data := (List.range 8).map (fun i => m.payload.extractLsb' (64 * i) 64)
    info := atBit 0 m.dstEngine.val ||| atBit 12 m.dstQueue.val ||| atBit 16 m.tag.toNat ||| atBit 32 m.srcEngine.val |||
      atBit 44 m.srcPort.val }

/-- A token leaves for its chip. -/
def sendToken (n0 : Nat) (m : TokenMsg) (dst : Nat) (s : State) : State :=
  let p := tokenPacket s m dst
  packetOut n0 p (.token m dst) (lostJob p) s

/-- The CREDIT packet of a credit return (R482). -/
def creditPacket (s : State) (dst eng port n : Nat) (ep : BitVec 3) : Packet :=
  { dstChip := BitVec.ofNat 16 dst, srcChip := BitVec.ofNat 16 (ownChip s), type := 2, epoch := ep
    dstDie := dieOfEng eng, info := atBit 0 eng ||| atBit 12 port ||| atBit 16 n }

/-- Credits leave for their producer, counted against step `n0`. -/
def sendCredit (n0 dst eng port n : Nat) (ep : BitVec 3) (s : State) : State :=
  let p := creditPacket s dst eng port n ep
  packetOut n0 p (.credit dst eng port n ep) (lostJob p) s

/-- INFO of a synchronisation request (R482); `data` is the word stored, S2, or the sequence number. -/
def syncInfo (obj word : Nat) (st : Bool) (core thread : Nat) (data : Word) : Word :=
  atBit 0 obj ||| atBit 13 word ||| flagAt 16 st ||| atBit 17 core ||| atBit 26 thread ||| atBit 32 (data.toNat % 65536)

/-- The packet of a request (R482): the die is the one that serves the object (R335). -/
def syncPacket (s : State) (chip obj word : Nat) (st : Bool) (core thread : Nat) (data : Word) (reissue : Bool) : Packet :=
  { dstChip := BitVec.ofNat 16 chip, srcChip := BitVec.ofNat 16 (ownChip s), type := 3, epoch := s.job.epoch
    dstDie := obj / 4096, reissue := reissue, body := 1, data := [data, 0], info := syncInfo obj word st core thread data }

/-- The packet of a response (R482): to the core's die, with bits [47:0] of the request's INFO. -/
def syncReply (s : State) (chip core : Nat) (info : BitVec 48) (v : Word) : Packet :=
  { dstChip := BitVec.ofNat 16 chip, srcChip := BitVec.ofNat 16 (ownChip s), type := 4, epoch := s.job.epoch
    dstDie := core / 144, body := 1, data := [v, 0], info := info.setWidth 64 }

/-- A synchronisation request leaves, counted against step `n0`; `lost` acts on its loss here (R496, R498). -/
def sendSyncReq (n0 chip obj word : Nat) (st : Bool) (core thread : Nat) (data : Word) (reissue : Bool) (lost : Nat → State → State)
    (s : State) : State :=
  packetOut n0 (syncPacket s chip obj word st core thread data reissue) (.syncRequest chip obj word st core thread data reissue) lost s

/-- A synchronisation response leaves; a lost one is discarded (R496). -/
def sendSyncRsp (chip core thread : Nat) (info : BitVec 48) (v : Word) (s : State) : State :=
  packetOut (jobStride s) (syncReply s chip core info v) (.syncResponse chip core thread v) (fun _ => linkDiscard) s

/-! ## Stride packets (R483) -/

/-- The four words of a STRIDE body (R483): SUBTYPE `sub`, 0 MARKER, 1 LEN_REQ, 2 EVENT. -/
def strideWords (sub : Nat) (m : Marker) : List Word :=
  [BitVec.ofNat 64 m.stride, atBit 0 (m.len % 2 ^ 32) ||| atBit 32 (m.delay % 2 ^ 32),
   atBit 0 sub ||| flagAt 8 m.advance ||| atBit 16 (m.code % 65536) ||| atBit 32 (m.tackId % 2 ^ 32), atBit 0 (m.tackId / 2 ^ 32 % 2 ^ 32)]

/-- The STRIDE packet to chip `dst` (R482). -/
def stridePacket (s : State) (dst sub : Nat) (m : Marker) : Packet :=
  { dstChip := BitVec.ofNat 16 dst, srcChip := BitVec.ofNat 16 (ownChip s), type := 8, epoch := s.job.epoch, body := 2
    data := strideWords sub m }

/-- A stride-control message goes to chip `dst` by its route; a lost one is discarded (R483, R496). -/
def sendStride (dst sub : Nat) (m : Marker) (s : State) : State :=
  packetOut (jobStride s) (stridePacket s dst sub m) (.stride dst sub m) (fun _ => linkDiscard) s

end Sys2Proof.Machine
end

