-- ==== Sys2Proof/Machine/Halt.lean ====
section
/-!
DEFINITION. Containment at a core (R63, R194, R195): tokens and runs given up, the halt of a groom, refusals of its threads;
and the change of a measurement block (R576).
-/
namespace Sys2Proof.Machine

/-- Queue `q` of engine `e` drops the tokens that `keep` of them does not cover and owes their credits (R142). -/
def queueFree (e q keep : Nat) (s : State) : State :=
  modRin e q (fun r => { r with
    tokens := r.tokens.take keep
    freed := (r.tokens.drop keep).foldl (fun l m => addFreed (tagEpoch m.tag) 1 l) r.freed
    claimed := Nat.min r.claimed keep }) s

/-- One credit returned outside the queue's own count: the token's producer and epoch name it (R143, R160). -/
def creditBack (m : TokenMsg) (s : State) : State :=
  sendCredit (jobStride s) m.srcChip.toNat m.srcEngine.val m.srcPort.val 1 (tagEpoch m.tag) s

/-- An engine empties its early buffer, a credit back for each token (R166, R195). -/
def earlyEmpty (e : Nat) (s : State) : State :=
  modEng e (fun g => { g with early := [] }) (forEach (engOf s e).early (fun p t => creditBack p.1 t) s)

/-- Tokens at the head of queue `q` that a firing in progress consumes (R142). -/
def inFiring (s : State) (e q : Nat) : Nat :=
  match (engOf s e).firing with
  | none => 0
  | some f => if (gaitOf s e f.slot.val).inMask.getLsbD q then (rinOf s e q).cfg.q else 0

/-- Runs of engine `e` whose firing has not started are dropped (R245, R246). -/
def dropRuns (e : Nat) (s : State) : State :=
  let s := forEach (List.range 16) (fun q => modRin e q (fun r => { r with claimed := Nat.min r.claimed (inFiring s e q) })) s
  modEng e (fun g => { g with ags := smap {} (fun _ a => { a with runs := a.runs.filter (fun r => r.fired) }) g.ags }) s

/-- What the engines of a core do at its groom's halt (R194, R195): held instructions, tokens and runs whose firing has
not started are discarded, and the tokens' credits return. -/
def haltEngines (c : Nat) (s : State) : State :=
  forEach (coreEngines c) (fun e t =>
    let t := modEng e (fun g => { g with held := [] }) t
    let t := forEach (List.range 16) (fun q u => queueFree e q (inFiring u e q) u) t
    dropRuns e (earlyEmpty e t)) s

/-- A groom halts (R194): the first refusal of the halt stays in TILE_FAULT. -/
def haltCore (c t eng code pc need avail : Nat) (s : State) : State :=
  let s := if (coreOf s c).halted then s else
    modCore c (fun k => { k with
      halted := true
      fault := { code := code, thread := t, engine := eng, need := Nat.min need 0x7FFFFF, have_ := avail, pc := pc } }) s
  haltEngines c s

/-- A refusal on a groom thread (R194): the code is a job fault, recorded with core, thread, PC and what follows. -/
def groomRefuse (c t eng code : Nat) (more : List Byte) (need avail : Nat) (s : State) : State :=
  let pc := (threadOf s c t).pc
  haltCore c t eng code pc need avail
    (jobFault code (item 2 c ++ item 1 t ++ item 4 pc ++ more) s)

/-- What R315's records name of the word at offset `off` of core `c`'s scratchpad: core, bank and word. -/
def spadWord (c off : Nat) : List Byte := item 2 c ++ item 1 ((off / 128) % 32) ++ item 6 (off / 16 * 16)

/-- A memory code with a halt (R304, R628) for a word of the core's own scratchpad. -/
def spadRefuse (c t eng code pc off : Nat) (s : State) : State := haltCore c t eng code pc 0 0 (jobFault code (spadWord c off) s)

/-- One measurement block changes (R576). -/
def measChange (s : State) : State :=
  event 0x0B80 [] (modSec (fun k => { k with measGen := k.measGen + 1 }) s)

end Sys2Proof.Machine
end

