-- ==== Sys2Proof/Machine/Memory.lean ====
section
/-!
DEFINITION. The local address map (R51 to R56, R320), memory bytes and words, where a tier address lands (R279 to R282),
the placement map (R292), and what an error in a stored unit counts (R301).
-/
namespace Sys2Proof.Machine

/-- What a local address names. -/
inductive Region where
  | tierH (die : Nat)
  | tierL (die : Nat)
  | tierF (die : Nat)
  | spad (core off : Nat)
  | setAlias (core off : Nat)
  | clrAlias (core off : Nat)
  | sync (obj off : Nat)
  | session (idx off : Nat)
  | regs (off : Nat)
  | hole
  deriving DecidableEq, Repr

/-- Usable bytes of tier L behind one die: 15/16 of its eight ports (R52, R273). -/
def lHalf (s : State) : Nat := s.board.lpGib * 8 * 2 ^ 30 * 15 / 16

/-- Bytes of tier F behind one die (R52). -/
def fHalf (s : State) : Nat := s.board.nandGib * 8 * 2 ^ 30

/-- A scratchpad slot and offset, if the core's slot backs it (R54). -/
def spadAt (s : State) (o : Nat) : Option (Nat × Nat) :=
  let c := o / 0x800000
  if c < 288 && o % 0x800000 < spadBytes s c then some (c, o % 0x800000) else none

/-- The region of a local address (R51, R52, R54, R320); an unbacked address is a hole. -/
def regionOf (s : State) (a : Nat) : Region :=
  if a < 0x006000000000 then .tierH (if a < 0x003000000000 then 0 else 1)
  else if a < 0x010000000000 then .hole
  else if a < 0x030000000000 then
    if a < 0x020000000000 then (if a - 0x010000000000 < lHalf s then .tierL 0 else .hole)
    else (if a - 0x020000000000 < lHalf s then .tierL 1 else .hole)
  else if a < 0x400000000000 then .hole
  else if a < 0x800000000000 then
    if a < 0x600000000000 then (if a - 0x400000000000 < fHalf s then .tierF 0 else .hole)
    else (if a - 0x600000000000 < fHalf s then .tierF 1 else .hole)
  else if a < 0xF00000000000 then .hole
  else if a < 0xF00090000000 then
    match spadAt s (a - 0xF00000000000) with | some (c, o) => .spad c o | none => .hole
  else if 0xF04000000000 ≤ a && a < 0xF04090000000 then
    match spadAt s (a - 0xF04000000000) with | some (c, o) => .setAlias c o | none => .hole
  else if 0xF08000000000 ≤ a && a < 0xF08090000000 then
    match spadAt s (a - 0xF08000000000) with | some (c, o) => .clrAlias c o | none => .hole
  else if 0xF10000000000 ≤ a && a < 0xF10000080000 then
    .sync ((a - 0xF10000000000) / 64) ((a - 0xF10000000000) % 64)
  else if 0xF20000000000 ≤ a && a < 0xF20000400000 then
    .session ((a - 0xF20000000000) / 256) ((a - 0xF20000000000) % 256)
  else if 0xFF0000000000 ≤ a && a < 0xFF0004000000 then .regs (a - 0xFF0000000000)
  else .hole

/-- The local address of scratchpad offset `off` of core `c` (R54). -/
def spadAddr (c off : Nat) : Nat := 0xF00000000000 + c * 0x800000 + off

/-- Scratchpad bytes `off` to `off + n − 1` of core `c` are backed. -/
def spadBacked (s : State) (c off n : Nat) : Bool := off + n ≤ spadBytes s c

/-! ## Bytes -/

/-- Well-formed memory: addresses rise strictly and no entry equals what an unlisted address reads as (log 4). -/
abbrev Memory.wf (m : Sparse Byte) : Bool := scanon 0#8 none m

/-- An address is held under the tenant key: tiers L and F less the dump regions (R298, R308). -/
def underKey (s : State) (a : Nat) : Bool :=
  (0x010000000000 ≤ a && a < 0x030000000000 &&
    !(0x010000000000 + lHalf s - 2 ^ 30 ≤ a && a < 0x010000000000 + lHalf s)) ||
  (0x400000000000 ≤ a && a < 0x800000000000 &&
    !(0x400000000000 + fHalf s - 2 ^ 34 ≤ a && a < 0x400000000000 + fHalf s))

/-- The cipher of a key generation on a data unit, the tweak its address shifted right by 6 (R308); none before the first key. -/
def cipher (gen n : Nat) : Equiv.Perm (BitVec 512) := if gen = 0 then Equiv.refl _ else Config.xts gen n

/-- Sector `n` of memory as one value, its first byte lowest (R10). -/
def sectorBits (m : Sparse Byte) (n : Nat) : BitVec 512 :=
  BitVec.ofNat 512 (numLE ((List.range 64).map (fun i => sget 0#8 m (64 * n + i))))

/-- What sector `n`, written as `p` under generation `old`, decrypts to under `now`: never `p` (R310, log 9). -/
def rekeyed (old now n : Nat) (p : BitVec 512) : BitVec 512 :=
  let x := (cipher now n).symm (cipher old n p)
  if x = p then x + 1 else x

/-- The keys of tiers L and F are destroyed or replaced: the next generation is in use (R309, R310). -/
def newKey (s : State) : State := { s with scr := { s.scr with gen := s.scr.gen + 1 } }

/-- The sector of `a` was last written under a key that is destroyed (R310). -/
def keyStale (s : State) (a : Nat) : Bool :=
  s.scr.gen ≠ 0 && underKey s (64 * (a / 64)) && sget 0 s.scr.sectors (a / 64) ≠ s.scr.gen

/-- What the sector of `a` reads as while its key is stale. -/
def staleSector (s : State) (n : Nat) : BitVec 512 := rekeyed (sget 0 s.scr.sectors n) s.scr.gen n (sectorBits s.mem n)

/-- The byte at a plain local address. Memory holds what was written, as plaintext (log 9). -/
def readByte (s : State) (a : Nat) : Byte :=
  if keyStale s a then (staleSector s (a / 64)).extractLsb' (8 * (a % 64)) 8 else sget 0#8 s.mem a

/-- The 64 bytes of sector `n` set to a value. -/
def putSector (m : Sparse Byte) (n : Nat) (v : BitVec 512) : Sparse Byte :=
  (List.range 64).foldl (fun m i => sset 0#8 m (64 * n + i) (v.extractLsb' (8 * i) 8)) m

/-- The state with the byte at `a` written: a sector under a stale key is encrypted anew, whole, as it then reads (R308). -/
def writeByte (a : Nat) (b : Byte) (s : State) : State :=
  if keyStale s a then { s with
    mem := sset 0#8 (putSector s.mem (a / 64) (staleSector s (a / 64))) a b
    scr := { s.scr with sectors := sset 0 s.scr.sectors (a / 64) s.scr.gen } }
  else { s with mem := sset 0#8 s.mem a b }

/-- `n` bytes from `a`. -/
def readBytes (s : State) (a : Nat) : Nat → List Byte
  | 0 => []
  | n + 1 => readByte s a :: readBytes s (a + 1) n

/-- The state with bytes written from `a` on. -/
def writeBytes (a : Nat) : List Byte → State → State
  | [], s => s
  | b :: bs, s => writeBytes (a + 1) bs (writeByte a b s)

/-- The number that `n` bytes from `a` spell (R10). -/
def readNum (s : State) (a n : Nat) : Nat := numLE (readBytes s a n)

/-- The 64-bit word at `a`. -/
def readWord (s : State) (a : Nat) : Word := BitVec.ofNat 64 (readNum s a 8)

/-- The state with the 64-bit word at `a` written. -/
def writeWord (a : Nat) (w : Word) (s : State) : State := writeBytes a (bytesLE 8 w.toNat) s

/-- Scratchpad bytes of a core. -/
def readSpad (s : State) (c off n : Nat) : List Byte := readBytes s (spadAddr c off) n

/-- A number in a core's scratchpad. -/
def spadNum (s : State) (c off n : Nat) : Nat := readNum s (spadAddr c off) n

/-- A core's scratchpad with bytes written at `off`. -/
def writeSpad (c off : Nat) (bs : List Byte) (s : State) : State := writeBytes (spadAddr c off) bs s

/-- An atomic write of `v` to the word at plain address `a` (R321). -/
def atomicWrite (setBits : Bool) (a : Nat) (v : Word) (s : State) : State :=
  writeWord a (if setBits then readWord s a ||| v else readWord s a &&& ~~~v) s

/-- Memory with `n` bytes from `a` at 0. -/
def zeroBytes (a n : Nat) (s : State) : State :=
  { s with mem := (sclear s.mem a (a + n)) }

/-- `n` bytes from `a` at 0 as a reader sees them, in any tier. -/
def zeroFill (a n : Nat) (s : State) : State :=
  if s.scr.gen = 0 then zeroBytes a n s else writeBytes a (List.replicate n 0#8) s

/-! ## Where a tier address lands -/

/-- The port that serves a tier address, as R271 numbers ports (R279, R280, R281). -/
def portOfAddr (a : Nat) : Nat :=
  if a < 0x006000000000 then
    let die := if a < 0x003000000000 then 0 else 1
    let o := a - die * 0x003000000000
    die * 4 + (o >>> 12) % 4
  else if a < 0x400000000000 then
    let die := if a < 0x020000000000 then 0 else 1
    let o := a - 0x010000000000 - die * 0x010000000000
    8 + die * 8 + (o / 3840) % 8
  else
    let die := if a < 0x600000000000 then 0 else 1
    let o := a - 0x400000000000 - die * 0x200000000000
    24 + die * 8 + (o >>> 14) % 8

/-- The stack and its address of a tier H address (R279). -/
def hLanding (a : Nat) : Nat × Nat × Nat :=
  let die := if a < 0x003000000000 then 0 else 1
  let o := a - die * 0x003000000000
  let sa := ((o >>> 14) <<< 12) ||| (o % 0x1000)
  (die * 4 + (o >>> 12) % 4, sa, (sa >>> 8) % 32)

/-- Port, device byte address and check-sector address of a tier L address (R280). -/
def lLanding (a : Nat) : Nat × Nat × Nat × Nat :=
  let die := if a < 0x020000000000 then 0 else 1
  let o := a - 0x010000000000 - die * 0x010000000000
  let g := o / 3840
  let sec := (g / 8) * 60 + (o % 3840) / 64
  let chunk := sec / 15
  let slot := sec % 15
  (die * 8 + g % 8, slot, chunk * 1024 + slot * 64 + o % 64, chunk * 1024 + 960)

/-- Channel, channel-local logical page and byte within it of a tier F address (R281). -/
def fLanding (a : Nat) : Nat × Nat × Nat :=
  let die := if a < 0x600000000000 then 0 else 1
  let o := a - 0x400000000000 - die * 0x200000000000
  (die * 8 + (o >>> 14) % 8, o >>> 17, o % 0x4000)

/-- Key of a logical block of a channel (R281): channel-local pages come in blocks of 2^`blockLog2`. -/
def blockKey (s : State) (a : Nat) : Nat := (fLanding a).1 * 2 ^ 32 + (fLanding a).2.1 / 2 ^ s.board.blockLog2

/-- The good physical block behind a tier F address: the block of the same number but where Etxia's block map says otherwise (R281,
log 82). -/
def physBlock (s : State) (a : Nat) : Nat :=
  let k := blockKey s a
  sget (k % 2 ^ 32) s.tiers.blocks k

/-- Local bytes that one logical block of every channel of a die spans. -/
def blockSpan (s : State) : Nat := 2 ^ s.board.blockLog2 * 0x20000

/-- Bytes of a placement page by tier: 0 H, 1 L, 2 F (R282). -/
def pageBytes (tier : Nat) : Nat := if tier = 1 then 1966080 else 2097152

/-- First address of a die's half of a tier (R52). -/
def tierBase (tier die : Nat) : Nat :=
  if tier = 0 then die * 0x003000000000
  else if tier = 1 then 0x010000000000 + die * 0x010000000000
  else 0x400000000000 + die * 0x200000000000

/-- Bytes of a die's half of a tier less the regions of R298. -/
def tierRoom (s : State) (tier die : Nat) : Nat :=
  if tier = 0 then 0x003000000000 - 512 * 2 ^ 20
  else if tier = 1 then lHalf s - (if die = 0 then 2 ^ 30 else 0)
  else fHalf s - (if die = 0 then 2 ^ 34 else 0)

/-- Tier and die of a tier region. -/
def tierOf : Region → Option (Nat × Nat)
  | .tierH d => some (0, d)
  | .tierL d => some (1, d)
  | .tierF d => some (2, d)
  | _ => none

/-- The base address of the placement page that holds `a`, the key of the placement map (R282). -/
def pageOf (s : State) (a : Nat) : Nat :=
  match tierOf (regionOf s a) with
  | none => a
  | some (t, d) => a - (a - tierBase t d) % pageBytes t

/-- The map state of a page. -/
def pageState (s : State) (p : Nat) : Page := sget .unmapped s.tiers.pages p

/-- R314's byte for a map state. -/
def mapByte : Page → Nat
  | .present _ => 0
  | .absent _ => 1
  | .unmapped => 2

/-! ## Access from the fabric (R55, R56, R287, R292, R338, R386) -/

/-- What a fabric access meets. `refused m`: no data moves; `m` is R314's map state. -/
inductive Access where
  | proceed
  | absent (page : Nat)
  | refused (m : Nat)
  deriving DecidableEq, Repr

/-- A fabric access to one address of a tier or scratchpad. -/
def accessAt (s : State) (write : Bool) (a : Nat) : Access :=
  match regionOf s a with
  | .spad _ _ => .proceed
  | .setAlias _ _ => .proceed
  | .clrAlias _ _ => .proceed
  | .tierH _ => match pageState s (pageOf s a) with
    | .present _ => .proceed
    | .absent _ => .absent (pageOf s a)
    | .unmapped => .refused 2
  | .tierL _ => match pageState s (pageOf s a) with
    | .present _ => .proceed
    | .absent _ => .absent (pageOf s a)
    | .unmapped => .refused 2
  | .tierF _ => match pageState s (pageOf s a) with
    | .present _ => if write then .refused 0 else .proceed
    | .absent _ => .refused 1
    | .unmapped => .refused 2
  | _ => .refused 3

/-- A fabric access to `n` bytes from `a`: what its first byte meets, or else its last (a request spans at most two pages). -/
def accessRange (s : State) (write : Bool) (a n : Nat) : Access :=
  match accessAt s write a with
  | .proceed => accessAt s write (a + n - 1)
  | x => x

/-! ## Errors of stored units (R301) -/

/-- MEM_ERR and MEM_ERR_LAST after an outcome (R312): `kind` that of a code failure, `addr` the unit's. -/
def memErr (e : Ecc) (kind addr : Nat) (m : MemErr) : MemErr :=
  match e with
  | .corrected => { m with corr := statInc 32 m.corr }
  | .code => { m with uncorr := statInc 16 m.uncorr, kind := kind, addr := addr }
  | .crc => { m with crc := statInc 12 m.crc, kind := 1, addr := addr }
  | .clean => m

/-- A unit at plain address `a` decoded with outcome `e`: the store's counters and the totals (R145, R301, R312). -/
def noteEcc (e : Ecc) (a : Nat) (s : State) : State :=
  if e = .clean then s else
  let s := countEcc (e = .corrected) s
  match regionOf s a with
  | .spad c _ =>
    modCore c (fun k => { k with spad :=
      match e with
      | .corrected => { k.spad with corr := statInc 32 k.spad.corr }
      | .code => { k.spad with uncorr := statInc 20 k.spad.uncorr, kind := 0, addr := a / 16 * 16 }
      | .crc => { k.spad with uncorr := statInc 20 k.spad.uncorr, kind := 1, addr := a / 16 * 16 }
      | .clean => k.spad }) s
  | .tierH _ | .tierL _ | .tierF _ =>
    let unit := memErr e (if 0x400000000000 ≤ a then 2 else 0) (a / 64 * 64)
    modTiers (fun t => { t with errs := smod {} t.errs (portOfAddr a) unit }) s
  | _ => s

/-- A word of Ostler core `o`'s SRAM at byte offset `off` decoded with outcome `e` (R301, R312): ports 40 to 47. -/
def noteSram (e : Ecc) (o off : Nat) (s : State) : State :=
  if e = .clean then s else
  modTiers (fun t => { t with errs := smod {} t.errs (40 + o) (memErr e 0 (off / 16 * 16)) }) (countEcc (e = .corrected) s)

/-- What a store's code corrects: 2 symbols, on tier F 40 bits of a codeword (R301). -/
def eccPower (s : State) (a : Nat) : Nat := match regionOf s a with | .tierF _ => 40 | _ => 2

/-- The outcome of decoding the unit at plain address `a` (R301, R303). -/
def unitEcc (s : State) (a : Nat) (x : UnitErr) : Ecc :=
  if x.wrong = 0 then .clean
  else if x.wrong ≤ eccPower s a then .corrected
  else match x.wide with
    | .code => .code
    | .crc => .crc
    | .escaped counted _ => if counted then .corrected else .clean

/-- Bytes of a stored unit: a sector of a tier, a word of an SRAM (R299). -/
def unitSize (s : State) (a : Nat) : Nat := if (tierOf (regionOf s a)).isSome then 64 else 16

/-- A pattern that escaped: from then on the store holds, for every reader, the bytes that the unit decodes as (R303, log 96). -/
def unitEscape (x : UnitErr) (a : Nat) (s : State) : State :=
  let n := unitSize s a
  match regionOf s a with
  | .tierH _ | .tierL _ | .tierF _ | .spad _ _ =>
    if x.wrong ≤ eccPower s a then s else
    match x.wide with
    | .escaped _ bs => writeBytes (a / n * n) (bs.take n) s
    | _ => s
  | _ => s

/-- The unit at plain address `a` is read: what decoding it finds is counted where it lies (R301, R303). -/
def unitFound (x : UnitErr) (a : Nat) (s : State) : State := unitEscape x a (noteEcc (unitEcc s a x) a s)

/-- The plain scratchpad address behind an address of the slot or alias ranges (R320). -/
def plainAddr (s : State) (a : Nat) : Nat :=
  match regionOf s a with
  | .setAlias c o => spadAddr c o
  | .clrAlias c o => spadAddr c o
  | _ => a

/-- The units among `errs` that `n` bytes from plain address `a` reach into, at plain addresses. -/
def unitsIn (s : State) (a n : Nat) (errs : List (BitVec 48 × UnitErr)) : List (Nat × UnitErr) :=
  (errs.map (fun u => (plainAddr s u.1.toNat, u.2))).filter (fun u =>
    let k := unitSize s u.1
    u.1 / k * k < a + n && a < u.1 / k * k + k)

/-- The outcome is an error the code cannot correct. -/
def eccBad (e : Ecc) : Bool := e = .code || e = .crc

/-- The first unit with an uncorrectable error: its address, the outcome and the retry levels tried. -/
def badUnit (s : State) (l : List (Nat × UnitErr)) : Option (Nat × Ecc × Nat) :=
  l.findSome? (fun u => let e := unitEcc s u.1 u.2; if eccBad e then some (u.1, e, u.2.retries) else none)

/-- The memory code of an uncorrectable error in a tier (R304, R315). -/
def memCode (s : State) (e : Ecc) (a : Nat) : Nat :=
  if e = .crc then 0x0504 else
  match regionOf s a with
  | .tierH _ => 0x0501
  | .tierL _ => 0x0502
  | .tierF _ => 0x0503
  | _ => 0x0505

end Sys2Proof.Machine
end

