-- ==== Sys2Proof/Machine/Ecc.lean ====
section
/-!
DEFINITION. The checks of stored units (R280, R299, R300): the Reed–Solomon code over GF(2^7), the CRCs, the check fields and check
sectors of tier L, the spare area of a tier F page; and what ports keep of what they read (R284, R286). A check is a function of what
is stored, so no field of State holds one; what decoding a damaged unit finds is an operand (log 16). Orders the spec leaves open are
log 81.
-/
namespace Sys2Proof.Machine

/-! ## GF(2^7) and the code -/

/-- Multiplication by α, a root of x^7 + x^3 + 1 (R299). -/
def gfDouble (a : Nat) : Nat := if 64 ≤ a then (2 * a) % 128 ^^^ 0x09 else 2 * a

/-- Multiplication in GF(2^7), by the bits of `b`. -/
def gfMul (a b : Nat) : Nat :=
  ((List.range 7).foldl (fun (x : Nat × Nat) i => (if b.testBit i then x.1 ^^^ x.2 else x.1, gfDouble x.2)) (0, a)).1

/-- α^n. -/
def gfPow : Nat → Nat
  | 0 => 1
  | n + 1 => gfDouble (gfPow n)

/-- The generator's coefficients below x^4, lowest first: the roots are α^0 to α^3 (R299). -/
def rsGen : List Nat :=
  (List.range 4).foldl (fun g i =>
    (List.range 4).map (fun j => (if j = 0 then 0 else g.getD (j - 1) 0) ^^^ gfMul (gfPow i)
      (if j < i then g.getD j 0 else if j = i then 1 else 0) ^^^ (if j = i + 1 ∧ j < 4 then 1 else 0))) [0, 0, 0, 0]

/-- The 7-bit symbols of `n` protected bits, from bit 0 upward (R299). -/
def rsSymbols (n v : Nat) : List Nat := (List.range (ceilDiv n 7)).map (fun i => v >>> (7 * i) % 128)

/-- The 4 check symbols of a unit: the remainder of its symbols, the last one first, by the generator (log 81). -/
def rsCheck (syms : List Nat) : List Nat :=
  syms.reverse.foldl (fun r m =>
    let q := m ^^^ r.getD 3 0
    (List.range 4).map (fun j => (if j = 0 then 0 else r.getD (j - 1) 0) ^^^ gfMul q (rsGen.getD j 0))) [0, 0, 0, 0]

/-- Check symbols as 28 bits, the lowest first. -/
def rsBits (l : List Nat) : Nat := l.zipIdx.foldl (fun n x => n + x.1 * 128 ^ x.2) 0

/-- The value of a word's polynomial at α^i: 0 for i from 0 to 3 exactly where the word is one of the code. -/
def rsSyndrome (syms check : List Nat) (i : Nat) : Nat :=
  ((check ++ syms).reverse).foldl (fun x m => gfMul x (gfPow i) ^^^ m) 0

/-! ## The CRCs -/

/-- A CRC of width `w` with the low coefficients `poly` of its polynomial over `n` bits of `v` from bit 0 upward, from 0 (log 81). -/
def crcBits (w poly n v : Nat) : Nat :=
  (List.range n).foldl (fun r i =>
    let top := r.testBit (w - 1) != v.testBit i
    (2 * r) % 2 ^ w ^^^ (if top then poly else 0)) 0

/-- CRC-6: x^6 + x + 1 (R299). -/
def crc6 (n v : Nat) : Nat := crcBits 6 0b11 n v
/-- CRC-4: x^4 + x + 1 (R299). -/
def crc4 (n v : Nat) : Nat := crcBits 4 0b11 n v

/-! ## Units as stored -/

/-- Sector `n` as it is stored: ciphertext where it lies under a tenant key (R300, R308). -/
def storedSector (s : State) (n : Nat) : BitVec 512 :=
  if underKey s (64 * n) then cipher (sget 0 s.scr.sectors n) n (sectorBits s.mem n) else sectorBits s.mem n

/-- A sector's bytes. -/
def sectorBytes (v : BitVec 512) : List Byte := bytesLE 64 v.toNat

/-- Stack ECC bits of a tier H sector (R299): CRC-32C, then the code over data and CRC, then 4 bits of 0. -/
def checkH (v : BitVec 512) : BitVec 64 :=
  let c := (crc32c (sectorBytes v)).toNat
  BitVec.ofNat 64 (c + rsBits (rsCheck (rsSymbols 544 (v.toNat + c * 2 ^ 512))) * 2 ^ 32)

/-- The 34-bit check field of a tier L sector (R280, R299): CRC-6, then the code. -/
def checkL (v : BitVec 512) : BitVec 34 :=
  let c := crc6 512 v.toNat
  BitVec.ofNat 34 (c + rsBits (rsCheck (rsSymbols 518 (v.toNat + c * 2 ^ 512))) * 2 ^ 6)

/-- The 32 check bits of a 128-bit word of scratchpad or Ostler SRAM (R299): CRC-4, then the code. -/
def checkWord (v : BitVec 128) : BitVec 32 :=
  let c := crc4 128 v.toNat
  BitVec.ofNat 32 (c + rsBits (rsCheck (rsSymbols 132 (v.toNat + c * 2 ^ 128))) * 2 ^ 4)

/-- The local sector number of data sector `sec` of LPDDR5X port `q`, 0 to 15: the inverse of `lLanding` (R280). -/
def lSector (q sec : Nat) : Nat :=
  (0x010000000000 + q / 8 * 0x010000000000 + (sec / 60 * 8 + q % 8) * 3840) / 64 + sec % 60

/-- The check sector of a chunk of LPDDR5X port `q` (R280, R285): slot k's field at bits [34k + 33:34k], bits [511:510] 0. It is made
from every sector of the chunk as it stands, so no update of a field is lost. -/
def checkSector (s : State) (q chunk : Nat) : BitVec 512 :=
  BitVec.ofNat 512 ((List.range 15).foldl (fun n k =>
    n + (checkL (storedSector s (lSector q (15 * chunk + k)))).toNat * 2 ^ (34 * k)) 0)

/-- One codeword of a tier F page (R299): 1,024 bytes of data, the CRC-32C of each of its 16 sectors, the BCH bytes. -/
def codewordF (s : State) (n : Nat) : List Byte :=
  let data := (List.range 16).flatMap (fun i => sectorBytes (storedSector s (n + i)))
  let crcs := (List.range 16).flatMap (fun i => bytesLE 4 (crc32c (sectorBytes (storedSector s (n + i)))).toNat)
  crcs ++ bytesLE 70 (Config.bch (numLE (data ++ crcs))).toNat

/-- The spare area of the tier F page at `a` (R276, R299): a 32-byte header with its own CRC-32C, whose other 28 bytes are
`hdr`, then the checks of the page's 16 codewords. -/
def spareF (s : State) (hdr : List Byte) (a : Nat) : List Byte :=
  hdr ++ bytesLE 4 (crc32c hdr).toNat ++ (List.range 16).flatMap (fun i => codewordF s (a / 64 + 16 * i))

/-! ## What ports keep -/

/-- `x` becomes the most recently used of at most `n`. -/
def lruTouch (n x : Nat) (l : List Nat) : List Nat :=
  let l := l.filter (fun y => y ≠ x) ++ [x]
  l.drop (l.length - n)

/-- The check sectors of `n` bytes from tier L address `a`, by port and device address. -/
def checkSectorsAt (a n : Nat) : List (Nat × Nat) :=
  ((List.range (ceilDiv (a % 64 + n) 64)).map (fun i => let x := lLanding (a + 64 * i); (8 + x.1, x.2.2.2))).eraseDups

/-- Addresses at which `n` bytes from tier F address `a` enter a page (R281). -/
def pageHeads (a n : Nat) : List Nat := (List.range (ceilDiv (a % 16384 + n) 16384)).map (fun i => a / 16384 * 16384 + 16384 * i)

/-- The channel's port and page of a tier F address. -/
def channelPage (a : Nat) : Nat × Nat := let x := fLanding a; (24 + x.1, x.2.1)

/-- The ports note a transfer of `n` bytes at `a`: an LPDDR5X port reads or writes the check sectors of the chunks it touches and keeps
the last 64 (R284); a NAND channel's pages, once read, enter its buffer of 64 in place of the least recently used (R286). Of a long
transfer the last bytes decide what is kept. -/
def portTouch (a n : Nat) (s : State) : State :=
  match regionOf s a with
  | .tierL _ =>
    let m := Nat.min n 0x100000
    modTiers (fun t => { t with checks := (checkSectorsAt (a + n - m) m).foldl (fun k x => smod [] k x.1 (lruTouch 64 x.2)) t.checks }) s
  | .tierF _ =>
    let m := Nat.min n 0x800000
    forEach ((pageHeads (a + n - m) m).map channelPage) (fun x => modTiers (fun t => { t with
      bufs := smod [] t.bufs x.1 (lruTouch 64 x.2)
      pageReads := smod [] t.pageReads x.1 (fun l => l.filter (fun p => p ≠ x.2)) })) s
  | _ => s

/-- A page read of the channel ends without data: its port failed. -/
def pageReadDrop (a : Nat) (s : State) : State :=
  match regionOf s a with
  | .tierF _ =>
    let x := fLanding a
    modTiers (fun t => { t with pageReads := smod [] t.pageReads (24 + x.1) (fun l => l.filter (fun p => p ≠ x.2.1)) }) s
  | _ => s

/-- The channel may take a request to a tier F address: its page is buffered or already being read, or fewer than 32 page reads are
outstanding (R286). -/
def pageReadMay (s : State) (a : Nat) : Bool :=
  match regionOf s a with
  | .tierF _ =>
    let x := fLanding a
    let out := sget [] s.tiers.pageReads (24 + x.1)
    (sget [] s.tiers.bufs (24 + x.1)).contains x.2.1 || out.contains x.2.1 || out.length < 32
  | _ => true

/-- The channels may take requests for all of `n` bytes at `a` (R286). -/
def readsMay (s : State) (a n : Nat) : Bool := match regionOf s a with | .tierF _ => (pageHeads a n).all (pageReadMay s) | _ => true

/-- A request to a tier F address starts a page read, unless its page is buffered or being read (R286). -/
def pageReadStart (a : Nat) (s : State) : State :=
  match regionOf s a with
  | .tierF _ =>
    let x := fLanding a
    if (sget [] s.tiers.bufs (24 + x.1)).contains x.2.1 || (sget [] s.tiers.pageReads (24 + x.1)).contains x.2.1 then s
    else modTiers (fun t => { t with pageReads := smod [] t.pageReads (24 + x.1) (fun l => l ++ [x.2.1]) }) s
  | _ => s

/-- A fabric requester of die `d` consults the placement map for the page of `a` (R292): an entry that its die's cache of 4,096 does
not hold is fetched, which MAPC_MISS counts, and takes the place of the one fetched first (log 82). -/
def mapConsult (d a : Nat) (s : State) : State :=
  match regionOf s a with
  | .tierH _ | .tierL _ =>
    let p := pageOf s a
    let l := sget [] s.tiers.mapc d
    if l.contains p then s else
    modTiers (fun t => { t with mapMiss := statInc 31 t.mapMiss
                                mapc := sset [] t.mapc d ((l ++ [p]).drop (l.length + 1 - 4096)) }) s
  | _ => s

/-- The die of a core. -/
def dieOf (c : Nat) : Nat := c / 144

end Sys2Proof.Machine
end

