-- ==== Sys2Proof/Machine/Status.lean ====
section
/-!
DEFINITION. Status words that the part computes from its state: STRIDE_STATE (R95), POWER_STATE and HEALTH (R546, R547),
JOB_STATE (R465), CHG_JOURNAL (R463), the input image (R543), Tally banks as bytes (R556, R560), PORTS_UP (R313).
-/
namespace Sys2Proof.Machine

/-- TEMP_MAX (R546): the hottest of the 32 die sensors. -/
def tempMax (s : State) : Int := (List.range 32).foldl (fun m n => max m (sget 0 s.thermal.sensors n)) (sget 0 s.thermal.sensors 0)

/-- Sensors take readings; T_HOT on any throttles, until every one reads 90 °C or less (R532). -/
def readSensors (l : List (Int × Nat)) (t : Thermal) : Thermal :=
  let m := (l.filter (fun x => x.2 < 32)).foldl (fun m x => sset 0 m x.2 x.1) t.sensors
  { t with
    sensors := m
    throttle := (List.range 32).any (fun n => 950 ≤ sget 0 m n) || (t.throttle && (List.range 32).any (fun n => 900 < sget 0 m n)) }

/-- THROTTLE_N counts as low: the pin, or temperature (R532). -/
def throttled (s : State) : Bool := !s.pins.throttleN || s.thermal.throttle

/-- STRIDE_STATE (R95). -/
def strideState (s : State) : Nat :=
  bit01 s.stride.aligned + 2 * bit01 s.stride.fallback + 4 * bit01 s.stride.root + 8 * bit01 s.stride.fixed +
  16 * bit01 s.stride.budgetUnmet + 32 * bit01 (throttled s) + 64 * bit01 (!s.pins.powerFailN)

/-- POWER_STATE (R546). -/
def powerState (s : State) : Nat :=
  bit01 (!s.pins.powerFailN) + 2 * bit01 (!s.pins.throttleN) + 4 * bit01 s.thermal.throttle +
  8 * bit01 s.stride.budgetUnmet + 16 * bit01 s.mgmt.frozen

/-- Some listed unit has property `p`. -/
def anyOf {α : Type} (m : Sparse α) (p : α → Bool) : Bool := m.any (fun x => p x.2)

/-- A changeover is requested or open (R457). -/
def changeoverPending (s : State) : Bool := s.job.tenantReq.isSome || s.job.chgOpen

/-- SUBMITs that are pending (R445): those that wait for a selection and the one that waits for its install. -/
def pendingJobs (s : State) : List JobCmd := s.job.pending ++ s.job.chosen.toList

/-- Online Ostler cores (R58, R616): online and admitted. -/
def ostlerUp (s : State) (n : Nat) : Bool := (ostlerOf s n).online && (ostlerOf s n).svc == (ostlerOf s n).loaded

/-- Number of online Ostler cores. -/
def ostlersUp (s : State) : Nat := ((List.range 8).filter (ostlerUp s)).length

/-- CORES_PENDING (R334). -/
def coresPending (s : State) : Nat := (s.cores.filter (fun c => c.2.far.retire)).length

/-- HEALTH (R547). -/
def health (s : State) : Nat :=
  bit01 s.chipFault.isSome + 2 * bit01 s.mgmt.masterLost + 4 * bit01 s.stride.budgetUnmet + 8 * bit01 (throttled s) +
  16 * bit01 (!s.pins.powerFailN) + 32 * bit01 (decide (950 ≤ tempMax s)) +
  64 * bit01 (anyOf s.links.links (fun l => l.state = 4 || l.state = 5)) +
  128 * bit01 (anyOf s.tiers.ports (fun p => p.state = 4)) + 256 * bit01 (coresPending s ≠ 0) +
  512 * bit01 (ostlersUp s < 8) + 1024 * bit01 s.tally.gap.isSome + 2048 * bit01 (changeoverPending s) +
  4096 * bit01 (s.host.width = 0) + 8192 * bit01 (s.mgmt.wardPending ≠ 0)

/-- ALERT_N is driven low (R531, R599). -/
def alertLow (s : State) : Bool :=
  decide (950 ≤ tempMax s) || s.stride.budgetUnmet || throttled s || s.chipFault.isSome || s.boot.stopped

/-- JOB_STATE (R465): 4 changeover, 1 installing, 3 draining, 2 running, 0 none. -/
def jobState (s : State) : Nat :=
  if s.job.chgOpen then 4 else if s.job.install.isSome then 1 else
  match s.job.run with
  | none => 0
  | some r => if r.draining then 3 else 2

/-- TACK_ID of the running job (R465). -/
def runTackId (s : State) : Nat := match s.job.run with | none => 0 | some r => r.tack.tackId

/-- CHG_JOURNAL (R463). -/
def journalWord (s : State) : Nat :=
  s.job.chg.newTenant.toNat * 2 ^ 48 + s.job.chg.oldTenant.toNat * 2 ^ 32 + s.job.chg.attempts * 256 + s.job.chg.phase

/-- The input image (R543). -/
def inputImage (s : State) : List Byte :=
  bytesLE 8 s.stride.count ++ bytesLE 4 s.stride.len ++ bytesLE 4 (health s) ++ bytesLE 2 s.stride.pMeasW ++
  bytesLE 2 s.stride.pTailW ++ bytesLE 2 (ofSigned 16 (tempMax s)) ++ bytesLE 2 s.mgmt.rmEcho.toNat ++
  bytesLE 1 (powerState s) ++ bytesLE 1 (strideState s) ++ bytesLE 1 (jobState s)

/-- The Tumbler rebuilds the input image and swaps it whole (R544, R545); not while it restarts (R622) or its clock is gone (R565). -/
def rebuildImage (s : State) : State :=
  if s.boot.restart || s.mgmt.clockLost then s else
  let s := modMgmt (fun m => { m with rmEcho := m.rmImage }) s
  modMgmt (fun m => { m with image := inputImage s }) s

/-- PORTS_UP (R313). -/
def portsUp (s : State) : Nat := ((List.range 40).filter (fun p => (portOf s p).state = 2)).foldl (fun n p => n + 2 ^ p) 0

/-! ## Stride length (R67, R78 to R84) -/

/-- The longest stride (R65). -/
def lenMax : Nat := 4194304

/-- A length rounded up to a multiple of 64 fc (R65, log 77). -/
def up64 (n : Nat) : Nat := 64 * ceilDiv n 64

/-- The settings as they stand now. -/
def nowSettings (s : State) : Settings := { budget := s.mgmt.budget, throttle := throttled s, powerFail := !s.pins.powerFailN }

/-- The power-following length under a budget, and whether the budget cannot be met (R78, R79). L_current is the length of the stride over
which P_MEAS was averaged, within a stride as at a boundary (DESIGN CHOICE, log 93). -/
def followLen (budget : Nat) (s : State) : Nat × Bool :=
  let b := Nat.max budget 400
  let t := s.stride
  if b ≤ t.pTailW then (lenMax, true)
  else
    let n := 64 * ceilDiv ((t.pMeasW - t.pTailW) * t.lastLen) (64 * (b - t.pTailW))
    if lenMax < n then (lenMax, true) else (n, false)

/-- The fixed length in force, else 0 (R83). -/
def fixedLen (s : State) : Nat :=
  if s.stride.fixed then (match jobTack s with | none => 0 | some k => k.ledger.lFixed) else 0

/-- The length that this chip's own terms give under settings `x`, with BUDGET_UNMET (R65, R67, R79, R80, R84). -/
def ownLen (x : Settings) (s : State) : Nat × Bool :=
  let t := s.stride
  let p := if t.fixed then (0, decide (x.budget < t.pMeasW)) else followLen x.budget s
  let thr := if x.throttle then t.base * t.factorNow else 0
  let pf := if x.powerFail then lenMax else 0
  (Nat.min lenMax (up64 ([t.base, p.1, thr, pf, fixedLen s].foldl Nat.max 0)), p.2 || decide (x.budget < 400))

/-- The running job has more chips than this one (R71). -/
def multiChip (s : State) : Bool := match s.job.run with | none => false | some r => r.tack.groupChips ≠ 1

/-- The stride terms of the stride that follows the one that begins: those of the incoming job where its step 0 is due there (R64,
R84, R437). -/
def nextTerms (s : State) : State :=
  match s.job.install with
  | some i => if i.phase = 3 && i.total ≤ i.strides + 1 then
      modStride (fun t => { t with base := i.tack.ledger.lBase, fixed := i.tack.ledger.lFixed ≠ 0 }) s else s
  | none => s

/-- L of the new stride (R67), in a multi-chip domain the one the marker announced (R82), and this chip's own terms where no marker gave
one (DESIGN CHOICE, log 93); the length requested is the one that the next stride asks for. A fixed stride over the budget is recorded
when it begins to be (R84). -/
def setLen (s : State) : State :=
  let b := s.stride.inForce.budget
  let x := ownLen s.stride.inForce s
  let l := match s.stride.markerLen with
    | some n => if multiChip s then Nat.min lenMax (up64 (Nat.max n (Nat.max s.stride.base (fixedLen s)))) else x.1
    | none => x.1
  let tooHigh := s.stride.fixed && decide (b < s.stride.pMeasW)
  let s' := if tooHigh && !s.stride.overFixed then event 0x0183 (item 2 s.stride.pMeasW ++ item 2 b) s else s
  modStride (fun t => { t with len := l, lenReq := (ownLen s.stride.inForce (nextTerms s)).1, budgetUnmet := x.2, overFixed := tooHigh }) s'

/-! ## Tally banks as bytes -/

/-- The 32 bytes of a record (R556). -/
def recBytes (r : TallyRec) : List Byte :=
  bytesLE 1 r.type ++ bytesLE 1 (r.level + 4 * bit01 r.cont) ++ bytesLE 2 r.code ++ bytesLE 4 r.seq.toNat ++
  bytesLE 8 r.stride ++ padTo 16 r.detail

/-- The GAP record of an open gap (R561). -/
def gapRec (g : BitVec 32 × Nat × Nat) : TallyRec :=
  { type := 3, code := 0, seq := g.1, stride := g.2.1, detail := bytesLE 4 g.2.2 }

/-- The header of a bank handed over (R560). -/
def bankHeader (t : Tally) (b : Nat) : List Byte :=
  let k := bankOf t b
  padTo 32 (bytesLE 2 k.recs.length ++ bytesLE 2 0 ++
    bytesLE 4 (match k.recs with | [] => 0 | r :: _ => r.seq.toNat) ++ bytesLE 8 k.stride)

/-- The bytes of bank `b` that the part has written: header once handed over, records, a GAP record in slot 127 (R561). -/
def bankWritten (t : Tally) (b off : Nat) : Option Byte :=
  if off < 32 then (if (bankOf t b).handed then some ((bankHeader t b).getD off 0#8) else none)
  else
    let slot := off / 32
    match (if slot = 127 && b = t.writer && t.gap.isSome then t.gap.map gapRec else (bankOf t b).recs[slot - 1]?) with
    | some r => some ((recBytes r).getD (off % 32) 0#8)
    | none => none

/-- Bytes of bank `b`; what it holds where the part has written nothing is open (log 17). -/
def bankBytes (t : Tally) (b : Nat) : List Byte :=
  (List.range 4096).map (fun i => (bankWritten t b i).getD (Config.tallyByte t.seq.toNat b i))

/-- The 256 bytes of a session entry (R388); bytes 0x50 to 0xFF read 0. -/
def sessionBytes (s : State) (n : Nat) : List Byte :=
  let e := sessOf s n
  padTo 256 (
    bytesLE 1 (e.state + 8 * e.kvTier + 16 * bit01 e.pendValid) ++
    bytesLE 1 (sget [] s.serve.queues n).length ++ bytesLE 2 e.client ++ bytesLE 4 e.gen.toNat ++ bytesLE 4 e.len ++
    bytesLE 4 e.pend ++ bytesLE 8 e.plAddr ++ bytesLE 8 e.curTag ++ bytesLE 4 e.remain ++ bytesLE 4 e.endToken ++
    bytesLE 2 e.rowFirst ++ bytesLE 2 e.rowCount ++ bytesLE 4 e.kvFmt ++ bytesLE 8 e.tokensOut ++ bytesLE 8 e.accepted ++
    bytesLE 2 e.lastCode ++ bytesLE 1 e.lastKind ++ bytesLE 5 0 ++ bytesLE 8 e.steps)

/-- The 32 bytes of a directory entry as four words (R416). -/
def dirWords (d : DirEntry) : List Nat :=
  [d.objId + (d.tier + 4 * d.die + 8 * d.kind) * 2 ^ 32 + d.state * 2 ^ 40, d.bytes, d.base, d.modelId]

/-- PORT_STATUS of a port (R312). -/
def portStatusWord (s : State) (p : Nat) : Word :=
  let k := portOf s p
  BitVec.ofNat 64 (k.retrains.n * 2 ^ 32 + bit01 k.retrains.ovf * 2 ^ 31 + k.cap * 2 ^ 12 + k.rate * 2 ^ 8 + k.state)

/-- Records held for the reader and not yet read (R555 TALLY_AVAIL). -/
def tallyAvail (t : Tally) : Nat :=
  let n0 := if t.bank0.handed then t.bank0.recs.length else 0
  let n1 := if t.bank1.handed then t.bank1.recs.length else 0
  n0 + n1 - t.popped

end Sys2Proof.Machine
end

