-- ==== Sys2Proof/Machine/Place.lean ====
section
/-!
DEFINITION. Boundary action 6 (R68): the placement map of a job, the release of what an ended job held (R389, R418), pool pages
whose slots are free (R392), quotas (R46, R296).
-/
namespace Sys2Proof.Machine

/-- Bytes of the placement pages of `n` bytes in a tier. -/
def pagedBytes (tier n : Nat) : Nat := ceilDiv n (pageBytes tier) * pageBytes tier

/-- Bytes of the placement page at `p`; 0 outside the tiers. -/
def pageSize (s : State) (p : Nat) : Nat := match tierOf (regionOf s p) with | some (t, _) => pageBytes t | none => 0

/-- A session entry becomes FREE: its bindings and what is known of its requests end with it (R412, R429). -/
def freeSession (n : Nat) (s : State) : State :=
  modWeights (fun w => { w with bindings := sset 0 w.bindings n 0 })
    (modServe (fun v => { v with recent := v.recent.filter (fun x => x.1 ≠ n) })
      (modSess n (fun e => { e with state := 0 }) s))

/-- Sessions whose KV_FMT used a released object become FREE, and what that pool held is forgotten (R389). -/
def poolReleased (id base bytes : Nat) (s : State) : State :=
  let fmts := (s.serve.pools.filter (fun p => p.2 = id)).map (fun p => p.1)
  let out := fun (a : Nat) => !(base ≤ a && a < base + bytes)
  if fmts.isEmpty then s else
  let s := forEach ((s.serve.sessions.filter (fun x => x.2.state ≠ 0 && fmts.contains x.2.kvFmt)).map (fun x => x.1)) freeSession s
  modServe (fun v => { v with pools := v.pools.filter (fun p => p.2 ≠ id), used := v.used.filter out
                              poolPages := v.poolPages.filter out, freeing := v.freeing.filter (fun f => out f.addr) }) s

/-- Map states of the pages of an object (R293, R418; pool pages by R392, log 26). -/
def objectPages (s : State) (k : Tack) (o : Placed) (m : Sparse Page) : Sparse Page :=
  let pb := pageBytes o.entry.tier
  (List.range (ceilDiv o.entry.bytes pb)).foldl (fun m i =>
    let a := o.base + i * pb
    let b := if o.entry.backing = 0 then 0 else o.entry.backing + i * pb
    let st : Page :=
      if tackPool k o.entry.objId then (if s.serve.poolPages.contains a then .present 0 else .unmapped)
      else if o.entry.resident || o.entry.tier = 2 || o.entry.backing = 0 then .present 0
      else if o.entry.pin then .present b else .absent b
    sset .unmapped m a st) m

/-- Placement changes (R68, R418, R437): objects of an ended job are released, and the map holds the pages of the job that is loaded. -/
def placementInForce (s : State) : State :=
  let s := modTiers (fun t => { t with leaving := [] })
    (forEach s.tiers.leaving (fun o => poolReleased o.entry.objId o.base (pagedBytes o.entry.tier o.entry.bytes)) s)
  if !s.tiers.remap then s else
  let m := match s.job.run with | none => [] | some r => s.tiers.placed.foldl (fun m o => objectPages s r.tack o m) []
  modTiers (fun t => { t with pages := m, remap := false }) s

/-- Quotas written since the last boundary are in force (R46, R296). -/
def quotasInForce (s : State) : State :=
  modTiers (fun t => { t with quotaHNow := t.quotaH, quotaLNow := t.quotaL, quotaFNow := t.quotaF }) s

/-- Pool pages whose slots are all free are released (R392). -/
def releasePoolPages (s : State) : State :=
  let full := fun (p : Nat) => s.serve.used.any (fun a => p ≤ a && a < p + pageSize s p)
  forEach (s.serve.poolPages.filter (fun p => !full p)) (fun p t =>
    modTiers (fun k => { k with pages := sset .unmapped k.pages p .unmapped })
      (modServe (fun v => { v with poolPages := v.poolPages.erase p }) t)) s

end Sys2Proof.Machine
end

