-- ==== Sys2Proof/Machine/Reads.lean ====
section
/-!
DEFINITION. What the registers show of grooms, engines, streams, Hitches and objects (R145, R173, R196, R271, R378): the readings of state
that RegMap lays out, and whether the fabric runs.
-/
namespace Sys2Proof.Machine

/-- The fabric runs: no chip fault awaits reset, clocks run, Etxia is released (R597, R608, R532). -/
def fabricUp (s : State) : Bool := s.chipFault.isNone && !s.thermal.tripped

/-- Scalar register `r` of core `c`; S0 reads 0 (R171). -/
def sreg (s : State) (c : Nat) (r : RegNo) : Word := if r = 0 then 0 else sget 0 (coreOf s c).sreg r.toNat

/-- SYNC_STATE (R337). -/
def syncState (o : SyncObj) : Word :=
  atBit 32 (o.waitLimit % 65536) ||| atBit 16 (o.param % 65536) ||| atBit 8 (Nat.min o.waiters.length 255) |||
  flagAt 2 o.ovf ||| atBit 0 (o.type % 4)

/-- A signed 64-bit value as a word. -/
def wordOf (x : Int) : Word := BitVec.ofInt 64 x

/-- Instructions an engine holds that have not completed (R175). -/
def holdCount (s : State) (e : Nat) : Nat :=
  (engOf s e).held.length + (match (engOf s e).firing with | some f => bit01 f.tile.isSome | none => 0)

/-- The thread waits because its engine holds 4 instructions (R175, R196 THREAD_FULL). -/
def threadFull (s : State) (c t : Nat) : Bool :=
  match (threadOf s c t).full with | none => false | some g => 4 ≤ holdCount s (c * 8 + g.val)

/-- Index in the schedule period of a job-relative step (R89). -/
def stepIndex (t : Tack) (n : Nat) : Nat := n % Nat.max 1 t.ledger.period

/-- The schedule of engine `e` in job-relative step `n` (R135). -/
def schedOf (k : Tack) (e n : Nat) : List SchedEntry :=
  match k.engines.find? (fun (x : EngineCfg) => x.engine.val = e) with
  | none => []
  | some x => schedList (x.sched.getD (stepIndex k n) [])

/-- The four address generators. -/
def allAgs : List AgNo := [0, 1, 2, 3]

/-- The head of the engine's schedule (R135). -/
def headEntry (s : State) (e : Nat) : Option SchedEntry := (engOf s e).entries.head?

/-- The instruction held for a gait, oldest first (R175). -/
def heldFor (s : State) (e : Nat) (slot : Fin 8) : Option HeldTile := (engOf s e).held.find? (fun h => decide (h.gait = slot))

/-- The first input queue of the gait short of Q tokens (R134). -/
def shortQueue (s : State) (e : Nat) (g : Gait) : Option Nat :=
  (maskList g.inMask).find? (fun q => (rinOf s e q).tokens.length < (rinOf s e q).cfg.q)

/-- The first output rein of the gait short of P credits (R134, R257). -/
def shortRein (s : State) (e : Nat) (g : Gait) : Option Nat :=
  (maskList g.outMask).find? (fun o => (routOf s e o).avail < (routOf s e o).owed + (routOf s e o).cfg.p)

/-- WAIT of ENG_STATE (R145). An engine that is ready and does not fire, in the boundary window or under R240, shows 0 (log 80). -/
def engWait (s : State) (e : Nat) : Nat :=
  let g := engOf s e
  if g.wait = 5 then 5
  else if g.firing.isSome then 0
  else if (coreOf s (coreOfEng e)).halted then 5
  else match headEntry s e with
    | none => 4
    | some q =>
      let d := gaitOf s e q.slot.val
      if q.slot ≠ g.active then 3
      else if (shortQueue s e d).isSome then 1
      else if (shortRein s e d).isSome then 2
      else if q.tile && (heldFor s e q.slot).isNone then 6
      else 0

/-- The requester class of a gait (R265). -/
def gaitClass (s : State) (e g : Nat) : Nat := sget 0 (engOf s e).classes g

/-- The bytes of a request: up to 256, never past a 256-byte boundary (R254). -/
def reqBytes (addr left : Nat) : Nat := Nat.min (256 - addr % 256) left

/-- The opcode of instruction `i` of the program at offset `off` (R248). -/
def streamOpc (s : State) (c off i : Nat) : Nat := spadNum s c (off + 16 * i) 1

/-- PORT of instruction `i` (R248). -/
def streamPort (s : State) (c off i : Nat) : Nat := spadNum s c (off + 16 * i + 2) 1 % 16

/-- Firing `i` of those of a schedule whose gait has property `p`, counted from `base`, past gaits to skip (R237): its place,
slot and index among its gait's firings. -/
def firingFrom (p skip : Fin 8 → Bool) : List SchedEntry → Sparse Nat → Nat → Nat → Option (Nat × Fin 8 × Nat)
  | [], _, _, _ => none
  | q :: l, cnt, base, i =>
    if !p q.slot then firingFrom p skip l cnt base i
    else
      let c := sget 0 cnt q.slot.val
      if i < q.firings && !skip q.slot then some (base + i, q.slot, c + i)
      else firingFrom p skip l (sset 0 cnt q.slot.val (c + q.firings)) (base + q.firings) (i - q.firings)

/-- The next run of an address generator: step, place, slot, index (R237, R239). It reaches through the current step and the
next; in a drain SOURCE gaits start none. -/
def nextRun (s : State) (e : Nat) (a : AgNo) : Option (Nat × Nat × Fin 8 × Nat) :=
  match s.job.run with
  | none => none
  | some r =>
    let g := engOf s e
    let k := agOf s e a.val
    let p := fun (i : Fin 8) => ((gaitOf s e i.val).ag a).en
    let skip := fun (i : Fin 8) => r.draining && (gaitOf s e i.val).source
    let n := Nat.max k.begunStep g.step
    let i := if k.begunStep < n then 0 else k.begun
    let at_ := fun (m j : Nat) => (firingFrom p skip (schedOf r.tack e m) [] 0 j).map (fun x => (m, x))
    if g.upto = 0 then none
    else match at_ n i with
      | some x => some x
      | none => if n ≤ g.step then at_ (n + 1) 0 else none

/-- Step `n` of the running tack gives an engine a run on an AG that `p` selects; in a drain SOURCE gaits have none (R162, R237). -/
def stepRuns (s : State) (r : Running) (e n : Nat) (p : Fin 4 → Bool) : Bool :=
  (schedOf r.tack e n).any (fun q => !(r.draining && (gaitOf s e q.slot.val).source) &&
    allAgs.any (fun a => p a && ((gaitOf s e q.slot.val).ag a).en))

/-- A phase of an address generator is held at the Curb: a request of it waits (R239, R266). The requests of POST phases are those
of committed runs. -/
def agHeld (s : State) (e a : Nat) (post : Bool) : Bool :=
  (agOf s e a).runs.any (fun r => r.committed == post && r.reqs.any (fun q => q.stage = .waiting))

/-- Bytes an address generator's runs hold in the run-ahead store: LOAD data, and 66 bytes for each token (R242). -/
def runBytes (r : Run) : Nat :=
  if r.committed then 0
  else ((r.reqs.map (fun q => q.bytes)).foldl (· + ·) 0) + 66 * r.taken.length

/-- Bytes in a core's run-ahead store. -/
def runAheadUsed (s : State) (c : Nat) : Nat :=
  ((coreEngines c).flatMap (fun e => allAgs.flatMap (fun a => (agOf s e a.val).runs.map runBytes))).foldl (· + ·) 0

/-- Bytes of a core's run-ahead store (R242). -/
def runAheadSize (c : Nat) : Nat := if isCourser c then 2097152 else 524288

/-- `n` more bytes fit (R242). -/
def runAheadFits (s : State) (c n : Nat) : Bool := runAheadUsed s c + n ≤ runAheadSize c

/-- HLD `i` of Hitch `h`. -/
def hldOf (s : State) (h i : Nat) : Hld := sget {} (hitchOf s h).hlds i

/-- HLD_STATE `i` of Hitch `h`. -/
def hstOf (s : State) (h i : Nat) : HldState := sget {} (hitchOf s h).st i

/-- RET_PENDING (R378): none once the launch has timed out. -/
def retPending (t : HldState) : Nat :=
  if t.late then 0 else t.rows.foldl (fun n r => n + (if r.cancelled then 0 else (r.accepted.filter (fun c => c.ret.isNone)).length)) 0

/-- The batch epoch of the open launch (R358). -/
def batchOf (t : HldState) : Nat := (t.launch + 255) % 256

/-- ADMIT_OK (R505, R521): x8 or wider at 32 GT/s or faster. -/
def admitOk (s : State) : Bool := 4 ≤ s.host.width && s.host.width ≤ 5 && 5 ≤ s.host.rate

/-- Lanes of a mask. -/
def laneCount (m : BitVec 8) : Nat := ((List.range 8).filter (fun i => m.getLsbD i)).length

end Sys2Proof.Machine
end

