-- ==== Sys2Proof/Machine/RegMap.lean ====
section
/-!
DEFINITION. The register space (R58): which register an offset of BAR0 names, and the value a read finds in it. Registers
that two words share a table with keep the table's names.
-/
namespace Sys2Proof.Machine

/-- The registers of BAR0. `e`, `c`, `p` and the like number the unit; `w` the 8-byte word of a multi-word register. -/
inductive Reg where
  | gctlId | gctlTopology | bar2Base
  | ringSq (r : Nat) | ringCq (r : Nat) | ringIdx (r : Nat) | ringCfg (r : Nat) | ringStat (r : Nat)
  | hostStatus | hostErr | msixTable (w : Nat) | msixPba
  | agState (e : Nat) (a : AgNo) | agPos (e a : Nat) | agLoop (e a : Nat) | agBytes (e a : Nat) | agMiss (e a : Nat) | agCtrl (e a : Nat)
  | gaitClass (e : Nat) | curbBudget (p k : Nat) | curbStat (p k : Nat)
  | tierDeadline | tierCrypt | tierMapStat | portStatus (p : Nat) | memErr (p : Nat) | memErrLast (p : Nat)
  | linkSelf | linkStatus (l : Nat) | linkPeer (l : Nat) | linkErr (l : Nat) | linkCtrl (l : Nat) | route (w : Nat)
  | hitchStatus (h : Nat) | hitchStats (h : Nat) | hitchDrops (h : Nat) | hldMirror (h i w : Nat) | hldState (h i : Nat)
  | mapMirror (h j w : Nat)
  | syncMirror (n w : Nat) | syncStatus | farCoreStat (c : Nat) | farCoreFail (c : Nat)
  | sftStage (w : Nat) | sftHdr | sftCtrl | sftStatus | sftCommits
  | coreIdent (c : Nat) | groomStatus (c : Nat) | threadPc (c t : Nat) | sregAt (c r : Nat) | tileFault (c : Nat)
  | tileFaultPc (c : Nat)
  | reinInCfg (e q : Nat) | reinInBuf (e q : Nat) | reinInStat (e q : Nat) | reinInHwm (e q : Nat)
  | reinOutCfg (e o : Nat) | reinOutStat (e o : Nat) | engState (e : Nat) | coreRetired (c : Nat) | spadErr (c : Nat)
  | spadErrLast (c : Nat)
  | tallyBank (b w : Nat) | tallyStatus | tallyCtrl
  | dbgSession | dbgCount | dbgCtrl | dbgAddr | dbgData | dbgCore
  deriving DecidableEq, Repr

/-! ## Offsets -/

/-- Host rings (R505, R520, R521). -/
def ringRegAt (o : Nat) : Option Reg :=
  if o < 0x100400 then
    let r := (o - 0x100000) / 0x40
    match (o % 0x40) / 8 with
    | 0 => some (.ringSq r)
    | 1 => some (.ringCq r)
    | 2 => some (.ringIdx r)
    | 3 => some (.ringCfg r)
    | 4 => some (.ringStat r)
    | _ => none
  else if o = 0x180000 then some .hostStatus
  else if o = 0x180008 then some .hostErr
  else if 0x1F0000 ≤ o && o < 0x1F0110 then some (.msixTable ((o - 0x1F0000) / 8))
  else if o = 0x1F8000 then some .msixPba
  else none

/-- Streams, Curbs and tiers (R271, R312). -/
def tierRegAt (o : Nat) : Option Reg :=
  if o < 0x290000 then
    let c := (o - 0x200000) / 0x800
    let x := (o % 0x800) / 0x40
    let e := c * 8 + x / 4
    let a := x % 4
    match (o % 0x40) / 8 with
    | 0 => some (.agState e ⟨a % 4, Nat.mod_lt _ (by decide)⟩)
    | 1 => some (.agPos e a)
    | 2 => some (.agLoop e a)
    | 3 => some (.agBytes e a)
    | 4 => some (.agMiss e a)
    | 5 => some (.agCtrl e a)
    | _ => none
  else if o < 0x294800 then some (.gaitClass ((o - 0x290000) / 8))
  else if 0x298000 ≤ o && o < 0x299400 then
    let p := (o - 0x298000) / 0x80
    let k := (o % 0x80) / 0x10
    if o % 0x10 = 0 then some (.curbBudget p k) else some (.curbStat p k)
  else if o = 0x2C0000 then some .tierDeadline
  else if o = 0x2C0008 then some .tierCrypt
  else if o = 0x2C0010 then some .tierMapStat
  else if 0x2C0100 ≤ o && o < 0x2C0240 then some (.portStatus ((o - 0x2C0100) / 8))
  else if 0x2C1000 ≤ o && o < 0x2C1300 then
    if o % 0x10 = 0 then some (.memErr ((o - 0x2C1000) / 0x10)) else some (.memErrLast ((o - 0x2C1000) / 0x10))
  else none

/-- Links (R502). -/
def linkRegAt (o : Nat) : Option Reg :=
  if o = 0x300000 then some .linkSelf
  else if 0x300100 ≤ o && o < 0x300280 then
    let l := (o - 0x300100) / 0x40
    match (o % 0x40) / 8 with
    | 0 => some (.linkStatus l)
    | 1 => some (.linkPeer l)
    | 2 => some (.linkErr l)
    | 3 => some (.linkCtrl l)
    | _ => none
  else if 0x310000 ≤ o && o < 0x320000 then some (.route ((o - 0x310000) / 8))
  else none

/-- Hitches (R378). -/
def hitchRegAt (o : Nat) : Option Reg :=
  let h := (o - 0x400000) / 0x40000
  let x := (o - 0x400000) % 0x40000
  if x = 0 then some (.hitchStatus h)
  else if x = 8 then some (.hitchStats h)
  else if x = 0x10 then some (.hitchDrops h)
  else if 0x1000 ≤ x && x < 0x2000 then some (.hldMirror h ((x - 0x1000) / 0x40) ((x % 0x40) / 8))
  else if 0x2000 ≤ x && x < 0x2200 then some (.hldState h ((x - 0x2000) / 8))
  else if 0x10000 ≤ x && x < 0x20000 then some (.mapMirror h ((x - 0x10000) / 0x10) ((x % 0x10) / 8))
  else none

/-- Synchronisation objects and the Farrier's cores (R333, R348). -/
def syncRegAt (o : Nat) : Option Reg :=
  if o < 0x580000 then some (.syncMirror ((o - 0x500000) / 0x40) ((o % 0x40) / 8))
  else if o = 0x580000 then some .syncStatus
  else if 0x590000 ≤ o && o < 0x591200 then
    if o % 0x10 = 0 then some (.farCoreStat ((o - 0x590000) / 0x10)) else some (.farCoreFail ((o - 0x590000) / 0x10))
  else none

/-- The special-function block (R230). -/
def sftRegAt (o : Nat) : Option Reg :=
  if o < 0x604000 then some (.sftStage ((o - 0x600000) / 8))
  else if o = 0x640000 then some .sftHdr
  else if o = 0x640008 then some .sftCtrl
  else if o = 0x640010 then some .sftStatus
  else if o = 0x640018 then some .sftCommits
  else none

/-- A core's window (R58, R145, R196). -/
def coreRegAt (o : Nat) : Option Reg :=
  let c := (o - 0x800000) / 0x4000
  let x := (o - 0x800000) % 0x4000
  if x = 0 then some (.coreIdent c)
  else if x = 8 then some (.groomStatus c)
  else if 0x100 ≤ x && x < 0x140 then some (.threadPc c ((x - 0x100) / 8))
  else if 0x400 ≤ x && x < 0x600 then some (.sregAt c ((x - 0x400) / 8))
  else if x = 0x800 then some (.tileFault c)
  else if x = 0x808 then some (.tileFaultPc c)
  else if 0x2000 ≤ x && x < 0x3000 then
    let r := (x - 0x2000) / 0x20
    let e := c * 8 + r / 16
    match (x % 0x20) / 8 with
    | 0 => some (.reinInCfg e (r % 16))
    | 1 => some (.reinInBuf e (r % 16))
    | 2 => some (.reinInStat e (r % 16))
    | _ => some (.reinInHwm e (r % 16))
  else if 0x3000 ≤ x && x < 0x3800 then
    let r := (x - 0x3000) / 0x10
    let e := c * 8 + r / 16
    if x % 0x10 = 0 then some (.reinOutCfg e (r % 16)) else some (.reinOutStat e (r % 16))
  else if 0x3800 ≤ x && x < 0x3840 then some (.engState (c * 8 + (x - 0x3800) / 8))
  else if x = 0x3840 then some (.coreRetired c)
  else if x = 0x3848 then some (.spadErr c)
  else if x = 0x3850 then some (.spadErrLast c)
  else none

/-- The Tally FIFO (R564). -/
def tallyRegAt (o : Nat) : Option Reg :=
  if o < 0x1002000 then some (.tallyBank ((o - 0x1000000) / 0x1000) ((o % 0x1000) / 8))
  else if o = 0x1080000 then some .tallyStatus
  else if o = 0x1080008 then some .tallyCtrl
  else none

/-- The debug window (R587). -/
def dbgRegAt (o : Nat) : Option Reg :=
  match (o - 0x2000000) / 8 with
  | 0 => some .dbgSession
  | 1 => some .dbgCount
  | 2 => some .dbgCtrl
  | 3 => some .dbgAddr
  | 4 => some .dbgData
  | 5 => some .dbgCore
  | _ => none

/-- The register whose 8-byte slot begins at offset `o`, a multiple of 8 (R58); `none`: unimplemented. -/
def regAt (o : Nat) : Option Reg :=
  if o = 0 then some .gctlId
  else if o = 8 then some .gctlTopology
  else if o = 0x10 then some .bar2Base
  else if o < 0x100000 then none
  else if o < 0x200000 then ringRegAt o
  else if o < 0x300000 then tierRegAt o
  else if o < 0x400000 then linkRegAt o
  else if o < 0x500000 then hitchRegAt o
  else if o < 0x600000 then syncRegAt o
  else if o < 0x800000 then sftRegAt o
  else if o < 0xC80000 then coreRegAt o
  else if o < 0x1000000 then none
  else if o < 0x2000000 then tallyRegAt o
  else if o < 0x4000000 then dbgRegAt o
  else none

/-- The die of a logical core, of an engine's core, of a port. -/
def coreDie (c : Nat) : Nat := c / 144
/-- Stacks 0 to 3, LPDDR5X ports 0 to 7 and NAND channels 0 to 7 are on die 0 (R627). -/
def portDie (p : Nat) : Nat := if p < 8 then p / 4 else (p - 8) / 8 % 2

/-- The die on which a register lives (R627). -/
def regDie : Reg → Nat
  | .agState e _ | .agPos e _ | .agLoop e _ | .agBytes e _ | .agMiss e _ | .agCtrl e _ | .gaitClass e => coreDie (coreOfEng e)
  | .reinInCfg e _ | .reinInBuf e _ | .reinInStat e _ | .reinInHwm e _ | .reinOutCfg e _ | .reinOutStat e _ | .engState e =>
    coreDie (coreOfEng e)
  | .coreIdent c | .groomStatus c | .threadPc c _ | .sregAt c _ | .tileFault c | .tileFaultPc c | .coreRetired c | .spadErr c
  | .spadErrLast c | .farCoreStat c | .farCoreFail c => coreDie c
  | .curbBudget p _ | .curbStat p _ | .portStatus p => portDie p
  | .memErr n | .memErrLast n => if n < 40 then portDie n else (n - 40) / 4
  | .linkStatus l | .linkPeer l | .linkErr l | .linkCtrl l => l / 3
  | .hitchStatus h | .hitchStats h | .hitchDrops h | .hldMirror h _ _ | .hldState h _ | .mapMirror h _ _ => h / 2
  | _ => 0

/-- Registers of 32 bits: the other half of their slot is unimplemented (R20, R58). -/
def regHalf : Reg → Bool
  | .gctlId => true
  | .gctlTopology => true
  | .coreIdent _ => true
  | _ => false

/-- The debug registers: the Ostler cores do not reach them (R587). -/
def isDbgReg : Reg → Bool
  | .dbgSession => true
  | .dbgCount => true
  | .dbgCtrl => true
  | .dbgAddr => true
  | .dbgData => true
  | .dbgCore => true
  | _ => false

/-! ## Values -/

/-- Fields as (lowest bit, value), joined. -/
def fields (l : List (Nat × Nat)) : Word := l.foldl (fun w x => w ||| atBit x.1 x.2) 0

/-- Free spares (R58, R59). -/
def spareOf (s : State) (key : Nat) : Nat := sget 0 s.spares key

/-- Bit n for each of `n` units with property `p`. -/
def maskOf (n : Nat) (p : Nat → Bool) : Nat := ((List.range n).filter p).foldl (fun k i => k + 2 ^ i) 0

/-- The run of an address generator in its PRE phase. -/
def preRun (g : Ag) : Option Run := g.runs.find? (fun r => !r.preDone)
/-- The run in its POST phase. -/
def postRun (g : Ag) : Option Run := g.runs.find? (fun r => r.complete && r.post && !r.ended)
/-- The run that stands at a page miss. -/
def missRun (g : Ag) : Option Run := g.runs.find? (fun r => r.miss.isSome)

/-- Engine `e` is halted: its groom is, or a hard stop was (R165, R195). -/
def engHalted (s : State) (e : Nat) : Bool := (coreOf s (coreOfEng e)).halted || (engOf s e).wait = 5

/-- The step in progress or the next schedules a firing whose gait has a program on the address generator. -/
def hasRuns (s : State) (e : Nat) (a : AgNo) : Bool :=
  match s.job.run with
  | none => false
  | some r =>
    let n := (engOf s e).step
    (engOf s e).upto ≠ 0 && (stepRuns s r e n (· = a) || stepRuns s r e (n + 1) (· = a))

/-- PRE of AG_STATE while AG3 runs a RESLOAD (R188, R271). -/
def reloadPre (s : State) (e : Nat) : Option Nat :=
  match (engOf s e).firing with
  | none => none
  | some x =>
    if (x.tile.map (fun h => h.kind)) ≠ some .resload then none
    else if x.miss.isSome then some 6
    else if x.reload.any (fun q => q.stage = .waiting) then some 2
    else some 1

/-- The size of the next request of the LOAD that a run's PRE phase stands at (R248, R254). -/
def nextLoad (s : State) (e : Nat) (r : Run) (off : Nat) : Nat :=
  let w0 := spadNum s (coreOfEng e) (off + 16 * r.pcIdx) 8
  let len := spadNum s (coreOfEng e) (off + 16 * r.pcIdx + 8) 4
  reqBytes ((sget 0 r.regs (w0 / 1024 % 4)).toNat + r.done) (len - r.done)

/-- PRE of AG_STATE (R271, log 53). -/
def agPre (s : State) (e : Nat) (a : AgNo) : Nat :=
  let g := agOf s e a.val
  if engHalted s e then 7 else
  match preRun g with
  | none =>
    match (if a = 3 then reloadPre s e else none) with
    | some n => n
    | none => if (nextRun s e a).isNone && hasRuns s e a then 4 else 0
  | some r =>
    let c := coreOfEng e
    let off := ((gaitOf s e r.slot.val).ag a).off
    let opc := streamOpc s c off r.pcIdx
    if r.miss.isSome then 6
    else if agHeld s e a.val false then 2
    else if opc = 0x10 && !runAheadFits s c (nextLoad s e r off) then 3
    else if opc = 0x20 && (rinOf s e (streamPort s c off r.pcIdx)).tokens.length ≤ (rinOf s e (streamPort s c off r.pcIdx)).claimed then 5
    else if opc = 0x20 && !runAheadFits s c 66 then 3
    else 1

/-- POST of AG_STATE (R271). -/
def agPost (s : State) (e a : Nat) : Nat :=
  if engHalted s e then 7 else
  match postRun (agOf s e a) with
  | none => 0
  | some r => if r.miss.isSome then 6 else if agHeld s e a true then 2 else 1

/-- AG_STATE (R271). -/
def agStateWord (s : State) (e : Nat) (a : AgNo) : Word :=
  let g := agOf s e a.val
  fields [(32, g.runsDone.toNat), (24, Nat.min 255 (g.runs.filter (fun r => r.preDone && !r.fired)).length),
          (16, ((preRun g).map (fun r => r.slot.val)).getD 0), (4, agPre s e a), (0, agPost s e a.val)]

/-- AG_POS (R271): the saved position of a page miss, of a RESLOAD on AG3 its firing's. -/
def agPosWord (s : State) (e a : Nat) : Word :=
  match missRun (agOf s e a), (engOf s e).firing with
  | some r, _ => fields [(63, 1), (62, bit01 r.preDone), (40, r.f % 8192), (32, r.pcIdx % 256), (0, r.done % 2 ^ 32)]
  | none, some x => if a = 3 && x.miss.isSome then fields [(63, 1), (40, x.f % 8192), (0, x.asked % 2 ^ 32)] else 0
  | none, none => 0

/-- AG_LOOP (R271). -/
def agLoopWord (g : Ag) : Word :=
  let l := match missRun g with
    | some r => r.loops
    | none => ((preRun g).map (fun r => r.loops)).getD g.loops
  fields ((List.range 4).map (fun i => (16 * i, sget 0 l i % 65536)))

/-- The 64 bytes of an HLD (R350). -/
def hldBytes (d : Hld) : List Byte :=
  bytesLE 1 (bit01 d.valid + 2 * bit01 d.top2 + 4 * bit01 d.next + 8 * bit01 d.ret16 + 16 * d.outFmt) ++
  bytesLE 1 (d.epoch.toNat + 8 * d.spill) ++ bytesLE 1 (d.experts - 1) ++ bytesLE 1 d.cshift ++ bytesLE 2 d.cap ++
  bytesLE 2 d.rowUnits ++ bytesLE 2 d.retUnits ++ bytesLE 1 d.retWait ++ bytesLE 1 (d.nsrc % 64) ++ bytesLE 2 d.readyObj ++
  bytesLE 2 d.doneObj ++ bytesLE 2 d.readyArr ++ bytesLE 1 d.srcIdx ++ bytesLE 1 0 ++ bytesLE 2 d.mapIdx ++ bytesLE 2 0 ++
  bytesLE 8 d.rowHdr ++ bytesLE 8 d.routeBase ++ bytesLE 8 d.rowsBase ++ bytesLE 8 d.gatherBase ++ bytesLE 8 d.outBase

/-- The 16 bytes of an expert-map entry (R351). -/
def mapBytes (m : MapEntry) : List Byte :=
  bytesLE 2 m.chip ++ bytesLE 2 m.core ++ bytesLE 4 m.inOff ++ bytesLE 4 m.outOff ++ bytesLE 2 m.inObj ++ bytesLE 2 m.outObj

/-- Word `w` of bytes. -/
def wordAt (bs : List Byte) (w : Nat) : Word := BitVec.ofNat 64 (numLE ((bs.drop (8 * w)).take 8))

/-- Word `w` of an HLD mirror (R378). -/
def hldWord (s : State) (h i w : Nat) : Word := wordAt (hldBytes (hldOf s h i)) w

/-- HITCH_STATUS (R378). A launch reads and selects within one command, so SELECTING reads 0 between commands; a combine that waits
for a page or the Curb shows as running. -/
def hitchStatusWord (s : State) (h : Nat) : Word :=
  let x := hitchOf s h
  let l := x.st.filter (fun t => t.2.isOpen)
  fields [(32, x.launches.toNat), (24, l.length % 256), (4, bit01 x.halted), (3, bit01 (l.any (fun t => retPending t.2 = 0))),
          (2, bit01 (l.any (fun t => retPending t.2 ≠ 0))), (1, bit01 (!x.outbox.isEmpty))]

/-- HLD_STATE (R378). BATCH_EPOCH is the launch number mod 256, of the open launch or the next (R359). -/
def hldStateWord (s : State) (h i : Nat) : Word :=
  let t := hstOf s h i
  let n := if t.isOpen then batchOf t else t.launch % 256
  fields [(56, n), (48, t.waited % 256), (47, bit01 t.isOpen), (32, retPending t % 16384), (0, t.launch % 2 ^ 32)]

/-- What the mirror of a synchronisation object reads (R348). -/
def syncMirrorWord (o : SyncObj) (w : Nat) : Word :=
  if w = 0 then syncState o
  else if w = 1 then
    (if o.type = 1 then wordOf o.value else if o.type = 2 then BitVec.ofNat 64 o.count
     else if o.type = 3 then BitVec.ofNat 64 o.next else 0)
  else if w = 3 then
    (if o.type = 1 then wordOf o.value else if o.type = 2 then BitVec.ofNat 64 o.gen.toNat
     else if o.type = 3 then BitVec.ofNat 64 o.limit else 0)
  else 0

/-- REIN_IN_STAT (R145). -/
def reinInStatWord (s : State) (e q : Nat) : Word :=
  let r := rinOf s e q
  let waits := r.cfg.en && (engOf s e).firing.isNone && (engOf s e).active.val = r.cfg.dstGait &&
    (match headEntry s e with | none => false | some x => x.slot.val = r.cfg.dstGait) && r.tokens.length < r.cfg.q
  fields [(32, r.recvSeq.toNat), (6, r.tokens.length), (2, bit01 (r.cfg.en && r.tokens.length = r.cfg.credits)), (1, bit01 waits)]

/-- ENG_STATE (R145). -/
def engStateWord (s : State) (e : Nat) : Word :=
  let g := engOf s e
  fields [(32, g.stale.n), (24, bit01 g.stale.ovf), (21, g.early.length), (18, s.job.epoch.toNat), (15, g.active.val),
          (7, maskOf 8 (gaitLive s e)), (0, engWait s e)]

/-- GROOM_STATUS (R196). -/
def groomStatusWord (s : State) (c : Nat) : Word :=
  let k := coreOf s c
  let m := fun (p : Thread → Bool) => maskOf 8 (fun t => p (threadOf s c t))
  fields [(32, k.tileDone.toNat), (24, m (fun h => h.en)), (16, m (fun h => h.done)), (8, maskOf 8 (threadFull s c)), (0, bit01 k.halted)]

/-- DBG_SESSION (R587). -/
def dbgSessionWord (s : State) : Word :=
  fields [(7, bit01 s.sec.altered), (5, s.sec.maxLevel), (3, s.sec.path), (1, s.sec.level), (0, bit01 s.sec.dbgOpen)]

/-- The value of a register (R58, R145, R196, R230, R271, R312, R333, R348, R378, R502, R520, R521, R564, R587). DBG_DATA, whose
reads act, is not read through this function. -/
def regRead (s : State) : Reg → Word
  | .gctlId => fields [(16, 0x0288), (12, s.fuses.major % 16), (8, s.fuses.minor % 16)]
  | .gctlTopology => fields [(28, spareOf s 3 % 4), (24, spareOf s 2 % 8), (20, spareOf s 1 % 4), (16, spareOf s 0 % 8), (0, maskOf 8 (ostlerUp s))]
  | .bar2Base => fields [(36, s.host.bar2Base), (0, bit01 s.host.bar2En)]
  | .ringSq r => fields [(0, (ringOf s r).sqAddr), (0, (ringOf s r).sqLog2)]
  | .ringCq r => fields [(0, (ringOf s r).cqAddr), (0, (ringOf s r).cqLog2)]
  | .ringIdx r => fields [(0, (ringOf s r).idxAddr)]
  | .ringCfg r => fields [(8, (ringOf s r).spaces.toNat), (2, (ringOf s r).vector), (1, bit01 (ringOf s r).irqEn), (0, bit01 (ringOf s r).en)]
  | .ringStat r => fields [(32, (ringOf s r).admitted.toNat), (12, (ringOf s r).outstanding % 2 ^ 20), (2, bit01 (ringOf s r).ringErr),
                           (1, bit01 (ringOf s r).held), (0, bit01 (ringOf s r).active)]
  | .hostStatus => fields [(12, s.host.ide), (8, s.host.width), (4, s.host.rate), (0, bit01 (admitOk s))]
  | .hostErr => fields [(44, s.host.bar0Ref.n), (24, s.host.bar2Ref.n), (4, s.host.bar2Poi.n), (2, bit01 s.host.bar0Ref.ovf),
                        (1, bit01 s.host.bar2Ref.ovf), (0, bit01 s.host.bar2Poi.ovf)]
  | .msixTable w => sget (if w % 2 = 1 then 0x100000000#64 else 0) s.host.msix w
  | .msixPba => BitVec.ofNat 64 s.host.pba
  | .agState e a => agStateWord s e a
  | .agPos e a => agPosWord s e a
  | .agLoop e a => agLoopWord (agOf s e a)
  | .agBytes e a => BitVec.ofNat 64 (agOf s e a).bytes
  | .agMiss e a => fields [(0, (agOf s e a).missAddr)]
  | .agCtrl _ _ => 0
  | .gaitClass e => fields ((List.range 8).map (fun g => (3 * g, gaitClass s e g % 8)))
  | .curbBudget p k => fields [(0, (curbOf s p k).budget)]
  | .curbStat p k => fields [(32, (curbOf s p k).spent % 2 ^ 32), (1, (curbOf s p k).exhausted.n), (0, bit01 (curbOf s p k).exhausted.ovf)]
  | .tierDeadline => fields [(32, s.tiers.dlF), (0, s.tiers.dlL)]
  | .tierCrypt => fields [(8, s.tiers.keyGen.toNat), (2, bit01 s.tiers.fEn), (1, bit01 s.tiers.lEn), (0, bit01 s.tiers.tio)]
  | .tierMapStat => fields [(32, s.tiers.pageIns32.toNat), (1, s.tiers.mapMiss.n), (0, bit01 s.tiers.mapMiss.ovf)]
  | .portStatus p => portStatusWord s p
  | .memErr p =>
    let m := sget {} s.tiers.errs p
    fields [(32, m.corr.n), (16, m.uncorr.n), (4, m.crc.n), (2, bit01 m.corr.ovf), (1, bit01 m.uncorr.ovf), (0, bit01 m.crc.ovf)]
  | .memErrLast p => fields [(58, p), (56, (sget {} s.tiers.errs p).kind), (0, (sget {} s.tiers.errs p).addr)]
  | .linkSelf =>
    if coordsSet s then fields [(32, ownChip s), (31, 1), (14, s.links.rack), (8, s.links.tray), (0, s.links.slot)] else 0
  | .linkStatus l =>
    let k := linkOf s l
    fields [(48, k.lanesUp.toNat), (40, k.retired.toNat), (36, laneCount k.lanesUp), (16, k.delay % 65536), (0, k.state)]
  | .linkPeer l => fields [(48, (linkOf s l).peerChip), (40, (linkOf s l).peerLink), (0, (linkOf s l).downs.toNat)]
  | .linkErr l =>
    let k := linkOf s l
    fields [(32, k.fecCorr.n), (16, k.replays.n), (4, k.crcFail.n), (2, bit01 k.fecCorr.ovf), (1, bit01 k.replays.ovf), (0, bit01 k.crcFail.ovf)]
  | .linkCtrl _ => 0
  | .route w => fields ((List.range 8).map (fun k => (8 * k, (sget 0 s.links.routes (8 * w + k)).toNat)))
  | .hitchStatus h => hitchStatusWord s h
  | .hitchStats h =>
    fields [(32, (hitchOf s h).staleRet.n), (2, (hitchOf s h).cancelRet.n),
      (1, bit01 (hitchOf s h).cancelRet.ovf), (0, bit01 (hitchOf s h).staleRet.ovf)]
  | .hitchDrops h =>
    fields [(32, (hitchOf s h).dropped.n), (2, (hitchOf s h).spills.n), (1, bit01 (hitchOf s h).spills.ovf), (0, bit01 (hitchOf s h).dropped.ovf)]
  | .hldMirror h i w => hldWord s h i w
  | .hldState h i => hldStateWord s h i
  | .mapMirror h j w => wordAt (mapBytes (sget {} (hitchOf s h).map j)) w
  | .syncMirror n w => syncMirrorWord (objOf s n) w
  | .syncStatus => fields [(40, s.sync.replays.n), (17, s.sync.stale.n), (1, bit01 s.sync.stale.ovf), (0, bit01 s.sync.replays.ovf)]
  | .farCoreStat c =>
    let f := (coreOf s c).far
    fields [(63, bit01 f.retire), (62, bit01 f.hold), (48, f.spares.length), (32, f.region), (0, f.passes.toNat)]
  | .farCoreFail c => fields [(48, (coreOf s c).far.bank), (0, (coreOf s c).far.addr)]
  | .sftStage w => BitVec.ofNat 64 (numLE ((List.range 8).map (fun i => sget 0#8 s.sft.stage (8 * w + i))))
  | .sftHdr => fields [(32, s.sft.hdrCrc.toNat), (0, s.sft.hdrId.toNat)]
  | .sftCtrl => 0
  | .sftStatus => fields [(32, s.sft.activeId.toNat), (24, s.sft.errSlot), (16, s.sft.errSeam), (8, s.sft.err), (2, bit01 s.sft.deferred),
                          (1, bit01 s.sft.pending), (0, bit01 s.sft.busy)]
  | .sftCommits => fields [(0, s.sft.commits.toNat)]
  | .coreIdent c =>
    let b := bindingOf s c
    fields [(8, if b.unbacked then 0xFF else b.phys), (1, bit01 b.unbacked), (0, bit01 b.remapped)]
  | .groomStatus c => groomStatusWord s c
  | .threadPc c t => fields [(0, (threadOf s c t).pc % 2 ^ 23)]
  | .sregAt c r => sreg s c (BitVec.ofNat 6 r)
  | .tileFault c =>
    let f := (coreOf s c).fault
    fields [(48, f.code), (45, f.thread), (42, f.engine), (19, f.need), (0, f.have_ % 2 ^ 19)]
  | .tileFaultPc c => fields [(0, (coreOf s c).fault.pc % 2 ^ 23)]
  | .reinInCfg e q =>
    let k := (rinOf s e q).cfg
    fields [(48, k.srcChip), (32, k.srcEngine), (28, k.srcPort), (25, k.dstGait), (12, k.credits), (6, k.q), (0, bit01 k.en)]
  | .reinInBuf e q => fields [(32, (rinOf s e q).cfg.tagBase), (0, (rinOf s e q).cfg.slotBase)]
  | .reinInStat e q => reinInStatWord s e q
  | .reinInHwm e q => fields [(30, bit01 (rinOf s e q).exceeded), (16, (rinOf s e q).bound), (0, (rinOf s e q).occMax)]
  | .reinOutCfg e o =>
    let k := (routOf s e o).cfg
    fields [(48, k.dstChip), (32, k.dstEngine), (28, k.dstQueue), (25, k.srcGait), (12, k.credits), (6, k.p), (0, bit01 k.en)]
  | .reinOutStat e o => fields [(32, (routOf s e o).sentSeq.toNat), (0, (routOf s e o).avail)]
  | .engState e => engStateWord s e
  | .coreRetired c => fields [(20, s.job.retEpoch.toNat), (0, (coreOf s c).retCount)]
  | .spadErr c =>
    let x := (coreOf s c).spad
    fields [(32, x.corr.n), (12, x.uncorr.n), (1, bit01 x.corr.ovf), (0, bit01 x.uncorr.ovf)]
  | .spadErrLast c => fields [(48, (coreOf s c).spad.kind), (0, (coreOf s c).spad.addr)]
  | .tallyBank b w => wordAt ((List.range 8).flatMap (fun i =>
      [(bankWritten s.tally b (8 * w + i)).getD (Config.tallyByte s.tally.seq.toNat b (8 * w + i))])) 0
  | .tallyStatus =>
    let t := s.tally
    fields [(32, t.gaps.toNat), (5, t.reader), (4, bit01 t.gap.isSome), (3, bit01 t.bank1.handed), (2, bit01 t.bank0.handed),
            (1, t.next), (0, bit01 (bankOf t t.next).handed)]
  | .tallyCtrl => fields [(1, bit01 s.tally.irqEn)]
  | .dbgSession => dbgSessionWord s
  | .dbgCount => BitVec.ofNat 64 s.sec.count
  | .dbgCtrl => 0
  | .dbgAddr => fields [(0, s.sec.addr)]
  | .dbgData => 0
  | .dbgCore => fields [(16, s.sec.core), (8, bit01 (coreOf s s.sec.core).dbgHalt)]

end Sys2Proof.Machine
end

