-- ==== Sys2Proof/Machine/Chip.lean ====
section
/-!
DEFINITION. The chip fault (R608), the full and the reduced dump (R609 to R612), the power-fail journal (R605 to R607).
-/
namespace Sys2Proof.Machine

/-! ## The Curb's charge -/

/-- A class may be admitted: SPENT < BUDGET, uncapped, or class 4 while an install or changeover uncaps it (R46, R266). -/
def curbOpen (s : State) (p k : Nat) : Bool :=
  let c := curbOf s p k
  c.budgetNow = 0xFFFFFFFF || c.spent < c.budgetNow || (k = 4 && s.tiers.uncapped4)

/-- Units of 64 bytes charged at the Curb of a port (R266): SPENT, EXHAUSTED in the stride it reaches BUDGET. -/
def curbCharge (p k units : Nat) (s : State) : State :=
  modCurb p k (fun c => { c with
    spent := c.spent + units
    exhausted := if c.budgetNow ≠ 0xFFFFFFFF && c.spent < c.budgetNow && c.budgetNow ≤ c.spent + units then
      statInc 31 c.exhausted else c.exhausted }) s

/-- Units of 64 bytes, of `left`, that a class may move at a port now: requests of 256 bytes go while SPENT < BUDGET (R266). -/
def curbRoom (s : State) (p k left : Nat) : Nat :=
  let c := curbOf s p k
  if !curbOpen s p k then 0
  else if c.budgetNow = 0xFFFFFFFF || (k = 4 && s.tiers.uncapped4) then left
  else Nat.min left (4 * ceilDiv (c.budgetNow - c.spent) 4)

/-- A transfer of Etxia goes on as far as class 4 has budget at each of its ports (R264, R266): what is left, and the state. -/
def moveUnits (left : Sparse Nat) (s : State) : Sparse Nat × State :=
  left.foldl (fun x p =>
    let n := curbRoom x.2 p.1 4 p.2
    (sset 0 x.1 p.1 (p.2 - n), whenB (n ≠ 0) (curbCharge p.1 4 n) x.2)) (left, s)

/-! ## The journal -/

/-- Journal entry bytes (R606). -/
def journalBytes (j : JournalEntry) : List Byte :=
  let head := bytesLE 4 j.num ++ bytesLE 8 j.stride ++ bytesLE 8 j.dcTime ++ bytesLE 8 j.tackId ++ bytesLE 2 j.tenant ++
    bytesLE 1 j.jobState ++ bytesLE 1 j.powerState ++ bytesLE 4 j.health ++ bytesLE 2 j.pMeasW ++
    bytesLE 2 (ofSigned 16 j.tempDC) ++ bytesLE 1 j.rackState ++ bytesLE 1 0 ++ bytesLE 2 j.budgetW ++
    bytesLE 8 j.journal ++ bytesLE 4 j.lenFc ++ bytesLE 4 j.nextSeq ++ bytesLE 4 0
  let body := padTo 248 (head ++ padTo 128 ((j.faults.map recBytes).flatten))
  body ++ bytesLE 4 (crc32c body).toNat ++ bytesLE 4 0

/-- The Tumbler programs the next journal entry (R605, R606): what the current sector of 256 and the one before it hold (R607). -/
def journalWrite (dcTime : Nat) (s : State) : State :=
  let j : JournalEntry := {
    num := s.dumps.pfCount.toNat, stride := s.stride.count, dcTime := dcTime, tackId := runTackId s
    tenant := s.job.tenant.toNat, jobState := jobState s, powerState := powerState s, health := health s
    pMeasW := s.stride.pMeasW, tempDC := tempMax s, rackState := s.mgmt.rack.toNat, budgetW := s.mgmt.budget
    journal := journalWord s, lenFc := s.stride.len, nextSeq := s.tally.seq.toNat
    faults := s.tally.last.drop (s.tally.last.length - 4) }
  let l := s.dumps.journal ++ [j]
  let n := 256 + (s.dumps.pfCount.toNat + 1) % 256
  event 0x0C85 [] (modDumps (fun d => { d with journal := l.drop (l.length - n), pfCount := d.pfCount + 1 }) s)

/-- Bytes of dump section 8 (R612). -/
def serviceBytes (s : State) : List Byte :=
  (allCores.map (fun c => bytesLE 1 (coreOf s c).svc.toNat ++ bytesLE 1 (coreOf s c).loaded.toNat ++
      bytesLE 6 (bit01 (!coreStale s c)))).flatten ++
  ((List.range 8).map (fun n => bytesLE 1 (ostlerOf s n).svc.toNat ++ bytesLE 1 (ostlerOf s n).loaded.toNat ++
      bytesLE 6 (bit01 (ostlerUp s n)))).flatten

/-- STATUS of each section (R612): 0 absent, 1 present, 2 redacted, 3 partial. -/
def dumpSections (full tio hinge : Bool) : List (Nat × Nat) :=
  let big (n : Nat) := if !full then (n, 0) else if hinge then (n, 3) else (n, 1)
  [(1, 1), (2, 1), big 3,
   if full && tio then (4, 2) else big 4, if full && tio then (5, 2) else big 5,
   if full then (6, if tio then 2 else 1) else (6, 0), if full then (7, 1) else (7, 0),
   (8, 1), (9, 1), (10, 1), (11, 1)]

/-- The 8 bytes that a dump holds of the register slot at `o`, as an Ostler core reads it (R20, R612): in TIO mode a scalar register is
written as 0. With the Hinge failed the writer on die `d` does not reach the other die's registers, and what stands there is open. -/
def dumpReg (s : State) (unreached : Option Nat) (o : Nat) : List Byte :=
  match regAt o with
  | none => bytesLE 8 0
  | some r =>
    if unreached = some (regDie r) then (List.range 8).map (fun i => Config.dumpByte s.dumps.index.toNat 3 (o + i))
    else match r with
      | .sregAt _ _ => bytesLE 8 (if s.tiers.tio then 0 else (regRead s r).toNat)
      | _ => bytesLE 8 (regRead s r).toNat

/-- `n` bytes of the register space from `base` on. -/
def dumpRegs (s : State) (unreached : Option Nat) (base n : Nat) : List Byte :=
  (List.range (n / 8)).flatMap (fun i => dumpReg s unreached (base + 8 * i))

/-- Parts of large sections: the registers of REGS and CORES, the session table but in TIO mode, the directory (R314, R612). -/
def dumpParts (unreached : Option Nat) (s : State) : List (Nat × Nat × List Byte) :=
  [(3, 0, dumpRegs s unreached 0 0x600000), (4, 0, dumpRegs s unreached 0x800000 0x480000),
   (7, 0, (s.weights.dir.flatMap dirWords).flatMap (bytesLE 8))] ++
  (if s.tiers.tio then [] else s.serve.sessions.map (fun x => (6, 256 * x.1, sessionBytes s x.1)))

/-- A dump as its writer leaves it (R611, R612). -/
def mkDump (full valid : Bool) (writer : Nat) (s : State) : Dump :=
  let code := s.chipFault.getD 0
  { kind := if full then 1 else 2, valid := valid, code := code, writer := writer, tio := s.tiers.tio
    stride := s.stride.count, jobStride := (match s.job.run with | none => 0 | some r => r.stride)
    tackId := runTackId s, serial := s.fuses.serial, chip := ownChip s, tenant := s.job.tenant.toNat
    health := health s, journal := journalWord s, debugCount := s.sec.count, keyGen := s.tiers.keyGen.toNat
    powerState := powerState s, rackState := s.mgmt.rack.toNat, cause := s.boot.cause, faults := s.chipFaults
    index := if full then s.dumps.index.toNat else s.dumps.rindex.toNat
    sections := dumpSections full s.tiers.tio (code = 0x0209)
    body := [(1, ((s.tally.last.filter (fun r => r.stride = s.stride.count)).map recBytes).flatten),
             (2, bankBytes s.tally 0 ++ bankBytes s.tally 1),
             (8, serviceBytes s),
             (11, ((s.dumps.journal.drop (s.dumps.journal.length - 16)).map journalBytes).flatten)]
    parts := (9, 0, (List.range 32).flatMap (fun n => bytesLE 2 (ofSigned 16 (sget 0 s.thermal.sensors n)))) ::
      (if full then dumpParts (if code = 0x0209 then some (1 - writer / 4) else none) s else []) }

/-- Size of a dump section in bytes (R612); what its body holds where the model holds it. -/
def sectSize (d : Dump) (n : Nat) : Nat :=
  if n = 6 then 0x400000 else if n = 7 then 131072 else
  match d.body.find? (fun x => x.1 = n) with
  | some x => x.2.length
  | none =>
    if n = 3 then 0x600000 else if n = 4 then 0x480000 else if n = 5 then 8421376
    else if n = 9 then 1024 else 4096

/-- Sections with a body, with TYPE, STATUS, offset and length: one after another from 0x1000 on, 64-byte aligned (log 14). -/
def sectTable (d : Dump) : List (Nat × Nat × Nat × Nat) :=
  (d.sections.foldl (fun (x : List (Nat × Nat × Nat × Nat) × Nat) p =>
    let n := if p.2 = 0 || (p.1 = 6 && p.2 = 2) then 0 else sectSize d p.1
    (x.1 ++ [(p.1, p.2, x.2, n)], x.2 + ceilDiv n 64 * 64)) ([], 0x1000)).1

/-- LENGTH of a dump in bytes. -/
def dumpLength (d : Dump) : Nat := (sectTable d).foldl (fun m x => Nat.max m (x.2.2.1 + ceilDiv x.2.2.2 64 * 64)) 0x1000

/-- Units of a dump at each of the eight ports from `p` on. -/
def dumpUnits (p : Nat) (d : Dump) : Sparse Nat := (List.range 8).map (fun i => (p + i, ceilDiv (dumpLength d) 512))

/-- Dump L can be written: no die-0 LPDDR5X port is failed (R600). -/
def dumpLUp (s : State) : Bool := (List.range 8).all (fun p => (portOf s (8 + p)).state ≠ 4)

/-- Dump F can be written: no die-0 NAND channel is failed (R600). -/
def dumpFUp (s : State) : Bool := (List.range 8).all (fun p => (portOf s (24 + p)).state ≠ 4)

/-- The lowest-numbered online Ostler core (R609). -/
def lowestOstler (s : State) : Option Nat := ((List.range 8).filter (ostlerUp s)).head?

/-- The Dump F slot that the next dump takes (R609). -/
def dumpSlot (k : Dumps) : Nat := k.index.toNat % 16

/-- All of a dump is written: its header is VALID, and the dump in Dump F has a number of its own (R609). -/
def dumpEnd (s : State) : State :=
  let i := if s.dumps.onF then (match sget none s.dumps.dumpF (dumpSlot s.dumps) with | some d => d.index | none => 0)
    else match s.dumps.dumpL with | some d => d.index | none => 0
  let done := fun (d : Dump) => { d with valid := true }
  event 0x0C84 (item 1 1 ++ item 4 i) (modDumps (fun k => { k with
    writing := false, lastCode := s.chipFault.getD 0, onF := false
    dumpL := if k.onF then k.dumpL else k.dumpL.map done
    dumpF := if k.onF then sset none k.dumpF (dumpSlot k) ((sget none k.dumpF (dumpSlot k)).map done) else k.dumpF
    index := if k.onF then k.index + 1 else k.index }) s)

/-- The copy in Dump F is whole (R609): COPIED, and the next number. -/
def copyEnd (s : State) : State :=
  modDumps (fun k => { k with
    copying := false, index := k.index + 1
    dumpL := k.dumpL.map (fun d => { d with copied := true })
    dumpF := sset none k.dumpF (dumpSlot k) k.dumpL }) s

/-- The dump or the copy under way goes on under class 4 (R264, R266). -/
def dumpGo (s : State) : State :=
  if !(s.dumps.writing || s.dumps.copying) || s.dumps.tumblerOwns then s else
  let x := moveUnits s.dumps.left s
  let s := modDumps (fun k => { k with left := x.1 }) x.2
  if x.1 ≠ [] then s else if s.dumps.writing then dumpEnd s else copyEnd s

/-- The full dump goes into Dump L, or, while that is skipped, into Dump F (R600, R609), under class 4. `done` is false where the writer
stops before the header is VALID (R610). -/
def fullDump (done : Bool) (s : State) : State :=
  match lowestOstler s with
  | none => modDumps (fun d => { d with tumblerOwns := true }) s
  | some w =>
    let d := mkDump true false w s
    if !done then
      modDumps (fun k => { k with dumpL := if dumpLUp s then some d else k.dumpL, writing := true, tumblerOwns := true }) s
    else if dumpLUp s then
      dumpGo (modDumps (fun k => { k with dumpL := some d, writing := true, onF := false, copying := false, left := dumpUnits 8 d }) s)
    else if dumpFUp s then
      dumpGo (modDumps (fun k => { k with dumpF := sset none k.dumpF (dumpSlot k) (some d), writing := true, onF := true, copying := false
                                          left := dumpUnits 24 d }) s)
    else event 0x0C84 (item 1 1 ++ item 4 d.index) (modDumps (fun k => { k with lastCode := s.chipFault.getD 0 }) s)

/-- The reduced dump of the Tumbler (R610): Dump L from stage 5 onward, and the NOR slot RDUMP_INDEX mod 16. -/
def reducedDump (s : State) : State :=
  let d := mkDump false true 0xFF s
  let s := if 5 ≤ s.boot.stage && dumpLUp s then modDumps (fun k => { k with dumpL := some d }) s else s
  event 0x0C84 (item 1 2 ++ item 4 s.dumps.rindex.toNat) (modDumps (fun k => { k with
    nor := sset none k.nor (k.rindex.toNat % 16) (some { d with sections := d.sections.filter (fun x => x.1 ≤ 2 || 8 ≤ x.1) })
    rindex := k.rindex + 1, lastCode := d.code, writing := false, tumblerOwns := true }) s)

/-- Codes whose dump the Tumbler writes (R610): BOUNDARY_TIMER, SECRET_FUSE_FAULT, MEM_CTRL_LOST as a unit reports it of Etxia's own memory,
OSTLER_DIE_LOST. -/
def tumblerDumps (code : Nat) : Bool := code = 0x0105 || code = 0x0B01 || code = 0x0507 || code = 0x0C01

/-- What R608 stops at once: every run is dropped as at a hard stop. Grooms, engines, Hitches, snapshots, completions and links test
`chipFault` itself. -/
def stopChip (s : State) : State :=
  { s with engines := smap {} (fun _ g => { g with ags := smap {} (fun _ a => { a with runs := [] }) g.ags }) s.engines }

/-- The dump under way takes a later chip fault (R612, R613): FAULTS counts it and section 1 holds its records. -/
def dumpFault (n : Nat) (recs : List Byte) (d : Dump) : Dump :=
  { d with faults := n, body := d.body.map (fun x => if x.1 = 1 then (1, x.2 ++ recs) else x) }

/-- The dump that is being written, in Dump L or in Dump F, changes. -/
def modDumpNow (f : Dump → Dump) (k : Dumps) : Dumps :=
  if k.onF then { k with dumpF := sset none k.dumpF (dumpSlot k) ((sget none k.dumpF (dumpSlot k)).map f) }
  else { k with dumpL := k.dumpL.map f }

/-- A chip fault of code `code` (R608): recorded, counted, the chip stopped, the dump begun or, where `tumbler` says that R610 gives it to
the Tumbler or before stage 5, left to REDUCED_DUMP. A second chip fault is recorded and counted only (R613). -/
def chipStopBy (tumbler : Bool) (code : Nat) (detail : List Byte) (progress : Bool) (s : State) : State :=
  let q := s.tally.seq
  let s := { record 1 3 code detail s with chipFaults := Nat.min (s.chipFaults + 1) (2 ^ 32 - 1) }
  if s.chipFault.isSome then
    let recs := ((s.tally.last.filter (fun r => (r.seq - q).toNat < (s.tally.seq - q).toNat)).map recBytes).flatten
    if s.dumps.writing then modDumps (modDumpNow (dumpFault s.chipFaults recs)) s else s
  else
    let s := stopChip { s with chipFault := some code }
    if tumbler || s.boot.stage < 5 then modDumps (fun d => { d with tumblerOwns := true, writing := true }) s
    else fullDump progress s

/-- A chip fault whose code tells who writes the dump (R608, R610). -/
def chipStop (code : Nat) (detail : List Byte) (progress : Bool) (s : State) : State := chipStopBy (tumblerDumps code) code detail progress s

/-! ## The dump as bytes (R611, R612) -/

/-- The header with VALID, COPIED and DIGEST as given. -/
def dumpHead (d : Dump) (valid copied : Bool) (digest : Nat) : List Byte :=
  padTo 256 (
    [0x53#8, 0x4B#8, 0x56#8, 0x34#8, 0x44#8, 0x55#8, 0x4D#8, 0x50#8] ++ bytesLE 2 1 ++ bytesLE 1 d.kind ++ bytesLE 1 (bit01 valid) ++
    bytesLE 2 d.code ++ bytesLE 1 d.writer ++ bytesLE 1 (bit01 d.tio) ++ bytesLE 8 d.stride ++ bytesLE 8 d.jobStride ++
    bytesLE 8 d.tackId ++ bytesLE 8 d.serial ++ bytesLE 2 d.chip ++ bytesLE 2 d.tenant ++ bytesLE 4 d.health ++ bytesLE 8 d.journal ++
    bytesLE 8 d.debugCount ++ bytesLE 1 d.keyGen ++ bytesLE 1 d.powerState ++ bytesLE 1 d.rackState ++ bytesLE 1 d.cause ++
    bytesLE 4 d.faults ++ bytesLE 4 d.index ++ bytesLE 4 (dumpLength d / 64) ++ bytesLE 1 (bit01 copied) ++ bytesLE 7 0 ++
    bytesLE 32 digest)

/-- The 256-byte header (R611): DIGEST covers the dump with VALID, COPIED and itself read as 0. -/
def dumpHeader (d : Dump) : List Byte :=
  dumpHead d d.valid d.copied (Config.digest 256 ((dumpHead d false false 0 ++ d.body.flatMap (fun x => x.2) ++
    d.parts.flatMap (fun x => x.2.2)).map (fun b => b.toNat)))

/-- A directory entry (R611). -/
def dumpEntry (x : Nat × Nat × Nat × Nat) : List Byte :=
  bytesLE 2 x.1 ++ bytesLE 1 x.2.1 ++ bytesLE 1 0 ++ bytesLE 4 (x.2.2.1 / 64) ++ bytesLE 8 x.2.2.2

/-- Byte `off` of a dump; what the model does not hold of a section is open (log 14). -/
def dumpByteAt (d : Dump) (off : Nat) : Byte :=
  if off < 0x100 then (dumpHeader d).getD off 0#8
  else if off < 0x1000 then
    match (sectTable d)[(off - 0x100) / 16]? with
    | some x => (dumpEntry x).getD (off % 16) 0#8
    | none => 0#8
  else
    match (sectTable d).find? (fun x => x.2.2.1 ≤ off && off < x.2.2.1 + x.2.2.2) with
    | none => Config.dumpByte d.index 0 off
    | some x =>
      let o := off - x.2.2.1
      match d.body.find? (fun y => y.1 = x.1), d.parts.find? (fun y => y.1 = x.1 && y.2.1 ≤ o && o < y.2.1 + y.2.2.length) with
      | some y, _ => y.2.getD o 0#8
      | none, some y => y.2.2.getD (o - y.2.1) 0#8
      | none, none => if x.1 = 6 || x.1 = 7 then 0#8 else Config.dumpByte d.index x.1 o

/-- Byte `off` of the Dump L region; where no dump was written, what the devices hold is open (R604). -/
def dumpLByte (s : State) (off : Nat) : Byte :=
  match s.dumps.dumpL with
  | some d => dumpByteAt d off
  | none => Config.dumpByte 0 0xFFFF off

/-- Byte `off` of the Dump F region: 16 slots of 1 GiB (R609). -/
def dumpFByte (s : State) (off : Nat) : Byte :=
  match sget none s.dumps.dumpF (off / 2 ^ 30) with
  | some d => dumpByteAt d (off % 2 ^ 30)
  | none => Config.dumpByte 0 0xFFFE off

/-! ## What runs -/

/-- Boundary action `k` may be applied: the window is open and no later action of R68 has been (R68, R69). -/
def mayAct (s : State) (k : Nat) : Bool := fabricUp s && s.stride.window && s.stride.act ≤ k

/-- The request of a chip that is not the root goes to the root (R82, R483). -/
def sendLenReq (s : State) : State :=
  if multiChip s && !s.stride.root then sendStride s.stride.domainRoot 1 { stride := jobStride s, len := s.stride.lenReq } s else s

/-- A hard stop falls at this boundary (R165). -/
def stopDue (s : State) : Bool := match s.job.run with | none => false | some r => r.hardStop && decide (r.drainStart ≤ s.stride.count)

/-- Every open launch of a Hitch closes with no combine (R375). -/
def closeLaunches (h : Nat) (s : State) : State :=
  modHitch h (fun k => { k with st := smap {} (fun _ t => { t with isOpen := false, waited := 0, rows := [], bad := [], late := false
                                                                   gone := [], miss := none }) k.st
                                outbox := [] }) s

/-- Action 4 of a hard stop: every open launch closes (R375). -/
def stopLaunches (s : State) : State := if stopDue s then forEach (List.range 4) closeLaunches s else s

/-- The actions of R68 that no command of their own applies and that come before action `k` or with it: 4, the launches of a hard stop,
6, placement and quotas and, last, the release of pool pages, and 8, L for the new stride, after which the input image is rebuilt
(R544). -/
def autoActs (k : Nat) (s : State) : State :=
  let s := if s.stride.act < 4 && 4 ≤ k then stopLaunches s else s
  let s := if s.stride.act < 6 && 6 ≤ k then quotasInForce (placementInForce s) else s
  let s := if s.stride.act < 7 && 7 ≤ k then releasePoolPages s else s
  if s.stride.act < 8 && 8 ≤ k then rebuildImage (sendLenReq (setLen s)) else s

/-- Boundary action `k` is applied, after those of R68 that come before it. -/
def setAct (k : Nat) (s : State) : State := modStride (fun t => { t with act := Nat.max t.act k }) (autoActs k s)

/-- A change of budget, THROTTLE_N or POWER_FAIL_N (R81, R82): the boundary decides whether it governs; in a multi-chip domain the
chip's requested length changes at once. -/
def noteChange (s : State) : State :=
  let x := nowSettings s
  if x = s.stride.settings.getLastD s.stride.inForce then s else
  let s := modStride (fun t => { t with settings := t.settings ++ [x] }) s
  if !multiChip s || !fabricUp s then s else
  sendLenReq (modStride (fun t => { t with lenReq := (ownLen x (nextTerms s)).1 }) s)

/-- A sensor at 115 °C or more trips the part (R532): the clocks stop and THERMTRIP_N latches. -/
def tripIfHot (s : State) : State :=
  if s.thermal.tripped || tempMax s < 1150 then s else
  let s := chipStop 0x0905 (item 2 (ofSigned 16 (tempMax s))) false s
  { s with thermal := { s.thermal with tripped := true }, pins := { s.pins with thermtripN := false } }

end Sys2Proof.Machine
end

