-- ==== Sys2Proof/Machine/Sync.lean ====
section
/-!
DEFINITION. Synchronisation objects (R335 to R347) and the requests that reach them. A request's operation on its object is
one function here; the groom's LD and ST use the same functions.
-/
namespace Sys2Proof.Machine

/-- Scalar register `r` of core `c` written; a write to S0 is discarded (R171). -/
def setSreg (c : Nat) (r : RegNo) (v : Word) (s : State) : State :=
  if r = 0 then s else modCore c (fun k => { k with sreg := sset 0 k.sreg r.toNat v }) s

/-- A result reaches a waiting thread (R343): a thread of this part by its register, another chip's by a response. -/
def deliver (w : Waiter) (v : Word) (s : State) : State :=
  if w.chip = ownChip s then
    match (threadOf s w.core.val w.thread.val).wait with
    | .sync dst _ => modThread w.core.val w.thread.val (fun h => { h with wait := .none }) (setSreg w.core.val dst v s)
    | _ => s
  else sendSyncRsp w.chip w.core.val w.thread.val w.info v s

/-- VALUE of a COUNTER takes `x`, clamped (R341); `o` waiters whose bound is met are released with the value (R337). -/
def counterPut (n : Nat) (x : Int) (clear : Bool) (s : State) : State :=
  let o := objOf s n
  let v := satInt 64 x
  let s := modObj n (fun k => { k with value := v, ovf := (if clear then false else k.ovf) || clamps 64 x
                                       waiters := k.waiters.filter (fun w => v < w.bound) }) s
  forEach (o.waiters.filter (fun w => w.bound ≤ v)) (fun w t => deliver w (wordOf v) t) s

/-- What an operation on an object answers its requester. -/
inductive SyncAns where
  | value (v : Word)
  | silent
  | waits
  | refuse (code : Nat) (detail : List Byte)
  deriving DecidableEq, Repr

/-- SYNC_INVALID on object `n`, offset `off`, issued by `core` (R349). -/
def syncInvalid (n off core : Nat) : SyncAns := .refuse 0x0221 (item 2 n ++ item 1 off ++ item 2 core)

/-- ST of VALUE: VALUE = data, OVF cleared (R337). -/
def opSet (r : SyncReq) (data : Word) (s : State) : State × SyncAns :=
  if (objOf s r.obj.val).type = 1 then (counterPut r.obj.val data.toInt true s, .silent)
  else (s, syncInvalid r.obj.val 0x08 r.core.val)

/-- LD of +0x10 of a COUNTER: returns VALUE, then adds 1 (R337, R341). -/
def opFetchInc (r : SyncReq) (s : State) : State × SyncAns :=
  let o := objOf s r.obj.val
  if o.type = 1 then (counterPut r.obj.val (o.value + 1) false s, .value (wordOf o.value))
  else (s, syncInvalid r.obj.val 0x10 r.core.val)

/-- ST to +0x10 of a COUNTER: adds the data (R337, R341). -/
def opAdd (r : SyncReq) (data : Word) (s : State) : State × SyncAns :=
  let o := objOf s r.obj.val
  if o.type = 1 then (counterPut r.obj.val (o.value + data.toInt) false s, .silent)
  else (s, syncInvalid r.obj.val 0x10 r.core.val)

/-- The thread of a request as a waiter. -/
def waiterOf (r : SyncReq) (bound : Int) : Waiter :=
  { chip := r.chip.toNat, core := r.core, thread := r.thread, bound := bound, info := r.info }

/-- LD of +0x18 of a COUNTER: waits until VALUE reaches the bound, returns VALUE (R337). -/
def opWait (r : SyncReq) (bound : Word) (s : State) : State × SyncAns :=
  let o := objOf s r.obj.val
  if o.type = 1 then
    if bound.toInt ≤ o.value then (s, .value (wordOf o.value))
    else (modObj r.obj.val (fun k => { k with waiters := k.waiters ++ [waiterOf r bound.toInt] }) s, .waits)
  else (s, syncInvalid r.obj.val 0x18 r.core.val)

/-- An arrival at a BARRIER (R342): the last of PARTIES clears COUNT, raises GEN and releases every waiter. -/
def opArrive (r : SyncReq) (wait : Bool) (s : State) : State × SyncAns :=
  let o := objOf s r.obj.val
  if o.type = 2 then
    if o.param ≤ o.count + 1 then
      let g := o.gen + 1
      let s := modObj r.obj.val (fun k => { k with count := 0, gen := g, waiters := [] }) s
      (forEach o.waiters (fun w t => deliver w (BitVec.ofNat 64 g.toNat) t) s,
        if wait then .value (BitVec.ofNat 64 g.toNat) else .silent)
    else
      (modObj r.obj.val (fun k => { k with
          count := k.count + 1
          waiters := if wait then k.waiters ++ [waiterOf r 0] else k.waiters }) s,
        if wait then .waits else .silent)
  else (s, syncInvalid r.obj.val 0x10 r.core.val)

/-- The slot of a claimant, in table order (R344). -/
def claimSlot (l : List Claim) (chip core : Nat) : Option Nat :=
  l.findIdx? (fun k => k.chip = chip && k.core = core)

/-- A claim on a WORKCTR (R344). -/
def opClaim (r : SyncReq) (seq : BitVec 16) (s : State) : State × SyncAns :=
  let o := objOf s r.obj.val
  if o.type = 3 then
    match claimSlot o.claims r.chip.toNat r.core.val with
    | none => (s, .refuse 0x0223 (item 2 r.obj.val ++ item 1 0x10 ++ item 2 r.core.val ++ item 2 r.chip.toNat))
    | some k =>
      let j := o.claims.getD k { chip := 0, core := 0 }
      if j.valid && seq = j.seq then
        (modSync (fun y => { y with replays := statInc 24 y.replays }) s, .value j.result)
      else if j.valid && seq ≠ j.seq + 1 then
        (s, .refuse 0x0224 (item 2 r.obj.val ++ item 1 0x10 ++ item 2 r.core.val ++ item 1 k ++ item 2 j.seq.toNat ++
          item 2 seq.toNat))
      else
        let grant := o.next < o.limit
        let v : Word := if grant then BitVec.ofNat 64 o.next else BitVec.allOnes 64
        (modObj r.obj.val (fun q => { q with
            next := if grant then q.next + q.param else q.next
            claims := q.claims.set k { j with valid := true, seq := seq, result := v } }) s, .value v)
  else (s, syncInvalid r.obj.val 0x10 r.core.val)

/-- A read with no side effect (R337): SYNC_STATE, the word at +0x08, or +0x18 of a BARRIER or WORKCTR. -/
def syncPeek (o : SyncObj) (off : Nat) : Option Word :=
  if o.type = 0 then none
  else if off = 0 then some (syncState o)
  else if off = 8 then
    some (if o.type = 1 then wordOf o.value else if o.type = 2 then BitVec.ofNat 64 o.count else BitVec.ofNat 64 o.next)
  else if off = 0x18 && o.type = 2 then some (BitVec.ofNat 64 o.gen.toNat)
  else if off = 0x18 && o.type = 3 then some (BitVec.ofNat 64 o.limit)
  else none

/-! ## Requests that reach an object -/

/-- The refusal of a request: a groom of this part halts (R337, R194); the job takes the code (R349). -/
def syncRefuse (r : SyncReq) (code : Nat) (detail : List Byte) (s : State) : State :=
  let s := jobFault code detail s
  if r.chip.toNat = ownChip s then
    haltCore r.core.val r.thread.val 0 code (threadOf s r.core.val r.thread.val).pc 0 0 s
  else s

/-- The answer of an operation goes to its requester: a response, or the refusal. -/
def syncAnswer (r : SyncReq) (x : State × SyncAns) : State :=
  match x.2 with
  | .value v => sendSyncRsp r.chip.toNat r.core.val r.thread.val r.info v x.1
  | .silent => x.1
  | .waits => x.1
  | .refuse code detail => syncRefuse r code detail x.1

/-- A request reaches its object: discarded while a changeover is open (R461) or when its epoch is not the chip's (R346),
else served. -/
def syncServe (r : SyncReq) (op : State → State × SyncAns) (s : State) : State :=
  if !fabricUp s then s
  else if s.job.chgOpen then modMgmt (fun m => { m with chgDiscards := statInc 32 m.chgDiscards }) s
  else if r.epoch ≠ s.job.epoch then modSync (fun y => { y with stale := statInc 23 y.stale }) s
  else syncAnswer r (op s)

/-- COUNTER_SET (R337). -/
def execCounterSet (r : SyncReq) (data : Word) (s : State) : Out := .next (syncServe r (opSet r data) s)

/-- COUNTER_FETCH_INCREMENT (R337, R341). -/
def execCounterFetchIncrement (r : SyncReq) (s : State) : Out := .next (syncServe r (opFetchInc r) s)

/-- COUNTER_ADD (R337, R341). -/
def execCounterAdd (r : SyncReq) (data : Word) (s : State) : Out := .next (syncServe r (opAdd r data) s)

/-- COUNTER_WAIT (R337, R343). -/
def execCounterWait (r : SyncReq) (bound : Word) (s : State) : Out := .next (syncServe r (opWait r bound) s)

/-- BARRIER_ARRIVE_WAIT (R342). -/
def execBarrierArriveWait (r : SyncReq) (s : State) : Out := .next (syncServe r (opArrive r true) s)

/-- BARRIER_ARRIVE (R342). -/
def execBarrierArrive (r : SyncReq) (s : State) : Out := .next (syncServe r (opArrive r false) s)

/-- WORKCTR_CLAIM (R344). -/
def execWorkctrClaim (r : SyncReq) (seq : BitVec 16) (s : State) : Out := .next (syncServe r (opClaim r seq) s)

/-- Some waiter of the object has spanned WAIT_LIMIT boundaries (R343). -/
def waitExpired (o : SyncObj) : Option Waiter := o.waiters.find? (fun w => o.waitLimit ≤ w.spans)

/-- SYNC_WAIT_TIMEOUT (R343): declared at boundary action 1 for a wait that has spanned WAIT_LIMIT boundaries. -/
def execSyncWaitTimeout (o : Fin 8192) (s : State) : Out :=
  .next (match waitExpired (objOf s o.val) with
    | none => s
    | some _ => if mayAct s 1 then
        let w := ((objOf s o.val).waiters.head?).getD { chip := 0, core := 0, thread := 0, bound := 0 }
        jobFault 0x0222 (item 2 o.val ++ item 8 (syncState (objOf s o.val)).toNat ++ item 2 w.core.val ++
          item 1 w.thread.val) s
      else s)

/-- The result of a remote request reaches its thread (R498); a stale core's is discarded (R616). -/
def syncReturn (c t : Nat) (result : Word) (s : State) : State :=
  if coreStale s c || !fabricUp s then s else
  match (threadOf s c t).wait with
  | .remote dst obj _ eligible _ =>
    modCore c (fun k => { k with claim := if eligible && obj % 4 = 2 then false else k.claim })
      (modThread c t (fun h => { h with wait := .none }) (setSreg c dst result s))
  | _ => s

/-- SYNC_RESPONSE (R498, R616). -/
def execSyncResponse (c : CoreId) (t : ThreadId) (result : Word) (s : State) : Out := .next (syncReturn c.val t.val result s)

/-- The packet of the remote request a thread waits on. -/
def waitPacket (s : State) (c t obj : Nat) (seq : BitVec 16) (n : Nat) : Packet :=
  syncPacket s (obj / 2 ^ 16) (obj % 2 ^ 16 / 4) (obj % 4) false c t (seq.setWidth 64) (n != 0)

/-- A remote request gets no response, `reason` that of its unreachable completion or 0: an eligible one goes again, at most 3 times, then
LINK_UNREACHABLE; an ineligible one has no response timeout and fails when it is unreachable (R498). A reissue that finds no route itself is
one more unreachable completion. -/
def syncAgain : Nat → Nat → Nat → Nat → State → State
  | 0, _, _, _, s => s
  | k + 1, c, t, reason, s =>
    if !fabricUp s then s else match (threadOf s c t).wait with
    | .remote dst obj seq eligible n =>
      if eligible && n < 3 then
        sendSyncReq (threadOf s c t).step (obj / 2 ^ 16) (obj % 2 ^ 16 / 4) (obj % 4) false c t (seq.setWidth 64) true (syncAgain k c t)
          (modSync (fun y => { y with reissues := statInc 32 y.reissues })
            (modThread c t (fun h => { h with wait := .remote dst obj seq eligible (n + 1) }) s))
      else if eligible || reason ≠ 0 then
        jobFault 0x0802 (headerBytes (waitPacket s c t obj seq n) ++ item 1 reason) s
      else s
    | _ => s

/-- SYNC_REISSUE (R498): an unreachable completion with its REASON, or, with 0, 65,536 fc without a response. -/
def execSyncReissue (c : CoreId) (t : ThreadId) (reason elapsed : Nat) (s : State) : Out :=
  .next (if reason ≠ 0 || 65536 ≤ elapsed then syncAgain 4 c.val t.val reason s else s)

end Sys2Proof.Machine
end

