-- ==== Sys2Proof/Machine/Operands.lean ====
section
/-!
DEFINITION. Operand forms: scalar operands and instruction words (R176, R178), groom readiness and the step a thread is in
(R172, R173), and session-table words (R386, R388).
-/
namespace Sys2Proof.Machine

/-- IMM sign-extended to 64 bits (R176). -/
def immWord (f : ScalarF) : Word := f.imm.signExtend 64

/-- The fields of a scalar word (R176). -/
def scalarFields (w : Word) : ScalarF :=
  { rsvd := w.extractLsb' 26 6, dst := w.extractLsb' 8 6, src1 := w.extractLsb' 14 6, src2 := w.extractLsb' 20 6
    imm := w.extractLsb' 32 32 }

/-- Bit field `[hi:lo]` of an instruction word as a bit vector. -/
def fieldOf (w : Word) (lo n : Nat) : BitVec n := w.extractLsb' lo n

/-- The fields of the four words of a TMAC or TOUT (R178, R187). -/
def tileFields (w0 w1 w2 w3 : Word) : TileF :=
  { cmaskReg := fieldOf w0 54 6, rmaskReg := fieldOf w0 48 6, ksrc := fieldOf w0 46 2, nsrc := fieldOf w0 44 2
    msrc := fieldOf w0 42 2, accFirst := fieldOf w0 36 5, sgranW := fieldOf w0 34 2, sgranA := fieldOf w0 32 2
    afmt := fieldOf w0 31 1, wfmt := fieldOf w0 28 3, shift := fieldOf w0 20 7, tags := bitOf w0 18, rqCol := bitOf w0 17
    satLame := bitOf w0 16, keep := bitOf w0 15, init := bitOf w0 14, gait := (fieldOf w0 11 3).toFin
    eng := (fieldOf w0 8 3).toFin, kExt := fieldOf w1 32 16, nExt := fieldOf w1 16 16, mExt := fieldOf w1 0 16
    tagOut := fieldOf w2 48 6, tagIn := fieldOf w2 42 6, rqBase := fieldOf w2 36 6, outPitch := fieldOf w2 30 6
    outBase := fieldOf w2 24 6, swBase := fieldOf w2 18 6, saBase := fieldOf w2 12 6, aPitch := fieldOf w2 6 6
    aBase := fieldOf w2 0 6, resOff := fieldOf w3 0 18
    rsvd := bitsOf w0 63 60 ≠ 0 || bitOf w0 41 || bitOf w0 27 || bitOf w0 19 || bitsOf w1 63 48 ≠ 0 ||
            bitsOf w2 63 54 ≠ 0 || bitsOf w3 63 18 ≠ 0 }

/-- The fields of the four words of a RESLOAD (R188). -/
def resloadFields (w0 w1 w2 w3 : Word) : ResloadF :=
  { gait := (fieldOf w0 11 3).toFin, eng := (fieldOf w0 8 3).toFin, src := fieldOf w1 0 6, len := fieldOf w1 32 19
    resOff := fieldOf w3 0 18
    rsvd := bitsOf w0 63 14 ≠ 0 || bitsOf w1 31 6 ≠ 0 || bitsOf w1 63 51 ≠ 0 || w2 ≠ 0 || bitsOf w3 63 18 ≠ 0 }

/-! ## Threads -/

/-- The core takes no halt, is not stale and is not held by a debug session (R173, R194, R585, R616). -/
def coreRuns (s : State) (c : Nat) : Bool :=
  fabricUp s && !s.stride.window && !(coreOf s c).halted && !coreStale s c

/-- Tile instructions of thread `t` of core `c` that have not completed (R175, R176). -/
def tilesOpen (s : State) (c t : Nat) : Bool :=
  (coreEngines c).any (fun e =>
    (engOf s e).held.any (fun h => h.thread.val = t) ||
    (match (engOf s e).firing with
     | some f => (match f.tile with | some h => h.thread.val = t | none => false)
     | none => false))

/-- What a thread waits on lets it issue: nothing, its tile instructions complete (R176), the core's claim answered (R345), or a
placement page that is no longer absent (R258). -/
def waitOver (s : State) (c t : Nat) : Bool :=
  match (threadOf s c t).wait with
  | .none => true
  | .tiles => !tilesOpen s c t
  | .claim => !(coreOf s c).claim
  | .page p => match pageState s p with | .absent _ => false | _ => true
  | _ => false

/-- Thread `t` of core `c` is ready (R172, R173, R175). -/
def threadReady (s : State) (c t : Nat) : Bool :=
  coreRuns s c && (threadOf s c t).en && !(threadOf s c t).done && waitOver s c t && !threadFull s c t

/-- The thread the groom takes next: ready threads in ascending order, starting after the one that issued last (R173). -/
def nextThread (s : State) (c : Nat) : Option Nat :=
  ((List.range 8).map (fun d => ((coreOf s c).lastThread + 1 + d) % 8)).find? (fun t => threadReady s c t)

/-- An alias write of the core has yet to reach its bank, which serves the groom's accesses in their order (R319, R322, log 85). -/
def aliasOut (s : State) (c : Nat) : Bool :=
  (coreOf s c).threads.any (fun t => match t.2.wait with | .bank _ _ => true | _ => false)

/-- It is thread `t`'s turn on core `c`, and neither a debug session nor an alias write holds the core (R173, R585). -/
def groomReady (s : State) (c t : Nat) : Bool := nextThread s c == some t && !(coreOf s c).dbgHalt && !aliasOut s c

/-- A PC from which 8 bytes lie in the core's backed scratchpad (R177). -/
def pcBacked (s : State) (c : Nat) (n : Int) : Bool := decide (0 ≤ n) && spadBacked s c n.toNat 8

/-- The thread has issued: it is the last of the rotation (R173), its wait on a page is over, and its PC is `n`. -/
def threadMove (c t n : Nat) (s : State) : State :=
  modCore c (fun k => { k with lastThread := t }) (modThread c t (fun h => { h with pc := n, wait := .none, full := none }) s)

/-- The tack's owner of engine index `i` of core `c` in step `k` of the period (R172). -/
def ownerOf (t : Tack) (c i k : Nat) : Option ThreadId :=
  match t.cores.find? (fun (x : CoreImage) => x.core.val = c) with
  | none => none
  | some x => ((x.owners.getD k []).find? (fun p => p.1.val = i)).map (fun p => p.2)

/-- The entry PC of thread `t` of core `c` in job-relative step `n` (R172). -/
def entryOf (k : Tack) (c t n : Nat) : Option Nat :=
  match k.cores.find? (fun (x : CoreImage) => x.core.val = c) with
  | none => none
  | some x => ((x.entries.getD (stepIndex k n) []).find? (fun p => p.1.val = t)).map (fun p => p.2)

/-- The key of thread `t`'s STEP_END snapshot of step `n`; key 0 holds the registers the tack loaded (R241). -/
def snapKey (t n : Nat) : Nat := 8 * (n + 1) + t

/-! ## Session-table words -/

/-- The word at a session-table offset. -/
def sessionWord (s : State) (n off : Nat) : Word := BitVec.ofNat 64 (numLE (((sessionBytes s n).drop (off / 8 * 8)).take 8))

end Sys2Proof.Machine
end

