-- ==== Sys2Proof/Machine/Groom.lean ====
section
/-!
DEFINITION. The groom's scalar instructions (R171 to R177, R196), LD and ST (R339, R345, R386), and the begin of a step
(R138, R172). A command stands for one issue on its thread; a thread that may not issue leaves the state as it is (log 2).
-/
namespace Sys2Proof.Machine

/-! ## Steps -/

/-- Thread `t` of core `c`, when it has ended its step, begins instance `n` if the tack gives it an entry PC there (R172). -/
def threadBegin (k : Tack) (c t n : Nat) (s : State) : State :=
  let h := threadOf s c t
  if h.en && !h.done then s else if n < h.upto then s else
  match entryOf k c t n with
  | some pc => modThread c t (fun h => { h with pc := pc, en := true, done := false, full := none, step := n
                                                upto := n + 1, wait := .none }) s
  | none => modThread c t (fun h => { h with en := false, done := false, upto := n + 1 }) s

/-- The thread begins every step instance whose issue span has started, in order, as far as it is free (R172). -/
def threadAdvance (c t : Nat) (s : State) : State :=
  match s.job.run with
  | none => s
  | some r => forEach (List.range r.avail) (fun n => threadBegin r.tack c t n) s

/-- The running job drains (R162). -/
def draining (s : State) : Bool := match s.job.run with | none => false | some r => r.draining

/-- Engine `e`, when its step's schedule is done, begins instance `n` (R135, R138). In a drain the entries of SOURCE gaits
are passed over (R162, log 20); a hard-stopped engine begins nothing (R165). -/
def engineBegin (k : Tack) (e n : Nat) (s : State) : State :=
  let g := engOf s e
  if !g.entries.isEmpty || g.firing.isSome || n < g.upto || g.wait = 5 then s else
  let l := (schedOf k e n).filter (fun q => !(draining s && (gaitOf s e q.slot.val).source))
  modEng e (fun g => { g with step := n, upto := n + 1, entries := l, windows := []
                              left := (match l with | [] => 0 | q :: _ => q.firings), fired := [] }) s

/-- The engine begins every step instance whose issue span has started, as far as it is free (R138). -/
def engineAdvance (e : Nat) (s : State) : State :=
  match s.job.run with
  | none => s
  | some r => forEach (List.range r.avail) (fun n => engineBegin r.tack e n) s

/-- STEP_BEGIN (R138, R172): at the start of an issue span the core's threads and engines that are free begin the step. -/
def execStepBegin (c : CoreId) (s : State) : Out :=
  .next (if fabricUp s && !s.stride.window && !(coreOf s c.val).halted && !coreStale s c.val then
      forEach (coreEngines c.val) (fun e => engineAdvance e)
        (forEach (List.range 8) (fun t => threadAdvance c.val t) s)
    else s)

/-! ## Scalar instructions -/

/-- One scalar instruction on a thread of the core (R173, R176, R177): the fetch and field checks, the effect, and the PC,
whose target must lie in backed scratchpad. `target` gives the next PC from this one. -/
def scalarRun (c t : Nat) (f : ScalarF) (target : Nat → Int) (eff : State → State) (s : State) : State :=
  let pc := (threadOf s c t).pc
  if pc % 8 ≠ 0 || !spadBacked s c pc 8 then groomRefuse c t 0 0x0315 (item 4 pc) 0 0 s
  else if f.rsvd ≠ 0 then groomRefuse c t 0 0x0310 [] 0 0 s
  else if !pcBacked s c (target pc) then groomRefuse c t 0 0x0315 (item 6 (ofSigned 48 (target pc))) 0 0 s
  else threadMove c t (target pc).toNat (eff s)

/-- As `scalarRun`, where the thread may issue. -/
def scalarIssue (c t : Nat) (f : ScalarF) (target : Nat → Int) (eff : State → State) (s : State) : State :=
  if groomReady s c t then scalarRun c t f target eff s else s

/-- The PC after an instruction that does not branch. -/
def fallThrough (pc : Nat) : Int := pc + 8

/-- An instruction whose effect is S[DST] = `v` (R176). -/
def setDst (c : Nat) (f : ScalarF) (v : State → Word) (s : State) : State := setSreg c f.dst (v s) s

/-- LI: S[DST] = IMM sign-extended (R176). -/
def valLi (f : ScalarF) : Word := immWord f
/-- LUI: bits [63:32] = IMM; bits [31:0] unchanged (R176). -/
def valLui (c : Nat) (f : ScalarF) (s : State) : Word := f.imm ++ (sreg s c f.dst).extractLsb' 0 32
/-- ADD: S[SRC1] + S[SRC2] + IMM, wrapping (R176, R177). -/
def valAdd (c : Nat) (f : ScalarF) (s : State) : Word := sreg s c f.src1 + sreg s c f.src2 + immWord f
/-- SUB (R176). -/
def valSub (c : Nat) (f : ScalarF) (s : State) : Word := sreg s c f.src1 - sreg s c f.src2
/-- MUL: the low 64 bits (R176). -/
def valMul (c : Nat) (f : ScalarF) (s : State) : Word := sreg s c f.src1 * sreg s c f.src2
/-- The shift distance IMM[5:0] (R176). -/
def shiftBy (f : ScalarF) : Nat := f.imm.toNat % 64
/-- SHL (R176). -/
def valShl (c : Nat) (f : ScalarF) (s : State) : Word := sreg s c f.src1 <<< shiftBy f
/-- SHR: logical (R176). -/
def valShr (c : Nat) (f : ScalarF) (s : State) : Word := sreg s c f.src1 >>> shiftBy f
/-- SAR: arithmetic (R176). -/
def valSar (c : Nat) (f : ScalarF) (s : State) : Word := (sreg s c f.src1).sshiftRight (shiftBy f)
/-- MIN: signed (R176). -/
def valMin (c : Nat) (f : ScalarF) (s : State) : Word :=
  if (sreg s c f.src1).slt (sreg s c f.src2) then sreg s c f.src1 else sreg s c f.src2
/-- MAX: signed (R176). -/
def valMax (c : Nat) (f : ScalarF) (s : State) : Word :=
  if (sreg s c f.src1).slt (sreg s c f.src2) then sreg s c f.src2 else sreg s c f.src1

/-- LI (R176). -/
def execLi (c : CoreId) (t : ThreadId) (f : ScalarF) (s : State) : Out :=
  .next (scalarIssue c.val t.val f fallThrough (setDst c.val f (fun _ => valLi f)) s)
/-- LUI (R176). -/
def execLui (c : CoreId) (t : ThreadId) (f : ScalarF) (s : State) : Out :=
  .next (scalarIssue c.val t.val f fallThrough (setDst c.val f (valLui c.val f)) s)
/-- ADD (R176). -/
def execAdd (c : CoreId) (t : ThreadId) (f : ScalarF) (s : State) : Out :=
  .next (scalarIssue c.val t.val f fallThrough (setDst c.val f (valAdd c.val f)) s)
/-- SUB (R176). -/
def execSub (c : CoreId) (t : ThreadId) (f : ScalarF) (s : State) : Out :=
  .next (scalarIssue c.val t.val f fallThrough (setDst c.val f (valSub c.val f)) s)
/-- MUL (R176). -/
def execMul (c : CoreId) (t : ThreadId) (f : ScalarF) (s : State) : Out :=
  .next (scalarIssue c.val t.val f fallThrough (setDst c.val f (valMul c.val f)) s)
/-- SHL (R176). -/
def execShl (c : CoreId) (t : ThreadId) (f : ScalarF) (s : State) : Out :=
  .next (scalarIssue c.val t.val f fallThrough (setDst c.val f (valShl c.val f)) s)
/-- SHR (R176). -/
def execShr (c : CoreId) (t : ThreadId) (f : ScalarF) (s : State) : Out :=
  .next (scalarIssue c.val t.val f fallThrough (setDst c.val f (valShr c.val f)) s)
/-- SAR (R176). -/
def execSar (c : CoreId) (t : ThreadId) (f : ScalarF) (s : State) : Out :=
  .next (scalarIssue c.val t.val f fallThrough (setDst c.val f (valSar c.val f)) s)
/-- AND (R176). -/
def execAnd (c : CoreId) (t : ThreadId) (f : ScalarF) (s : State) : Out :=
  .next (scalarIssue c.val t.val f fallThrough
    (setDst c.val f (fun s => sreg s c.val f.src1 &&& sreg s c.val f.src2)) s)
/-- OR (R176). -/
def execOr (c : CoreId) (t : ThreadId) (f : ScalarF) (s : State) : Out :=
  .next (scalarIssue c.val t.val f fallThrough
    (setDst c.val f (fun s => sreg s c.val f.src1 ||| sreg s c.val f.src2)) s)
/-- XOR (R176). -/
def execXor (c : CoreId) (t : ThreadId) (f : ScalarF) (s : State) : Out :=
  .next (scalarIssue c.val t.val f fallThrough
    (setDst c.val f (fun s => sreg s c.val f.src1 ^^^ sreg s c.val f.src2)) s)
/-- MIN (R176). -/
def execMin (c : CoreId) (t : ThreadId) (f : ScalarF) (s : State) : Out :=
  .next (scalarIssue c.val t.val f fallThrough (setDst c.val f (valMin c.val f)) s)
/-- MAX (R176). -/
def execMax (c : CoreId) (t : ThreadId) (f : ScalarF) (s : State) : Out :=
  .next (scalarIssue c.val t.val f fallThrough (setDst c.val f (valMax c.val f)) s)

/-! ## Branches -/

/-- PC + IMM × 8 where `b` holds, else PC + 8 (R176). -/
def branchTo (f : ScalarF) (b : Bool) (pc : Nat) : Int := if b then pc + f.imm.toInt * 8 else pc + 8

/-- BEQ (R176). -/
def execBeq (c : CoreId) (t : ThreadId) (f : ScalarF) (s : State) : Out :=
  .next (scalarIssue c.val t.val f (branchTo f (sreg s c.val f.src1 == sreg s c.val f.src2)) id s)
/-- BNE (R176). -/
def execBne (c : CoreId) (t : ThreadId) (f : ScalarF) (s : State) : Out :=
  .next (scalarIssue c.val t.val f (branchTo f (sreg s c.val f.src1 != sreg s c.val f.src2)) id s)
/-- BLT: signed (R176). -/
def execBlt (c : CoreId) (t : ThreadId) (f : ScalarF) (s : State) : Out :=
  .next (scalarIssue c.val t.val f (branchTo f ((sreg s c.val f.src1).slt (sreg s c.val f.src2))) id s)
/-- JMP (R176). -/
def execJmp (c : CoreId) (t : ThreadId) (f : ScalarF) (s : State) : Out :=
  .next (scalarIssue c.val t.val f (branchTo f true) id s)

/-! ## LD and ST -/

/-- The address of an LD or ST: S[SRC1] + IMM (R176). -/
def memAddr (c : Nat) (f : ScalarF) (s : State) : Word := sreg s c f.src1 + immWord f

/-- A page miss of a groom access (R292, R258): counted, recorded, and the thread waits for the page. -/
def groomMiss (c t page a : Nat) (s : State) : State :=
  modThread c t (fun h => { h with wait := .page page })
    (event 0x0480 (item 2 c ++ item 6 a)
      (modMgmt (fun m => { m with pageMisses := statInc 32 m.pageMisses }) s))

/-- TIER_HOLE of a groom access: local address and map state (R314). -/
def groomHole (c t a m : Nat) (s : State) : State :=
  let pc := (threadOf s c t).pc
  haltCore c t 0 0x0420 pc 0 0 (jobFault 0x0420 (item 6 a ++ item 1 m) s)

/-- A refusal of a synchronisation access: the core halts with the code (R337). -/
def groomSyncRefuse (c t code : Nat) (detail : List Byte) (s : State) : State :=
  haltCore c t 0 code (threadOf s c t).pc 0 0 (jobFault code detail s)

/-- The request of a groom access to object `n` of chip `chip` (R346). -/
def groomReq (s : State) (c : CoreId) (t : ThreadId) (n : Nat) : SyncReq :=
  { chip := BitVec.ofNat 16 (ownChip s), core := c, thread := t, epoch := s.job.epoch, obj := ⟨n % 8192, Nat.mod_lt _ (by decide)⟩ }

/-- The answer of a local operation reaches the issuing thread (R337, R343). -/
def groomAnswer (c : CoreId) (t : ThreadId) (dst : RegNo) (n pc : Nat) (x : State × SyncAns) : State :=
  match x.2 with
  | .value v => threadMove c.val t.val (pc + 8) (setSreg c.val dst v x.1)
  | .silent => threadMove c.val t.val (pc + 8) x.1
  | .waits => modThread c.val t.val (fun h => { h with wait := .sync dst n }) (threadMove c.val t.val (pc + 8) x.1)
  | .refuse code detail => groomSyncRefuse c.val t.val code detail x.1

/-- A request to another chip's object leaves the part; an LD's thread waits for the response (R339, R498). A second claim
of the core waits until the first returns (R345). -/
def remoteSync (c : CoreId) (t : ThreadId) (ld : Bool) (dst : RegNo) (chip n word pc : Nat) (v : Word) (s : State) : State :=
  let type := sget 0 s.sync.remote (chip * 8192 + n)
  let eligible := word < 2 || (word = 2 && type = 3) || (word = 3 && (type = 2 || type = 3))
  let step := (threadOf s c.val t.val).step
  let s := threadMove c.val t.val (pc + 8) s
  if ld then
    let s := modThread c.val t.val (fun h => { h with
      wait := .remote dst (chip * 2 ^ 16 + n * 4 + word) (v.extractLsb' 0 16) eligible 0 }) s
    sendSyncReq step chip n word false c.val t.val v false (syncAgain 4 c.val t.val)
      (if word = 2 && type = 3 then modCore c.val (fun k => { k with claim := true }) s else s)
  else sendSyncReq step chip n word true c.val t.val v false (lostJob (syncPacket s chip n word true c.val t.val v false)) s

/-- A chip of the running job's group (R339). -/
def groupHas (s : State) (chip : Nat) : Bool := match s.job.run with | none => false | some r => r.group.contains chip

/-- LD of offset `off` of local object `n` (R337). -/
def ldSync (c : CoreId) (t : ThreadId) (f : ScalarF) (n off pc : Nat) (s : State) : State :=
  let o := objOf s n
  let r := groomReq s c t n
  match syncPeek o off with
  | some v => threadMove c.val t.val (pc + 8) (setSreg c.val f.dst v s)
  | none =>
    if off = 0x10 && o.type = 1 then groomAnswer c t f.dst n pc (opFetchInc r s)
    else if off = 0x10 && o.type = 2 then groomAnswer c t f.dst n pc (opArrive r true s)
    else if off = 0x10 && o.type = 3 then
      if (coreOf s c.val).claim then modThread c.val t.val (fun h => { h with wait := .claim }) s
      else groomAnswer c t f.dst n pc (opClaim r ((sreg s c.val f.src2).extractLsb' 0 16) s)
    else if off = 0x18 && o.type = 1 then groomAnswer c t f.dst n pc (opWait r (sreg s c.val f.src2) s)
    else groomSyncRefuse c.val t.val 0x0221 (item 2 n ++ item 1 off ++ item 2 c.val) s

/-- ST to offset `off` of local object `n` (R337). -/
def stSync (c : CoreId) (t : ThreadId) (f : ScalarF) (n off pc : Nat) (s : State) : State :=
  let o := objOf s n
  let r := groomReq s c t n
  let v := sreg s c.val f.src2
  if off = 0x08 && o.type = 1 then groomAnswer c t 0 n pc (opSet r v s)
  else if off = 0x10 && o.type = 1 then groomAnswer c t 0 n pc (opAdd r v s)
  else if off = 0x10 && o.type = 2 then groomAnswer c t 0 n pc (opArrive r false s)
  else groomSyncRefuse c.val t.val 0x0221 (item 2 n ++ item 1 off ++ item 2 c.val) s

/-- A groom access to another chip (R339): an object of the group is reached over the links; all else is refused. -/
def groomRemote (c : CoreId) (t : ThreadId) (f : ScalarF) (ld : Bool) (chip a pc : Nat) (s : State) : State :=
  if 0xF10000000000 ≤ a && a < 0xF10000080000 then
    let n := (a - 0xF10000000000) / 64
    let off := (a - 0xF10000000000) % 64
    if groupHas s chip then
      if 0x20 ≤ off then groomSyncRefuse c.val t.val 0x0221 (item 2 n ++ item 1 off ++ item 2 c.val) s
      else if ld && off = 0x10 && sget 0 s.sync.remote (chip * 8192 + n) = 3 &&
          (coreOf s c.val).claim then modThread c.val t.val (fun h => { h with wait := .claim }) s
      else remoteSync c t ld f.dst chip n (off / 8) pc (sreg s c.val f.src2) s
    else groomSyncRefuse c.val t.val 0x0221 (item 2 n ++ item 1 off ++ item 2 c.val) s
  else groomHole c.val t.val a 3 s

/-- The LD at `pc` has left for memory; its thread waits for the word (R173). -/
def ldWait (c t : Nat) (dst : RegNo) (a pc : Nat) (s : State) : State :=
  modThread c t (fun h => { h with wait := .mem dst a }) (threadMove c t (pc + 8) s)

/-- A misaligned LD or ST: refused with SYNC_INVALID where it would reach an object (R337), else with 0x0315 (R177). -/
def misaligned (c : CoreId) (t : ThreadId) (a : Nat) (s : State) : State :=
  if 0xF10000000000 ≤ a && a < 0xF10000080000 then
    groomSyncRefuse c.val t.val 0x0221 (item 2 ((a - 0xF10000000000) / 64) ++ item 1 ((a - 0xF10000000000) % 64) ++ item 2 c.val) s
  else groomRefuse c.val t.val 0 0x0315 (item 6 a) 0 0 s

/-- The effect of an LD once its instruction checks pass: memory answers later (R173), objects at once (R337). -/
def ldAccess (c : CoreId) (t : ThreadId) (f : ScalarF) (pc : Nat) (s : State) : State :=
  let w := memAddr c.val f s
  let a := w.toNat % 2 ^ 48
  let chip := w.toNat / 2 ^ 48
  if w.toNat % 8 ≠ 0 then misaligned c t a s
  else if chip ≠ 0 && chip ≠ ownChip s then groomRemote c t f true chip a pc s
  else match regionOf s a with
    | .sync n off => ldSync c t f n off pc s
    | .session _ _ => ldWait c.val t.val f.dst a pc s
    | _ =>
      if accessAt s false a = .proceed && !pageReadMay s a then s else
      let s := mapConsult (dieOf c.val) a s
      match accessAt s false a with
      | .proceed => ldWait c.val t.val f.dst a pc (pageReadStart a s)
      | .absent p => groomMiss c.val t.val p a s
      | .refused m => groomHole c.val t.val a m s

/-- The address lies in an alias range (R320). -/
def isAlias (s : State) (a : Nat) : Bool := match regionOf s a with | .setAlias _ _ | .clrAlias _ _ => true | _ => false

/-- A 64-bit write of a groom: an alias write goes to its bank, which reads the word first (R321, R322); the groom serves nothing until
it has (log 85). -/
def stWrite (c t pc a : Nat) (v : Word) (s : State) : State :=
  if isAlias s a then modThread c t (fun h => { h with wait := .bank a v }) (threadMove c t (pc + 8) s)
  else threadMove c t (pc + 8) (portTouch a 8 (writeWord a v s))

/-- The effect of an ST once its instruction checks pass. -/
def stAccess (c : CoreId) (t : ThreadId) (f : ScalarF) (pc : Nat) (s : State) : State :=
  let w := memAddr c.val f s
  let a := w.toNat % 2 ^ 48
  let chip := w.toNat / 2 ^ 48
  if w.toNat % 8 ≠ 0 then misaligned c t a s
  else if chip ≠ 0 && chip ≠ ownChip s then groomRemote c t f false chip a pc s
  else match regionOf s a with
    | .sync n off => stSync c t f n off pc s
    | _ =>
      let s := mapConsult (dieOf c.val) a s
      match accessAt s true a with
      | .proceed => stWrite c.val t.val pc a (sreg s c.val f.src2) s
      | .absent p => groomMiss c.val t.val p a s
      | .refused m => groomHole c.val t.val a m s

/-- One LD or ST on a thread: the checks of every scalar instruction (R177), then the access. -/
def memRun (c : CoreId) (t : ThreadId) (f : ScalarF) (access : Nat → State → State) (s : State) : State :=
  let pc := (threadOf s c.val t.val).pc
  if pc % 8 ≠ 0 || !spadBacked s c.val pc 8 then groomRefuse c.val t.val 0 0x0315 (item 4 pc) 0 0 s
  else if f.rsvd ≠ 0 then groomRefuse c.val t.val 0 0x0310 [] 0 0 s
  else if !spadBacked s c.val (pc + 8) 8 then groomRefuse c.val t.val 0 0x0315 (item 6 (pc + 8)) 0 0 s
  else access pc s

/-- LD (R176, R177, R337, R339). -/
def execLd (c : CoreId) (t : ThreadId) (f : ScalarF) (s : State) : Out :=
  .next (if groomReady s c.val t.val then memRun c t f (ldAccess c t f) s else s)

/-- ST (R176, R177, R321, R337, R339). -/
def execSt (c : CoreId) (t : ThreadId) (f : ScalarF) (s : State) : Out :=
  .next (if groomReady s c.val t.val then memRun c t f (stAccess c t f) s else s)

/-- The word an LD returns from a local address: an alias returns the plain word (R321), the session table its entry (R386). -/
def loadWord (s : State) (a : Nat) : Word :=
  match regionOf s a with
  | .session n off => sessionWord s n off
  | _ => readWord s (plainAddr s a)

/-- SCALAR_LOAD_RETURN (R173): the word reaches its register and the thread is ready again. -/
def execScalarLoadReturn (c : CoreId) (t : ThreadId) (s : State) : Out :=
  .next (if fabricUp s && !coreStale s c.val then
    match (threadOf s c.val t.val).wait with
    | .mem dst a => modThread c.val t.val (fun h => { h with wait := .none }) (setSreg c.val dst (loadWord s a) (portTouch a 8 s))
    | _ => s
  else s)

/-! ## TWAIT and STEP_END -/

/-- One TWAIT on a thread (R176): it completes once every tile instruction the thread has issued has; until then the thread
waits, with its PC at the TWAIT (log 71). -/
def twaitRun (c t : Nat) (f : ScalarF) (s : State) : State :=
  let pc := (threadOf s c t).pc
  if tilesOpen s c t && pc % 8 = 0 && spadBacked s c pc 8 && f.rsvd = 0 && spadBacked s c (pc + 8) 8 then
    modThread c t (fun h => { h with wait := .tiles }) s
  else scalarRun c t f fallThrough id s

/-- TWAIT (R176). -/
def execTwait (c : CoreId) (t : ThreadId) (f : ScalarF) (s : State) : Out :=
  .next (if groomReady s c.val t.val then twaitRun c.val t.val f s else s)

/-- The registers at a thread's STEP_END of its step, which later runs of its engines read (R241). -/
def snapRegs (c t : Nat) (s : State) : State :=
  let i := snapKey t (threadOf s c t).step
  modCore c (fun k => { k with snaps := sset none k.snaps i (some k.sreg) }) s

/-- The thread has ended its work for the step (R172, R196). -/
def stepEnded (c t : Nat) (s : State) : State :=
  threadAdvance c t (modThread c t (fun h => { h with done := true }) (snapRegs c t s))

/-- One STEP_END on a thread: nothing follows it in the step, so no fall-through target is checked. -/
def stepEndRun (c t : Nat) (f : ScalarF) (s : State) : State :=
  let pc := (threadOf s c t).pc
  if pc % 8 ≠ 0 || !spadBacked s c pc 8 then groomRefuse c t 0 0x0315 (item 4 pc) 0 0 s
  else if f.rsvd ≠ 0 then groomRefuse c t 0 0x0310 [] 0 0 s
  else stepEnded c t (threadMove c t (pc + 8) s)

/-- STEP_END (R172, R176, R241). -/
def execStepEnd (c : CoreId) (t : ThreadId) (f : ScalarF) (s : State) : Out :=
  .next (if groomReady s c.val t.val then stepEndRun c.val t.val f s else s)

end Sys2Proof.Machine
end

