-- ==== Sys2Proof/Machine/Tile.lean ====
section
/-!
DEFINITION. Tile instructions: the checks at acceptance (R193), the tile loop and its arithmetic (R111 to R124, R183 to
R192), RESLOAD (R188). The work of an accepted instruction is done whole by TILE_INSTRUCTION_COMPLETE (log 19). What the spec leaves
open in this arithmetic and its checks is log 79.
-/
namespace Sys2Proof.Machine

/-! ## Formats -/

/-- Bits of a weight element (R99). -/
def weightBits (wfmt : Nat) : Nat := if wfmt = 0 then 8 else if wfmt = 1 then 4 else 2
/-- Bits of an activation element (R100). -/
def actBits (afmt : Nat) : Nat := if afmt = 0 then 8 else 4
/-- fc of one reduction block of 32 (R125). -/
def blockFc (wfmt afmt : Nat) : Nat := if wfmt = 0 then 32 else if afmt = 0 then 16 else 8
/-- Bits of an output element (R122). -/
def outBits (fmt : Nat) : Nat := if fmt = 0 then 4 else if fmt = 1 then 8 else if fmt = 2 then 16 else 32
/-- A weight element's value; the reserved ternary encoding reads as 0 (R99, R102). -/
def weightVal (wfmt raw : Nat) : Int :=
  if wfmt = 3 then (if raw = 1 then 1 else if raw = 3 then -1 else 0) else toSigned (weightBits wfmt) raw
/-- A descriptor without reserved bits and with a valid OUT_FMT (R122, R124). -/
def descOk (d : Nat) : Bool := d % 8 ≤ 3 && (d / 8) % 32 = 0 && (d / 2 ^ 14) % 4 = 0
/-- Requantisation of an element by a descriptor, with whether it clamps (R123). -/
def requant (a : Int) (d : Nat) : Int × Bool :=
  let x := rhe (a * ((d / 65536 : Nat) : Int)) ((d / 256) % 64)
  (satInt (outBits (d % 8)) x, clamps (outBits (d % 8)) x)

/-! ## Acceptance -/

/-- What acceptance answers. -/
inductive Accept where
  | ok (h : HeldTile)
  | refuse (code : Nat) (detail : List Byte) (need avail : Nat)
  deriving DecidableEq, Repr

/-- `n` bytes at local address `a` lie wholly in the core's backed scratchpad (R180). An address with a chip number in bits [63:48], the own
one too, is none of those (DESIGN CHOICE, log 97). -/
def inSpad (s : State) (c a n : Nat) : Bool := spadAddr c 0 ≤ a && a + n ≤ spadAddr c 0 + spadBytes s c

/-- An extent: its value, or the fault of its resolution (R179). -/
def extentOf (s : State) (c : Nat) (src : BitVec 2) (x : BitVec 16) : Except (Nat × List Byte) Nat :=
  let reg := sreg s c (x.extractLsb' 0 6)
  if src = 0 then .ok x.toNat
  else if src = 1 then
    if 65535 < reg.toNat then .error (0x0311, item 4 reg.toNat) else .ok reg.toNat
  else
    let a := reg.toNat
    if a % 4 ≠ 0 || !inSpad s c a 4 then .error (0x0312, item 6 a)
    else
      let v := readNum s a 4
      if 65535 < v then .error (0x0311, item 4 v) else .ok v

/-- A field of source 1 or 2 with bits above the register number (R178). -/
def extentRsvd (src : BitVec 2) (x : BitVec 16) : Bool := src ≠ 0 && 64 ≤ x.toNat

/-- Check 1 of a TMAC or TOUT (R193, R187). -/
def tileEncodingOk (tout : Bool) (f : TileF) : Bool :=
  !f.rsvd && f.msrc ≠ 3 && f.nsrc ≠ 3 && f.ksrc ≠ 3 &&
  !extentRsvd f.msrc f.mExt && !extentRsvd f.nsrc f.nExt && !extentRsvd f.ksrc f.kExt &&
  (!tout || (f.wfmt = 0 && f.afmt = 0 && f.sgranA = 0 && f.sgranW = 0 && !f.init && !f.keep && f.kExt = 0 && f.ksrc = 0 &&
    f.aBase = 0 && f.aPitch = 0 && f.saBase = 0 && f.swBase = 0 && f.resOff = 0))

/-- Check 2: the owner of an engine in the issuing thread's step (R174); 0xFF for no thread. -/
def ownerCode (s : State) (c t i : Nat) : Nat :=
  match s.job.run with
  | none => 0xFF
  | some r => match ownerOf r.tack c i (stepIndex r.tack (threadOf s c t).step) with
    | some o => o.val
    | none => 0xFF

/-- Check 3: the offending field of a gait that may not run (R133): 0 VALID, 1 EPOCH. -/
def gaitRefusal (s : State) (e g : Nat) : Accept :=
  .refuse 0x0205 (item 2 e ++ item 1 g ++ item 1 (if (gaitOf s e g).valid then 1 else 0)) 0 0

/-- The bits of a mask array (R190). -/
def maskAt (s : State) (a n : Nat) : List Bool := (List.range n).map (fun i => (readByte s (a + i / 8)).getLsbD (i % 8))

/-- Lines of a scale array (R110). -/
def scaleLines (sgran lines nb : Nat) : Nat := if sgran = 0 then 1 else if sgran = 1 then lines else lines * nb

/-- The first of a list of spans (address, bytes, alignment) that is not in the core's scratchpad or not aligned (R180). -/
def badSpan (s : State) (c : Nat) (l : List (Nat × Nat × Nat)) : Option Nat :=
  (l.find? (fun x => x.1 % x.2.2 ≠ 0 || !inSpad s c x.1 x.2.1)).map (fun x => x.1)

/-- Bytes of `rows` rows of `row` bytes at `pitch`. -/
def pitchSpan (rows pitch row : Nat) : Nat := if rows = 0 then 0 else (rows - 1) * pitch + row

/-- Tile registers an instruction needs (R185). -/
def tilesNeeded (f : TileF) (mt nt : Nat) : Nat := if f.init && !f.keep then Nat.min 2 (mt * nt) else mt * nt

/-- Checks 6 to 11 of a TMAC or TOUT once its extents are resolved (R179, R180, R193). Choices (log 79): a reserved OUT_FMT in the
first descriptor counts as 4 bytes in the OUT_PITCH and OUT_BASE checks; the descriptors of masked columns count as used (R124);
the descriptors are those read here, whatever memory holds later (R130). An extent of 0 leaves the bases and pitches under their checks
(DESIGN CHOICE, log 97). -/
def tileAccept3 (s : State) (c t e : Nat) (tout : Bool) (f : TileF) (m n k : Nat) : Accept :=
  let g := gaitOf s e f.gait.val
  let rv (r : RegNo) : Nat := (sreg s c r).toNat
  let nb := ceilDiv k 32
  let mt := ceilDiv m 16
  let nt := ceilDiv n 32
  let rm := rv f.rmaskReg
  let cm := rv f.cmaskReg
  if f.rmaskReg ≠ 0 && (rm % 8 ≠ 0 || !inSpad s c rm (ceilDiv m 8)) then .refuse 0x0312 (item 6 rm) 0 0
  else if f.cmaskReg ≠ 0 && (cm % 8 ≠ 0 || !inSpad s c cm (ceilDiv n 8)) then .refuse 0x0312 (item 6 cm) 0 0
  else if f.resOff.toNat % 64 ≠ 0 then .refuse 0x0312 (item 6 f.resOff.toNat) 0 0
  else
    let arow := ceilDiv (k * actBits f.afmt.toNat) 8
    if !tout && (rv f.aPitch % 32 ≠ 0 || rv f.aPitch < arow) then .refuse 0x0312 (item 6 (rv f.aPitch)) 0 0
    else
      let spans :=
        (if tout then [] else
          [(rv f.aBase, pitchSpan m (rv f.aPitch) arow, 32),
           (rv f.saBase, 2 * scaleLines f.sgranA.toNat m nb, 2),
           (rv f.swBase, 2 * scaleLines f.sgranW.toNat n nb, 2)]) ++
        (if f.keep then [] else [(rv f.rqBase, 4 * (if f.rqCol then n else 1), 4)]) ++
        (if f.tags then [(rv f.tagIn, 2 * m, 2)] else []) ++
        (if f.tags && !f.keep then [(rv f.tagOut, 2 * m, 2)] else [])
      match badSpan s c spans with
      | some a => .refuse 0x0312 (item 6 a) 0 0
      | none =>
        let descs := if f.keep then [] else (List.range (if f.rqCol then n else 1)).map (fun j => readNum s (rv f.rqBase + 4 * j) 4)
        let fmt := (descs.headD 1) % 8
        let orow := ceilDiv (n * outBits fmt) 8
        if !f.keep && (rv f.outPitch % 32 ≠ 0 || rv f.outPitch < orow) then .refuse 0x0312 (item 6 (rv f.outPitch)) 0 0
        else if !f.keep && (badSpan s c [(rv f.outBase, pitchSpan m (rv f.outPitch) orow, 32)]).isSome then
          .refuse 0x0312 (item 6 (rv f.outBase)) 0 0
        else
          let used := if m = 0 || n = 0 || (!tout && k = 0) then [] else descs
          match used.find? (fun d => !descOk d || d % 8 ≠ fmt) with
          | some d => .refuse 0x0302 (item 2 e ++ item 4 d) 0 0
          | none =>
            let need := tilesNeeded f mt nt
            let avail := g.accCount - f.accFirst.toNat
            let panel := 32 * 32 * nb * weightBits f.wfmt.toNat / 8
            let res := f.resOff.toNat + nt * panel
            if avail < need then .refuse 0x0313 [] need avail
            else if !tout && g.resLen < res then .refuse 0x0314 [] res g.resLen
            else
              let regs := if f.init then [] else (List.range (mt * nt)).map (fun i => g.accBase + f.accFirst.toNat + i)
              match regs.find? (fun r => (sget {} (engOf s e).tiles r).t ≠ f.shift.toNat) with
              | some r =>
                .refuse 0x0303 (item 2 e ++ item 1 r ++ item 1 (sget {} (engOf s e).tiles r).t ++ item 1 f.shift.toNat) 0 0
              | none =>
                .ok { kind := if tout then .tout else .tmac
                      thread := ⟨t % 8, Nat.mod_lt _ (by decide)⟩, step := (threadOf s c t).step, pc := (threadOf s c t).pc
                      f := f, m := m, n := n, k := k
                      aBase := rv f.aBase, aPitch := rv f.aPitch, saBase := rv f.saBase, swBase := rv f.swBase
                      outBase := rv f.outBase, outPitch := rv f.outPitch, rqBase := rv f.rqBase
                      tagIn := rv f.tagIn, tagOut := rv f.tagOut
                      rmask := if f.rmaskReg = 0 then [] else maskAt s rm m
                      cmask := if f.cmaskReg = 0 then [] else maskAt s cm n
                      descs := descs, gait := f.gait }

/-- Checks 1 to 11 of a TMAC or TOUT in the order of R193. -/
def tileAccept (s : State) (c t : Nat) (tout : Bool) (f : TileF) : Accept :=
  let e := c * 8 + f.eng.val
  let owner := ownerCode s c t f.eng.val
  if !tileEncodingOk tout f then .refuse 0x0310 [] 0 0
  else if owner ≠ t then .refuse 0x0316 (item 1 owner) 0 0
  else if !gaitLive s e f.gait.val then gaitRefusal s e f.gait.val
  else if 3 < f.wfmt.toNat then .refuse 0x0302 (item 2 e ++ item 1 f.wfmt.toNat) 0 0
  else if f.sgranA = 3 || f.sgranW = 3 then .refuse 0x0302 (item 2 e ++ item 1 3) 0 0
  else match extentOf s c f.msrc f.mExt with
    | .error x => .refuse x.1 x.2 0 0
    | .ok m => match extentOf s c f.nsrc f.nExt with
      | .error x => .refuse x.1 x.2 0 0
      | .ok n => match extentOf s c f.ksrc f.kExt with
        | .error x => .refuse x.1 x.2 0 0
        | .ok k => tileAccept3 s c t e tout f m n k

/-- The checks of a RESLOAD in the order of R193 (R188). -/
def resloadAccept (s : State) (c t : Nat) (f : ResloadF) : Accept :=
  let e := c * 8 + f.eng.val
  let owner := ownerCode s c t f.eng.val
  let g := gaitOf s e f.gait.val
  let src := sreg s c f.src
  let len := f.len.toNat
  if f.rsvd || len % 64 ≠ 0 || len < 64 || 262144 < len then .refuse 0x0310 [] 0 0
  else if owner ≠ t then .refuse 0x0316 (item 1 owner) 0 0
  else if !gaitLive s e f.gait.val then gaitRefusal s e f.gait.val
  else if g.ag3.en || g.resLen < f.resOff.toNat + len then .refuse 0x0310 [] 0 0
  else if src.toNat % 64 ≠ 0 || (src.toNat / 2 ^ 48 ≠ 0 && src.toNat / 2 ^ 48 ≠ ownChip s) then
    .refuse 0x0312 (item 6 (src.toNat % 2 ^ 48)) 0 0
  else if f.resOff.toNat % 64 ≠ 0 then .refuse 0x0312 (item 6 f.resOff.toNat) 0 0
  else .ok { kind := .resload, thread := ⟨t % 8, Nat.mod_lt _ (by decide)⟩, step := (threadOf s c t).step
             pc := (threadOf s c t).pc, src := src.toNat % 2 ^ 48, len := len, resOff := g.resBase + f.resOff.toNat
             gait := f.gait }

/-- The issue of a tile instruction (R173, R175, R177, R193): the fetch checks; a thread whose engine holds four waits until one
completes, and its instruction is judged then; a refusal names core, thread and PC first where R200 or R236 says so. -/
def tileIssue (c t : Nat) (eng : Fin 8) (acc : Accept) (s : State) : State :=
  let e := c * 8 + eng.val
  let pc := (threadOf s c t).pc
  if !groomReady s c t then s
  else if pc % 32 ≠ 0 || !spadBacked s c pc 32 then groomRefuse c t eng.val 0x0315 (item 4 pc) 0 0 s
  else if 4 ≤ holdCount s e then modThread c t (fun h => { h with full := some eng }) s
  else match acc with
    | .refuse code detail need avail =>
      if code / 16 = 0x031 then groomRefuse c t eng.val code detail need avail s
      else haltCore c t eng.val code pc need avail (jobFault code detail s)
    | .ok h =>
      if !spadBacked s c (pc + 32) 8 then groomRefuse c t eng.val 0x0315 (item 6 (pc + 32)) 0 0 s
      else threadMove c t (pc + 32) (modEng e (fun g => { g with held := g.held ++ [h] })
        (measAdd h.step .tiles c 1 s))

/-- TMAC (R178, R184, R193). -/
def execTmac (c : CoreId) (t : ThreadId) (f : TileF) (s : State) : Out :=
  .next (tileIssue c.val t.val f.eng (tileAccept s c.val t.val false f) s)

/-- TOUT (R187, R193). -/
def execTout (c : CoreId) (t : ThreadId) (f : TileF) (s : State) : Out :=
  .next (tileIssue c.val t.val f.eng (tileAccept s c.val t.val true f) s)

/-- RESLOAD (R188, R193). -/
def execResload (c : CoreId) (t : ThreadId) (f : ResloadF) (s : State) : Out :=
  .next (tileIssue c.val t.val f.eng (resloadAccept s c.val t.val f) s)

/-! ## The tile loop -/

/-- A bit of an explicit mask; no mask leaves every line unmasked (R190). -/
def maskBit (l : List Bool) (i : Nat) : Bool := l.isEmpty || l.getD i false

/-- Activation (r, k) (R101, R181). -/
def actAt (s : State) (h : HeldTile) (r k : Nat) : Int :=
  let a := h.aBase + r * h.aPitch
  if h.f.afmt = 0 then toSigned 8 (readByte s (a + k)).toNat
  else toSigned 4 ((readByte s (a + k / 2)).toNat / 2 ^ (4 * (k % 2)))

/-- The stored bits of weight (k, j) in the gait's resident window (R101, R183). -/
def weightRaw (s : State) (e : Nat) (h : HeldTile) (k j : Nat) : Nat :=
  let wb := weightBits h.f.wfmt.toNat
  let col := 32 * ceilDiv h.k 32 * wb / 8
  let o := (gaitOf s e h.gait.val).resBase + h.f.resOff.toNat + (j / 32) * (32 * col) + (j % 32) * col + k * wb / 8
  (sget 0#8 (engOf s e).res o).toNat / 2 ^ (k * wb % 8) % 2 ^ wb

/-- A scale descriptor's mantissa and shift for line `l`, block `b` (R106, R110). -/
def scaleAt (s : State) (base sgran l nb b : Nat) : Nat × Nat :=
  let i := if sgran = 0 then 0 else if sgran = 1 then l else l * nb + b
  let v := readNum s (base + 2 * i) 2
  (v / 64, v % 64)

/-- The exact partial sum of a block (R111). -/
def blockSum (s : State) (e : Nat) (h : HeldTile) (r j b : Nat) : Int :=
  ((List.range 32).map (fun i =>
    let k := 32 * b + i
    if k < h.k then actAt s h r k * weightVal h.f.wfmt.toNat (weightRaw s e h k j) else 0)).foldl (· + ·) 0

/-- One step of R116: a block's aligned term added with saturation; the flag says whether anything clamped (R118). -/
def accStep (t : Nat) (acc : Int × Bool) (p : Int) (ma sa mw sw : Nat) : Int × Bool :=
  let x := alignTerm (p * ma * mw) ((sa : Int) + sw - t)
  (satInt 48 (acc.1 + x.1), acc.2 || x.2 || clamps 48 (acc.1 + x.1))

/-- Element (r, j) accumulated over the first `nb` blocks in ascending order from `a0` (R116). -/
def accElem (s : State) (e : Nat) (h : HeldTile) (nb t r j : Nat) (a0 : Int) : Int × Bool :=
  (List.range nb).foldl (fun acc b =>
    let x := scaleAt s h.saBase h.f.sgranA.toNat r (ceilDiv h.k 32) b
    let w := scaleAt s h.swBase h.f.sgranW.toNat j (ceilDiv h.k 32) b
    accStep t acc (blockSum s e h r j b) x.1 x.2 w.1 w.2) (a0, false)

/-- Rows of an m-tile that take part (R189, R190). -/
def tileRows (h : HeldTile) (m : Nat) : List Nat :=
  (List.range 16).filter (fun i => 16 * m + i < h.m && maskBit h.rmask (16 * m + i))
/-- Columns of an n-tile that take part (R189, R190). -/
def tileCols (h : HeldTile) (n : Nat) : List Nat :=
  (List.range 32).filter (fun j => 32 * n + j < h.n && maskBit h.cmask (32 * n + j))

/-- Bits of a 16-row mask. -/
def rowBits (l : List Nat) : BitVec 16 := l.foldl (fun m i => m ||| (1#16 <<< i)) 0

/-- The input tag of row `r` (R192). -/
def inTag (s : State) (h : HeldTile) (r : Nat) : BitVec 16 := BitVec.ofNat 16 (readNum s (h.tagIn + 2 * r) 2)

/-- The register of tile (m, n) as the instruction begins with it (R117, R118, R191, R192): an initialising instruction clears the
elements and SAT_ROWS, at every tile that uses the register (log 79); LAME_ROWS takes the tags of the unmasked rows. -/
def tileBegin (s : State) (h : HeldTile) (m : Nat) (t : Tile) : Tile :=
  let t0 : Tile := if h.kind = .tmac && h.f.init then
      { t := h.f.shift.toNat, sat := 0, lame := if h.f.tags then 0 else t.lame, el := [] } else t
  if h.f.tags then
    { t0 with lame := t0.lame ||| rowBits ((tileRows h m).filter (fun i => tagLame (inTag s h (16 * m + i)))) } else t0

/-- Row `i` of tile (m, n) after `nb` blocks: each unmasked element's key, value and whether it clamped (R116, R191). -/
def rowAcc (s : State) (e : Nat) (h : HeldTile) (nb n m : Nat) (t : Tile) (i : Nat) : List (Nat × Int × Bool) :=
  (tileCols h n).map (fun j => (32 * i + j, accElem s e h nb t.t (16 * m + i) (32 * n + j) (sget 0 t.el (32 * i + j))))

/-- Tile (m, n) with its first `nb` blocks accumulated, and its rows that clamped (R116 to R118, R191, R192). -/
def tileAccumulate (s : State) (e : Nat) (h : HeldTile) (nb n m : Nat) (t : Tile) : Tile × List Nat :=
  let t := tileBegin s h m t
  if h.kind = .tout then (t, []) else
  let els := (tileRows h m).map (fun i => (i, rowAcc s e h nb n m t i))
  let hit := (els.filter (fun p => p.2.any (fun x => x.2.2))).map (fun p => p.1)
  ({ t with el := (els.flatMap (fun p => p.2)).foldl (fun l x => sset 0 l x.1 x.2.1) t.el, sat := t.sat ||| rowBits hit }, hit)

/-- An output element written (R182): a nibble of int4 leaves the other nibble as it is. -/
def writeOut (h : HeldTile) (r j : Nat) (fmt : Nat) (y : Int) (s : State) : State :=
  let a := h.outBase + r * h.outPitch
  let w := outBits fmt
  if w = 4 then
    let o := a + j / 2
    let b := (readByte s o).toNat
    let v := ofSigned 4 y
    writeByte o (BitVec.ofNat 8 (if j % 2 = 0 then b / 16 * 16 + v else b % 16 + 16 * v)) s
  else writeBytes (a + j * (w / 8)) (bytesLE (w / 8) (ofSigned w y)) s

/-- The descriptor of column `j` (R181). -/
def descAt (h : HeldTile) (j : Nat) : Nat := h.descs.getD (if h.f.rqCol then j else 0) 1

/-- The output tag of row `r` (R192). -/
def writeTag (h : HeldTile) (ep : BitVec 3) (r : Nat) (lame : Bool) (row : Nat) (s : State) : State :=
  writeBytes (h.tagOut + 2 * r) (bytesLE 2 (mkTag lame ep row).toNat) s

/-- A tile requantised and written (R123, R182, R192): the state, and the rows that clamp. -/
def tileWrite (h : HeldTile) (ep : BitVec 3) (n m : Nat) (t : Tile) (s : State) : State × List Nat :=
  let rows := tileRows h m
  let cols := tileCols h n
  let hit := rows.filter (fun i => cols.any (fun j => (requant (sget 0 t.el (32 * i + j)) (descAt h (32 * n + j))).2))
  let s := forEach rows (fun i s => forEach cols (fun j s =>
    writeOut h (16 * m + i) (32 * n + j) (descAt h (32 * n + j) % 8)
      (requant (sget 0 t.el (32 * i + j)) (descAt h (32 * n + j))).1 s) s) s
  (if h.f.tags then
    forEach rows (fun i u => writeTag h ep (16 * m + i) (t.lame.getLsbD i) (tagRow (inTag s h (16 * m + i))) u) s else s, hit)

/-- The tile register of tile (m, n) (R185). -/
def tileReg (g : Gait) (h : HeldTile) (mt n m : Nat) : Nat :=
  g.accBase + h.f.accFirst.toNat + (if h.f.init && !h.f.keep then (n * mt + m) % 2 else n * mt + m)

/-- A tile that ended with SAT_ROWS bits: its register, SAT_ROWS, and its unmasked rows with the bit set, each with the ROW of its
input tag. -/
structure SatTile where
  reg  : Nat
  sat  : BitVec 16
  rows : List (Nat × Nat)
  deriving DecidableEq, Repr

/-- What a run of the loop has gathered: the state, rows that clamped, tiles that ended with SAT_ROWS bits. -/
structure TileRun where
  s    : State
  hits : List Nat := []
  sats : List SatTile := []

/-- The unmasked rows of an m-tile whose SAT_ROWS bit is set, with the ROW of each one's input tag. -/
def satRowsOf (s : State) (h : HeldTile) (m : Nat) (sat : BitVec 16) : List (Nat × Nat) :=
  ((tileRows h m).filter sat.getLsbD).map (fun i => (16 * m + i, tagRow (inTag s h (16 * m + i))))

/-- SAT_ROWS joins LAME_ROWS of register `reg` of engine `e` (R192). -/
def satJoin (e reg : Nat) (s : State) : State :=
  let t := sget {} (engOf s e).tiles reg
  modEng e (fun k => { k with tiles := sset {} k.tiles reg { t with lame := t.lame ||| t.sat } }) s

/-- One tile of the loop with its first `nb` blocks (R184); written where the instruction writes it and the tile is whole. -/
def tileStep (e : Nat) (h : HeldTile) (nb : Nat) (whole : Bool) (x : TileRun) (p : Nat × Nat) : TileRun :=
  let (n, m) := p
  let g := gaitOf x.s e h.gait.val
  let reg := tileReg g h (ceilDiv h.m 16) n m
  let a := tileAccumulate x.s e h nb n m (sget {} (engOf x.s e).tiles reg)
  let w := if h.f.keep || !whole then (x.s, []) else tileWrite h g.epoch n m a.1 x.s
  let sat := a.1.sat ||| rowBits w.2
  { s := modEng e (fun k => { k with tiles := sset {} k.tiles reg { a.1 with sat := sat } }) w.1
    hits := x.hits ++ (a.2 ++ w.2).map (fun i => 16 * m + i)
    sats := if sat = 0 then x.sats else x.sats ++ [{ reg := reg, sat := sat, rows := satRowsOf x.s h m sat }] }

/-- The tiles of an instruction in loop order (R184). -/
def tileList (h : HeldTile) : List (Nat × Nat) :=
  (List.range (ceilDiv h.n 32)).flatMap (fun n => (List.range (ceilDiv h.m 16)).map (fun m => (n, m)))

/-- An extent of 0 makes the instruction complete with no effect (R179). -/
def tileEmpty (h : HeldTile) : Bool := h.m = 0 || h.n = 0 || (h.kind = .tmac && h.k = 0)

/-- Reserved ternary elements among the first `blocks n` blocks of each panel `n`, masked columns left out; an element counts once
however many m-tiles read its panel (R102, log 79). -/
def ternaryRsvd (s : State) (e : Nat) (h : HeldTile) (blocks : Nat → Nat) : Nat :=
  if h.kind = .tmac && h.f.wfmt = 3 then
    (((List.range h.n).filter (maskBit h.cmask)).map (fun j =>
      ((List.range (Nat.min h.k (32 * blocks (j / 32)))).filter (fun k => weightRaw s e h k j = 2)).length)).foldl (· + ·) 0
  else 0

/-- Blocks of panel `n` that were read by whole tiles `l` and the first `b` blocks of the tile `part`. -/
def panelBlocks (h : HeldTile) (l : List (Nat × Nat)) (part : Option ((Nat × Nat) × Nat)) (n : Nat) : Nat :=
  if l.any (fun p => p.1 = n) then ceilDiv h.k 32
  else match part with | some (p, b) => if p.1 = n then b else 0 | none => 0

/-- Issue fc of `n` whole tiles and `b` blocks of one more (R186, R628): each fc of array work or tile writing counted once, a tile
written before the next one's reads (log 79). -/
def tileFc (h : HeldTile) (n b : Nat) : Nat :=
  let bf := blockFc h.f.wfmt.toNat h.f.afmt.toNat
  let a := ceilDiv h.k 32 * bf
  if h.kind = .tout then 16 * n
  else if h.f.keep then n * a + b * bf
  else if n = 0 then b * bf
  else a + (n - 1) * Nat.max a 16 + Nat.max 16 (b * bf)

/-- The end of a SAT_LAME instruction (R119, R192): rows whose SAT_ROWS bit is set join LAME_ROWS where TAGS = 1, their output tags
turn lame, and each saturated tile has its ARITH_SATURATED record and ends the requests of its rows. -/
def satEnd (e : Nat) (h : HeldTile) (ep : BitVec 3) (l : List SatTile) (s : State) : State :=
  if !h.f.satLame then s else
  forEach l (fun x u =>
    let u := if h.f.tags then satJoin e x.reg u else u
    let u := if h.f.tags && !h.f.keep then forEach x.rows (fun p v => writeTag h ep p.1 true p.2 v) u else u
    rowsFault 0x0301 (if h.f.tags then x.rows.map (fun p => p.2) else [])
      (requestFault 0x0301 (item 2 e ++ item 1 x.reg ++ item 2 x.sat.toNat) u)) s

/-- The tiles `l` run whole, then the first blocks of the tile `part`; the instruction's counters and issue fc follow (R102, R119,
R186). An abandoned instruction has no end (R628). -/
def tileRunList (e : Nat) (h : HeldTile) (n : Nat) (l : List (Nat × Nat)) (part : Option ((Nat × Nat) × Nat)) (ended : Bool)
    (s : State) : State :=
  let x := l.foldl (tileStep e h (ceilDiv h.k 32) true) { s := s }
  let x := match part with | some (p, b) => tileStep e h b false x p | none => x
  let s := modMgmt (fun m => { m with
    ternary := statAdd 32 (ternaryRsvd x.s e h (panelBlocks h l part)) m.ternary
    satRows := statAdd 32 x.hits.eraseDups.length m.satRows }) x.s
  let s := measAdd n .issueFc e (tileFc h l.length ((part.map (fun p => p.2)).getD 0)) s
  if ended then satEnd e h (gaitOf s e h.gait.val).epoch x.sats s else s

end Sys2Proof.Machine
end

