-- ==== Sys2Proof/Machine/Engine.lean ====
section
/-!
DEFINITION. Engines and reins: firings (R134 to R138, R203, R240, R244), gait switches (R137), tokens and credits (R139 to
R144, R160), mixing windows (R154), the Hinge (R168), and the completion of tile instructions (R184, R188).
-/
namespace Sys2Proof.Machine

/-! ## Firings -/

/-- A run is the one of firing `f` of gait `slot` in step `n`. -/
def runIs (slot : Fin 8) (f n : Nat) (r : Run) : Bool := decide (r.slot = slot) && decide (r.f = f) && decide (r.step = n)

/-- Every address generator that has a run for the firing has committed it (R244). -/
def runsCommitted (s : State) (e : Nat) (x : Firing) : Bool :=
  allAgs.all (fun a => !((gaitOf s e x.slot.val).ag a).en ||
    (agOf s e a.val).runs.any (fun r => runIs x.slot x.f x.step r && r.committed))

/-- A run that has ended and awaits nothing leaves its address generator. -/
def runOver (r : Run) : Bool := r.ended && r.reqs.all (fun q => q.stage != .waiting && q.stage != .admitted && q.stage != .served)

/-- Every run of engine `e` replaced by its image, ended runs counted in RUNS_DONE (R271). -/
def mapRuns (e : Nat) (f : Run → Run) (s : State) : State :=
  forEach allAgs (fun a t => modAg e a.val (fun g =>
    let l := g.runs.map f
    let n := (l.filter (fun r => r.ended)).length - (g.runs.filter (fun r => r.ended)).length
    { g with runs := l.filter (fun r => !runOver r), runsDone := g.runsDone + BitVec.ofNat 32 n }) t) s

/-- Each address generator has at most one run whose firing has completed and whose POST phase has not (R240). -/
def postsOk (s : State) (e : Nat) : Bool :=
  allAgs.all (fun a => ((agOf s e a.val).runs.filter (fun r => r.complete && !r.ended)).length ≤ 1)

/-- The engine of a running job is not stopped: fabric up, core neither halted nor stale. -/
def engineUp (s : State) (e : Nat) : Bool :=
  fabricUp s && jobLoaded s && !(coreOf s (coreOfEng e)).halted && !coreStale s (coreOfEng e) && (engOf s e).wait != 5

/-- The active gait may fire (R134, R138, R240). -/
def canFire (s : State) (e : Nat) : Bool :=
  engineUp s e && !s.stride.window && (engOf s e).firing.isNone &&
  match headEntry s e with
  | none => false
  | some q =>
    decide (q.slot = (engOf s e).active) && gaitLive s e q.slot.val &&
    (shortQueue s e (gaitOf s e q.slot.val)).isNone && (shortRein s e (gaitOf s e q.slot.val)).isNone &&
    (!q.tile || (heldFor s e q.slot).isSome) && postsOk s e

/-- A queue gives up the `n` tokens a firing consumed and owes their credits (R142). -/
def consume (e q n : Nat) (s : State) : State :=
  modRin e q (fun r => { r with
    tokens := r.tokens.drop n
    freed := (r.tokens.take n).foldl (fun l m => addFreed (tagEpoch m.tag) 1 l) r.freed
    claimed := r.claimed - n }) s

/-- Rows of the lame tokens a firing consumes (R154). -/
def lameIn (s : State) (e : Nat) (g : Gait) : List Nat :=
  (maskList g.inMask).flatMap (fun q =>
    (((rinOf s e q).tokens.take (rinOf s e q).cfg.q).filter (fun m => tagLame m.tag)).map (fun m => tagRow m.tag))

/-- The window of a firing of a mixing gait (R154): a step holds at most 32 × 8,191 firings. -/
def windowKey (g : Gait) (x : Firing) : Nat := x.slot.val * 2 ^ 18 + x.f / Nat.max 1 g.mixSpan

/-- One firing of the head entry is done; the next entry follows when it was the last (R136). -/
def entryDone (g : Engine) : Engine :=
  match g.entries with
  | [] => { g with firing := none }
  | _ :: l =>
    if 1 < g.left then { g with firing := none, left := g.left - 1 }
    else { g with firing := none, entries := l, left := (match l with | [] => 0 | q :: _ => q.firings) }

/-- A firing completes (R203): its token slots are freed, its window grows, POST phases may start, the next entry or step
follows. -/
def firingComplete (e : Nat) (s : State) : State :=
  match (engOf s e).firing with
  | none => s
  | some x =>
    let g := gaitOf s e x.slot.val
    let mixing := g.mix = 1
    let rows := sget [] (engOf s e).windows (windowKey g x) ++ lameIn s e g
    let s := if mixing then modEng e (fun k => { k with windows := sset [] k.windows (windowKey g x) rows }) s else s
    let s := forEach (maskList g.inMask) (fun q t => modRin e q (fun r => { r with freedStep := x.step }) (consume e q (rinOf t e q).cfg.q t)) s
    let s := mapRuns e (fun r => if runIs x.slot x.f x.step r then
      { r with complete := true, ended := !r.post, win := if mixing then rows else [] } else r) s
    engineAdvance e (modEng e entryDone s)

/-- A firing whose tile work is done and whose runs have committed starts its vector program, or completes where its gait
has none (R203, R244). -/
def firingReady (e : Nat) (s : State) : State :=
  match (engOf s e).firing with
  | none => s
  | some x =>
    if x.tile.isSome || x.inVec || !runsCommitted s e x then s
    else if (gaitOf s e x.slot.val).vec.en then
      modEng e (fun g => { g with firing := some { x with inVec := true, vecIdx := 0
                                                          latched := (coreOf s (coreOfEng e)).sreg } }) s
    else firingComplete e s

/-- A firing starts (R134): it takes the instruction held for its gait and owes P tokens on each output rein (R257). -/
def startFiring (e : Nat) (q : SchedEntry) (s : State) : State :=
  let g := engOf s e
  let d := gaitOf s e q.slot.val
  let f := sget 0 g.fired q.slot.val
  let h := if q.tile then heldFor s e q.slot else none
  let x : Firing := { slot := q.slot, f := f, step := g.step, tile := h }
  let s := modEng e (fun k => { k with firing := some x, fired := sset 0 k.fired q.slot.val (f + 1)
                                       held := match h with | none => k.held | some i => k.held.erase i }) s
  let s := forEach (maskList d.outMask) (fun o t => modRout e o (fun r => { r with owed := r.owed + r.cfg.p }) t) s
  firingReady e (mapRuns e (fun r => if runIs q.slot f g.step r then { r with fired := true } else r) s)

/-- GAIT_FIRE (R134, R136, R138, R240). -/
def execGaitFire (e : EngId) (s : State) : Out :=
  .next (if canFire s e.val then
    match headEntry s e.val with
    | none => s
    | some q => startFiring e.val q s
  else s)

/-- A switch is due: the head entry names a gait that is not active, and no firing is in progress (R137). -/
def canSwitch (s : State) (e : Nat) : Bool :=
  engineUp s e && (engOf s e).firing.isNone &&
  match headEntry s e with | none => false | some q => decide (q.slot ≠ (engOf s e).active)

/-- GAIT_SWITCH (R136, R137): the head entry's gait becomes active; the Ledger figure counts it. -/
def execGaitSwitch (e : EngId) (s : State) : Out :=
  .next (if canSwitch s e.val then
    match headEntry s e.val with
    | none => s
    | some q => measAdd (engOf s e.val).step .gaitSwitches e.val 1 (modEng e.val (fun g => { g with active := q.slot }) s)
  else s)

/-! ## Credits -/

/-- CREDIT_RETURN_SEND (R142): one message of up to 16 credits of one epoch, to the queue's producer. -/
def execCreditReturnSend (e : EngId) (q : ReinNo) (s : State) : Out :=
  .next (let r := rinOf s e.val q.val
    match r.freed with
    | [] => s
    | (ep, n) :: l =>
      if coreStale s (coreOfEng e.val) then
        modMgmt (fun m => { m with staleDrops := statInc 32 m.staleDrops }) (modRin e.val q.val (fun r => { r with freed := l }) s)
      else
      let k := Nat.min n 16
      sendCredit r.freedStep r.cfg.srcChip r.cfg.srcEngine r.cfg.srcPort k ep
        (modRin e.val q.val (fun r => { r with freed := if k < n then (ep, n - k) :: l else l }) s))

/-- A credit return of the engine's epoch (R143). -/
def creditTake (e o n : Nat) (s : State) : State :=
  let r := routOf s e o
  let s := progress s
  if r.cfg.credits < r.avail + n then
    jobFault 0x0201 (item 2 e ++ item 1 o ++ item 2 r.avail ++ item 1 n) (modRout e o (fun r => { r with avail := r.cfg.credits }) s)
  else modRout e o (fun r => { r with avail := r.avail + n }) s

/-- A credit return reaches its rein: of the chip's epoch it raises AVAIL, of RET_EPOCH it lowers RET_COUNT (R143, R461). -/
def creditReturn (e o count : Nat) (epoch : BitVec 3) (s : State) : State :=
  if !fabricUp s then s
  else if s.job.chgOpen then modMgmt (fun m => { m with chgDiscards := statInc 32 m.chgDiscards }) s
  else
    let c := coreOfEng e
    if epoch = s.job.epoch then creditTake e o count s
    else if epoch = s.job.retEpoch && decide (count ≤ (coreOf s c).retCount) then
      modCore c (fun k => { k with retCount := k.retCount - count }) s
    else s

/-- CREDIT_RETURN (R143, R461). -/
def execCreditReturn (e : EngId) (o : ReinNo) (count : BitVec 5) (epoch : BitVec 3) (s : State) : Out :=
  .next (creditReturn e.val o.val count.toNat epoch s)

/-! ## Tokens -/

/-- A token joins its queue (R144, R147): the binding check, the overrun check, then its slot, tag and occupancy. Where both checks
fail the binding is declared (log 80); slot RECV_SEQ mod CREDITS takes the token (log 21). -/
def joinQueue (m : TokenMsg) (s : State) : State :=
  let e := m.dstEngine.val
  let q := m.dstQueue.val
  let r := rinOf s e q
  let c := coreOfEng e
  if !r.cfg.en || r.cfg.srcChip ≠ m.srcChip.toNat || r.cfg.srcEngine ≠ m.srcEngine.val || r.cfg.srcPort ≠ m.srcPort.val then
    jobFault 0x0203 (item 2 e ++ item 1 q ++ item 2 m.srcChip.toNat ++ item 2 m.srcEngine.val ++ item 1 m.srcPort.val) s
  else if r.cfg.credits ≤ r.tokens.length then
    jobFault 0x0202 (item 2 e ++ item 1 q ++ item 2 m.srcChip.toNat ++ item 2 m.srcEngine.val ++ item 4 r.recvSeq.toNat) s
  else
    let i := r.recvSeq.toNat % r.cfg.credits
    let s := writeSpad c (r.cfg.slotBase * 64 + i * 64) (bytesLE 64 m.payload.toNat) s
    let s := writeSpad c (r.cfg.tagBase * 64 + i * 2) (bytesLE 2 m.tag.toNat) s
    let occ := r.tokens.length + 1
    let s := modRin e q (fun r => { r with
      tokens := r.tokens ++ [m], recvSeq := r.recvSeq + 1, occMax := Nat.max r.occMax occ
      exceeded := r.exceeded || decide (r.bound < occ) }) s
    if r.bound < occ && !r.exceeded then event 0x0280 (item 2 e ++ item 1 q) s else s

/-- A stale token is discarded, counted, its credit returned (R160). -/
def staleToken (m : TokenMsg) (s : State) : State :=
  creditBack m (modEng m.dstEngine.val (fun g => { g with stale := statInc 32 g.stale }) s)

/-- A token that reaches an engine is sorted (R160, R195, R616). A full early buffer holds the path back: nothing happens. -/
def tokenSort (m : TokenMsg) (s : State) : State :=
  let e := m.dstEngine.val
  let g := engOf s e
  let ep := tagEpoch m.tag
  if ep ≠ s.job.epoch && ep ≠ s.job.epoch + 1 then staleToken m s
  else if (coreOf s (coreOfEng e)).halted || coreStale s (coreOfEng e) then creditBack m s
  else if ep = s.job.epoch then joinQueue m s
  else if g.early.length < 4 then modEng e (fun g => { g with early := g.early ++ [(m, 0)] }) s
  else s

/-- A token arrives (R160, R461). -/
def tokenArrive (m : TokenMsg) (s : State) : State :=
  if !fabricUp s then s
  else if s.job.chgOpen then modMgmt (fun k => { k with chgDiscards := statInc 32 k.chgDiscards }) s
  else tokenSort m s

/-- TOKEN_ARRIVE (R144, R160, R195, R461). -/
def execTokenArrive (m : TokenMsg) (s : State) : Out := .next (tokenArrive m s)

/-- Early tokens join their queues in arrival order when their engine has advanced (R160). -/
def earlyJoin (e : Nat) (s : State) : State :=
  let l := (engOf s e).early
  forEach l (fun p t => tokenSort p.1 t) (modEng e (fun g => { g with early := [] }) s)

/-- EARLY_TOKEN_EXPIRE (R160): tokens that have waited for two boundaries are stale. -/
def execEarlyTokenExpire (e : EngId) (s : State) : Out :=
  .next (if !fabricUp s then s else
    let l := (engOf s e.val).early
    forEach (l.filter (fun p => 2 ≤ p.2)) (fun p t => staleToken p.1 t)
      (modEng e.val (fun g => { g with early := g.early.filter (fun p => p.2 < 2) }) s))

/-- HINGE_FLIT_FAILED (R168, R50): each retry is counted; a flit that still fails is HINGE_FAILED, whose record, in
section 1 of the dump too, holds the retries of this flit and the total (R169, log 14). -/
def execHingeFlitFailed (retries elapsed : Nat) (recovered : Bool) (s : State) : Out :=
  .next (
    let s := modMgmt (fun m => { m with hingeRetries := statAdd 32 (Nat.min retries 16) m.hingeRetries }) s
    if recovered && retries ≤ 16 && elapsed ≤ 2048 then s
    else chipStop 0x0209 (item 1 (Nat.min retries 16) ++ item 4 s.mgmt.hingeRetries.n) true s)

/-! ## Completion of tile instructions -/

/-- The tile instruction of a firing has completed: TILE_DONE counts it, the hold place is free, and the firing goes on
(R184, R196, R203). -/
def tileDone (e : Nat) (x : Firing) (s : State) : State :=
  let c := coreOfEng e
  let s := modCore c (fun k => { k with tileDone := k.tileDone + 1 }) s
  firingReady e (progress (modEng e (fun g => { g with firing := some { x with tile := none } }) s))

/-- The firing in progress ends unrun (R628): its output tokens are no longer owed, its runs are dropped. -/
def abandonFiring (e : Nat) (x : Firing) (s : State) : State :=
  let s := forEach (maskList (gaitOf s e x.slot.val).outMask) (fun o t =>
    modRout e o (fun r => { r with owed := r.owed - r.cfg.p }) t) s
  let s := forEach allAgs (fun a t => modAg e a.val (fun g => { g with
    runs := g.runs.filter (fun r => !runIs x.slot x.f x.step r) }) t) s
  modEng e (fun g => { g with firing := none }) s

/-- The owner of an engine in a step, as TILE_FAULT names it (R235); 0 where the tack names none. -/
def engOwner (s : State) (e n : Nat) : Nat :=
  match s.job.run with
  | none => 0
  | some r => match ownerOf r.tack (coreOfEng e) (e % 8) (stepIndex r.tack n) with | some t => t.val | none => 0

/-! ## The Curb -/

/-- A request that issues now is admitted now: its class is open, and none of it waits (R266). -/
def curbAdmits (s : State) (p k : Nat) : Bool := curbOpen s p k && (curbOf s p k).waiting.isEmpty

/-- A request is admitted and charged in full (R266). Requests that waited over a boundary count as admitted in one fc (R267). -/
def curbAdmit (p k : Nat) (q : CurbReq) (s : State) : State :=
  let o := if q.order ≤ s.tiers.orderB then s.tiers.orderB else s.tiers.order
  modTiers (fun t => { t with order := t.order + 1 }) (curbCharge p k q.units
    (modCurb p k (fun c => { c with admitted := c.admitted ++ [{ q with order := o }] }) s))

/-- One request reaches the Curb of its port (R264, R266): admitted, or waiting. Its bytes go to Ledger step `n0` (R270). -/
def curbAsk (n0 k bytes : Nat) (q : CurbReq) (s : State) : State :=
  let p := portOfAddr q.addr
  let q := { q with order := s.tiers.order }
  measAdd n0 .bytes (p * 8 + k) bytes
    (if curbAdmits s p k then curbAdmit p k q s else modCurb p k (fun c => { c with waiting := c.waiting ++ [q] }) s)

/-- Where a request to `addr` stands once it has reached the Curb. -/
def askStage (s : State) (addr k : Nat) : ReqStage := if curbAdmits s (portOfAddr addr) k then .admitted else .waiting

/-- The ports that the 64-byte units of `n` bytes at tier address `a` lie behind. -/
def unitPorts (s : State) (a n : Nat) : List Nat :=
  ((List.range (ceilDiv (a % 64 + n) 64)).filter (fun i => (tierOf (regionOf s (a + 64 * i))).isSome)).map
    (fun i => portOfAddr (a + 64 * i))

/-- A transfer of class `k` at `n` bytes from `a` may be admitted at every port it touches (R266); else it waits (log 45). -/
def transferOpen (s : State) (k a n : Nat) : Bool := (unitPorts s a n).all (fun p => curbOpen s p k)

/-- The transfer charged, unit by unit, to its ports (R264, R266). -/
def transferCharge (k a n : Nat) (s : State) : State := forEach (unitPorts s a n) (fun p t => curbCharge p k 1 t) s

/-- The bytes of a transfer counted by port for Ledger step `n0` (R89, R90). -/
def transferCount (n0 k a n : Nat) (s : State) : State :=
  forEach (List.range (ceilDiv (a % 64 + n) 64)) (fun i t =>
    let lo := Nat.max a (64 * (a / 64 + i))
    let hi := Nat.min (a + n) (64 * (a / 64 + i + 1))
    if isTierAt t lo then measAdd n0 .bytes (portOfAddr lo * 8 + k) (hi - lo) t else t) s
where
  /-- The address lies in a tier. -/
  isTierAt (s : State) (a : Nat) : Bool := (tierOf (regionOf s a)).isSome

/-- The source of a read is a tier. -/
def isTier (s : State) (a : Nat) : Bool := (tierOf (regionOf s a)).isSome

/-- Bytes a stream commits: AG_BYTES and forward progress (R86, R271). -/
def agCommit (e a n : Nat) (s : State) : State :=
  if n = 0 then s else progress (modAg e a (fun g => { g with bytes := acctAdd n g.bytes }) s)

/-! ## RESLOAD -/

/-- The firing in progress changed. -/
def modFiring (e : Nat) (f : Firing → Firing) (s : State) : State := modEng e (fun g => { g with firing := g.firing.map f }) s

/-- Bytes of a RESLOAD reach the resident window, `off` bytes into its range (R188). -/
def resloadLand (e : Nat) (h : HeldTile) (off : Nat) (bs : List Byte) (s : State) : State :=
  agCommit e 3 bs.length (modEng e (fun g => { g with
    res := (List.range bs.length).foldl (fun m i => sset 0#8 m (h.resOff + off + i) (bs.getD i 0)) g.res }) s)

/-- A RESLOAD meets an absent page (R258): counted and recorded once, it waits for RESUME. -/
def resloadMiss (e page addr : Nat) (s : State) : State :=
  event 0x0480 (item 2 e ++ item 1 3 ++ item 6 addr)
    (modMgmt (fun m => { m with pageMisses := statInc 32 m.pageMisses })
      (modAg e 3 (fun g => { g with missAddr := addr }) (modFiring e (fun x => { x with miss := some page, resume := 0 }) s)))

/-- A RESLOAD abandoned with a code (R628): the bytes that have landed stay. -/
def resloadAbandon (e : Nat) (x : Firing) (h : HeldTile) (code : Nat) (detail : List Byte) (s : State) : State :=
  haltCore (coreOfEng e) h.thread.val (e % 8) code h.pc 0 0 (jobFault code detail (abandonFiring e x s))

/-- A RESLOAD's requests from its saved position on (R188, R254, R258): to a tier under the gait's class, held while one waits at
the Curb. A hole is refused once the requests before it have returned (log 79). -/
def resloadIssue (e : Nat) (h : HeldTile) : Nat → State → State
  | 0, s => s
  | fuel + 1, s =>
    match (engOf s e).firing with
    | none => s
    | some x =>
      if h.len ≤ x.asked || x.miss.isSome || x.reload.any (fun q => q.stage = .waiting) then s else
      let addr := h.src + x.asked
      let b := reqBytes addr (h.len - x.asked)
      let s := mapConsult (dieOf (coreOfEng e)) addr s
      match accessAt s false addr with
      | .absent p => resloadMiss e p addr s
      | .refused m => if x.reload.isEmpty then resloadAbandon e x h 0x0420 (item 6 addr ++ item 1 m) s else s
      | .proceed =>
        let k := gaitClass s e h.gait.val
        let ask := fun (y : Firing) => { y with asked := y.asked + b }
        if isTier s addr then
          let q : Req := { addr := addr, bytes := b, dst := 0, off := x.asked, total := h.len, cov := 0, tags := 0, nrow := 0
                           stage := askStage s addr k }
          resloadIssue e h fuel (curbAsk h.step k b
            { engine := e, ag := 3, addr := addr, units := ceilDiv b 64, order := 0, reload := true }
            (modFiring e (fun y => { ask y with reload := y.reload ++ [q] }) s))
        else resloadIssue e h fuel (modFiring e ask (resloadLand e h x.asked (readBytes s (plainAddr s addr) b) s))

/-- A RESLOAD works on (R188): it issues what it may, and completes when the last byte is in the buffer. -/
def resloadRun (e : Nat) (h : HeldTile) (s : State) : State :=
  let s := resloadIssue e h (h.len / 64 + 1) s
  match (engOf s e).firing with
  | none => s
  | some x => if x.tile.isSome && h.len ≤ x.asked && x.reload.isEmpty then tileDone e x s else s

/-- The work of a tile instruction (R184, R187, R188). -/
def tileWork (e : Nat) (x : Firing) (h : HeldTile) (s : State) : State :=
  if h.kind = .resload then resloadRun e h s
  else if tileEmpty h then tileDone e x s
  else tileDone e x (tileRunList e h x.step (tileList h) none true s)

/-- TILE_INSTRUCTION_COMPLETE (R184, R203, R244). -/
def execTileInstructionComplete (e : EngId) (s : State) : Out :=
  .next (if fabricUp s && !coreStale s (coreOfEng e.val) then
    match (engOf s e.val).firing with
    | none => s
    | some x => match x.tile with
      | none => s
      | some h => if runsCommitted s e.val x then tileWork e.val x h s else s
  else s)

end Sys2Proof.Machine
end

