-- ==== Sys2Proof/Machine/Stream.lean ====
section
/-!
DEFINITION. Stream programs (R237 to R262): runs and their phases, the run-ahead store, commits, RECV and SEND, LOAD and
STORE up to the Curb, page misses and their resumption. A command stands for one instruction of the phase in progress; one
that finds no phase that may run leaves the state as it is (log 2).
-/
namespace Sys2Proof.Machine

/-! ## Programs in scratchpad -/

/-- LVL of instruction `i` (R248). -/
def streamLvl (s : State) (c off i : Nat) : Nat := spadNum s c (off + 16 * i + 3) 1 / 64

/-- Instructions of a program before its first FIN (R248). -/
def streamLen (s : State) (c off : Nat) : Nat :=
  ((List.range 256).find? (fun i => streamOpc s c off i = 0x3F)).getD 256

/-- Queues (opcode 0x20) or reins (0x21) that a program names, ascending. -/
def streamPorts (s : State) (c off opc : Nat) : List Nat :=
  (List.range 16).filter (fun p => (List.range (streamLen s c off)).any (fun i =>
    streamOpc s c off i = opc && streamPort s c off i = p))

/-- The ENDL that matches a LOOP of level `lvl` at index `i`. -/
def matchEndl (s : State) (c off i lvl : Nat) : Nat :=
  ((List.range (streamLen s c off)).find? (fun j => i < j && streamOpc s c off j = 0x04 && streamLvl s c off j = lvl)).getD i

/-! ## Runs -/

/-- The snapshot of a step in which the engine has runs (R241): of its owner's last STEP_END in an earlier step, none where that is still
to come; else `below`, which the engine's runs of earlier steps see. -/
def ownerSnap (r : Running) (k : Core) (e n : Nat) (below : Option (Sparse Word)) : Option (Sparse Word) :=
  let c := coreOfEng e
  match ownerOf r.tack c (e % 8) (stepIndex r.tack n) with
  | none => below
  | some t =>
    match ((List.range (Nat.min n (Nat.max 1 r.tack.ledger.period))).map (fun d => n - 1 - d)).find?
        (fun j => (entryOf r.tack c t.val j).isSome) with
    | none => below
    | some j => sget none k.snaps (snapKey t.val j)

/-- The snapshot that the engine's runs see in the latest step up to `n` in which it has any; before one the values the tack loads (R241).
-/
def snapUpTo (s : State) (r : Running) (k : Core) (e : Nat) : Nat → Option (Sparse Word)
  | 0 => some ((sget none k.snaps 0).getD [])
  | n + 1 =>
    match sget none k.seen (8 * (n + 1) + e % 8) with
    | some x => some x
    | none =>
      let below := snapUpTo s r k e n
      if stepRuns s r e (n + 1) (fun _ => true) then ownerSnap r k e (n + 1) below else below

/-- The scalars of a run of step `n` (R241); none while the owner's STEP_END that it needs is still to come. -/
def snapFor (s : State) (e n : Nat) : Option (Sparse Word) :=
  match s.job.run with
  | none => none
  | some r =>
    let k := coreOf s (coreOfEng e)
    match n with
    | 0 => snapUpTo s r k e 0
    | m + 1 =>
      match sget none k.seen (8 * n + e % 8) with
      | some x => some x
      | none => ownerSnap r k e n (snapUpTo s r k e m)

/-- The run in its PRE phase, or the first that a POST phase may serve (R238, R240). -/
def runIndex (s : State) (e a : Nat) (post : Bool) : Option Nat :=
  (agOf s e a).runs.findIdx? (fun r => if post then r.complete && r.post && !r.ended else !r.preDone)

/-- A run of an address generator. -/
def runAt (s : State) (e a i : Nat) : Run := (agOf s e a).runs.getD i { slot := 0, f := 0, step := 0 }

/-- The state with one run changed. -/
def modRunAt (e a i : Nat) (f : Run → Run) (s : State) : State :=
  modAg e a (fun g => { g with runs := g.runs.modify i f }) s

/-- Where no run is in its PRE phase, the next one begins (R239, R241, R249). -/
def beginPre (e : Nat) (a : AgNo) (s : State) : State :=
  if (runIndex s e a.val false).isSome || !engineUp s e then s else
  match nextRun s e a with
  | none => s
  | some (n, i, slot, f) =>
    match snapFor s e n with
    | none => s
    | some snap =>
      let g := engOf s e
      let fired := (match g.firing with | some x => decide (x.slot = slot ∧ x.f = f ∧ x.step = n) | none => false)
      let s := modCore (coreOfEng e) (fun k => { k with seen := sset none k.seen (8 * n + e % 8) (some snap) }) s
      modAg e a.val (fun k => { k with
        begun := i + 1, begunStep := n
        runs := k.runs ++ [{ slot := slot, f := f, step := n, regs := k.regs, loops := k.loops, fired := fired }] }) s

/-- The run a stream command acts on, with the state in which it has begun. -/
def streamRun (e : Nat) (a : AgNo) (post : Bool) (s : State) : Option (State × Nat) :=
  if !fabricUp s || !jobLoaded s || coreStale s (coreOfEng e) || agHeld s e a.val post then none
  else
    let t := if post then s else beginPre e a s
    match runIndex t e a.val post with
    | none => none
    | some i => if (runAt t e a.val i).miss.isSome || !(runAt t e a.val i).toBank.isEmpty then none else some (t, i)

/-- One stream instruction on a phase that may run. -/
def streamStep (e : Nat) (a : AgNo) (post : Bool) (act : Nat → State → State) (s : State) : State :=
  match streamRun e a post s with
  | none => s
  | some (t, i) => act i t

/-- The program offset of a run. -/
def runProg (s : State) (e : Nat) (a : AgNo) (i : Nat) : Nat := ((gaitOf s e (runAt s e a.val i).slot.val).ag a).off

/-- A run-time refusal (R253): nothing of the run commits, the run is dropped, the core halts (R235). -/
def streamRefuse (e : Nat) (a : AgNo) (i code : Nat) (detail : List Byte) (s : State) : State :=
  let r := runAt s e a.val i
  let pc := runProg s e a i + 16 * r.pcIdx
  let s := modAg e a.val (fun g => { g with runs := g.runs.eraseIdx i }) s
  haltCore (coreOfEng e) (engOwner s e r.step) (e % 8) code pc 0 0 (jobFault code detail s)

/-- The instruction in progress is done. -/
def runNext (e a i : Nat) (s : State) : State := modRunAt e a i (fun r => { r with pcIdx := r.pcIdx + 1, done := 0 }) s

/-- Address register `n` of a run (R249). -/
def runReg (s : State) (e a i : Nat) (n : BitVec 2) : Word := sget 0 (runAt s e a i).regs n.toNat

/-- Scalar `r` in the run's snapshot (R241). -/
def runScalar (s : State) (e a i : Nat) (r : RegNo) : Word :=
  if r = 0 then 0 else sget 0 ((snapFor s e (runAt s e a i).step).getD []) r.toNat

/-! ## Address registers and loops -/

/-- SETA (R249): A[DA] = (S[SRC] or 0) + IMM + f × FSTRIDE, wrapping. -/
def execSeta (e : EngId) (ag : AgNo) (post : Bool) (f : StreamF) (s : State) : Out :=
  .next (streamStep e.val ag post (fun i t =>
    let v := (if f.sreg then runScalar t e.val ag.val i f.src else 0) + f.imm.signExtend 64 +
      BitVec.ofNat 64 ((runAt t e.val ag.val i).f * f.len.toNat)
    runNext e.val ag.val i (modRunAt e.val ag.val i (fun r => { r with regs := sset 0 r.regs f.da.toNat v }) t)) s)

/-- ADDA (R249): A[DA] = A[DA] + IMM, wrapping. -/
def execAdda (e : EngId) (ag : AgNo) (post : Bool) (f : StreamF) (s : State) : Out :=
  .next (streamStep e.val ag post (fun i t =>
    let v := runReg t e.val ag.val i f.da + f.imm.signExtend 64
    runNext e.val ag.val i (modRunAt e.val ag.val i (fun r => { r with regs := sset 0 r.regs f.da.toNat v }) t)) s)

/-- LOOP (R249, R252): opens a level; count 0 skips to the matching ENDL; a register count above 65,535 is refused. -/
def execLoop (e : EngId) (ag : AgNo) (post : Bool) (f : StreamF) (s : State) : Out :=
  .next (streamStep e.val ag post (fun i t =>
    let n := if f.creg then (runScalar t e.val ag.val i f.src).toNat else f.imm.toNat
    let r := runAt t e.val ag.val i
    if 65535 < n then
      streamRefuse e.val ag i 0x0405 (item 1 f.lvl.toNat ++ item 2 65535 ++ item 8 n) t
    else if n = 0 then
      let j := matchEndl t (coreOfEng e.val) (runProg t e.val ag i) r.pcIdx f.lvl.toNat
      modRunAt e.val ag.val i (fun r => { r with pcIdx := j + 1 }) t
    else
      runNext e.val ag.val i (modRunAt e.val ag.val i (fun r => { r with
        loops := sset 0 r.loops f.lvl.toNat n, backs := sset 0 r.backs f.lvl.toNat r.pcIdx }) t)) s)

/-- ENDL (R249): the count goes down and, while it is not 0, the level runs again. -/
def execEndl (e : EngId) (ag : AgNo) (post : Bool) (f : StreamF) (s : State) : Out :=
  .next (streamStep e.val ag post (fun i t =>
    let r := runAt t e.val ag.val i
    let n := sget 0 r.loops f.lvl.toNat - 1
    let t := modRunAt e.val ag.val i (fun r => { r with loops := sset 0 r.loops f.lvl.toNat n }) t
    if n = 0 then runNext e.val ag.val i t
    else modRunAt e.val ag.val i (fun r => { r with pcIdx := sget 0 r.backs f.lvl.toNat + 1 }) t) s)

/-! ## The run-ahead store -/

/-! ## LOAD and STORE -/

/-- LEN of a LOAD or STORE (R251). -/
def lenOk (n : Nat) : Bool := n % 64 = 0 && 64 ≤ n && n ≤ 16777216

/-- A source or destination in local memory: bits [63:48] are 0 or the own chip number (R251). -/
def farOk (s : State) (w : Word) : Bool := w.toNat % 64 = 0 && (w.toNat / 2 ^ 48 = 0 || w.toNat / 2 ^ 48 = ownChip s)

/-- An own scratchpad range aligned to `al` (R251). -/
def nearOk (s : State) (e al n : Nat) (w : Word) : Bool := w.toNat % al = 0 && inSpad s (coreOfEng e) w.toNat n

/-- The first address rule a LOAD breaks, as the address it offends (R251). -/
def loadBad (s : State) (e a i : Nat) (f : StreamF) : Option Nat :=
  let src := runReg s e a i f.sa
  let dst := runReg s e a i f.da
  let ta := runReg s e a i f.ta
  let n := f.len.toNat
  if !lenOk n then some src.toNat
  else if !nearOk s e 64 n dst then some dst.toNat
  else if !farOk s src then some src.toNat
  else if f.cov = 1 && (f.nrow = 0 || n % (64 * f.nrow.toNat) ≠ 0 || !nearOk s e 2 (2 * f.nrow.toNat) ta) then some ta.toNat
  else none

/-- A page miss of a stream (R258): the phase stops before the request; the miss is counted and recorded. -/
def streamMiss (e a i page addr : Nat) (s : State) : State :=
  event 0x0480 (item 2 e ++ item 1 a ++ item 6 addr)
    (modMgmt (fun m => { m with pageMisses := statInc 32 m.pageMisses })
      (modAg e a (fun g => { g with missAddr := addr, runs := g.runs.modify i (fun r => { r with miss := some page, resume := 0 }) }) s))

/-- LOAD's requests from its saved position on, until all are issued, one waits at the Curb, the store is full, a page is absent or
the address is refused (R239, R242, R254, R258). -/
def loadIssue (e : Nat) (a : AgNo) (f : StreamF) : Nat → Nat → State → State
  | 0, _, s => s
  | fuel + 1, i, s =>
    let r := runAt s e a.val i
    let src := (runReg s e a.val i f.sa).toNat % 2 ^ 48
    let n := f.len.toNat
    if n ≤ r.done then runNext e a.val i s else if agHeld s e a.val false then s else
    let addr := (src + r.done) % 2 ^ 48
    let b := reqBytes addr (n - r.done)
    if !runAheadFits s (coreOfEng e) b then s else
    let s := mapConsult (dieOf (coreOfEng e)) addr s
    match accessAt s false addr with
    | .absent p => streamMiss e a.val i p addr s
    | .refused m => streamRefuse e a i 0x0420 (item 6 addr ++ item 1 m) s
    | .proceed =>
      let tier := isTier s addr
      let k := gaitClass s e r.slot.val
      let q : Req := { addr := addr, bytes := b, dst := (runReg s e a.val i f.da).toNat + r.done, off := r.done, total := n
                       cov := f.cov.toNat, tags := (runReg s e a.val i f.ta).toNat, nrow := f.nrow.toNat
                       stage := if tier then askStage s addr k else .returned
                       data := if tier then [] else readBytes s (plainAddr s addr) b }
      let s := modRunAt e a.val i (fun r => { r with done := r.done + b, reqs := r.reqs ++ [q] }) s
      let s := if tier then curbAsk r.step k b { engine := e, ag := a.val, addr := addr, units := ceilDiv b 64, order := 0 } s else s
      loadIssue e a f fuel i s

/-- STREAM_LOAD (R249, R251, R254, R258, R270). -/
def execStreamLoad (e : EngId) (ag : AgNo) (f : StreamF) (s : State) : Out :=
  .next (streamStep e.val ag false (fun i t =>
    match loadBad t e.val ag.val i f with
    | some x => streamRefuse e.val ag i 0x0404 (item 6 (x % 2 ^ 48)) t
    | none => loadIssue e.val ag f (f.len.toNat / 64 + 1) i t) s)

/-- The first address rule a STORE breaks (R251). -/
def storeBad (s : State) (e a i : Nat) (f : StreamF) : Option Nat :=
  let src := runReg s e a i f.sa
  let dst := runReg s e a i f.da
  if !lenOk f.len.toNat then some dst.toNat
  else if !nearOk s e 64 f.len.toNat src then some src.toNat
  else if !farOk s dst then some dst.toNat
  else none

/-- The words of an alias write, in address order (R321). -/
def aliasWords (addr : Nat) (bs : List Byte) : List (Nat × Word) :=
  (List.range (bs.length / 8)).map (fun i => (addr + 8 * i, BitVec.ofNat 64 (numLE ((bs.drop (8 * i)).take 8))))

/-- STORE's requests from its saved position on (R239, R254, R258); the words of an alias write go to their banks before it goes on
(R321). -/
def storeIssue (e : Nat) (a : AgNo) (f : StreamF) : Nat → Nat → State → State
  | 0, _, s => s
  | fuel + 1, i, s =>
    let r := runAt s e a.val i
    let dst := (runReg s e a.val i f.da).toNat % 2 ^ 48
    let n := f.len.toNat
    if n ≤ r.done then runNext e a.val i s else if agHeld s e a.val true then s else
    let addr := (dst + r.done) % 2 ^ 48
    let b := reqBytes addr (n - r.done)
    let s := mapConsult (dieOf (coreOfEng e)) addr s
    match accessAt s true addr with
    | .absent p => streamMiss e a.val i p addr s
    | .refused m => streamRefuse e a i 0x0420 (item 6 addr ++ item 1 m) s
    | .proceed =>
      let bs := readBytes s ((runReg s e a.val i f.sa).toNat + r.done) b
      let s := modRunAt e a.val i (fun r => { r with done := r.done + b }) s
      let s :=
        if isTier s addr then
          let k := gaitClass s e r.slot.val
          let stage := askStage s addr k
          curbAsk r.step k b { engine := e, ag := a.val, addr := addr, units := ceilDiv b 64, order := 0 }
            (modRunAt e a.val i (fun r => { r with reqs := r.reqs ++
              [{ addr := addr, bytes := b, dst := 0, off := 0, total := n, cov := 0, tags := 0, nrow := 0
                 stage := stage, data := bs }] }) s)
        else if isAlias s addr then modRunAt e a.val i (fun r => { r with toBank := aliasWords addr bs }) s
        else agCommit e a.val b (writeBytes addr bs s)
      if isAlias s addr then s else storeIssue e a f fuel i s

/-- STORE (R249, R251, R254, R258, R270). -/
def execStore (e : EngId) (ag : AgNo) (f : StreamF) (s : State) : Out :=
  .next (streamStep e.val ag true (fun i t =>
    match storeBad t e.val ag.val i f with
    | some x => streamRefuse e.val ag i 0x0404 (item 6 (x % 2 ^ 48)) t
    | none => storeIssue e.val ag f (f.len.toNat / 64 + 1) i t) s)

/-! ## RECV and SEND -/

/-- The first address rule a RECV or SEND breaks: payloads at `p`, tags at A[TA] (R251). -/
def tokenBad (s : State) (e a i : Nat) (p : BitVec 2) (f : StreamF) : Option Nat :=
  let x := runReg s e a i p
  let ta := runReg s e a i f.ta
  if !nearOk s e 64 (64 * f.len.toNat) x then some x.toNat
  else if !nearOk s e 2 (2 * f.len.toNat) ta then some ta.toNat
  else none

/-- A RECV takes the tokens that follow those claimed by earlier runs, while there are any and the store has room (R239,
R242, R255, R256). -/
def recvTake (e : Nat) (a : AgNo) (f : StreamF) : Nat → Nat → State → State
  | 0, _, s => s
  | fuel + 1, i, s =>
    let r := runAt s e a.val i
    let q := f.port.val
    if f.len.toNat ≤ r.done then runNext e a.val i s else
    match ((rinOf s e q).tokens.drop (rinOf s e q).claimed).head? with
    | none => s
    | some m =>
      if !runAheadFits s (coreOfEng e) 66 then s else
      let x : Taken := { queue := q, addr := (runReg s e a.val i f.da).toNat + 64 * r.done
                         tagAddr := (runReg s e a.val i f.ta).toNat + 2 * r.done, msg := m }
      let s := modRin e q (fun k => { k with claimed := k.claimed + 1 }) s
      recvTake e a f fuel i (modRunAt e a.val i (fun r => { r with
        done := r.done + 1, taken := r.taken ++ [x]
        lame := if tagLame m.tag then r.lame ++ [tagRow m.tag] else r.lame }) s)

/-- RECV (R249, R251, R255). -/
def execRecv (e : EngId) (ag : AgNo) (f : StreamF) (s : State) : Out :=
  .next (streamStep e.val ag false (fun i t =>
    match tokenBad t e.val ag.val i f.da f with
    | some x => streamRefuse e.val ag i 0x0404 (item 6 (x % 2 ^ 48)) t
    | none => recvTake e.val ag f (Nat.min f.len.toNat 4096 + 1) i t) s)

/-- A row made lame by its window alone ends its requests with LAME_MIXED, one record for each (R155). -/
def lameMixed (e slot window row first : Nat) (s : State) : State :=
  forEach (s.serve.rows.filter (fun b => b.live && b.row = row)) (fun b t =>
    match reqOf t b.sess with
    | some q => if q.code = 0 then
        modReq b.sess (fun q => { q with code := 0x0208 })
          (requestFault 0x0208 (item 2 e ++ item 1 slot ++ item 4 window ++ item 2 first) t)
      else t
    | none => t) s

/-- Token `j` of a SEND leaves (R140, R256, R257). -/
def sendOne (e : Nat) (a : AgNo) (f : StreamF) (i j : Nat) (s : State) : State :=
  let r := runAt s e a.val i
  let g := gaitOf s e r.slot.val
  let o := routOf s e f.port.val
  let tag := BitVec.ofNat 16 (readNum s ((runReg s e a.val i f.ta).toNat + 2 * j) 2)
  let row := tagRow tag
  let own := tagLame tag || !r.losts.isEmpty || r.lame.contains row
  let mixed := g.mix = 1 && !r.win.isEmpty
  let m : TokenMsg := {
    srcChip := BitVec.ofNat 16 (ownChip s), srcEngine := ⟨e % 2304, Nat.mod_lt _ (by decide)⟩, srcPort := f.port
    dstEngine := ⟨o.cfg.dstEngine % 2304, Nat.mod_lt _ (by decide)⟩, dstQueue := ⟨o.cfg.dstQueue % 16, Nat.mod_lt _ (by decide)⟩
    tag := mkTag (own || mixed) g.epoch row
    payload := BitVec.ofNat 512 (readNum s ((runReg s e a.val i f.sa).toNat + 64 * j) 64) }
  let s := if mixed && !own && !r.win.contains row then
      lameMixed e r.slot.val (r.f / Nat.max 1 g.mixSpan) row (r.win.headD 0) s else s
  let s := match r.losts with
    | [] => s
    | x :: _ => modRunAt e a.val i (fun r => { r with sentRows := r.sentRows ++ [row] }) (rowsFault x.1 [row] s)
  let s := modRout e f.port.val (fun k => { k with avail := k.avail - 1, owed := k.owed - 1, sentSeq := k.sentSeq + 1 }) s
  measAdd r.step .tokens (e * 16 + f.port.val) 1 (sendToken r.step m o.cfg.dstChip s)

/-- A count by key raised by `n`. -/
def countAdd (k n : Nat) : List (Nat × Nat) → List (Nat × Nat)
  | [] => [(k, n)]
  | (j, v) :: l => if j = k then (j, v + n) :: l else (j, v) :: countAdd k n l

/-- The count of a key. -/
def countOf (k : Nat) (l : List (Nat × Nat)) : Nat := ((l.find? (fun x => x.1 = k)).map (fun x => x.2)).getD 0

/-- A SEND's tokens from its saved position on, while the rein has a credit (R142, R256). -/
def sendTake (e : Nat) (a : AgNo) (f : StreamF) : Nat → Nat → State → State
  | 0, _, s => s
  | fuel + 1, i, s =>
    let r := runAt s e a.val i
    if f.len.toNat ≤ r.done then runNext e a.val i s
    else if (routOf s e f.port.val).avail = 0 then s
    else sendTake e a f fuel i (modRunAt e a.val i (fun r => { r with done := r.done + 1, sent := countAdd f.port.val 1 r.sent })
      (sendOne e a f i r.done s))

/-- SEND (R142, R249, R251, R256, R257). -/
def execSend (e : EngId) (ag : AgNo) (f : StreamF) (s : State) : Out :=
  .next (streamStep e.val ag true (fun i t =>
    match tokenBad t e.val ag.val i f.sa f with
    | some x => streamRefuse e.val ag i 0x0404 (item 6 (x % 2 ^ 48)) t
    | none => sendTake e.val ag f (f.len.toNat + 1) i t) s)

/-! ## SYNC and FIN -/

/-- The first queue whose RECVs do not total Q tokens: queue, Q, count (R252). -/
def recvCountBad (s : State) (e : Nat) (a : AgNo) (i : Nat) : Option (Nat × Nat × Nat) :=
  ((streamPorts s (coreOfEng e) (runProg s e a i) 0x20).map (fun q =>
    (q, (rinOf s e q).cfg.q, ((runAt s e a.val i).taken.filter (fun x => x.queue = q)).length))).find? (fun x => x.2.1 ≠ x.2.2)

/-- The first rein whose SENDs do not total P tokens (R252). -/
def sendCountBad (s : State) (e : Nat) (a : AgNo) (i : Nat) : Option (Nat × Nat × Nat) :=
  ((streamPorts s (coreOfEng e) (runProg s e a i) 0x21).map (fun o =>
    (o, (routOf s e o).cfg.p, countOf o (runAt s e a.val i).sent))).find? (fun x => x.2.1 ≠ x.2.2)

/-- STREAM_COUNT with the port, the count expected and the count found (R252, R272). -/
def countRefuse (e : Nat) (a : AgNo) (i : Nat) (x : Nat × Nat × Nat) (s : State) : State :=
  streamRefuse e a i 0x0405 (item 1 x.1 ++ item 2 x.2.1 ++ item 4 x.2.2) s

/-- A PRE phase ends (R239, R249): its registers pass to the next run. -/
def preEnd (e : Nat) (a : AgNo) (i : Nat) (post : Bool) (s : State) : State :=
  let r := runAt s e a.val i
  runNext e a.val i (modAg e a.val (fun g => { g with
    regs := r.regs, loops := r.loops
    runs := g.runs.modify i (fun r => { r with preDone := true, post := post }) }) s)

/-- STREAM_SYNC (R238, R252). -/
def execStreamSync (e : EngId) (ag : AgNo) (_f : StreamF) (s : State) : Out :=
  .next (streamStep e.val ag false (fun i t =>
    match recvCountBad t e.val ag i with
    | some x => countRefuse e.val ag i x t
    | none => preEnd e.val ag i true t) s)

/-- The faults of a run's reads under COV 2, each with the rows that its POST phase made lame (R261, R262, R272). -/
def lostRecords (r : Run) (s : State) : State :=
  forEach r.losts (fun x t => requestFault x.1 (x.2 ++ (r.sentRows.eraseDups.map (item 2)).flatten) t) s

/-- FIN (R238, R252): ends a run without POST phase after its PRE phase, or a run's POST phase. -/
def execFin (e : EngId) (ag : AgNo) (post : Bool) (_f : StreamF) (s : State) : Out :=
  .next (streamStep e.val ag post (fun i t =>
    if post then
      match sendCountBad t e.val ag i with
      | some x => countRefuse e.val ag i x t
      | none => lostRecords (runAt t e.val ag.val i) <| modAg e.val ag.val (fun g => { g with
          runsDone := g.runsDone + 1
          runs := (g.runs.modify i (fun r => { r with ended := true })).filter (fun r => !runOver r) }) t
    else
      match recvCountBad t e.val ag i with
      | some x => countRefuse e.val ag i x t
      | none => preEnd e.val ag i false t) s)

/-! ## Commit -/

/-- Firings of a gait in a schedule. -/
def gaitFirings (l : List SchedEntry) (slot : Fin 8) : Nat :=
  (l.map (fun q => if q.slot = slot then q.firings else 0)).foldl (· + ·) 0

/-- Firing `f` of a gait in step `n` has started. -/
def firingStarted (s : State) (e : Nat) (slot : Fin 8) (f n : Nat) : Bool :=
  let g := engOf s e
  g.upto ≠ 0 && (decide (n < g.step) || (decide (n = g.step) && decide (f < sget 0 g.fired slot.val)))

/-- The gait's firing before firing `f` of step `n` has started, or there is none since the install (R243). -/
def beforeStarted (s : State) (e : Nat) (slot : Fin 8) (f n : Nat) : Bool :=
  if f ≠ 0 then firingStarted s e slot (f - 1) n else
  match s.job.run with
  | none => true
  | some r =>
    match ((List.range (Nat.min n (Nat.max 1 r.tack.ledger.period))).map (fun d => n - 1 - d)).find?
        (fun j => 0 < gaitFirings (schedOf r.tack e j) slot) with
    | none => true
    | some j => firingStarted s e slot (gaitFirings (schedOf r.tack e j) slot - 1) j

/-- A run may commit (R243). -/
def mayCommit (s : State) (e : Nat) (r : Run) : Bool :=
  r.preDone && !r.committed && r.reqs.all (fun q => q.stage = .returned || q.stage = .dead) && beforeStarted s e r.slot r.f r.step

/-- A run's data reaches scratchpad (R243, R255). -/
def commitData (r : Run) (s : State) : State :=
  let s := forEach r.reqs (fun q t => writeBytes q.dst q.data t) s
  forEach r.taken (fun x t => writeBytes x.tagAddr (bytesLE 2 x.msg.tag.toNat) (writeBytes x.addr (bytesLE 64 x.msg.payload.toNat) t)) s

/-- RUN_COMMIT (R243, R244): the oldest of the runs that may commit; its firing's work may start. -/
def execRunCommit (e : EngId) (ag : AgNo) (s : State) : Out :=
  .next (if !fabricUp s || coreStale s (coreOfEng e.val) then s else
    match (agOf s e.val ag.val).runs.findIdx? (mayCommit s e.val) with
    | none => s
    | some i =>
      let r := runAt s e.val ag.val i
      let s := agCommit e.val ag.val (runBytes r) (commitData r s)
      firingReady e.val (modRunAt e.val ag.val i (fun r => { r with
        committed := true, reqs := r.reqs.filter (fun q => q.stage = .dead), taken := [] }) s))

/-! ## Resuming after a page miss (R259) -/

/-- The RESLOAD in progress on an engine stands at a page miss. -/
def reloadMissed (s : State) (e : Nat) : Bool := match (engOf s e).firing with | some x => x.miss.isSome | none => false

/-- A phase of the address generator, or the RESLOAD that AG3 runs, stands at a page miss: AG_POS.VALID. -/
def agMissed (s : State) (e a : Nat) : Bool := (agOf s e a).runs.any (fun r => r.miss.isSome) || (a = 3 && reloadMissed s e)

/-- Every phase of the address generator that `p` picks out changed, and AG3's RESLOAD with them. -/
def modMisses (e a : Nat) (f : Run → Run) (g : Firing → Firing) (s : State) : State :=
  let s := modAg e a (fun k => { k with runs := k.runs.map f }) s
  if a = 3 then modFiring e g s else s

/-- AG_RESUME (R259): RESUME written in AG_CTRL; ignored while AG_POS.VALID is 0. It reaches every phase at a miss (log 53). -/
def execAgResume (e : EngId) (ag : AgNo) (s : State) : Out :=
  .next (if fabricUp s && agMissed s e.val ag.val then
      modMisses e.val ag.val (fun r => if r.miss.isSome && r.resume = 0 then { r with resume := 1 } else r)
        (fun x => if x.miss.isSome && x.resume = 0 then { x with resume := 1 } else x) s
    else s)

/-- RUN_RESUME (R259): at the end of the first boundary window that begins after RESUME was written, the phases it reached go on. -/
def execRunResume (e : EngId) (ag : AgNo) (s : State) : Out :=
  .next (if fabricUp s && !s.stride.window then
      modMisses e.val ag.val (fun r => if r.resume = 2 then { r with miss := none, resume := 0 } else r)
        (fun x => if x.resume = 2 then { x with miss := none, resume := 0 } else x) s
    else s)

end Sys2Proof.Machine
end

