-- ==== Sys2Proof/Machine/Sfn.lean ====
section
/-!
DEFINITION. Special functions (R217 to R223, R234): range reduction, polynomials from the active bank, tails; the load-time
checks of a table image (R222, R224); the CRC of R225 (CRC-32 of IEEE 802.3).
-/
namespace Sys2Proof.Machine

/-- A table bank: bytes by offset (R224). -/
abbrev SftBank := Sparse Byte

/-- Coefficient `i` of entry `j` of a slot: a little-endian int32 (R224). -/
def coef (b : SftBank) (slot j i : Nat) : Int :=
  let o := slot * 1024 + 16 * j + 4 * i
  toSigned 32 (numLE ((List.range 4).map (fun k => sget 0#8 b (o + k))))

/-- R219: exact Horner evaluation, rounding half to even at 11 bits. -/
def sfnPoly (b : SftBank) (slot j u : Nat) : Int :=
  let t := coef b slot j 3
  let t := rhe (t * u) 11 + coef b slot j 2
  let t := rhe (t * u) 11 + coef b slot j 1
  rhe (t * u) 11 + coef b slot j 0

/-- R234: the SKV3 evaluation, with floor. -/
def skvPoly (b : SftBank) (slot j u : Nat) : Int :=
  let w := u / 2
  let t := coef b slot j 2 * w / 1024 + coef b slot j 1
  t * w / 1024 + coef b slot j 0

/-- The polynomial of function `k` in the mode asked (R219, R234). -/
def sfnV (b : SftBank) (skv : Bool) (k j u : Nat) : Int := if skv then skvPoly b (8 + k) j u else sfnPoly b k j u

/-- A right shift in the mode asked: half to even, or floor (R220, R234). -/
def sfnShift (skv : Bool) (x : Int) (d : Nat) : Int := if skv then x / 2 ^ d else rhe x d

/-- Leading zeros of `d` within bits [62:0] (R218). -/
def leadZeros (d : Nat) : Nat := 62 - Nat.log2 d

/-- `x` clamped to `lo` to `hi`. -/
def clampInt (lo hi x : Int) : Int := if x < lo then lo else if hi < x then hi else x

/-- A packed reciprocal: E × 2^32 + MANT (R220). -/
def packed (e : Int) (v : Int) : Int := e * 2 ^ 32 + clampInt 1 (2 ^ 31 - 1) v

/-- EXP2 of an int32 (R218, R220, R221). The flag tells an input outside the domain. -/
def sfnExp2 (b : SftBank) (skv : Bool) (x : Int) : Int × Bool :=
  if 0 < x then (2 ^ 30, true)
  else
    let k := x / 65536
    let r := (x - 65536 * k).toNat
    if k ≤ -32 then (0, false)
    else
      let v := sfnV b skv 0 (r / 2048) (r % 2048)
      (if k = 0 then v else sfnShift skv v (-k).toNat, false)

/-- RCP of an int64 (R218, R220, R221). -/
def sfnRcp (b : SftBank) (skv : Bool) (x : Int) : Int × Bool :=
  if x ≤ 0 then (0, true)
  else
    let d := x.toNat
    let lz := leadZeros d
    let dn := d * 2 ^ lz
    (packed (92 - lz) (sfnV b skv 1 (dn / 2 ^ 57 % 32) (dn / 2 ^ 46 % 2048)), false)

/-- RSQRT of an int64 (R218, R220, R221). -/
def sfnRsqrt (b : SftBank) (skv : Bool) (x : Int) : Int × Bool :=
  if x ≤ 0 then (0, true)
  else
    let d := x.toNat
    let z := leadZeros d / 2 * 2
    let dn := d * 2 ^ z
    (packed (61 - (z / 2 : Nat)) (sfnV b skv 2 (dn / 2 ^ 57 - 16) (dn / 2 ^ 46 % 2048)), false)

/-- SIGMOID of an int32 (R218, R220). -/
def sfnSigmoid (b : SftBank) (skv : Bool) (x : Int) : Int :=
  let a := Nat.min x.natAbs (2 ^ 31 - 1)
  let y := if 2 ^ 20 ≤ a then 32768
    else clampInt 0 32768 (sfnShift skv (sfnV b skv 3 (a / 32768) (a / 16 % 2048)) 15)
  if 0 ≤ x then y else 32768 - y

/-- SILU (4) or GELU (5) of an int32 (R218, R220). -/
def sfnGate (b : SftBank) (skv : Bool) (k : Nat) (x : Int) : Int :=
  if 2 ^ 20 ≤ x then x
  else if x < -(2 ^ 20) then 0
  else
    let w := (x + 2 ^ 20).toNat
    sfnShift skv (sfnV b skv k (w / 32768) (w / 16 % 2048)) 10

/-- A function of an element, with the mark of an input outside its domain (R218 to R221). -/
def sfnEval (b : SftBank) (skv : Bool) (k : Nat) (x : Int) : Int × Bool :=
  if k = 1 then sfnRcp b skv x
  else if k = 2 then sfnRsqrt b skv x
  else
    let y := satInt 32 x
    if k = 0 then sfnExp2 b skv y
    else if k = 3 then (sfnSigmoid b skv y, false)
    else (sfnGate b skv k y, false)

/-! ## Checks of an image -/

/-- Segments of SFN 0 to 5 (R218). -/
def sfnSegs (k : Nat) : Nat := if k = 2 then 48 else if k = 4 || k = 5 then 64 else 32

/-- A polynomial result carried through R220 for the seam checks (R222). -/
def seamY (k : Nat) (v : Int) : Int :=
  if k = 3 then clampInt 0 32768 (rhe v 15) else if k = 4 || k = 5 then rhe v 10 else v

/-- The seam between segments `j` − 1 and `j` of slot `k` passes (R222). -/
def seamOk (b : SftBank) (k j : Nat) : Bool :=
  let v := sfnPoly b k
  if k = 0 then v (j - 1) 2047 ≤ v j 0
  else if k = 1 || k = 2 then v j 0 ≤ v (j - 1) 2047
  else if k = 3 then seamY 3 (v (j - 1) 2047) ≤ seamY 3 (v j 0)
  else (seamY k (v (j - 1) 2048) - seamY k (v j 0)).natAbs ≤ 1

/-- The check at the start of segment 0 passes (R222). -/
def seamStart (b : SftBank) (k : Nat) : Bool :=
  if k = 3 then sfnPoly b 3 0 0 = 2 ^ 29
  else if k = 4 || k = 5 then (seamY k (sfnPoly b k 0 0)).natAbs ≤ 1
  else true

/-- The check at the top end of the domain passes (R222). -/
def seamTop (b : SftBank) (k : Nat) : Bool :=
  let v := sfnPoly b k
  if k = 0 then v 31 2047 ≤ 2 * v 0 0
  else if k = 1 then v 0 0 ≤ 2 * v 31 2047
  else if k = 2 then v 0 0 ≤ 2 * v 47 2047
  else if k = 3 then seamY 3 (v 31 2047) ≤ 32768
  else (seamY k (v 63 2048) - 2 ^ 20).natAbs ≤ 1

/-- The first seam of a slot that fails, as ERR_SEAM gives it (R222, R230): ascending along the domain (log 22). -/
def slotSeam (b : SftBank) (k : Nat) : Option Nat :=
  if !seamStart b k then some 0
  else match ((List.range (sfnSegs k)).drop 1).find? (fun j => !seamOk b k j) with
    | some j => some j
    | none => if seamTop b k then none else some (sfnSegs k)

/-- A byte that R224 requires to be 0. -/
def mustBeZero (o : Nat) : Bool :=
  let slot := o / 1024
  let j := o % 1024 / 16
  if slot < 6 then sfnSegs slot ≤ j
  else if 8 ≤ slot && slot ≤ 12 then sfnSegs (slot - 8) ≤ j || o % 16 / 4 = 3
  else true

/-- CRC-32 of IEEE 802.3, one bit. -/
def ieeeBit (c : BitVec 32) : BitVec 32 := if c.getLsbD 0 then (c >>> 1) ^^^ 0xEDB88320#32 else c >>> 1

/-- CRC-32 of IEEE 802.3, one byte. -/
def ieeeByte (c : BitVec 32) (b : Byte) : BitVec 32 :=
  ieeeBit (ieeeBit (ieeeBit (ieeeBit (ieeeBit (ieeeBit (ieeeBit (ieeeBit (c ^^^ b.zeroExtend 32))))))))

/-- CRC-32 of IEEE 802.3 over bytes (R225). -/
def crc32ieee (bs : List Byte) : BitVec 32 := ~~~(bs.foldl ieeeByte 0xFFFFFFFF#32)

/-- The 16 KiB of an image in ascending address order. -/
def bankImage (b : SftBank) : List Byte := (List.range 16384).map (fun o => sget 0#8 b o)

/-- The checks of R225 in order: ERR, ERR_SLOT, ERR_SEAM; 0 where every one passes. -/
def sftCheck (b : SftBank) (crc id : BitVec 32) : Nat × Nat × Nat :=
  if crc32ieee (bankImage b) ≠ crc then (1, 0, 0)
  else if id = 0 then (2, 0, 0)
  else match b.find? (fun x => mustBeZero x.1) with
    | some x => (3, x.1 / 1024, 0)
    | none =>
      match (List.range 6).find? (fun k => (slotSeam b k).isSome) with
      | some k => (4, k, (slotSeam b k).getD 0)
      | none => (0, 0, 0)

end Sys2Proof.Machine
end

