-- ==== Sys2Proof/Machine/Vector.lean ====
section
/-!
DEFINITION. Vector instructions (R201 to R216, R231 to R235) and the multi-limb operations (R127, R128). Operands are read
before any element is written (R203, log 23).
-/
namespace Sys2Proof

/-- A row reduction (R211). -/
def VecOp.rowRed (o : VecOp) : Bool := o = .rsum || o = .rmax || o = .rmin
/-- A column reduction (R211). -/
def VecOp.colRed (o : VecOp) : Bool := o = .csum || o = .cmax || o = .cmin
/-- A multi-limb operation (R127). -/
def VecOp.limb (o : VecOp) : Bool := o = .adc || o = .sbb || o = .mulw
/-- The opcode uses B (R211). -/
def VecOp.binary (o : VecOp) : Bool :=
  !(o.rowRed || o.colRed || o = .abs || o = .cvt || o = .sfn || o = .vend)

end Sys2Proof

namespace Sys2Proof.Machine

/-- Bytes of an element (R205). -/
def elemSize (f : Nat) : Nat := if f = 0 then 1 else if f = 1 then 2 else if f = 2 then 4 else if f = 3 then 6 else if f = 4 then 8 else 1
/-- Bits of an element (R205). -/
def elemBits (f : Nat) : Nat := if f = 5 then 1 else 8 * elemSize f
/-- The most negative value of a format. -/
def elemMin (f : Nat) : Int := -(2 ^ (elemBits f - 1) : Int)
/-- The most positive value of a format. -/
def elemMax (f : Nat) : Int := 2 ^ (elemBits f - 1) - 1

/-- ROWS of an instruction (R204). -/
def vRows (v : VecF) : Nat := v.rowsM1.toNat + 1
/-- COLS of an instruction (R204). -/
def vCols (v : VecF) : Nat := v.colsM1.toNat + 1

/-- A descriptor that is all 0 (R204). -/
def descZero (d : VecOperand) : Bool := d == {}

/-- A vector instruction's firing and the place it runs in. -/
structure VecAt where
  e : Nat
  x : Firing
  g : Gait
  deriving DecidableEq, Repr

/-- Scalar `r` latched at the start of the program (R209). -/
def latched (v : VecAt) (r : Nat) : Word := if r = 0 then 0 else sget 0 v.x.latched r

/-! ## Checks (R207, R208, R209, R212, R215, R234) -/

/-- An operand descriptor breaks R206, R208 or R209. A scalar has no bit format, so EMASK's B of SPACE 2 does too (DESIGN CHOICE, log 97). -/
def operandBad (k : VecAt) (isD : Bool) (d : VecOperand) (f : Nat) (v : VecF) : Bool :=
  d.rsvd || d.space = 3 ||
  (d.space = 1 && (f ≠ 3 || d.bc ≠ 0 || 16 < (vRows v) || 32 < (vCols v) || d.fstep ≠ 0 || d.pitch ≠ 0 || 32 ≤ d.base.toNat ||
    k.g.accCount ≤ d.base.toNat)) ||
  (d.space = 2 && (isD || d.bc ≠ 3 || f = 5 || d.fstep ≠ 0 || d.pitch ≠ 0 || 64 ≤ d.base.toNat))

/-- An opcode's unused fields are not 0 (R204). -/
def unusedBad (op : VecOp) (v : VecF) : Bool :=
  (v.sh ≠ 0 && !(op = .mulsh || op = .mulrs || op = .sfnmul)) ||
  (v.cin && !(op = .adc || op = .sbb)) ||
  (v.dacc && !(op.rowRed || op.colRed)) ||
  (v.skv3 && !(op = .sfn || op = .sfnmul || op = .expsub)) ||
  (v.sfn ≠ 0 && !(op = .sfn || op = .sfnmul)) ||
  (v.psrc = 0 && v.parg ≠ 0 && !op.limb) ||
  (!op.binary && (v.fb ≠ 0 || !descZero v.b))

/-- VEND uses no field but its opcode (R204). -/
def vendBad (v : VecF) : Bool := v != {}

/-- The checks whose failure is VEC_INVALID (R212, R208, R209, R215, R234). -/
def vecInvalid (k : VecAt) (compat : Bool) (op : VecOp) (v : VecF) : Bool :=
  if op = .vend then vendBad v else
  let fd := v.fd.toNat
  let fa := v.fa.toNat
  let fb := v.fb.toNat
  v.rsvd || unusedBad op v ||
  4 < fd || 4 < fa || (op.binary && 5 < fb) || (op.binary && (fb = 5) != (op = .emask)) ||
  operandBad k true v.d fd v || operandBad k false v.a fa v || (op.binary && operandBad k false v.b fb v) ||
  ((op = .and || op = .or || op = .xor) && !(fa = fb && fb = fd)) ||
  v.d.bc ≠ (if op.rowRed then 1 else if op.colRed then 2 else 0) ||
  (op = .sfn && (5 < v.sfn.toNat || ((v.sfn = 1 || v.sfn = 2) && fd ≠ 4))) ||
  (op = .sfnmul && !(v.sfn = 0 || v.sfn = 3 || v.sfn = 4 || v.sfn = 5)) ||
  (op = .mulrs && fb ≠ 4) ||
  (op.limb && (fd ≠ 4 || fa ≠ 4 || fb ≠ 4 || v.d.bc ≠ 0 || v.a.bc ≠ 0 || v.b.bc ≠ 0 || v.psrc ≠ 0)) ||
  ((v.psrc = 1 || v.psrc = 2) && (16 < (vRows v) || 32 ≤ v.parg.toNat || k.g.accCount ≤ v.parg.toNat)) ||
  (v.psrc = 3 && (latched k v.parg.toNat).toNat % 8 ≠ 0) ||
  (v.skv3 && (!compat || v.sfn = 5))

/-- The origin of a scratchpad operand: BASE + 64 × FSTEP × f (R207). -/
def origin (k : VecAt) (d : VecOperand) : Nat := d.base.toNat + 64 * d.fstep.toNat * k.x.f

/-- Offset of element (r, c) of a scratchpad operand (R207). -/
def elemOff (o : Nat) (bc pitch size r c : Nat) : Nat :=
  if bc = 0 then o + r * pitch + c * size else if bc = 1 then o + r * size else if bc = 2 then o + c * size else o

/-- Bytes from its origin that a scratchpad operand reaches. -/
def operandSpan (d : VecOperand) (f : Nat) (v : VecF) : Nat :=
  if f = 5 then ((vRows v) - 1) * d.pitch.toNat + ((vCols v) - 1) / 8 + 1
  else elemOff 0 d.bc.toNat d.pitch.toNat (elemSize f) ((vRows v) - 1) ((vCols v) - 1) + elemSize f

/-- The first byte past `size` that elements of `n` bytes at `off` reach, row by row (R207). -/
def firstPast (size n : Nat) (off : Nat → Nat → Nat) (v : VecF) : Option Nat :=
  (List.range (vRows v)).findSome? (fun r => (List.range (vCols v)).findSome? (fun c =>
    if size < off r c + n then some (Nat.max size (off r c)) else none))

/-- The offending offset of a scratchpad operand (R207, R236): its origin where that or the pitch is misaligned, else the first byte
that the core's scratchpad does not back. Rows that the predicate disables count as addressed (DESIGN CHOICE, log 97). -/
def operandAddr (s : State) (k : VecAt) (d : VecOperand) (f : Nat) (v : VecF) : Option Nat :=
  let o := origin k d
  let c := coreOfEng k.e
  if d.space ≠ 0 then none
  else if o % elemSize f ≠ 0 || d.pitch.toNat % elemSize f ≠ 0 then some o
  else if spadBacked s c o (operandSpan d f v) then none
  else if f = 5 then firstPast (spadBytes s c) 1 (fun r x => o + r * d.pitch.toNat + x / 8) v
  else firstPast (spadBytes s c) (elemSize f) (elemOff o d.bc.toNat d.pitch.toNat (elemSize f)) v

/-- The offset that register PARG names: a mask array, the carry stream or the high limbs (R212, R215). -/
def pargOff (k : VecAt) (v : VecF) : Nat := (latched k v.parg.toNat).toNat

/-- The first check whose failure is VEC_ADDR, as the offending offset (R207). So is that of a mask array, a carry stream or high limbs that the
scratchpad does not back, or of a MULW offset that is no multiple of 8 (R127, R215; DESIGN CHOICE, log 97). -/
def vecAddr (s : State) (k : VecAt) (op : VecOp) (v : VecF) : Option Nat :=
  if op = .vend then none else
  let c := coreOfEng k.e
  let p := pargOff k v
  match operandAddr s k v.d v.fd.toNat v with
  | some o => some o
  | none => match operandAddr s k v.a v.fa.toNat v with
    | some o => some o
    | none => match (if op.binary then operandAddr s k v.b v.fb.toNat v else none) with
      | some o => some o
      | none =>
        let size := spadBytes s c
        if v.psrc = 3 && !spadBacked s c p (ceilDiv (vRows v) 8) then some (Nat.max size p)
        else if (op = .adc || op = .sbb) && !spadBacked s c p ((vRows v) * (vCols v)) then some (Nat.max size p)
        else if op = .mulw && p % 8 ≠ 0 then some p
        else if op = .mulw && !spadBacked s c p (((vRows v) - 1) * v.d.pitch.toNat + (vCols v) * 8) then
          firstPast size 8 (fun r x => p + r * v.d.pitch.toNat + 8 * x) v
        else none

/-! ## Reading -/

/-- Element (r, c) of an operand, signed; of a bit operand 0 or 1, laid out by rows and columns whatever BC is (R207 to R210; DESIGN CHOICE,
log 97). -/
def elemAt (s : State) (k : VecAt) (d : VecOperand) (f r c : Nat) : Int :=
  if d.space = 1 then sget 0 (sget {} (engOf s k.e).tiles (k.g.accBase + d.base.toNat)).el (32 * r + c)
  else if d.space = 2 then satInt (elemBits f) (latched k d.base.toNat).toInt
  else if f = 5 then
    bit01 ((readByte s (spadAddr (coreOfEng k.e) (origin k d + r * d.pitch.toNat + c / 8))).getLsbD (c % 8))
  else toSigned (elemBits f)
    (spadNum s (coreOfEng k.e) (elemOff (origin k d) d.bc.toNat d.pitch.toNat (elemSize f) r c) (elemSize f))

/-- Row `r` is enabled (R215). -/
def rowOn (s : State) (k : VecAt) (v : VecF) (r : Nat) : Bool :=
  let t := sget {} (engOf s k.e).tiles (k.g.accBase + v.parg.toNat)
  let b :=
    if v.psrc = 0 then true
    else if v.psrc = 1 then t.sat.getLsbD r
    else if v.psrc = 2 then t.lame.getLsbD r
    else (readByte s (spadAddr (coreOfEng k.e) (pargOff k v + r / 8))).getLsbD (r % 8)
  b != v.pinv

/-- Rows that take part. -/
def rowsOn (s : State) (k : VecAt) (v : VecF) : List Nat := (List.range (vRows v)).filter (rowOn s k v)

/-! ## Element results (R211) -/

/-- A shift distance: B clamped to 0 to 63 (R211). -/
def shiftOf (b : Int) : Nat := (clampInt 0 63 b).toNat

/-- The bit pattern operations on `w` bits (R210). -/
def bitOp (op : VecOp) (w : Nat) (a b : Int) : Int :=
  let x := ofSigned w a
  let y := ofSigned w b
  toSigned w (if op = .and then x &&& y else if op = .or then x ||| y else x ^^^ y)

/-- MULRS (R211): B holds E and MANT, MANT its low 32 bits and E what is above them, for every B (DESIGN CHOICE, log 97). -/
def mulrsOf (a b : Int) (sh : Nat) : Int :=
  let m := b % 2 ^ 32
  let d := b / 2 ^ 32 - sh
  if 1 ≤ d then rhe (a * m) d.toNat else a * m * 2 ^ (-d).toNat

/-- The element result before saturation, with the mark of an input outside a function's domain (R211, R221). -/
def elemOp (bank : SftBank) (op : VecOp) (v : VecF) (a b : Int) : Int × Bool :=
  let sh := v.sh.toNat
  match op with
  | .add => (a + b, false)
  | .sub => (a - b, false)
  | .mul => (a * b, false)
  | .mulsh => (rhe (a * b) sh, false)
  | .mulrs => (mulrsOf a b sh, false)
  | .min => (if a ≤ b then a else b, false)
  | .max => (if a ≤ b then b else a, false)
  | .abs => (a.natAbs, false)
  | .and | .or | .xor => (bitOp op (elemBits v.fd.toNat) a b, false)
  | .shl => (a * 2 ^ shiftOf b, false)
  | .sar => (a / 2 ^ shiftOf b, false)
  | .srhe => (rhe a (shiftOf b), false)
  | .cvt => (a, false)
  | .emask => (if b = 1 then a else elemMin v.fd.toNat, false)
  | .sfn => sfnEval bank v.skv3 v.sfn.toNat a
  | .sfnmul => let y := sfnEval bank v.skv3 v.sfn.toNat a; (rhe (y.1 * b) sh, y.2)
  | .expsub => if a = elemMin v.fa.toNat then (0, false) else sfnEval bank v.skv3 0 (a - b)
  | _ => (a, false)

/-- A reduction's value over its elements, D's old element among them under DACC (R213). -/
def reduce (op : VecOp) (fd : Nat) (l : List Int) : Int :=
  if op = .rsum || op = .csum then l.foldl (· + ·) 0
  else match l with
    | [] => if op = .rmax || op = .cmax then elemMin fd else elemMax fd
    | a :: l => if op = .rmax || op = .cmax then l.foldl max a else l.foldl min a

/-! ## Results -/

/-- What an instruction writes: elements of D with their exact values, other bytes, elements outside a domain. -/
structure VecOut where
  els  : List (Nat × Nat × Int) := []
  raw  : List (Nat × List Byte) := []
  doms : Nat := 0
  deriving DecidableEq, Repr

/-- The elements that an element operation computes, row by row, with the mark of an input outside a function's domain. -/
def elemCells (s : State) (k : VecAt) (op : VecOp) (v : VecF) : List (Nat × Nat × Int × Bool) :=
  (rowsOn s k v).flatMap (fun r => (List.range (vCols v)).map (fun c =>
    (r, c, elemOp s.sft.active op v (elemAt s k v.a v.fa.toNat r c)
      (if op.binary then elemAt s k v.b v.fb.toNat r c else 0))))

/-- What the elements computed write. -/
def elemWrites (l : List (Nat × Nat × Int × Bool)) : VecOut :=
  { els := l.map (fun x => (x.1, x.2.1, x.2.2.1)), doms := (l.filter (fun x => x.2.2.2)).length }

/-- The results of an element operation. -/
def elemOut (s : State) (k : VecAt) (op : VecOp) (v : VecF) : VecOut := elemWrites (elemCells s k op v)

/-- The results of a reduction (R213, R215). -/
def redOut (s : State) (k : VecAt) (op : VecOp) (v : VecF) : VecOut :=
  let old := fun (r c : Nat) => if v.dacc then [elemAt s k v.d v.fd.toNat r c] else []
  let on := rowsOn s k v
  if op.rowRed then
    { els := on.map (fun r => (r, 0,
        reduce op v.fd.toNat ((List.range (vCols v)).map (fun c => elemAt s k v.a v.fa.toNat r c) ++ old r 0))) }
  else
    { els := (List.range (vCols v)).map (fun c => (0, c,
        reduce op v.fd.toNat (on.map (fun r => elemAt s k v.a v.fa.toNat r c) ++ old 0 c))) }

/-- The results of ADC, SBB or MULW (R127, R128, R212): limbs are unsigned 64-bit patterns. A carry byte is added as it stands
(log 79). -/
def limbOut (s : State) (k : VecAt) (op : VecOp) (v : VecF) : VecOut :=
  let p := pargOff k v
  let c0 := coreOfEng k.e
  let cells := (rowsOn s k v).flatMap (fun r => (List.range (vCols v)).map (fun c => (r, c)))
  let at_ := fun (rc : Nat × Nat) =>
    let x := ofSigned 64 (elemAt s k v.a 4 rc.1 rc.2)
    let y := ofSigned 64 (elemAt s k v.b 4 rc.1 rc.2)
    let i := rc.1 * (vCols v) + rc.2
    let cin := if v.cin then (readByte s (spadAddr c0 (p + i))).toNat else 0
    if op = .mulw then
      ((rc.1, rc.2, toSigned 64 (x * y)), (spadAddr c0 (p + rc.1 * v.d.pitch.toNat + 8 * rc.2), bytesLE 8 (x * y / 2 ^ 64)))
    else if op = .adc then
      ((rc.1, rc.2, toSigned 64 (x + y + cin)), (spadAddr c0 (p + i), [BitVec.ofNat 8 ((x + y + cin) / 2 ^ 64)]))
    else
      ((rc.1, rc.2, toSigned 64 (2 ^ 65 + x - y - cin)), (spadAddr c0 (p + i), [BitVec.ofNat 8 (bit01 (decide (x < y + cin)))]))
  { els := cells.map (fun rc => (at_ rc).1), raw := cells.map (fun rc => (at_ rc).2) }

/-- One element of D written, saturated once to FD (R210); a tile row that clamps sets its SAT_ROWS bit (R208). -/
def writeElem (k : VecAt) (v : VecF) (x : Nat × Nat × Int) (s : State) : State :=
  let fd := v.fd.toNat
  let y := satInt (elemBits fd) x.2.2
  if v.d.space = 1 then
    modEng k.e (fun g => { g with tiles := smod {} g.tiles (k.g.accBase + v.d.base.toNat) (fun t => { t with
      el := sset 0 t.el (32 * x.1 + x.2.1) y
      sat := if clamps (elemBits fd) x.2.2 then t.sat ||| (1#16 <<< x.1) else t.sat }) }) s
  else
    writeSpad (coreOfEng k.e) (elemOff (origin k v.d) v.d.bc.toNat v.d.pitch.toNat (elemSize fd) x.1 x.2.1)
      (bytesLE (elemSize fd) (ofSigned (elemBits fd) y)) s

/-- Everything an instruction writes. -/
def writeOutAll (k : VecAt) (v : VecF) (o : VecOut) (s : State) : State :=
  let s := forEach o.els (writeElem k v) s
  let s := forEach o.raw (fun p t => writeBytes p.1 p.2 t) s
  modMgmt (fun m => { m with sfnDomain := statAdd 32 o.doms m.sfnDomain }) s

/-! ## One instruction -/

/-- W of an instruction: elements of a row in one fc (R216). -/
def vecWidth (op : VecOp) (v : VecF) : Nat :=
  let wide := fun (d : VecOperand) (f : Nat) => d.bc = 0 && (f = 3 || f = 4)
  if op = .sfn || op = .sfnmul || op = .expsub || op = .mulw then 16
  else if op = .adc || op = .sbb || wide v.d v.fd.toNat || wide v.a v.fa.toNat || (op.binary && wide v.b v.fb.toNat) then 32
  else 64

/-- fc of an instruction (R216). -/
def vecFc (op : VecOp) (v : VecF) : Nat :=
  if op = .vend then 1 else
  4 + (vRows v) * ceilDiv (vCols v) (vecWidth op v) + (if op.rowRed || op.colRed then 8 else 0)

/-- A refusal (R235, R236): the firing ends unrun, the core halts, the record names core, engine, slot and offset. -/
def vecRefuse (k : VecAt) (code : Nat) (more : List Byte) (s : State) : State :=
  let c := coreOfEng k.e
  let off := k.g.vec.off + 32 * k.x.vecIdx
  let t := engOwner s k.e k.x.step
  haltCore c t (k.e % 8) code off 0 0
    (jobFault code (item 2 c ++ item 2 k.e ++ item 1 k.x.slot.val ++ item 4 off ++ more) (abandonFiring k.e k.x s))

/-- The results of an operation. -/
def vecOut (s : State) (k : VecAt) (op : VecOp) (v : VecF) : VecOut :=
  if op.rowRed || op.colRed then redOut s k op v else if op.limb then limbOut s k op v else elemOut s k op v

/-- The running tack's SKV3 compatibility (R234). -/
def runCompat (s : State) : Bool := match s.job.run with | some r => r.tack.compat | none => false

/-- An instruction of the program in progress (R202, R203, R235). -/
def vecRun (k : VecAt) (op : VecOp) (v : VecF) (s : State) : State :=
  let c := coreOfEng k.e
  let off := k.g.vec.off + 32 * k.x.vecIdx
  if !spadBacked s c off 32 then vecRefuse k 0x0321 (item 6 (spadAddr c off)) s
  else if 256 ≤ k.x.vecIdx && op ≠ .vend then vecRefuse k 0x0320 [] s
  else if vecInvalid k (runCompat s) op v then vecRefuse k 0x0320 [] s
  else match vecAddr s k op v with
    | some o => vecRefuse k 0x0321 (item 6 (spadAddr c o)) s
    | none =>
      let s := measAdd k.x.step .issueFc k.e (vecFc op v) s
      if op = .vend then firingComplete k.e s
      else modEng k.e (fun g => { g with firing := some { k.x with vecIdx := k.x.vecIdx + 1 } })
        (writeOutAll k v (vecOut s k op v) s)

/-! ## A read that fails (R628) -/

/-- Bytes [o, o + n) reach into the unit of 16 bytes at `u`. -/
def inUnit (u o n : Nat) : Bool := decide (o < u + 16 ∧ u < o + n)

/-- Element (r, c) of a scratchpad operand lies in the unit at `u` (R207). -/
def elemInUnit (k : VecAt) (d : VecOperand) (f u r c : Nat) : Bool :=
  d.space = 0 &&
  (if f = 5 then inUnit u (origin k d + r * d.pitch.toNat + c / 8) 1
   else inUnit u (elemOff (origin k d) d.bc.toNat d.pitch.toNat (elemSize f) r c) (elemSize f))

/-- What an instruction reads for element (r, c) reaches into the unit at `u`: the mask byte of the row; in an enabled row A, B and a
carry in; under DACC the element of D (R212, R213, R215). -/
def readsUnit (s : State) (k : VecAt) (op : VecOp) (v : VecF) (u r c : Nat) : Bool :=
  let p := pargOff k v
  let on := rowOn s k v r
  (v.psrc = 3 && inUnit u (p + r / 8) 1) ||
  (on && (elemInUnit k v.a v.fa.toNat u r c || (op.binary && elemInUnit k v.b v.fb.toNat u r c) ||
    (v.cin && inUnit u (p + r * vCols v + c) 1))) ||
  (v.dacc && (on || op.colRed) && elemInUnit k v.d v.fd.toNat u r c)

/-- The first element in row order whose reads reach into the unit at `u`, taken down to the first of its group of W (R216). -/
def vecFailAt (s : State) (k : VecAt) (op : VecOp) (v : VecF) (u : Nat) : Option (Nat × Nat) :=
  let w := vecWidth op v
  (List.range (vRows v)).findSome? (fun r =>
    ((List.range (vCols v)).find? (readsUnit s k op v u r)).map (fun c => (r, c / w * w)))

/-- fc that ran before the group of an element (R216). -/
def vecFcBefore (op : VecOp) (v : VecF) (rc : Nat × Nat) : Nat :=
  4 + rc.1 * ceilDiv (vCols v) (vecWidth op v) + rc.2 / vecWidth op v

/-- An element comes before `rc` in row order. -/
def cellBefore (rc : Nat × Nat) (r c : Nat) : Bool := r < rc.1 || (r = rc.1 && c < rc.2)

/-- What an instruction has written when the group at `rc` is read (R628): the groups before it; of a row reduction the rows before it,
of a column reduction nothing. -/
def vecOutBefore (s : State) (k : VecAt) (op : VecOp) (v : VecF) (rc : Nat × Nat) : VecOut :=
  if op.colRed then {}
  else if op.rowRed then { els := (redOut s k op v).els.filter (fun x => x.1 < rc.1) }
  else if op.limb then
    let o := limbOut s k op v
    let l := (o.els.zip o.raw).filter (fun x => cellBefore rc x.1.1 x.1.2.1)
    { els := l.map (fun x => x.1), raw := l.map (fun x => x.2) }
  else elemWrites ((elemCells s k op v).filter (fun x => cellBefore rc x.1 x.2.1))

/-- The vector program in progress on an engine, where one runs. -/
def vecAt (s : State) (e : Nat) : Option VecAt :=
  if !fabricUp s || coreStale s (coreOfEng e) then none else
  match (engOf s e).firing with
  | none => none
  | some x => if x.inVec then some { e := e, x := x, g := gaitOf s e x.slot.val } else none

/-- One vector command: the next instruction of the engine's program; without a program in progress nothing happens. -/
def vecStep (e : EngId) (op : VecOp) (v : VecF) (s : State) : State :=
  match vecAt s e.val with
  | none => s
  | some k => vecRun k op v s

/-- ADD (R210, R211). -/
def execVecAdd (e : EngId) (v : VecF) (s : State) : Out := .next (vecStep e .add v s)

/-- SUB (R210, R211). -/
def execVecSub (e : EngId) (v : VecF) (s : State) : Out := .next (vecStep e .sub v s)

/-- MUL (R210, R211). -/
def execVecMul (e : EngId) (v : VecF) (s : State) : Out := .next (vecStep e .mul v s)

/-- MULSH (R210, R211). -/
def execMulsh (e : EngId) (v : VecF) (s : State) : Out := .next (vecStep e .mulsh v s)

/-- MULRS (R210, R211). -/
def execMulrs (e : EngId) (v : VecF) (s : State) : Out := .next (vecStep e .mulrs v s)

/-- MIN (R210, R211). -/
def execVecMin (e : EngId) (v : VecF) (s : State) : Out := .next (vecStep e .min v s)

/-- MAX (R210, R211). -/
def execVecMax (e : EngId) (v : VecF) (s : State) : Out := .next (vecStep e .max v s)

/-- ABS (R210, R211). -/
def execAbs (e : EngId) (v : VecF) (s : State) : Out := .next (vecStep e .abs v s)

/-- AND (R210, R211). -/
def execVecAnd (e : EngId) (v : VecF) (s : State) : Out := .next (vecStep e .and v s)

/-- OR (R210, R211). -/
def execVecOr (e : EngId) (v : VecF) (s : State) : Out := .next (vecStep e .or v s)

/-- XOR (R210, R211). -/
def execVecXor (e : EngId) (v : VecF) (s : State) : Out := .next (vecStep e .xor v s)

/-- SHL (R210, R211). -/
def execVecShl (e : EngId) (v : VecF) (s : State) : Out := .next (vecStep e .shl v s)

/-- SAR (R210, R211). -/
def execVecSar (e : EngId) (v : VecF) (s : State) : Out := .next (vecStep e .sar v s)

/-- SRHE (R210, R211). -/
def execSrhe (e : EngId) (v : VecF) (s : State) : Out := .next (vecStep e .srhe v s)

/-- CVT (R210, R211). -/
def execCvt (e : EngId) (v : VecF) (s : State) : Out := .next (vecStep e .cvt v s)

/-- EMASK (R211, R231). -/
def execEmask (e : EngId) (v : VecF) (s : State) : Out := .next (vecStep e .emask v s)

/-- RSUM (R211, R213). -/
def execRsum (e : EngId) (v : VecF) (s : State) : Out := .next (vecStep e .rsum v s)

/-- RMAX (R211, R213). -/
def execRmax (e : EngId) (v : VecF) (s : State) : Out := .next (vecStep e .rmax v s)

/-- RMIN (R211, R213). -/
def execRmin (e : EngId) (v : VecF) (s : State) : Out := .next (vecStep e .rmin v s)

/-- CSUM (R211, R213). -/
def execCsum (e : EngId) (v : VecF) (s : State) : Out := .next (vecStep e .csum v s)

/-- CMAX (R211, R213). -/
def execCmax (e : EngId) (v : VecF) (s : State) : Out := .next (vecStep e .cmax v s)

/-- CMIN (R211, R213). -/
def execCmin (e : EngId) (v : VecF) (s : State) : Out := .next (vecStep e .cmin v s)

/-- SFN (R211, R218 to R221). -/
def execSfn (e : EngId) (v : VecF) (s : State) : Out := .next (vecStep e .sfn v s)

/-- SFNMUL (R211, R218 to R220). -/
def execSfnmul (e : EngId) (v : VecF) (s : State) : Out := .next (vecStep e .sfnmul v s)

/-- EXPSUB (R211, R218 to R221). -/
def execExpsub (e : EngId) (v : VecF) (s : State) : Out := .next (vecStep e .expsub v s)

/-- VEND (R202, R203). -/
def execVecVend (e : EngId) (v : VecF) (s : State) : Out := .next (vecStep e .vend v s)

/-- ADC (R127, R212). -/
def execAdc (e : EngId) (v : VecF) (s : State) : Out := .next (vecStep e .adc v s)

/-- SBB (R127, R212). -/
def execSbb (e : EngId) (v : VecF) (s : State) : Out := .next (vecStep e .sbb v s)

/-- MULW (R127, R212). -/
def execMulw (e : EngId) (v : VecF) (s : State) : Out := .next (vecStep e .mulw v s)

end Sys2Proof.Machine
end

