-- ==== Sys2Proof/Machine/SftBlock.lean ====
section
/-!
DEFINITION. The special-function block: load, cancel and commit of a table image (R225 to R228).
-/
namespace Sys2Proof.Machine

/-- SFT_LOAD (R225, R230): a LOAD write clears ERR; refused with ERR 5 while an image is in progress, else the check begins. -/
def execSftLoad (s : State) : Out :=
  .next (modSft (fun f =>
    let f := { f with err := 0, errSlot := 0, errSeam := 0 }
    if f.busy || f.pending then { f with err := 5 } else { f with busy := true }) s)

/-- SFT_LOAD_DONE (R222, R225): a failing check sets ERR; a passing image is in every shadow bank. -/
def execSftLoadDone (s : State) : Out :=
  .next (if !s.sft.busy then s else
    let r := sftCheck s.sft.stage s.sft.hdrCrc s.sft.hdrId
    modSft (fun f =>
      if r.1 ≠ 0 then { f with busy := false, err := r.1, errSlot := r.2.1, errSeam := r.2.2 }
      else { f with busy := false, pending := true, shadow := f.stage, shadowId := f.hdrId }) s)

/-- The running job holds back a commit of the pending image (R227). -/
def sftHeld (s : State) : Bool :=
  match s.job.run with
  | none => false
  | some r => r.tack.sftId ≠ 0 && r.tack.sftId ≠ s.sft.shadowId.toNat

/-- The window open now is that of the pending image's commit: action 5 is still to come (R226, R228). -/
def sftCommits (s : State) : Bool := mayAct s 5 && !sftHeld s

/-- SFT_CANCEL (R228): without effect once the boundary window of a commit has opened. -/
def execSftCancel (s : State) : Out :=
  .next (if s.sft.busy || (s.sft.pending && !sftCommits s) then
      modSft (fun f => { f with busy := false, pending := false, deferred := false, err := 6, shadow := [], shadowId := 0 }) s
    else s)

/-- SFT_COMMIT (R226, R227): at boundary action 5 every engine swaps banks, or the commit is deferred. -/
def execSftCommit (s : State) : Out :=
  .next (if mayAct s 5 && s.sft.pending then
      let s := setAct 5 s
      if sftHeld s then modSft (fun f => { f with deferred := true }) s
      else
        let old := s.sft.activeId.toNat
        let new := s.sft.shadowId.toNat
        measChange (event 0x0380 (item 4 old ++ item 4 new) (modSft (fun f => { f with
          active := f.shadow, shadow := f.active, activeId := f.shadowId, shadowId := f.activeId
          pending := false, deferred := false, commits := f.commits + 1 }) s))
    else s)

end Sys2Proof.Machine
end

