-- ==== Sys2Proof/Machine/Tiers.lean ====
section
/-!
DEFINITION. The Curb (R264 to R267), late and failed reads (R261, R262, R305 to R307), placement pages (R292 to R295) and
tier ports (R277, R278).
-/
namespace Sys2Proof.Machine

/-! ## The Curb -/

/-- The first of a list of requests that is at an address and in a stage moves to another. -/
def stageOne (addr : Nat) (old new : ReqStage) (l : List Req) : List Req :=
  match l.findIdx? (fun q => q.addr = addr && q.stage = old) with
  | none => l
  | some j => l.modify j (fun q => { q with stage := new })

/-- A request held at a Curb moves to a stage where it came from: the RESLOAD of its engine, or the first run of its address
generator that has one in `old`. -/
def reqStage (q : CurbReq) (old new : ReqStage) (s : State) : State :=
  if q.reload then modFiring q.engine (fun x => { x with reload := stageOne q.addr old new x.reload }) s else
  match (agOf s q.engine q.ag).runs.findIdx? (fun r => r.reqs.any (fun x => x.addr = q.addr && x.stage = old)) with
  | none => s
  | some i => modRunAt q.engine q.ag i (fun r => { r with reqs := stageOne q.addr old new r.reqs }) s

/-- CURB_ADMIT (R266): the oldest request of the class that waits at the Curb is admitted and charged in full. -/
def execCurbAdmit (p : PortId) (k : Fin 8) (s : State) : Out :=
  .next (if !fabricUp s || !curbOpen s p.val k.val then s else
    match (curbOf s p.val k.val).waiting with
    | [] => s
    | q :: l => reqStage q .waiting .admitted (curbAdmit p.val k.val q (modCurb p.val k.val (fun c => { c with waiting := l }) s)))

/-- Turns of a core in the weighted round robin (R267). -/
def coreTurns (c : Nat) : Nat := if isCourser c then 4 else 1

/-- The core whose turn it is within a class: the current one while it has turns and requests left, else the next with a
request (R267). -/
def turnCore (c : Curb) : Option Nat :=
  let has := fun (n : Nat) => c.admitted.any (fun q => q.engine / 8 = n)
  if has c.rrCore && c.rrTurns < coreTurns c.rrCore then some c.rrCore
  else ((List.range 288).map (fun d => (c.rrCore + 1 + d) % 288)).find? has

/-- The class a port serves next (R267). -/
def classServed (s : State) (p : Nat) : Option Nat :=
  match [3, 4, 5, 6].find? (fun k => !(curbOf s p k).admitted.isEmpty) with
  | some k => some k
  | none =>
    (([0, 1, 2].flatMap (fun k => (curbOf s p k).admitted.map (fun q => (q.order, k)))).foldl
      (fun (m : Option (Nat × Nat)) x => match m with | none => some x | some y => if x.1 < y.1 then some x else some y) none).map
      (fun x => x.2)

/-- A request is served by its port: a read goes out; a write is accepted, so its bytes commit (R243). -/
def portServe (q : CurbReq) (s : State) : State :=
  if q.reload then reqStage q .admitted .served s else
  let g := agOf s q.engine q.ag
  match g.runs.findIdx? (fun r => r.reqs.any (fun x => x.addr = q.addr && x.stage = .admitted)) with
  | none => s
  | some i =>
    let r := runAt s q.engine q.ag i
    match r.reqs.find? (fun x => x.addr = q.addr && x.stage = .admitted) with
    | none => s
    | some x =>
      if r.committed then
        let s := reqStage q .admitted .returned s
        let s := modAg q.engine q.ag (fun g => { g with runs := g.runs.filter (fun r => !runOver r) }) s
        portTouch x.addr x.bytes (agCommit q.engine q.ag x.bytes (writeBytes x.addr x.data s))
      else reqStage q .admitted .served s

/-- CURB_ARBITRATE (R267). A read of tier F waits while its channel has 32 page reads outstanding (R286). -/
def execCurbArbitrate (p : PortId) (s : State) : Out :=
  .next (if !fabricUp s then s else
    match classServed s p.val with
    | none => s
    | some k =>
      let c := curbOf s p.val k
      match (if k < 3 then turnCore c else (c.admitted.head?).map (fun q => q.engine / 8)) with
      | none => s
      | some n =>
        match c.admitted.find? (fun q => q.engine / 8 = n) with
        | none => s
        | some q =>
          if !pageReadMay s q.addr then s else
          portServe q (pageReadStart q.addr (modCurb p.val k (fun c => { c with
            admitted := c.admitted.erase q, rrCore := n
            rrTurns := if n = c.rrCore && c.rrTurns < coreTurns n then c.rrTurns + 1 else 1 }) s)))

/-! ## Late and failed reads of streams -/

/-- A tag entry as a run sees it: its own RECV may hold it uncommitted (R261). -/
def runTag (s : State) (r : Run) (a : Nat) : BitVec 16 :=
  match r.taken.find? (fun x => x.tagAddr = a) with
  | some x => x.msg.tag
  | none => BitVec.ofNat 16 (readNum s a 2)

/-- Rows of the parts that a COV 1 request touches (R261). -/
def covRows (s : State) (r : Run) (q : Req) : List Nat :=
  let part := q.total / Nat.max 1 q.nrow
  ((List.range (Nat.max 1 q.nrow)).filter (fun i => q.off / Nat.max 1 part ≤ i && i ≤ (q.off + q.bytes - 1) / Nat.max 1 part)).map
    (fun i => tagRow (runTag s r (q.tags + 2 * i)))

/-- Run `i`'s request `q` brings zeros (R261): rows turn lame by COV, with `code` for the requests that own them (R262). Under COV 2
the rows are known as the POST phase sends them, and the record follows then. -/
def loadLost (e a i : Nat) (q : Req) (code : Nat) (detail : List Byte) (s : State) : State :=
  let r := runAt s e a i
  if q.cov = 1 then
    let rows := covRows s r q
    rowsFault code rows (requestFault code (detail ++ (rows.map (item 2)).flatten)
      (modRunAt e a i (fun r => { r with lame := r.lame ++ rows }) s))
  else if q.cov = 2 then
    modRunAt e a i (fun r => { r with losts := r.losts ++ [(code, detail)] }) s
  else jobFault 0x0402 (item 2 e ++ item 1 a ++ item 2 r.f ++ item 6 q.addr) s

/-- The run and request of an address generator that are out at an address: admitted or served. -/
def reqOut (s : State) (e a addr : Nat) : Option (Nat × Req) :=
  let ok := fun (q : Req) => q.addr = addr && (q.stage = .admitted || q.stage = .served)
  match (agOf s e a).runs.findIdx? (fun r => !r.committed && r.reqs.any ok) with
  | none => none
  | some i => ((runAt s e a i).reqs.find? ok).map (fun q => (i, q))

/-- Request `q` of run `i` ends in a stage with its bytes. -/
def reqEnd (e a i : Nat) (q : Req) (stage : ReqStage) (bs : List Byte) (s : State) : State :=
  modRunAt e a i (fun r => { r with reqs := match r.reqs.findIdx? (fun x => x == q) with
    | none => r.reqs
    | some j => r.reqs.set j { q with stage := stage, data := bs } }) s

/-- The deadline in force for a read of a tier, in fc after its admission; tier H has none (R305). -/
def deadlineOf (s : State) (a : Nat) : Option Nat :=
  match regionOf s a with
  | .tierL _ => some s.tiers.dlL
  | .tierF _ => some s.tiers.dlF
  | _ => none

/-- READ_DEADLINE (R261, R262, R305, R307): a LOAD request to tier L or F that was admitted `elapsed` fc ago passes its deadline. -/
def execReadDeadline (e : EngId) (ag : AgNo) (addr : BitVec 48) (elapsed : Nat) (s : State) : Out :=
  .next (if !fabricUp s then s else
    match reqOut s e.val ag.val addr.toNat, deadlineOf s addr.toNat with
    | some (i, q), some n =>
      if elapsed < n then s
      else
        let r := runAt s e.val ag.val i
        reqEnd e.val ag.val i q .dead (List.replicate q.bytes 0#8)
          (loadLost e.val ag.val i q 0x0401 (item 2 e.val ++ item 1 ag.val ++ item 2 r.f ++ item 6 addr.toNat) s)
    | _, _ => s)

/-! ## Placement pages -/

/-- The ports over which a page of a tier's die half spreads (R282). -/
def pagePorts (tier die : Nat) : List Nat :=
  if tier = 0 then (List.range 4).map (fun i => die * 4 + i)
  else if tier = 1 then (List.range 8).map (fun i => 8 + die * 8 + i)
  else (List.range 8).map (fun i => 24 + die * 8 + i)

/-- The ports of the half of a tier that holds `a`; none of another region. -/
def portsOf (s : State) (a : Nat) : List Nat := match tierOf (regionOf s a) with | some (t, d) => pagePorts t d | none => []

/-- A page's bytes charged evenly to the ports of the half that holds `a`, under class `k` (R264, R282). -/
def chargePage (k a n : Nat) (s : State) : State :=
  forEach (portsOf s a) (fun p u => curbCharge p k (n / 64 / (portsOf s a).length) u) s

/-- The units of 64 bytes of `n` bytes spread evenly over ports, the lower ports first. -/
def unitsOver (ports : List Nat) (n : Nat) : Sparse Nat :=
  let u := ceilDiv n 64
  (ports.zipIdx.map (fun p => (p.1, (u + (ports.length - 1 - p.2)) / ports.length))).filter (fun p => p.2 ≠ 0)

/-- A copy of class `k` in the half of a tier that holds `a` may be admitted (R266): one copy is charged as one request, and one
that finds its class spent waits (log 45). -/
def pageOpen (s : State) (k a : Nat) : Bool := (portsOf s a).all (fun p => curbOpen s p k)

/-- The overshoot of earlier copies has been worked off at those ports (R266, log 45). -/
def pagePaid (s : State) (k a : Nat) : Bool := (portsOf s a).all (fun p => (curbOf s p k).carried = 0)

/-- Bytes copied from one local address to another; the ports of both note it (R284, R286). -/
def copyBytes (src dst n : Nat) (s : State) : State := portTouch dst n (portTouch src n (writeBytes dst (readBytes s src n) s))

/-- PAGE_IN (R294): Etxia takes up the miss on an absent page and copies under class 4; one page-in serves every miss. It waits
while the class is spent, while the page still awaits its write-back (R295) and while the backing's channel takes no page read (R286). -/
def execPageIn (addr : BitVec 48) (s : State) : Out :=
  .next (let p := pageOf s addr.toNat
    match pageState s p with
    | .absent b =>
      if !fabricUp s || s.tiers.pagingIn.contains p || s.tiers.evicting.contains p || !pageOpen s 4 p || !pageOpen s 4 b ||
        !pageReadMay s b then s
      else pageReadStart b (chargePage 4 p (pageSize s p) (chargePage 4 b (pageSize s p)
        (modTiers (fun t => { t with pagingIn := t.pagingIn ++ [p] }) s)))
    | _ => s)

/-- PAGE_IN_COMPLETE (R294): the page is PRESENT with its backing bytes at boundary action 6, or PAGE_IN_REFUSED names the
page, the backing address and the failing sector. -/
def execPageInComplete (addr : BitVec 48) (failed : Option (BitVec 48)) (s : State) : Out :=
  .next (let p := pageOf s addr.toNat
    if !fabricUp s || !s.tiers.pagingIn.contains p then s else
    match pageState s p with
    | .absent b =>
      match failed with
      | some x => jobFault 0x0423 (item 6 p ++ item 6 b ++ item 6 x.toNat)
          (pageReadDrop b <| modTiers (fun t => { t with pagingIn := t.pagingIn.erase p }) s)
      | none =>
        if !mayAct s 6 || !pagePaid s 4 p || !pagePaid s 4 b then s
        else setAct 6 <| modTiers (fun t => { t with
            pages := sset .unmapped t.pages p (.present b), pagingIn := t.pagingIn.erase p
            pageIns32 := t.pageIns32 + 1, pageIns := acctAdd 1 t.pageIns })
          (copyBytes b p (pageSize s p) s)
    | _ => s)

/-- The placed object that holds a page. -/
def objectAt (s : State) (p : Nat) : Option Placed :=
  s.tiers.placed.find? (fun o => o.base ≤ p && p < o.base + o.entry.bytes)

/-- PAGE_EVICT (R295): at boundary action 6 a page of an EVICT object becomes ABSENT. -/
def execPageEvict (addr : BitVec 48) (s : State) : Out :=
  .next (let p := pageOf s addr.toNat
    if !mayAct s 6 then s else
    match pageState s p, objectAt s p with
    | .present b, some o =>
      if o.entry.evict && o.entry.backing ≠ 0 && !o.entry.pin then
        setAct 6 (modTiers (fun t => { t with pages := sset .unmapped t.pages p (.absent b), evicting := t.evicting ++ [p] }) s)
      else s
    | _, _ => s)

/-- A request to a page that was admitted is still out. -/
def reqOpen (s : State) (p : Nat) (q : Req) : Bool := pageOf s q.addr = p && (q.stage = .admitted || q.stage = .served)

/-- No request to a page that was admitted is still out (R295): a stream's, a RESLOAD's, a groom LD. A Hitch reads and writes
within one command. -/
def pageQuiet (s : State) (p : Nat) : Bool :=
  !s.engines.any (fun x => x.2.ags.any (fun g => g.2.runs.any (fun r => r.reqs.any (reqOpen s p))) ||
    (match x.2.firing with | some y => y.reload.any (reqOpen s p) | none => false)) &&
  !s.cores.any (fun c => c.2.threads.any (fun t => match t.2.wait with | .mem _ a => pageOf s a = p | _ => false))

/-- A block of tier F that overlaps `n` bytes from `a` holds a page bound to the running job (R288). -/
def blockBound (s : State) (a n : Nat) : Bool :=
  let span := blockSpan s
  let lo := a / span * span
  let hi := (a + n + span - 1) / span * span
  s.tiers.placed.any (fun o => o.entry.tier = 2 && decide (o.base < hi && lo < o.base + o.entry.bytes))

/-- Etxia may write `n` bytes from `a` (R288): never into a tier F block of the running job. -/
def mayProgram (s : State) (a n : Nat) : Bool :=
  match regionOf s a with | .tierF _ => !blockBound s a n | _ => true

/-- EVICT_WRITE_BACK (R288, R295): once the page is quiet, a writable object's page is copied to its backing. -/
def execEvictWriteBack (addr : BitVec 48) (s : State) : Out :=
  .next (let p := pageOf s addr.toNat
    if !fabricUp s || !s.tiers.evicting.contains p || !pageQuiet s p then s else
    match pageState s p, objectAt s p with
    | .absent b, some o =>
      if o.entry.writable && !(pageOpen s 4 p && pageOpen s 4 b && mayProgram s b (pageSize s p)) then s else
      let s := modTiers (fun t => { t with evicting := t.evicting.erase p }) s
      if o.entry.writable then chargePage 4 b (pageSize s p) (chargePage 4 p (pageSize s p) (copyBytes p b (pageSize s p) s)) else s
    | _, _ => modTiers (fun t => { t with evicting := t.evicting.erase p }) s)

/-! ## Ports -/

/-- PORT_RETRAIN (R277, R312): a port in STATE 2 starts to retrain, in STATE 3, and is counted; one in STATE 3 ends, and fails if it does
not regain training within 3 attempts. -/
def execPortRetrain (p : PortId) (attempts : Nat) (regained : Bool) (s : State) : Out :=
  .next (if (portOf s p.val).state = 2 then modPort p.val (fun k => { k with state := 3, retrains := statInc 32 k.retrains }) s
    else if (portOf s p.val).state ≠ 3 then s
    else if regained && attempts ≤ 3 then modPort p.val (fun k => { k with state := 2 }) s
    else
      let s := modPort p.val (fun k => { k with state := 4 }) s
      if p.val < 8 then chipStop 0x0425 (item 1 p.val) true s else jobFault 0x0424 (item 1 p.val) s)

/-- The zero-fill of restored ports goes on under class 4 (R264, R266, R278). -/
def portsZero (s : State) : State :=
  forEach (List.range 40) (fun p t =>
    let n := (portOf t p).zeroLeft
    if n = 0 then t else
    let m := moveUnits [(p, n)] t
    modPort p (fun k => { k with zeroLeft := sget 0 m.1 p }) m.2) s

/-- A write of PORT_RESTORE (R278): a failed port 8 to 39 trains; anything else is refused with SDO abort 0x0609_0030. -/
def portRestore (p : Nat) (s : State) : State :=
  if 8 ≤ p && p ≤ 39 && (portOf s p).state = 4 then
    modMgmt (fun m => { m with sdoAbort := 0 }) (modPort p (fun k => { k with state := 1, restoring := true }) s)
  else modMgmt (fun m => { m with sdoAbort := 0x06090030 }) s

/-- PORT_RESTORE (R278). -/
def execPortRestore (p : Nat) (s : State) : Out := .next (portRestore p s)

end Sys2Proof.Machine
end

