-- ==== Sys2Proof/Machine/Farrier.lean ====
section
/-!
DEFINITION. Alias writes at a bank (R321, R322) and the Farrier: region tests (R324 to R330) and the patrol scrub (R331).
-/
namespace Sys2Proof.Machine

/-! ## Alias writes -/

/-- The plain scratchpad word behind an alias address, with the sense of the alias (R320). -/
def aliasTarget (s : State) (a : Nat) : Option (Bool × Nat × Nat) :=
  match regionOf s a with
  | .setAlias c o => some (true, c, o)
  | .clrAlias c o => some (false, c, o)
  | _ => none

/-- An alias write of an ST or STORE whose bank read failed: nothing is written; the writer's refusal follows (R322). -/
def aliasRefuse (w : AtomicWriter) (c o : Nat) (s : State) : State :=
  match w with
  | .groom gc gt => haltCore gc.val gt.val 0 0x0505 ((threadOf s gc.val gt.val).pc - 8) 0 0
      (jobFault 0x0505 (spadWord c o) (modThread gc.val gt.val (fun h => { h with wait := .none }) s))
  | .stream e ag =>
    match runIndex s e.val ag.val true with
    | none => s
    | some i =>
      let r := runAt s e.val ag.val i
      let pc := runProg s e.val ag i + 16 * r.pcIdx
      let s := modAg e.val ag.val (fun g => { g with runs := g.runs.eraseIdx i }) s
      haltCore (coreOfEng e.val) (engOwner s e.val r.step) (e.val % 8) 0x0505 pc 0 0 (jobFault 0x0505 (spadWord c o) s)

/-- The alias write that a writer has on its way to a bank: an ST's, the next word of a STORE. BAR2_WRITE carries its own outcome. -/
def aliasNext (s : State) (w : AtomicWriter) : Option (Nat × Word) :=
  match w with
  | .groom gc gt => (match (threadOf s gc.val gt.val).wait with | .bank a v => some (a, v) | _ => none)
  | .stream e ag => (runIndex s e.val ag.val true).bind (fun i => (runAt s e.val ag.val i).toBank.head?)

/-- That write has reached its bank. -/
def aliasDone (w : AtomicWriter) (s : State) : State :=
  match w with
  | .groom gc gt => modThread gc.val gt.val (fun h => { h with wait := .none }) s
  | .stream e ag =>
    (match runIndex s e.val ag.val true with
     | none => s
     | some i => agCommit e.val ag.val 8 (modRunAt e.val ag.val i (fun r => { r with toBank := r.toBank.drop 1 }) s))

/-- ALIAS_WRITE (R321, R322): an alias write reaches its bank, which reads the word and writes the result. -/
def execAliasWrite (w : AtomicWriter) (x : UnitErr) (s : State) : Out :=
  .next (if !fabricUp s then s else
    match aliasNext s w with
    | none => s
    | some (a, v) => match aliasTarget s a with
      | none => s
      | some (set, c, o) =>
        let bad := eccBad (unitEcc s (spadAddr c o) x)
        let s := unitFound x (spadAddr c o) s
        if bad then aliasRefuse w c o s else atomicWrite set (spadAddr c o) v (aliasDone w s))

/-! ## Region tests -/

/-- Regions of a core's scratchpad (R316). -/
def coreRegions (c : Nat) : Nat := if isCourser c then 1536 else 768

/-- A failing row of bank `b` takes a spare, while the bank has one of its 8 free and the unit one of its 16 fuse entries
(R328, R329). -/
def spareFree (l : List (Nat × Nat)) (b : Nat) : Bool :=
  (l.filter (fun x => x.1 = b)).length < 8 && l.length < 16

/-- The walk moves to the next region; after the last a pass is complete (R324). -/
def farNext (n : Nat) (region : Nat) (passes : BitVec 32) : Nat × BitVec 32 :=
  if region + 1 < n then (region + 1, passes) else (0, passes + 1)

/-- A pass completed adds to SPAD_PASSES (R334). -/
def farPass (n region : Nat) (s : State) : State :=
  if region + 1 < n then s else modSync (fun y => { y with passes := acctAdd 1 y.passes }) s

/-- A core's region test (R325 to R329). -/
def coreTest (c : Nat) (o : RegionOutcome) (s : State) : State :=
  let f := (coreOf s c).far
  let at_ := fun (b : Nat) => spadAddr c (f.region * 4096 + b % 32 * 128)
  let next := fun (s : State) => farPass (coreRegions c) f.region (modCore c (fun k => { k with far :=
    { k.far with region := (farNext (coreRegions c) f.region f.passes).1, passes := (farNext (coreRegions c) f.region f.passes).2 } }) s)
  match o with
  | .pass => next s
  | .saveFail b =>
    next (event 0x0581 (item 2 c ++ item 1 (b % 32) ++ item 6 (at_ b))
      (modCore c (fun k => { k with far := { k.far with bank := b % 32, addr := at_ b } }) (noteEcc .code (at_ b) s)))
  | .mismatch bs =>
    let s := bs.foldl (fun t b =>
      let g := (coreOf t c).far
      if g.retire then t
      else if spareFree g.spares (b % 32) then
        modCore c (fun k => { k with far := { k.far with bank := b % 32, addr := at_ b, spares := k.far.spares ++ [(b % 32, f.region)] } }) t
      else modCore c (fun k => { k with far := { k.far with bank := b % 32, addr := at_ b, retire := true, hold := true } }) t) s
    if (coreOf s c).far.retire then s else next s

/-- An Ostler SRAM's region test (R323, R324, R327, R328, R330). While the core is offline it counts the regions passed in a row
(R617). -/
def ostlerTest (n : Nat) (o : RegionOutcome) (s : State) : State :=
  let f := ostlerOf s n
  let next := fun (s : State) => farPass 256 f.region (modOstler n (fun k => { k with
    region := (farNext 256 f.region f.passes).1, passes := (farNext 256 f.region f.passes).2
    regions := if k.online then 0 else match o with | .saveFail _ => 0 | _ => k.regions + 1 }) s)
  match o with
  | .pass => next s
  | .saveFail b =>
    let s := noteSram .code n (f.region * 4096 + b % 32 * 128) s
    next (event 0x0581 (item 2 (0x8000 + n) ++ item 1 (b % 32) ++ item 6 (f.region * 4096 + b % 32 * 128)) s)
  | .mismatch bs =>
    let s := bs.foldl (fun t b =>
      let g := ostlerOf t n
      if g.retire then t
      else if spareFree g.spares (b % 32) then modOstler n (fun k => { k with spares := k.spares ++ [(b % 32, f.region)] }) t
      else modOstler n (fun k => { k with retire := true }) t) s
    if (ostlerOf s n).retire then s else next s

/-- The Farrier's region tests are enabled and not paused (R323, R458). -/
def farrierOn (s : State) : Bool := s.sync.farEnNow % 2 = 1 && !s.sync.farPaused && fabricUp s && 5 ≤ s.boot.stage

/-- SPAD_INTERVAL strides have passed since a unit's last test (R324, R334). -/
def testDue (s : State) (last : Nat) : Bool := last + s.sync.interval ≤ s.stride.count

/-- The words that SAVE found and corrected in the region under test of a core (R325, R301). -/
def coreCorrected (c : Nat) (l : List (Fin 256)) (s : State) : State :=
  forEach l (fun w => noteEcc .corrected (spadAddr c ((coreOf s c).far.region * 4096 + 16 * w.val))) s

/-- The words that SAVE found and corrected in the region under test of an Ostler SRAM. -/
def ostlerCorrected (n : Nat) (l : List (Fin 256)) (s : State) : State :=
  forEach l (fun w => noteSram .corrected n ((ostlerOf s n).region * 4096 + 16 * w.val)) s

/-- A unit's test may run: a core's and an online Ostler core's at their interval while the Farrier is on; an offline Ostler core's at
any time (R324, R617, log 86). None follows for a unit that awaits retirement (R329). -/
def testMay (u : FarrierUnit) (s : State) : Bool :=
  match u with
  | .core c => farrierOn s && spadBytes s c.val ≠ 0 && !(coreOf s c.val).far.retire && testDue s (coreOf s c.val).far.tested
  | .ostler n =>
    let k := ostlerOf s n.val
    !k.retire && (if k.online then farrierOn s && testDue s k.tested else fabricUp s && 5 ≤ s.boot.stage)

/-- FARRIER_REGION_TEST (R324 to R330): `corrected` are the words, 16 bytes each, that SAVE corrected. -/
def execFarrierRegionTest (u : FarrierUnit) (corrected : List (Fin 256)) (o : RegionOutcome) (s : State) : Out :=
  .next (if !testMay u s then s else
    match u with
    | .core c => coreTest c.val o (coreCorrected c.val corrected
        (modCore c.val (fun k => { k with far := { k.far with tested := s.stride.count } }) s))
    | .ostler n => ostlerTest n.val o (ostlerCorrected n.val corrected
        (modOstler n.val (fun k => { k with tested := s.stride.count }) s)))

/-! ## Patrol scrub -/

/-- Requests of 256 bytes in one walk of a port of tier H or L (R279, R280, R331). -/
def scrubCount (s : State) (p : Nat) : Nat := if p < 8 then 0x003000000000 / 4 / 256 else lHalf s / 8 / 256

/-- Address of request `i` of a port's walk, in ascending local address order (R331). -/
def scrubAddr (p i : Nat) : Nat :=
  if p < 8 then tierBase 0 (p / 4) + i / 16 * 16384 + p % 4 * 4096 + i % 16 * 256
  else tierBase 1 ((p - 8) / 8) + i / 15 * 30720 + p % 8 * 3840 + i % 15 * 256

/-- Passes a tier's ports have all completed. -/
def scrubPasses (at_ : Sparse Nat) (ports : List Nat) : Nat :=
  match ports.map (fun p => sget 0 at_ (64 + p)) with
  | [] => 0
  | n :: l => l.foldl Nat.min n

/-- A port's scrub position moves on (R331): key p its next request, key 64 + p its completed walks. -/
def scrubMove (p : Nat) (s : State) : State :=
  let i := sget 0 s.sync.scrubAt p + 1
  modSync (fun y =>
    let at_ := if i < scrubCount s p then sset 0 y.scrubAt p i else smod 0 (sset 0 y.scrubAt p 0) (64 + p) (· + 1)
    { y with scrubAt := at_
             scrubH := BitVec.ofNat 32 (scrubPasses at_ (List.range 8))
             scrubL := BitVec.ofNat 32 (scrubPasses at_ ((List.range 16).map (8 + ·))) }) s

/-- What the scrub does with one sector (R331): it counts what it finds, and records one that cannot be corrected. -/
def scrubSector (p : Nat) (x : UnitErr) (a : Nat) (s : State) : State :=
  let bad := eccBad (unitEcc s a x)
  let s := unitFound x a s
  if bad then
    event 0x0580 (item 1 p ++ item 6 a) (modSync (fun y => { y with scrubUncorr := statInc 32 y.scrubUncorr }) s)
  else s

/-- PATROL_SCRUB (R302, R331): the next request of the port's scrub, four sectors with their outcomes. A corrected sector is written
back as it stands: no write falls within a command, so none prevails over it. -/
def execPatrolScrub (p : PortId) (errs : List UnitErr) (s : State) : Out :=
  .next (
    let a := scrubAddr p.val (sget 0 s.sync.scrubAt p.val)
    let on := if p.val < 8 then s.sync.farEnNow / 2 % 2 = 1 else p.val < 24 && s.sync.farEnNow / 4 % 2 = 1
    if !on || s.sync.farPaused || !fabricUp s || !curbOpen s p.val 6 || !readsMay s a 256 then s
    else (errs.take 4).zipIdx.foldl (fun t x => scrubSector p.val x.1 (a + 64 * x.2) t)
      (portTouch a 256 (scrubMove p.val (curbCharge p.val 6 4 s))))

/-! ## Ostler cores (R43, R330, R615) -/

/-- Ostler cores 0 to 3 are on die 0, 4 to 7 on die 1 (R41). -/
def dieOstlers (n : Nat) : List Nat := (List.range 4).map (n / 4 * 4 + ·)

/-- Ostler core `n` writes the dump that is under way (R609). -/
def dumpWriter (n : Nat) (k : Dumps) : Bool :=
  k.writing && !k.tumblerOwns &&
  (match (if k.onF then sget none k.dumpF (dumpSlot k) else k.dumpL) with | some d => d.writer = n | none => false)

/-- An Ostler core goes offline (R43, R615): the last of a die is a chip fault, and a dump that it writes is the Tumbler's from then on
(R613). Records number Ostler core `n` 0x8000 + n (log 75). -/
def ostlerLeave (n : Nat) (s : State) : State :=
  let s := modOstler n (fun k => { k with online := false, svc := k.svc + 1, downFor := 0, regions := 0 }) s
  let s := modDumps (fun k => { k with tumblerOwns := k.tumblerOwns || dumpWriter n k }) s
  let s := measChange (event 0x0C81 (item 2 (0x8000 + n) ++ item 1 (ostlerOf s n).svc.toNat) s)
  if (dieOstlers n).any (ostlerUp s) then s else chipStop 0x0C01 [] false s

/-- An Ostler core whose SRAM needs retirement goes offline at a boundary; the fuses record it at the next job end (R329, R330). -/
def ostlerRetire (n : Nat) (s : State) : State :=
  if (ostlerOf s n).online && (ostlerOf s n).retire then ostlerLeave n s else s

/-- Every Ostler core that awaits retirement. -/
def ostlersRetire (s : State) : State := forEach (List.range 8) ostlerRetire s

end Sys2Proof.Machine
end

