-- ==== Sys2Proof/Machine/Hitch.lean ====
section
/-!
DEFINITION. Expert routing and the Hitch (R350 to R381): a launch with its ranking, capacity and dispatch, the expert side,
returns, combining, credits, timeouts, cancelled rows and table errors.
-/
namespace Sys2Proof.Machine

/-! ## Descriptors and areas -/

/-- The expert side of HLD `i` of Hitch `h`. -/
def expOf (s : State) (h i : Nat) : ExpSide := sget {} (hitchOf s h).exp i
/-- The state with HLD_STATE `i` of Hitch `h` changed by `f`. -/
def modHst (h i : Nat) (f : HldState → HldState) (s : State) : State :=
  modHitch h (fun k => { k with st := smod {} k.st i f }) s
/-- The state with the expert side of HLD `i` of Hitch `h` changed by `f`. -/
def modExp (h i : Nat) (f : ExpSide → ExpSide) (s : State) : State :=
  modHitch h (fun k => { k with exp := smod {} k.exp i f }) s

/-- The HLD is one of the running configuration (R350). -/
def hldLive (s : State) (d : Hld) : Bool := d.valid && d.epoch == s.job.epoch && jobLoaded s

/-- Experts a row's return sums: 1 or 2 (R350). -/
def topK (d : Hld) : Nat := if d.top2 then 2 else 1

/-- The map entry of expert `x` of an HLD (R351). -/
def mapOf (s : State) (h : Nat) (d : Hld) (x : Nat) : MapEntry := sget {} (hitchOf s h).map (d.mapIdx + x)

/-- The Hitch that serves an expert (R352). -/
def peerHitch (h core : Nat) : Nat := 2 * (if core < 144 then 0 else 1) + h % 2

/-- Bytes of a dispatch row, of a return row, of an output row, of a route record. -/
def rowBytes (d : Hld) : Nat := d.rowUnits * 64
/-- Bytes of a return row (R350). -/
def retBytes (d : Hld) : Nat := d.retUnits * 64
/-- Elements of a return row (R350). -/
def retElems (d : Hld) : Nat := retBytes d / (if d.ret16 then 2 else 1)
/-- Bytes of an output element (R350). -/
def outElem (d : Hld) : Nat := if d.outFmt = 0 then 2 else 4
/-- Bytes of an output row. -/
def outBytes (d : Hld) : Nat := retElems d * outElem d
/-- Bytes of a route record (R354). -/
def routeBytes (d : Hld) : Nat := 64 * ceilDiv d.experts 16

/-- Slots of an expert's input area (R355). -/
def areaSlots (d : Hld) : Nat := d.nsrc * d.cap
/-- Bytes of the row mask of an input area (R355). -/
def areaMask (d : Hld) : Nat := 64 * ceilDiv (areaSlots d) 512
/-- Bytes of the slot tags of an input area (R355). -/
def areaTags (d : Hld) : Nat := 64 * ceilDiv (areaSlots d) 32
/-- Bytes of an input area (R355). -/
def inArea (d : Hld) : Nat := areaMask d + areaTags d + areaSlots d * rowBytes d
/-- Bytes of an output area (R356). -/
def outArea (d : Hld) : Nat := areaTags d + areaSlots d * retBytes d

/-- Bytes `a` to `a + n − 1` lie in one backed part of tier H, tier L or a scratchpad (R353). -/
def areaOk (s : State) (a n : Nat) : Bool :=
  n = 0 || match regionOf s a, regionOf s (a + n - 1) with
  | .tierH x, .tierH y => x = y
  | .tierL x, .tierL y => x = y
  | .spad x _, .spad y _ => x = y
  | _, _ => false

/-- The areas of a launch of `m` rows with their bytes, in the order of the Areas part: 0 ROW_HDR, 1 ROUTE_BASE, 2 ROWS_BASE,
3 GATHER_BASE, 4 OUT_BASE. -/
def launchAreas (d : Hld) (m : Nat) : List (Nat × Nat) :=
  [(d.rowHdr, 64 + 2 * m), (d.routeBase, m * routeBytes d), (d.rowsBase, m * rowBytes d),
   (d.gatherBase, m * topK d * retBytes d), (d.outBase, 8192 + m * outBytes d)]

/-- The first area of a launch that passes its backed range (R359). -/
def badArea (s : State) (d : Hld) (m : Nat) : Option Nat := (launchAreas d m).findIdx? (fun x => !areaOk s x.1 x.2)

/-! ## What a Hitch's accesses meet (R266, R292, R377) -/

/-- The placement pages that `n` bytes from `a` touch in a tier. -/
def pagesOf (s : State) (a n : Nat) : List Nat :=
  match tierOf (regionOf s a) with
  | none => []
  | some (t, _) => if n = 0 then [] else
      (List.range ((a + n - 1 - pageOf s a) / pageBytes t + 1)).map (fun i => pageOf s a + i * pageBytes t)

/-- The first page of the areas of an access that stops it, with the address: each area is (write, address, bytes). -/
def hitchStop (s : State) (l : List (Bool × Nat × Nat)) : Option (Nat × Access) :=
  l.findSome? (fun x => (pagesOf s x.2.1 x.2.2).findSome? (fun p => match accessAt s x.1 p with
    | .proceed => none
    | y => some (Nat.max x.2.1 p, y)))

/-- Every page of the areas consulted in the map cache of the Hitch's die (R292). -/
def hitchConsult (h : Nat) (l : List (Bool × Nat × Nat)) (s : State) : State :=
  forEach l (fun x t => forEach (pagesOf t x.2.1 x.2.2) (mapConsult (h / 2)) t) s

/-- A Hitch meets an absent page: counted and recorded once, the stage waits for it (R292, log 87). -/
def hitchMiss (h i page a : Nat) (s : State) : State :=
  if (hstOf s h i).miss = some page then s else
  event 0x0480 (item 1 h ++ item 1 i ++ item 6 a)
    (modMgmt (fun m => { m with pageMisses := statInc 32 m.pageMisses }) (modHst h i (fun t => { t with miss := some page }) s))

/-- A stage of HLD `i` accesses the areas `l`: it waits for absent pages and for class 3; a page that is not the job's is TIER_HOLE
(R292, R314), after which `hole` follows; else `go`. -/
def hitchReach (h i : Nat) (l : List (Bool × Nat × Nat)) (hole go : State → State) (s : State) : State :=
  let s := hitchConsult h l s
  match hitchStop s l with
  | some (a, .absent p) => hitchMiss h i p a s
  | some (a, .refused m) => hole (jobFault 0x0420 (item 6 a ++ item 1 m) s)
  | _ => if l.all (fun x => transferOpen s 3 x.2.1 x.2.2 && readsMay s x.2.1 x.2.2) then go (modHst h i (fun t => { t with miss := none }) s) else s

/-- A Hitch access to a tier goes through the Curb as class 3, its bytes counted against the step of the launch (R90, R377). -/
def hitchBytes (n0 a n : Nat) (s : State) : State := transferCount n0 3 a n (portTouch a n (transferCharge 3 a n s))

/-- A Hitch adds 1 to a COUNTER (R360, R371). -/
def hitchAdd (n : Nat) (s : State) : State :=
  if (objOf s n).type = 1 then counterPut n ((objOf s n).value + 1) false s else s

/-! ## Select and capacity -/

/-- An expert placed among others by score, highest first, lower number first between equals (R359). -/
def rankInsert (x : Nat × Int) : List (Nat × Int) → List (Nat × Int)
  | [] => [x]
  | y :: l => if y.2 < x.2 then x :: y :: l else y :: rankInsert x l

/-- Experts ranked from their scores in ascending number (R359). -/
def rankExperts (scores : List Int) : List Nat :=
  ((scores.zipIdx.foldl (fun l x => rankInsert (x.2, x.1) l) []).map (fun p => p.1))

/-- Counts of accepted rows per expert, with the choices lost and spilled so far (R364). -/
structure Cap where
  count : Sparse Nat := []
  lost  : Nat := 0
  spilt : Nat := 0
  deriving DecidableEq, Repr

/-- `accept(i, e)` of R364. -/
def capAccept (e : Nat) (x : Cap × List (Nat × Nat)) : Cap × List (Nat × Nat) :=
  ({ x.1 with count := sset 0 x.1.count e (sget 0 x.1.count e + 1) }, x.2 ++ [(e, sget 0 x.1.count e)])

/-- One choice of one row (R364): the expert itself, else under NEXT the first spill rank that has room. -/
def capChoice (d : Hld) (ranks : List Nat) (e : Nat) (x : Cap × List (Nat × Nat)) : Cap × List (Nat × Nat) :=
  if sget 0 x.1.count e < d.cap then capAccept e x
  else
    let spill := if d.next then ((ranks.drop (topK d)).take d.spill).find? (fun q =>
      !x.2.any (fun t => t.1 = q) && sget 0 x.1.count q < d.cap) else none
    match spill with
    | some q => let y := capAccept q x; ({ y.1 with spilt := y.1.spilt + 1 }, y.2)
    | none => ({ x.1 with lost := x.1.lost + 1 }, x.2)

/-- The choices of one row in rank order: the counts after it and its accepted experts with their slots (R364). -/
def capRow (d : Hld) (ranks : List Nat) (c : Cap) : Cap × List (Nat × Nat) :=
  (ranks.take (topK d)).foldl (fun x e => capChoice d ranks e x) (c, [])

/-- A contribution placed in ascending expert number. -/
def contribInsert (x : Contrib) : List Contrib → List Contrib
  | [] => [x]
  | y :: l => if x.expert < y.expert then x :: y :: l else y :: contribInsert x l

/-! ## Messages and credits -/

/-- Units of 64 bytes of a message: one for its record or header, then its row (R367, log 25). -/
def msgUnits (m : HitchMsg) : Nat :=
  match m with
  | .dispatch _ _ _ row => 1 + row.length / 64
  | .fin _ => 1
  | .ret _ _ _ row => 1 + row.length / 64

/-- Segments of a message: 512 bytes each at most (R482). -/
def msgSegments (m : HitchMsg) : Nat := ceilDiv (msgUnits m) 8

/-- The header of a message. -/
def msgHdr : HitchMsg → HitchHdr
  | .dispatch h _ _ _ => h
  | .fin h => h
  | .ret h _ _ _ => h

/-- The 64 bytes of a send record or return header (R366, R368); their places are the model's (log 25). -/
def recordBytes (h : HitchHdr) (tag : BitVec 16) (l : List (Nat × Nat)) : List Byte :=
  padTo 64 (bytesLE 1 h.batch.toNat ++ bytesLE 1 h.epoch.toNat ++ bytesLE 2 h.src ++ bytesLE 2 h.token ++ bytesLE 2 tag.toNat ++
    bytesLE 1 h.hitch.val ++ bytesLE 1 l.length ++ l.flatMap (fun p => bytesLE 2 p.1 ++ bytesLE 2 p.2))

/-- A message as bytes (R482): its record or header, then its row. -/
def msgBytes : HitchMsg → List Byte
  | .dispatch h tag slots row => recordBytes h tag slots ++ row
  | .fin h => recordBytes h 0 []
  | .ret h x tag row => recordBytes h tag [(x, 0)] ++ row

/-- A message from its bytes, with what the INFO of its packets says (R482). -/
def msgDecode (chip : BitVec 16) (info : Word) (b : List Byte) : HitchMsg :=
  let f := fun (at_ n : Nat) => numLE ((b.drop at_).take n)
  let h : HitchHdr := { batch := BitVec.ofNat 8 (f 0 1), epoch := BitVec.ofNat 3 (f 1 1), src := f 2 2, token := f 4 2, chip := chip
                        hitch := ⟨f 8 1 % 4, Nat.mod_lt _ (by decide)⟩, hld := ⟨bitsOf info 7 2 % 64, Nat.mod_lt _ (by decide)⟩ }
  let tag := BitVec.ofNat 16 (f 6 2)
  if bitOf info 37 then .fin h
  else if bitOf info 36 then .ret h (bitsOf info 23 16) tag (b.drop 64)
  else .dispatch h tag ((List.range (Nat.min 2 (f 9 1))).map (fun i => (f (10 + 4 * i) 2, f (12 + 4 * i) 2))) (b.drop 64)

/-- The HITCH packet of segment `i` of a message (R482). -/
def hitchPacket (s : State) (chip peer : Nat) (m : HitchMsg) (i : Nat) : Packet :=
  let h := msgHdr m
  let x := match m with | .ret _ e _ _ => e | _ => 0
  { dstChip := BitVec.ofNat 16 chip, srcChip := BitVec.ofNat 16 (ownChip s), type := 5, epoch := h.epoch
    dstDie := peer / 2, body := Nat.min 32 (4 * msgUnits m - 32 * i), data := bodyWords (((msgBytes m).drop (512 * i)).take 512)
    info := atBit 0 peer ||| atBit 2 h.hld.val ||| atBit 8 h.batch.toNat ||| atBit 16 x ||| atBit 24 h.token |||
      flagAt 36 (match m with | .ret _ _ _ _ => true | _ => false) |||
      flagAt 37 (match m with | .fin _ => true | _ => false) ||| atBit 38 i ||| flagAt 45 (i + 1 = msgSegments m) }

/-- What keeps its order with a message (R359, R366): every message to its chip, and the rows and end markers of its launch. -/
def inOrder (a b : HitchOut) : Bool :=
  a.chip = b.chip || match a.msg, b.msg with
    | .ret _ _ _ _, _ | _, .ret _ _ _ _ => false
    | x, y => (msgHdr x).hld = (msgHdr y).hld

/-- Messages for which their peer's grant has room leave in order: to one chip as they were sent, and those of a launch in ascending token
index, its end markers last (R359, R366, R367). -/
def hitchFlush (h : Nat) (s : State) : State :=
  let l := (hitchOf s h).outbox
  let x := l.foldl (fun (x : State × List HitchOut) m =>
    let key := m.chip * 4 + m.peer
    let u := msgUnits m.msg
    if x.2.any (inOrder m) || (hitchOf x.1 h).grant < sget 0 (hitchOf x.1 h).owed key + u then
      (x.1, x.2 ++ [m])
    else
      let l := (List.range (msgSegments m.msg)).map (hitchPacket x.1 m.chip m.peer m.msg)
      (segmentsOut m.step l (.hitch m.chip m.peer m.msg) (lostJob (l.headD {}))
        (modHitch h (fun k => { k with owed := smod 0 k.owed key (· + u) }) x.1), x.2)) (s, [])
  modHitch h (fun k => { k with outbox := x.2 }) x.1

/-- A message for a peer on another chip joins the outbox (R367); its link bytes count against step `n0`. -/
def hitchSend (h n0 chip peer : Nat) (m : HitchMsg) (s : State) : State :=
  hitchFlush h (modHitch h (fun k => { k with outbox := k.outbox ++ [{ chip := chip, peer := peer, step := n0, msg := m }] }) s)

/-- The receiver of a message returns its credits (R367). -/
def hitchFree (h : Nat) (m : HitchMsg) (s : State) : State :=
  let d := msgHdr m
  if d.chip.toNat = ownChip s then s
  else
    let p : Packet := { dstChip := d.chip, srcChip := BitVec.ofNat 16 (ownChip s), type := 6, epoch := s.job.epoch
                        dstDie := d.hitch.val / 2, info := atBit 0 h ||| atBit 16 (msgUnits m) }
    packetOut (jobStride s) p (.hitchCredits d.chip.toNat d.hitch.val h (msgUnits m)) (lostJob p) s

/-- A stale message is discarded and counted (R368). -/
def hitchStale (h : Nat) (m : HitchMsg) (s : State) : State :=
  hitchFree h m (modHitch h (fun k => { k with staleRet := statInc 32 k.staleRet }) s)

/-! ## Combine and close -/

/-- Element `c` of the return at gather index `g` (R357, R350). -/
def retElem (s : State) (d : Hld) (g c : Nat) : Int :=
  let w := if d.ret16 then 2 else 1
  toSigned (8 * w) (readNum s (d.gatherBase + g * retBytes d + w * c) w)

/-- An output element with whether it clamped (R371). -/
def combineElem (s : State) (d : Hld) (i c : Nat) (cs : List Contrib) : Int × Bool :=
  let x := cs.zipIdx.foldl (fun (a : Int × Bool) p =>
    if p.1.ret.isNone then a
    else
      let t := rhe ((p.1.weight : Int) * retElem s d (i * topK d + p.2) c) d.cshift
      (satInt 48 (a.1 + t), a.2 || clamps 48 (a.1 + t))) (0, false)
  let b := 8 * outElem d
  (satInt b x.1, x.2 || clamps b x.1)

/-- Row `i` of a launch is excluded from the combine (R362). -/
def rowOut (r : HRow) : Bool := r.lame || r.cancelled

/-- The output row and tag of row `i` (R362, R371, R373). -/
def combineRow (d : Hld) (ep : BitVec 3) (i : Nat) (r : HRow) (s : State) : State :=
  let es := if rowOut r then [] else (List.range (retElems d)).map (fun c => combineElem s d i c r.accepted)
  let row := if rowOut r then List.replicate (outBytes d) 0#8
    else (es.map (fun x => bytesLE (outElem d) (ofSigned (8 * outElem d) x.1))).flatten
  let s := modMgmt (fun m => { m with combineClamp := statAdd 32 (es.filter (fun x => x.2)).length m.combineClamp }) s
  let s := writeBytes (d.outBase + 8192 + i * outBytes d) row s
  let lame := r.lame || tagLame r.tag || r.accepted.any (fun c => match c.ret with | some t => tagLame t | none => true)
  if r.cancelled then s else writeBytes (d.outBase + 2 * i) (bytesLE 2 (mkTag lame ep (tagRow r.tag)).toNat) s

/-- Returns of cancelled rows that a closing launch has not seen, by token and expert (R376). -/
def goneOf (t : HldState) : List (Nat × Nat) :=
  t.rows.zipIdx.flatMap (fun p => if p.1.cancelled then (p.1.accepted.filter (fun c => c.ret.isNone)).map (fun c => (p.2, c.expert)) else [])

/-- A launch closes. -/
def launchClose (t : HldState) : HldState :=
  { t with isOpen := false, waited := 0, rows := [], bad := [], late := false, miss := none
           gone := t.gone ++ (goneOf t).map (fun x => (batchOf t, x.1, x.2)) }

/-- A launch combines every row, adds 1 to DONE_OBJ and closes (R359, R371, R374). -/
def combineLaunch (h i : Nat) (s : State) : State :=
  let d := hldOf s h i
  let t := hstOf s h i
  let rows := t.rows.zipIdx.map (fun p => (if t.bad.contains (p.2, 2) then { p.1 with lame := true } else p.1, p.2))
  let s := hitchBytes t.step d.gatherBase (rows.length * topK d * retBytes d) s
  let s := forEach rows (fun p u => combineRow d s.job.epoch p.2 p.1 u) s
  let s := hitchBytes t.step d.outBase (2 * rows.length) (hitchBytes t.step (d.outBase + 8192) (rows.length * outBytes d) s)
  hitchAdd d.doneObj (modHst h i launchClose s)

/-- What the combine of `m` rows reads and writes. -/
def combineAreas (d : Hld) (m : Nat) : List (Bool × Nat × Nat) :=
  [(false, d.gatherBase, m * topK d * retBytes d), (true, d.outBase, 2 * m), (true, d.outBase + 8192, m * outBytes d)]

/-- A launch whose last pending return is in, or that timed out, combines once its areas can be reached (R292, R359). -/
def gatherDone (h i : Nat) (s : State) : State :=
  let t := hstOf s h i
  if t.isOpen && retPending t = 0 then
    hitchReach h i (combineAreas (hldOf s h i) t.rows.length) (modHst h i launchClose) (combineLaunch h i) s
  else s

/-- Combines that waited go on at the end of a boundary window: pages become PRESENT and budgets load in it (R259, R266). -/
def hitchResume (s : State) : State :=
  forEach (List.range 4) (fun h t => forEach ((hitchOf t h).st.map (fun p => p.1)) (gatherDone h) t) s

/-! ## The expert side -/

/-- A dispatched row is written into the slots its record names (R355, R360), on either die: the row comes once to a chip (R366), and each
slot is kept by the Hitch that serves its expert (R352). -/
def dispatchTake (h : Nat) (m : HitchHdr) (tag : BitVec 16) (slots : List (Nat × Nat)) (row : List Byte) (s : State) :
    State :=
  let d := hldOf s h m.hld.val
  forEach slots (fun p t =>
    let e := mapOf t h d p.1
    let slot := m.src * d.cap + p.2
    let base := spadAddr e.core e.inOff
    let t := writeBytes (base + areaMask d + 2 * slot) (bytesLE 2 tag.toNat) t
    let t := writeBytes (base + areaMask d + areaTags d + slot * rowBytes d) row t
    let t := writeByte (base + slot / 8) (readByte t (base + slot / 8) ||| (1#8 <<< (slot % 8))) t
    modExp (peerHitch h e.core) m.hld.val (fun x => { x with filled := x.filled ++
      [{ batch := m.batch.toNat, expert := p.1, slot := slot, chip := m.chip.toNat, hitch := m.hitch.val, token := m.token }] }) t) s

/-- Experts of an HLD that this Hitch serves on this chip (R352). -/
def localExperts (s : State) (h : Nat) (d : Hld) : List Nat :=
  (List.range d.experts).filter (fun x => (mapOf s h d x).chip = ownChip s && peerHitch h (mapOf s h d x).core = h)

/-- The row mask of an input area as the slots that rows filled leave it (R360). -/
def maskBytes (n : Nat) (slots : List Nat) : List Byte :=
  (List.range n).map (fun b => slots.foldl (fun (m : Byte) q => if q / 8 = b then m ||| (1#8 <<< (q % 8)) else m) 0#8)

/-- An end marker arrives for one Hitch (R360): the last of NSRC sources completes the input of the launch. -/
def markerAt (h : Nat) (m : HitchHdr) (s : State) : State :=
  let i := m.hld.val
  let d := hldOf s h i
  let s := modExp h i (fun x => { x with ends := if x.ends.contains (m.batch.toNat, m.src) then x.ends
                                                 else x.ends ++ [(m.batch.toNat, m.src)] }) s
  let x := expOf s h i
  if ((x.ends.filter (fun p => p.1 = m.batch.toNat)).length < d.nsrc) then s
  else
    let s := forEach (localExperts s h d) (fun e t =>
      let slots := (x.filled.filter (fun f => f.batch = m.batch.toNat && f.expert = e)).map (fun f => f.slot)
      hitchAdd (mapOf t h d e).inObj (writeBytes (spadAddr (mapOf t h d e).core (mapOf t h d e).inOff)
        (maskBytes (ceilDiv (areaSlots d) 8) slots) t)) s
    modExp h i (fun x => { x with ends := x.ends.filter (fun p => p.1 ≠ m.batch.toNat), ready := x.ready + 1 }) s

/-- An end marker comes once to a chip (R359): every Hitch of the pair that serves an expert of the HLD takes it. -/
def markerTake (h : Nat) (m : HitchHdr) (s : State) : State :=
  forEach (([h % 2, h % 2 + 2]).filter (fun p => p = h || !(localExperts s p (hldOf s p m.hld.val)).isEmpty)) (fun p => markerAt p m) s

/-! ## A launch -/

/-- The input tag of row `i` (R350 ROW_HDR). -/
def rowTag (s : State) (d : Hld) (i : Nat) : BitVec 16 := BitVec.ofNat 16 (readNum s (d.rowHdr + 64 + 2 * i) 2)

/-- WEIGHT and SCORE of expert `x` in row `i`'s route record (R354). -/
def routeOf (s : State) (d : Hld) (i x : Nat) : Nat × Int :=
  let v := readNum s (d.routeBase + i * routeBytes d + 4 * x) 4
  (v / 65536, toSigned 16 v)

/-- Select and Capacity over the rows (R362, R364): the rows with their accepted experts, and the counts. -/
def selectRows (s : State) (d : Hld) (m : Nat) (bad : List (Nat × Nat)) : Cap × List HRow :=
  (List.range m).foldl (fun (x : Cap × List HRow) i =>
    let tag := rowTag s d i
    if tagLame tag || bad.contains (i, 0) then (x.1, x.2 ++ [{ tag := tag, lame := true }])
    else
      let rs := (List.range d.experts).map (routeOf s d i)
      let y := capRow d (rankExperts (rs.map (fun r => r.2))) x.1
      let cs := y.2.foldl (fun l p => contribInsert
        { expert := p.1, slot := p.2, weight := Nat.min 32768 (rs.getD p.1 (0, 0)).1 } l) []
      (y.1, x.2 ++ [if bad.contains (i, 1) then { tag := tag, lame := true } else { tag := tag, accepted := cs }])) ({}, [])

/-- WEIGHTs above 32,768 among the route records read (R354). -/
def weightClamps (s : State) (d : Hld) (m : Nat) (bad : List (Nat × Nat)) : Nat :=
  (List.range m).foldl (fun n i => if bad.contains (i, 0) then n
    else n + ((List.range d.experts).filter (fun x => 32768 < (routeOf s d i x).1)).length) 0

/-- The Hitch that a message to a chip goes to: the one that serves the first of its experts there (log 87). -/
def chipPeer (s : State) (h : Nat) (d : Hld) (chip : Nat) (experts : List Nat) : Nat :=
  match experts.find? (fun x => (mapOf s h d x).chip = chip) with
  | some x => peerHitch h (mapOf s h d x).core
  | none => h

/-- The header of what launch `batch` of an HLD sends. -/
def launchHdr (s : State) (h k batch : Nat) (d : Hld) (token : Nat) : HitchHdr :=
  { batch := BitVec.ofNat 8 batch, epoch := s.job.epoch, src := d.srcIdx, chip := BitVec.ofNat 16 (ownChip s)
    hitch := ⟨h % 4, Nat.mod_lt _ (by decide)⟩, hld := ⟨k % 64, Nat.mod_lt _ (by decide)⟩, token := token }

/-- Row `i` goes once to every chip that holds one of its experts (R366). -/
def dispatchRow (h k batch : Nat) (d : Hld) (i : Nat) (r : HRow) (s : State) : State :=
  if r.accepted.isEmpty then s else
  let row := readBytes s (d.rowsBase + i * rowBytes d) (rowBytes d)
  let n0 := (hstOf s h k).step
  let hdr := launchHdr s h k batch d i
  let s := hitchBytes n0 (d.rowsBase + i * rowBytes d) (rowBytes d) s
  forEach ((r.accepted.map (fun c => (mapOf s h d c.expert).chip)).eraseDups) (fun c t =>
    let slots := (r.accepted.filter (fun q => (mapOf s h d q.expert).chip = c)).map (fun q => (q.expert, q.slot))
    let peer := chipPeer s h d c (slots.map (fun q => q.1))
    if c = ownChip t then dispatchTake peer hdr r.tag slots row t
    else hitchSend h n0 c peer (.dispatch hdr r.tag slots row) t) s

/-- An end marker to every chip that holds an expert of the HLD (R359). -/
def sendMarkers (h k batch : Nat) (d : Hld) (s : State) : State :=
  let hdr := launchHdr s h k batch d 0
  let n0 := (hstOf s h k).step
  forEach (((List.range d.experts).map (fun x => (mapOf s h d x).chip)).eraseDups) (fun c t =>
    let peer := chipPeer s h d c (List.range d.experts)
    if c = ownChip t then markerTake peer hdr t else hitchSend h n0 c peer (.fin hdr) t) s

/-- Launch `n` of HLD `k` on Hitch `h` is counted (R358). -/
def launchCount (h k : Nat) (s : State) : State :=
  let n0 := jobStride s
  modHitch h (fun x => { x with launches := x.launches + 1 })
    (modHst h k (fun x => { x with launch := x.launch + 1, isOpen := true, waited := 0, step := n0, late := false, miss := none
                                   gone := x.gone.filter (fun g => g.1 ≠ x.launch % 256) }) s)

/-- A launch of `m` rows is refused at an area (R359), and closes. -/
def launchRefuse (h k m area : Nat) (s : State) : State :=
  jobFault 0x0603 (item 1 h ++ item 1 k ++ item 4 m ++ item 1 area) (modHst h k launchClose (launchCount h k s))

/-- The stages of a launch of `m` rows up to Dispatch (R359, R362 to R366); one with nothing to wait for combines. -/
def launchRun (h k m : Nat) (s : State) : State :=
  let d := hldOf s h k
  let t := hstOf s h k
  let n := t.launch
  let s := launchCount h k s
  let n0 := (hstOf s h k).step
  let s := modMgmt (fun g => { g with weightClamp := statAdd 32 (weightClamps s d m t.bad) g.weightClamp }) s
  let x := selectRows s d m t.bad
  let s := hitchBytes n0 d.rowHdr (64 + 2 * m) (hitchBytes n0 d.routeBase (m * routeBytes d) s)
  let s := modHitch h (fun q => { q with dropped := statAdd 32 x.1.lost q.dropped, spills := statAdd 30 x.1.spilt q.spills }) s
  let s := modHst h k (fun q => { q with rows := x.2 }) s
  let s := forEach x.2.zipIdx (fun p u => dispatchRow h k (n % 256) d p.2 p.1 u) s
  gatherDone h k (sendMarkers h k (n % 256) d s)

/-- What the stages of a launch of `m` rows up to Dispatch read. -/
def launchReads (d : Hld) (m : Nat) : List (Bool × Nat × Nat) :=
  [(false, d.rowHdr, 64 + 2 * m), (false, d.routeBase, m * routeBytes d), (false, d.rowsBase, m * rowBytes d)]

/-- A page of a launch's areas is not the job's: the launch closes after TIER_HOLE (R292, log 87). -/
def launchHole (h k : Nat) (s : State) : State := modHst h k launchClose (launchCount h k s)

/-- A launch whose header can be read: M and the areas checked (R359), then its stages. -/
def launchSized (h k : Nat) (s : State) : State :=
  let d := hldOf s h k
  let m := readNum s d.rowHdr 4
  if m = 0 || 4096 < m then launchRefuse h k m 0 s
  else match badArea s d m with
  | some a => launchRefuse h k m a s
  | none => hitchReach h k (launchReads d m) (launchHole h k) (launchRun h k m) s

/-- Launch `n` of HLD `k` on Hitch `h` (R358, R359). -/
def launchOpen (h k : Nat) (s : State) : State :=
  let d := hldOf s h k
  if !areaOk s d.rowHdr 4 then launchRefuse h k (readNum s d.rowHdr 4) 0 s
  else hitchReach h k [(false, d.rowHdr, 4)] (launchHole h k) (launchSized h k) s

/-- LAUNCH_OPEN (R358, R359): READY_OBJ has reached (n + 1) × READY_ARR and the launch before has closed. -/
def execLaunchOpen (h : HitchId) (i : Fin 64) (s : State) : Out :=
  .next (
    let d := hldOf s h.val i.val
    let t := hstOf s h.val i.val
    if !fabricUp s || (hitchOf s h.val).halted || !hldLive s d || t.isOpen ||
        (objOf s d.readyObj).value < ((t.launch + 1) * d.readyArr : Nat) then s
    else launchOpen h.val i.val s)

/-- A Hitch message reaches this chip (R368, R461): `take` serves a message of the chip's epoch. -/
def hitchArrive (h : Nat) (m : HitchMsg) (ep : BitVec 3) (take : State → State) (s : State) : State :=
  if !fabricUp s then s
  else if s.job.chgOpen then modMgmt (fun g => { g with chgDiscards := statInc 32 g.chgDiscards }) s
  else if (hitchOf s h).halted then hitchFree h m s
  else if ep ≠ s.job.epoch then hitchStale h m s
  else take s

/-- A return of a row that was cancelled is discarded and counted (R369, R376). -/
def returnCancelled (h : Nat) (msg : HitchMsg) (s : State) : State :=
  hitchFree h msg (modHitch h (fun k => { k with cancelRet := statInc 30 k.cancelRet }) s)

/-- A return is accepted into the gather area (R357, R368); the last one lets the launch combine. -/
def returnLand (h i token c : Nat) (tag : BitVec 16) (row : List Byte) (s : State) : State :=
  let d := hldOf s h i
  let a := d.gatherBase + (token * topK d + c) * retBytes d
  let s := hitchBytes (hstOf s h i).step a (retBytes d) (writeBytes a (row.take (retBytes d)) s)
  modHst h i (fun t => { t with rows := t.rows.modify token (fun r => { r with
    accepted := r.accepted.modify c (fun k => { k with ret := some tag }) }) }) s

/-- A return for the open launch (R368, R369): stale, a duplicate, of a cancelled row, or accepted once its page can be reached, as
`reached` says it has been. -/
def returnOpen (reached : Bool) (h : Nat) (m : HitchHdr) (expert : Nat) (tag : BitVec 16) (row : List Byte) (s : State) : State :=
  let i := m.hld.val
  let d := hldOf s h i
  let t := hstOf s h i
  let msg := HitchMsg.ret m expert tag row
  match t.rows[m.token]? with
  | none => hitchStale h msg s
  | some r => match r.accepted.findIdx? (fun c => c.expert = expert) with
    | none => hitchStale h msg s
    | some c =>
      if ((r.accepted.getD c { expert := 0, slot := 0, weight := 0 }).ret).isSome then
        hitchFree h msg (jobFault 0x0604 (item 1 h ++ item 2 m.chip.toNat ++ item 1 0 ++ item 2 m.token ++ item 1 expert) s)
      else if r.cancelled then
        returnCancelled h msg (modHst h i (fun t => { t with rows := t.rows.modify m.token (fun r => { r with
          accepted := r.accepted.modify c (fun k => { k with ret := some tag }) }) }) s)
      else
        let land := fun s => gatherDone h i (hitchFree h msg (returnLand h i m.token c tag row s))
        if reached then land s
        else hitchReach h i [(true, d.gatherBase + (m.token * topK d + c) * retBytes d, retBytes d)] (hitchFree h msg) land s

/-- A return for a launch that has timed out and still combines (R373, R376): of a cancelled row, else stale. -/
def returnLate (h : Nat) (m : HitchHdr) (expert : Nat) (tag : BitVec 16) (row : List Byte) (s : State) : State :=
  let i := m.hld.val
  let msg := HitchMsg.ret m expert tag row
  let open_ := fun (c : Contrib) => c.expert = expert && c.ret.isNone
  match (hstOf s h i).rows[m.token]? with
  | some r => if r.cancelled && r.accepted.any open_ then
      returnCancelled h msg (modHst h i (fun t => { t with rows := t.rows.modify m.token (fun r => { r with
        accepted := r.accepted.map (fun c => if open_ c then { c with ret := some tag } else c) }) }) s)
    else hitchStale h msg s
  | none => hitchStale h msg s

/-- A return is sorted (R368, R369, R376): for the open launch, of a row cancelled in a closed one, or stale. -/
def returnTake (reached : Bool) (h : Nat) (m : HitchHdr) (expert : Nat) (tag : BitVec 16) (row : List Byte) (s : State) : State :=
  let i := m.hld.val
  let t := hstOf s h i
  let msg := HitchMsg.ret m expert tag row
  let key := (m.batch.toNat, m.token, expert)
  if t.isOpen && m.batch.toNat = batchOf t then (if t.late then returnLate h m expert tag row s else returnOpen reached h m expert tag row s)
  else if t.gone.contains key then returnCancelled h msg (modHst h i (fun t => { t with gone := t.gone.erase key }) s)
  else hitchStale h msg s

/-- A message of the exchange reaches a Hitch (R360, R367 to R369, R371): a dispatch or end marker is taken at once, a return sorted. -/
def hitchIn (h : Nat) (msg : HitchMsg) (s : State) : State :=
  hitchArrive h msg (msgHdr msg).epoch (fun t =>
    match msg with
    | .dispatch m tag slots row => hitchFree h msg (dispatchTake h m tag slots row t)
    | .fin m => hitchFree h msg (markerTake h m t)
    | .ret m x tag row => returnTake false h m x tag row t) s

/-- A message that arrives must wait: a return that the open launch would accept, whose page is absent or whose class is spent. -/
def hitchWaits (h : Nat) (msg : HitchMsg) (s : State) : Bool :=
  match msg with
  | .ret m x _ _ =>
    let t := hstOf s h m.hld.val
    let d := hldOf s h m.hld.val
    fabricUp s && !s.job.chgOpen && !(hitchOf s h).halted && m.epoch = s.job.epoch && t.isOpen && !t.late && m.batch.toNat = batchOf t &&
    match t.rows[m.token]? with
    | none => false
    | some r => match r.accepted.findIdx? (fun c => c.expert = x && c.ret.isNone) with
      | none => false
      | some c =>
        let l := [(true, d.gatherBase + (m.token * topK d + c) * retBytes d, retBytes d)]
        !r.cancelled && (match hitchStop s l with
          | some (_, .absent _) => true
          | some _ => false
          | none => !l.all (fun y => transferOpen s 3 y.2.1 y.2.2))
  | _ => false

/-- HITCH_DISPATCH_ARRIVE (R360, R367, R368). -/
def execHitchDispatchArrive (h : HitchId) (m : HitchHdr) (tag : BitVec 16) (slots : List (Nat × Nat)) (row : List Byte)
    (s : State) : Out := .next (hitchIn h.val (.dispatch m tag slots row) s)

/-- HITCH_END_MARKER (R360). -/
def execHitchEndMarker (h : HitchId) (m : HitchHdr) (s : State) : Out := .next (hitchIn h.val (.fin m) s)

/-- HITCH_RETURN_ARRIVE (R368, R369, R371). -/
def execHitchReturnArrive (h : HitchId) (m : HitchHdr) (expert : Nat) (tag : BitVec 16) (row : List Byte) (s : State) : Out :=
  .next (hitchIn h.val (.ret m expert tag row) s)

/-- The filled slots of an expert in launch `n`, in ascending order (R360). -/
def filledSlots (d : Hld) (x : ExpSide) (expert n : Nat) : List ExpSlot :=
  (List.range (areaSlots d)).filterMap (fun q => x.filled.find? (fun f => f.batch = n % 256 && f.expert = expert && f.slot = q))

/-- Where the returns for this chip's own launches are gathered. -/
def ownGather (s : State) (i expert : Nat) (l : List ExpSlot) : List (Bool × Nat × Nat) :=
  (l.filter (fun f => f.chip = ownChip s)).filterMap (fun f =>
    let d := hldOf s f.hitch i
    (((hstOf s f.hitch i).rows[f.token]?).bind (fun r => r.accepted.findIdx? (fun c => c.expert = expert))).map
      (fun c => (true, d.gatherBase + (f.token * topK d + c) * retBytes d, retBytes d)))

/-- The row of one filled slot goes back to the Hitch that sent it (R360); the gather areas of this chip's own launches have been reached.
-/
def returnSend (h : Nat) (i : Fin 64) (d : Hld) (e : MapEntry) (expert : Nat) (f : ExpSlot) (s : State) : State :=
  let base := spadAddr e.core e.outOff
  let tag := BitVec.ofNat 16 (readNum s (base + 2 * f.slot) 2)
  let row := readBytes s (base + areaTags d + f.slot * retBytes d) (retBytes d)
  let hdr : HitchHdr := { batch := BitVec.ofNat 8 f.batch, epoch := s.job.epoch, chip := BitVec.ofNat 16 (ownChip s)
                          hitch := ⟨h % 4, Nat.mod_lt _ (by decide)⟩, hld := i, token := f.token }
  if f.chip = ownChip s then returnTake true f.hitch hdr expert tag row s
  else hitchSend h (jobStride s) f.chip f.hitch (.ret hdr expert tag row) s

/-- The returns of an expert's launch go out (R360). -/
def returnsSend (h : Nat) (i : Fin 64) (d : Hld) (expert n : Nat) (s : State) : State :=
  let l := filledSlots d (expOf s h i.val) expert n
  let e := mapOf s h d expert
  forEach l (returnSend h i d e expert) (modExp h i.val (fun x => { x with
    filled := x.filled.filter (fun f => !(f.batch = n % 256 && f.expert = expert)), served := sset 0 x.served expert (n + 1) }) s)

/-- EXPERT_RETURN_SEND (R360): OUT_OBJ has reached the expert's launch count, so its filled slots go back in ascending order. -/
def execExpertReturnSend (h : HitchId) (i : Fin 64) (expert : Nat) (s : State) : Out :=
  .next (
    let d := hldOf s h.val i.val
    let x := expOf s h.val i.val
    let n := sget 0 x.served expert
    if !fabricUp s || (hitchOf s h.val).halted || !hldLive s d || !(localExperts s h.val d).contains expert ||
        x.ready ≤ n || (objOf s (mapOf s h.val d expert).outObj).value < ((n + 1 : Nat) : Int) then s
    else hitchReach h.val i.val (ownGather s i.val expert (filledSlots d x expert n)) (returnsSend h.val i d expert n)
      (returnsSend h.val i d expert n) s)

/-- Credits come back from a peer Hitch of a chip (R367): credits beyond those in use are a protocol error. -/
def hitchCredit (h chip peer credits : Nat) (s : State) : State :=
  if !fabricUp s then s
  else if s.job.chgOpen then modMgmt (fun g => { g with chgDiscards := statInc 32 g.chgDiscards }) s
  else if !jobLoaded s then s else
  let key := chip * 4 + peer
  if sget 0 (hitchOf s h).owed key < credits then
    jobFault 0x0604 (item 1 h ++ item 2 chip ++ item 1 1 ++ item 2 credits) (modHitch h (fun k => { k with owed := sset 0 k.owed key 0 }) s)
  else hitchFlush h (modHitch h (fun k => { k with owed := smod 0 k.owed key (· - credits) }) s)

/-- The peer Hitch of a chip whose credits an HCREDIT packet returns: INFO does not name it (R482), so the first that has as many out
(log 25). -/
def creditPeer (s : State) (h chip credits : Nat) : Nat :=
  ((List.range 4).find? (fun p => credits ≤ sget 0 (hitchOf s h).owed (chip * 4 + p))).getD 0

/-- HITCH_CREDIT_RETURN (R367). -/
def execHitchCreditReturn (h : HitchId) (chip : BitVec 16) (peer : HitchId) (credits : Nat) (s : State) : Out :=
  .next (hitchCredit h.val chip.toNat peer.val credits s)

/-- The contributions a timed-out launch misses, as row index and expert. -/
def missing (t : HldState) : List (Nat × HRow × Nat) :=
  t.rows.zipIdx.flatMap (fun p => if rowOut p.1 then [] else
    (p.1.accepted.filter (fun c => c.ret.isNone)).map (fun c => (p.2, p.1, c.expert)))

/-- A launch times out (R373): its batch is closed, the requests of rows that miss a return end, it combines what has arrived. -/
def launchLate (h i : Nat) (s : State) : State :=
  let t := hstOf s h i
  let s := forEach (missing t) (fun p u => rowsFault 0x0602 [tagRow p.2.1.tag]
    (requestFault 0x0602 (item 1 h ++ item 1 i ++ item 1 (batchOf t) ++ item 2 p.1 ++ item 1 p.2.2) u)) s
  gatherDone h i (modHst h i (fun t => { t with late := true }) s)

/-- LAUNCH_TIMEOUT (R373, R375): at boundary action 4, WAITED has reached RET_WAIT with returns pending; at a hard stop the launches
close instead. -/
def execLaunchTimeout (h : HitchId) (i : Fin 64) (s : State) : Out :=
  .next (
    let d := hldOf s h.val i.val
    let t := hstOf s h.val i.val
    if !mayAct s 4 then s
    else if stopDue s then setAct 4 s
    else if !t.isOpen || t.waited < d.retWait || retPending t = 0 then s
    else launchLate h.val i.val (setAct 4 s))

/-! ## Cancelled rows, hard stops, table errors -/

/-- Rows enter the cancelled-row set of every open launch that holds them (R376). -/
def hitchCancel (rows : List Nat) (s : State) : State :=
  forEach (List.range 4) (fun h t => forEach ((hitchOf t h).st.map (fun p => p.1)) (fun i u =>
    if (hstOf u h i).isOpen then
      gatherDone h i (modHst h i (fun k => { k with rows := k.rows.map (fun r =>
        if rows.contains (tagRow r.tag) then { r with cancelled := true } else r) }) u)
    else u) t) s

/-- Some launch is open (R375). -/
def launchesOpen (s : State) : Bool := s.hitches.any (fun h => h.2.st.any (fun t => t.2.isOpen))

/-- A read of an HLD or map entry failed (R379): `n` the entry, maps after the 64 HLDs. -/
def hitchTableLost (h n : Nat) (s : State) : State :=
  jobFault 0x0605 (item 1 h ++ item 2 n) (closeLaunches h (modHitch h (fun k => { k with halted := true }) s))

/-- Which read of row `r` an address is: its route record, its dispatch row, or its gather area. -/
def rowRead (d : Hld) (r a : Nat) : Option Nat :=
  if d.routeBase + r * routeBytes d ≤ a && a < d.routeBase + (r + 1) * routeBytes d then some 0
  else if d.rowsBase + r * rowBytes d ≤ a && a < d.rowsBase + (r + 1) * rowBytes d then some 1
  else if d.gatherBase + r * topK d * retBytes d ≤ a && a < d.gatherBase + (r + 1) * topK d * retBytes d then some 2
  else none

/-- A row's read failed (R362, R363, R379): the row will be lame and its request ends with the memory code. -/
def hitchRowLost (h i r a code : Nat) (detail : List Byte) (s : State) : State :=
  let d := hldOf s h i
  match rowRead d r a with
  | none => s
  | some k =>
    rowsFault code [tagRow (rowTag s d r)] (requestFault code (detail ++ item 2 (tagRow (rowTag s d r)))
      (modHst h i (fun t => { t with bad := if t.bad.contains (r, k) then t.bad else t.bad ++ [(r, k)] }) s))

end Sys2Proof.Machine
end

