-- ==== Sys2Proof/Machine/Rings.lean ====
section
/-!
DEFINITION. Host rings (R509 to R519): the snapshot, admission in ring order, completions and their posting, OUT data.
-/
namespace Sys2Proof.Machine

/-- The PCIe link is up and PERST_N is high (R519). -/
def pcieUp (s : State) : Bool := s.host.width ≠ 0 && s.pins.perstN

/-- Outside TIO mode with no failed stream, or the IDE stream is secure (R522, R523). -/
def ideOk (s : State) : Bool := (!s.tiers.tio && s.host.ide ≠ 3) || s.host.ide = 2

/-- A TLP of the host is heard: in TIO mode, one over the secure stream (R522). -/
def tlpHeard (s : State) (viaIde : Bool) : Bool := !s.tiers.tio || (s.host.ide = 2 && viaIde)

/-- The part may write host memory (R519, R522, R608). -/
def hostUp (s : State) : Bool := pcieUp s && ideOk s && fabricUp s

/-- Entries of a ring's SQ (R509). -/
def sqSize (r : Ring) : Nat := 2 ^ r.sqLog2
/-- Entries of a ring's CQ (R509). -/
def cqSize (r : Ring) : Nat := 2 ^ r.cqLog2

/-! ## Entries (R513) -/

/-- `w` bits of an SQ entry, from bit `lo` of byte `b` on. -/
def entryBits (e : BitVec 512) (b lo w : Nat) : Nat := (e.extractLsb' (8 * b + lo) w).toNat
/-- SPACE of an entry. -/
def entrySpace (e : BitVec 512) : Nat := entryBits e 0 0 8
/-- KIND or CMD of an entry. -/
def entryKind (e : BitVec 512) : Nat := entryBits e 1 0 4
/-- The tag of an entry, whatever its SPACE. -/
def entryTag (e : BitVec 512) : Nat := entryBits e 8 0 64

/-- A serving request as its entry gives it (R394). -/
def serveEntry (ring : RingId) (e : BitVec 512) : ServeReq :=
  let f := entryBits e
  { ring := ring, kvTier := f 1 4 1, client := f 2 0 12, session := f 4 0 32, reqTag := f 8 0 64, src := f 0x10 0 64
    count := f 0x18 0 24, maxNew := f 0x1C 0 32, parentsAt := f 0x20 0 64, out := f 0x28 0 64, endToken := f 0x30 0 32
    target := f 0x38 0 64
    rsvd := f 1 5 3 ≠ 0 || f 2 12 4 ≠ 0 || f 0x1B 0 8 ≠ 0 || f 0x34 0 32 ≠ 0 }

/-- A weight command as its entry gives it (R419). -/
def weightEntry (ring : RingId) (e : BitVec 512) : WeightCmd :=
  let f := entryBits e
  { ring := ring, tier := f 1 4 2, die := f 1 6 1, adapter := f 1 7 1 = 1, slot := (e.extractLsb' 16 1).toFin, objId := f 4 0 32
    cmdTag := f 8 0 64, src := f 0x10 0 64, bytes := f 0x18 0 64, desc := f 0x20 0 64, status := f 0x28 0 64
    modelId := f 0x30 0 32, session := f 0x34 0 32, hops := f 0x38 0 13
    rsvd := f 2 1 15 ≠ 0 || f 0x38 13 51 ≠ 0 }

/-- A job command as its entry gives it (R444). -/
def jobEntry (ring : RingId) (e : BitVec 512) : JobCmd :=
  let f := entryBits e
  { ring := ring, cls := (e.extractLsb' 12 4).toFin, client := f 2 0 12, tenant := e.extractLsb' 32 16
    endObj := (e.extractLsb' 48 13).toFin, endEn := f 4 31 1 = 1, cmdTag := f 8 0 64, tackId := f 0x10 0 64
    term := f 0x18 0 21, target := f 0x20 0 64
    rsvd := f 2 12 4 ≠ 0 || f 4 29 2 ≠ 0 || f 0x18 21 43 ≠ 0 || f 0x28 0 192 ≠ 0 }

/-- A field that a serving request of this KIND does not use is not 0 (R394). -/
def serveUnused (kind : Nat) (r : ServeReq) : Bool :=
  (kind = 1 && r.session ≠ 0) || (kind ≠ 1 && r.kvTier ≠ 0) || (kind ≠ 3 && r.parentsAt ≠ 0) || (kind ≠ 4 && r.target ≠ 0) ||
  (kind = 3 && r.maxNew ≠ 0) ||
  (4 ≤ kind && (r.src ≠ 0 || r.count ≠ 0 || r.out ≠ 0 || r.maxNew ≠ 0 || r.endToken ≠ 0))

/-- A field that a weight command of this CMD does not use is not 0 (R419); a RELAY has the OBJ_KIND and MODEL_ID of its object
(R423, log 88). -/
def weightUnused (cmd : Nat) (w : WeightCmd) : Bool :=
  let two := cmd = 1 || cmd = 2
  (!(cmd = 1 || cmd = 3 || cmd = 5) && w.objId ≠ 0) || (cmd ≠ 1 && (w.tier ≠ 0 || w.die ≠ 0)) ||
  (!two && (w.adapter || w.modelId ≠ 0)) || (!(two || cmd = 4) && (w.src ≠ 0 || w.bytes ≠ 0)) ||
  (cmd ≠ 2 && (w.desc ≠ 0 || w.hops ≠ 0)) || (cmd ≠ 4 && w.slot ≠ 0) || (cmd ≠ 5 && w.session ≠ 0) ||
  (!(cmd = 2 || cmd = 6) && w.status ≠ 0)

/-- A field that a job command of this CMD does not use is not 0 (R444). -/
def jobUnused (cmd : Nat) (j : JobCmd) : Bool :=
  (cmd ≠ 2 && j.target ≠ 0) || (cmd = 2 && j.tenant ≠ 0) ||
  (cmd ≠ 1 && (j.tackId ≠ 0 || j.cls ≠ 0 || j.client ≠ 0 || j.term ≠ 0 || j.endEn || j.endObj ≠ 0))

/-- KIND or CMD that a SPACE reserves (R394, R419, R444). -/
def kindReserved (space kind : Nat) : Bool :=
  kind = 0 || (if space = 0 then 5 < kind else if space = 1 then 6 < kind else 3 < kind)

/-! ## Session handles -/

/-- A session handle (R388). -/
def handleOf (e : Session) (n : Nat) : Nat := (e.gen.toNat % 2 ^ 18) * 16384 + n

/-- The entry a handle names: in use, not closing, with its GEN and client (R395). -/
def sessionNamed (s : State) (handle client : Nat) : Option Nat :=
  let n := handle % 16384
  let e := sessOf s n
  if e.state ≠ 0 && e.state ≠ 4 && handleOf e n = handle && e.client = client then some n else none

/-- A request that ended stays known to later CANCELs of its session (R411). -/
def remember (n tag : Nat) (s : State) : State :=
  if tag = 0 then s else modServe (fun v => { v with recent := v.recent ++ [(n, tag)] }) s

/-- A session's LAST_CODE and LAST_KIND (R388, R410). -/
def lastFault (n code : Nat) (s : State) : State := modSess n (fun e => { e with lastCode := code, lastKind := 4 }) s

/-! ## Admission -/

/-- A SPACE that exists and the ring permits (R513). -/
def spaceOk (r : Ring) (space : Nat) : Bool := space < 3 && r.spaces.getLsbD space

/-- A completion decided for a ring: it waits to be posted after those decided before it (R515). -/
def decideOn (ring : Nat) (c : Completion) (s : State) : State :=
  modHost (fun h => { h with decided := h.decided + 1 })
    (modRing ring (fun r => { r with decided := r.decided ++ [{ c with order := s.host.decided }] }) s)

/-- One entry of a ring leaves `fetched` admitted (R520). -/
def countAdmit (ring : Nat) (s : State) : State :=
  modRing ring (fun r => { r with fetched := r.fetched.drop 1, admitted := r.admitted + 1, outstanding := r.outstanding + 1 }) s

/-- The completion of a serving request (R398, R514). -/
def serveCompletion (q : ServeReq) (sess kind code reason tokens acc len : Nat) (s : State) : State :=
  decideOn q.ring.val { space := 0, kind := kind, reason := reason, code := code, sess := sess, tag := q.reqTag
                        w2 := tokens % 2 ^ 32 + acc % 128 * 2 ^ 32 + len % 2 ^ 24 * 2 ^ 40 } s

/-- A request that a check of R395 rejects completes FAULT; `fault` is the code and its record. The session it names knows it as
completed, unless it is a CANCEL or CLOSE (R411); `last`: the session's LAST_CODE takes the code. -/
def serveRefuse (r : ServeReq) (ends : Bool) (fault : Nat × List Byte) (last : Bool) (s : State) : State :=
  let s := requestFault fault.1 fault.2 s
  match sessionNamed s r.session r.client with
  | none => serveCompletion r r.session 4 fault.1 0 0 0 0 s
  | some n =>
    let s := serveCompletion r r.session 4 fault.1 0 0 0 (sessOf s n).len s
    let s := if ends then s else remember n r.reqTag s
    if last then lastFault n fault.1 s else s

/-- The completion of a weight command (R420, R514): the bytes stored on this chip. -/
def weightDone (w : WeightCmd) (kind code bytes : Nat) (s : State) : State :=
  decideOn w.ring.val { space := 1, kind := kind, code := code, tag := w.cmdTag, w2 := bytes } s

/-- A weight command ends with a fault (R420). -/
def weightFault (w : WeightCmd) (code : Nat) (detail : List Byte) (s : State) : State :=
  weightDone w 4 code 0 (requestFault code detail s)

/-- A weight command whose reserved values or fields fail, or that names no object it could act on: R443 gives no code for
it, so the code is a free one of R28's ranges (log 27). -/
def weightRefused (w : WeightCmd) (s : State) : State :=
  let x := takeFree s
  weightFault w (someFaultCode x.1) [] x.2

/-- The completion of a SUBMIT or another job command (R446, R514). -/
def jobCompletion (j : JobCmd) (kind code reason strides charged : Nat) (s : State) : State :=
  decideOn j.ring.val { space := 2, kind := kind, reason := reason, code := code, tag := j.cmdTag, w2 := strides, w3 := charged } s

/-- A job command fails (R466). -/
def jobRefuse (j : JobCmd) (code : Nat) (detail : List Byte) (s : State) : State :=
  jobCompletion j 4 code 0 0 0 (requestFault code detail s)

/-- No command admits the entry: its SPACE is unknown or not permitted, or its KIND or CMD is reserved and nothing holds it back
(R162, R513). -/
def unclaimed (s : State) (ring : Nat) (e : BitVec 512) : Bool :=
  !spaceOk (ringOf s ring) (entrySpace e) ||
  (kindReserved (entrySpace e) (entryKind e) && !(entrySpace e = 0 && draining s))

/-- An entry that no command admits completes FAULT (R395, R420, R445, R513). -/
def refuseEntry (ring : RingId) (e : BitVec 512) (slot : Nat) (s : State) : State :=
  if !spaceOk (ringOf s ring.val) (entrySpace e) then
    decideOn ring.val { space := entrySpace e, kind := 4, code := 0x0901, tag := entryTag e
                        sess := if entrySpace e = 0 then (serveEntry ring e).session else 0 }
      (requestFault 0x0901 (item 1 ring.val ++ item 2 slot ++ item 1 (entrySpace e)) s)
  else if entrySpace e = 0 then serveRefuse (serveEntry ring e) false (0x0706, item 1 0) false s
  else if entrySpace e = 1 then weightRefused (weightEntry ring e) s
  else jobRefuse (jobEntry ring e) 0x0262 (item 1 0) s

/-- Entries in front of a ring that no command admits complete FAULT. -/
def ringInvalid (ring : RingId) (s : State) : State :=
  forEach ((ringOf s ring.val).fetched.takeWhile (fun x => unclaimed s ring.val x.1)) (fun x t =>
    refuseEntry ring x.1 x.2 (countAdmit ring.val t)) s

/-- No ring below `n` holds a fetched entry (R510). -/
def ringsBelow (s : State) (n : Nat) : Bool := (List.range n).all (fun m => (ringOf s m).fetched.isEmpty)

/-- Entries may be admitted: the link is wide and fast enough, no changeover is requested or open, the clocks run (R457, R505, R512). -/
def admitOpen (s : State) : Bool := admitOk s && !changeoverPending s && fabricUp s

/-- An entry for which `p` holds is the next to be admitted: it is the first of its ring, no lower ring has one, and a serving entry finds
no drain (R510, R162). -/
def admitsNow (s : State) (ring : RingId) (p : BitVec 512 → Bool) : Bool :=
  admitOpen s &&
  (match (ringOf s ring.val).fetched with
    | [] => false
    | x :: _ => p x.1 && !(entrySpace x.1 = 0 && draining s) && spaceOk (ringOf s ring.val) (entrySpace x.1)) &&
  ringsBelow s ring.val

/-- Entries whose turn it is and that no command admits complete, in ring order (R510, R513). -/
def admitInvalid (s : State) : State :=
  if !admitOpen s then s else
  forEach (List.finRange 16) (fun n t => if ringsBelow t n.val then ringInvalid n t else t) s

/-- Action 9 begins: what comes before it is applied (R68), and the entries that no command admits complete. -/
def openNine (s : State) : State := if s.stride.act < 9 then admitInvalid (setAct 9 s) else s

/-- Boundary action 9 may admit the entry in front of `ring` for which `p` holds. -/
def admits (s : State) (ring : RingId) (p : BitVec 512 → Bool) : Bool := mayAct s 9 && admitsNow (openNine s) ring p

/-- The entry is the serving request `r` of this KIND, but for what the part reads from host memory (R394, R513). -/
def isServe (kind : Nat) (r : ServeReq) (e : BitVec 512) : Bool :=
  entrySpace e = 0 && entryKind e = kind && serveEntry r.ring e = { r with tokens := [], parents := [], readOk := true }

/-- The entry is the weight command `w` of this CMD (R419, R513). -/
def isWeight (cmd : Nat) (w : WeightCmd) (e : BitVec 512) : Bool :=
  entrySpace e = 1 && entryKind e = cmd && weightEntry w.ring e = w

/-- The entry is the job command `j` of this CMD (R444, R513). -/
def isJob (cmd : Nat) (j : JobCmd) (e : BitVec 512) : Bool :=
  entrySpace e = 2 && entryKind e = cmd && jobEntry j.ring e = j

/-- The request `r` of this KIND is the next to be admitted. -/
def admitsServe (s : State) (kind : Nat) (r : ServeReq) : Bool := admits s r.ring (isServe kind r)
/-- The weight command `w` of this CMD is the next to be admitted. -/
def admitsWeight (s : State) (cmd : Nat) (w : WeightCmd) : Bool := admits s w.ring (isWeight cmd w)
/-- The job command `j` of this CMD is the next to be admitted. -/
def admitsJob (s : State) (cmd : Nat) (j : JobCmd) : Bool := admits s j.ring (isJob cmd j)

/-- The entry in front of a ring is admitted, and those whose turn it then is and that no command admits complete (R510, R513). -/
def admitEntry (ring : RingId) (s : State) : State := admitInvalid (countAdmit ring.val (openNine s))

/-! ## Snapshot -/

/-- One ring's snapshot with room for `left` entries in all (R510, R511, R516, R517): the ring and the entries taken. -/
def snapRing (n : Nat) (v : RingView) (left : Nat) (s : State) : State × Nat :=
  let r := ringOf s n
  let starts := r.en && (!r.active || r.fresh)
  let r := if starts then { r with sqCi := v.sqCi, cqPi := v.cqPi, lost := false } else r
  let r := { r with active := r.en, fresh := false, cqCi := if r.en || r.outstanding ≠ 0 then v.cqCi else r.cqCi }
  let put := fun (r : Ring) (s : State) => modRing n (fun _ => r) s
  if !r.active || r.ringErr then (put r s, 0)
  else
    let waiting := (v.sqPi - r.sqCi).toNat
    if sqSize r < waiting || seqPrecedes 32 v.sqPi.toNat r.sqCi.toNat = some true then
      (event 0x0982 (item 1 n) (put { r with ringErr := true } s), 0)
    else if r.held then (put r s, 0)
    else
      let k := Nat.min (Nat.min (Nat.min waiting 256) left) v.entries.length
      if k = 0 then (put r s, 0) else
      let new := (v.entries.take k).zipIdx.map (fun e => (e.1, (r.sqCi.toNat + e.2) % sqSize r))
      let r := { r with sqCi := r.sqCi + BitVec.ofNat 32 k, fetched := r.fetched ++ new }
      (emit (.hostWrite (r.idxAddr + 8) [r.sqCi.toNat]) (put r s), k)

/-- RING_SNAPSHOT (R510 to R512, R516, R517, R519, R522, R601): once in an issue span, at its start. -/
def execRingSnapshot (views : List (RingId × RingView)) (s : State) : Out :=
  .next (if s.stride.window || s.boot.stage < 7 || !hostUp s || !admitOk s || changeoverPending s || s.host.polled then s else
    let order := (List.range 16).map (fun i => (s.host.rotate + i) % 16)
    let x := order.foldl (fun (x : State × Nat) n =>
      match views.find? (fun v => v.1.val = n) with
      | none => x
      | some v => let y := snapRing n v.2 x.2 x.1; (y.1, x.2 - y.2)) (s, 1024)
    modHost (fun h => { h with polled := true }) x.1)

/-- A write of EN (R517, R520): from 0 to 1 it clears RING_ERR and the indices are taken at the next snapshot. -/
def setEn (n : Nat) (en : Bool) (s : State) : State :=
  modRing n (fun r => if en && !r.en then { r with en := true, ringErr := false, fresh := true } else { r with en := en }) s

/-- RING_ENABLE (R517, R520, R522). -/
def execRingEnable (r : RingId) (en viaIde : Bool) (s : State) : Out :=
  .next (if s.pins.perstN && tlpHeard s viaIde then setEn r.val en s else s)

/-! ## Posting -/

/-- A ring's completions and OUT data can go out: the host is reachable and no reset took the ring (R517, R519). -/
def ringUp (s : State) (n : Nat) : Bool := hostUp s && !(ringOf s n).lost

/-- Bytes of OUT data that Etxia can hold (R519). -/
def heldMax : Nat := 67108864

/-- Emitted tokens go to OUT, or are held while the link is down; `false` where no room is left (R398, R519). -/
def outWrite (n addr : Nat) (toks : List Nat) (s : State) : State × Bool :=
  if toks.isEmpty then (s, true)
  else if ringUp s n && (ringOf s n).heldOut.isEmpty then (emit (.outData n addr toks) s, true)
  else if s.host.heldOut + 4 * toks.length ≤ heldMax then
    (modHost (fun h => { h with heldOut := h.heldOut + 4 * toks.length })
      (modRing n (fun r => { r with heldOut := r.heldOut ++ [(addr, toks)] }) s), true)
  else (s, false)

/-- Held OUT data of a ring is written (R519). -/
def flushOut (n : Nat) (s : State) : State :=
  let l := (ringOf s n).heldOut
  let s := forEach l (fun x t => emit (.outData n x.1 x.2) t) s
  modHost (fun h => { h with heldOut := h.heldOut - l.foldl (fun k x => k + 4 * x.2.length) 0 })
    (modRing n (fun r => { r with heldOut := [] }) s)

/-- A completion as the CQ holds it: 32 bytes (R514). -/
def cqEntry (c : Completion) : List Byte :=
  bytesLE 1 c.space ++ bytesLE 1 (c.kind % 8 + c.reason % 8 * 8) ++ bytesLE 2 c.code ++ bytesLE 4 c.sess ++ bytesLE 8 c.tag ++
  bytesLE 8 c.w2 ++ bytesLE 8 c.w3

/-- Host address of slot `n` mod size of a ring's CQ (R509). -/
def cqSlot (r : Ring) (n : Nat) : Nat := r.cqAddr + 32 * (n % cqSize r)

/-- The CQ has no free slot (R516). -/
def cqFull (r : Ring) : Bool := cqSize r ≤ (r.cqPi - r.cqCi).toNat

/-- A completion of another ring that can go out was decided before `order` (R515). -/
def postsFirst (s : State) (order : Nat) : Bool :=
  (List.range 16).any (fun m => ringUp s m && !cqFull (ringOf s m) && (ringOf s m).decided.any (fun c => c.order < order))

/-- COMPLETION_POST (R514 to R516, R519): the next completion of a ring is posted after the window, after its OUT data and after those
of other rings decided before it; with no free slot or no link it is held. -/
def execCompletionPost (r : RingId) (s : State) : Out :=
  .next (if s.stride.window || !fabricUp s then s else
    let n := r.val
    let k := ringOf s n
    if !ringUp s n then modRing n (fun r => { r with held := !r.decided.isEmpty || !r.heldOut.isEmpty }) s
    else
      let s := if k.heldOut.isEmpty then s else flushOut n s
      match k.decided with
      | [] => modRing n (fun r => { r with held := false }) s
      | c :: l =>
        if cqFull k then modRing n (fun r => { r with held := true }) s
        else if postsFirst s c.order then s
        else
          let s := modRing n (fun r => { r with
            decided := l, cqPi := r.cqPi + 1, outstanding := r.outstanding - 1, held := r.held && !l.isEmpty }) s
          let s := emit (.hostWrite (k.idxAddr + 12) [(k.cqPi + 1).toNat]) (emit (.cq n (cqSlot k k.cqPi.toNat) (cqEntry c)) s)
          if k.irqEn then raiseMsix k.vector s else s)

end Sys2Proof.Machine
end

