-- ==== Sys2Proof/Machine/Serving.lean ====
section
/-!
DEFINITION. Sessions, prefill, decode and speculation (R382 to R414), with the adapter slots of rows (R430, R431).
-/
namespace Sys2Proof.Machine

/-! ## The serving descriptor and its areas -/

/-- The serving descriptor of the running job (R382). -/
def serving (s : State) : Option Serving := match s.job.run with | none => none | some r => tackServe r.tack

/-- The base of a placed object (R290); 0 where the job has none. -/
def objBase (s : State) (id : Nat) : Nat :=
  match s.tiers.placed.find? (fun o => o.entry.objId = id) with | some o => o.base | none => 0

/-- Row `r`'s row-map entry, input token, result token, tree mask, result tag, adapter slot (R384, R430). -/
def rowMapAt (s : State) (v : Serving) (r : Nat) : Nat := objBase s v.serveObj + 8 * r
/-- The input token of row `r` (R384). -/
def inTokenAt (s : State) (v : Serving) (r : Nat) : Nat := objBase s v.serveObj + 0x8000 + 4 * r
/-- The result token of row `r` (R384). -/
def resultAt (s : State) (v : Serving) (r : Nat) : Nat := objBase s v.serveObj + 0xC000 + 4 * r
/-- The tree mask of row `r` (R384). -/
def treeMaskAt (s : State) (v : Serving) (r : Nat) : Nat := objBase s v.serveObj + 0x10000 + 8 * r
/-- The result tag of row `r` (R384). -/
def resultTagAt (s : State) (v : Serving) (r : Nat) : Nat := objBase s v.serveObj + 0x18000 + 2 * r
/-- The adapter slot of row `r` (R430). -/
def adapterRowAt (s : State) (v : Serving) (r : Nat) : Nat := objBase s v.serveObj + 0x1A000 + r

/-- A row-map entry (R399). -/
def rowMapWord (pos node : Nat) (prefill : Bool) (sess : Nat) : Nat :=
  pos * 2 ^ 40 + node * 2 ^ 16 + bit01 prefill * 2 ^ 15 + 2 ^ 14 + sess

/-! ## Sessions -/

/-- Page-list entry `p` of session `n` (R390). -/
def pageEntryAt (s : State) (n p : Nat) : Nat := (sessOf s n).plAddr + 8 * p

/-- Etxia writes bytes of an object: charged to class 4, at once (R264, log 45). -/
def etxiaWrite (a : Nat) (bs : List Byte) (s : State) : State :=
  writeBytes a bs (portTouch a bs.length (transferCharge 4 a bs.length s))

/-- Page-list entry `p` of session `n` written. -/
def setEntry (n p slot : Nat) (s : State) : State := etxiaWrite (pageEntryAt s n p) (bytesLE 8 slot) s

/-- The slot in page-list entry `p` of session `n`. -/
def getEntry (s : State) (n p : Nat) : Nat := readNum s (pageEntryAt s n p) 8 % 2 ^ 48

/-! ## Waves -/

/-- Waves of a kind that are complete: the value of the DONE object (R402). -/
def wavesDone (s : State) (decode : Bool) : Int :=
  match serving s with
  | none => 2 ^ 62
  | some v => (objOf s (if decode then v.decodeDone else v.prefillDone)).value

/-- Wave `w` of a kind is complete (R402). -/
def waveDone (s : State) (decode : Bool) (w : Nat) : Bool := (w : Int) ≤ wavesDone s decode

/-- ROW_QUIET of the running job. -/
def rowQuiet (s : State) : Nat := match serving s with | none => 0 | some v => v.rowQuiet

/-- Row `r` carries no work and may join a wave that starts now (R402). -/
def rowFree (s : State) (r : Nat) : Bool :=
  s.serve.rows.all (fun u => u.row ≠ r || (!u.live && waveDone s u.decode u.wave &&
    (match u.quiet with | some k => rowQuiet s ≤ k | none => rowQuiet s = 0)))

/-! ## Slots -/

/-- A slot of a step that does not commit is freed under R393. -/
def freeSlot (n : Nat) (decode : Bool) (wave : Nat) (a : Nat) (s : State) : State :=
  modServe (fun v => { v with freeing := v.freeing ++ [{ addr := a, sess := n, decode := decode, wave := wave, need := rowQuiet s
                                                         quiet := if waveDone s decode wave then some 0 else none }] }) s

/-- The wave that last wrote the slots of a session from its LEN on to `len` is complete as a boundary commits it (R393); what is older than
ROW_QUIET is forgotten. -/
def noteWritten (n len : Nat) (s : State) : State :=
  modServe (fun v => { v with written := smod [] v.written n (fun l =>
    l.filter (fun x => s.stride.count < x.2 + rowQuiet s) ++ [(len, s.stride.count)]) }) s

/-- Boundaries since the wave that last wrote the slot of position `p` was complete; ROW_QUIET where that is longer ago (R393). -/
def quietSince (s : State) (n p : Nat) : Nat :=
  match (sget [] s.serve.written n).find? (fun x => p < x.1) with
  | some x => s.stride.count - x.2
  | none => rowQuiet s

/-- A CLOSE frees the slot of position `p` (R393, R412). -/
def closeSlot (n p a : Nat) (s : State) : State :=
  modServe (fun v => { v with freeing := v.freeing ++ [{ addr := a, sess := n, decode := false, wave := 0, pos := some p, need := rowQuiet s
                                                         quiet := some (quietSince s n p) }] }) s

/-- The pool object of a tier (R382). -/
def poolObj (v : Serving) (tier : Nat) : Nat := if tier = 0 then v.poolH else v.poolL

/-- The placed pool object of a tier. -/
def poolPlaced (s : State) (v : Serving) (tier : Nat) : Option Placed :=
  s.tiers.placed.find? (fun o => o.entry.objId = poolObj v tier && poolObj v tier ≠ 0)

/-- Pages of a pool object. -/
def poolPageList (o : Placed) (tier : Nat) : List Nat :=
  (List.range (ceilDiv o.entry.bytes (pageBytes tier))).map (fun i => o.base + i * pageBytes tier)

/-- Slots of a page of a pool in ascending address: whole in the page and in the object's BYTES (R392). -/
def pageSlots (v : Serving) (o : Placed) (tier page : Nat) : List Nat :=
  ((List.range (pageBytes tier / Nat.max 64 v.slotBytes)).map (fun k => page + k * v.slotBytes)).filter
    (fun a => a + v.slotBytes ≤ o.base + o.entry.bytes)

/-- The object is a KV pool of the running job: its pages are allocated as R392 asks. -/
def isPool (s : State) (id : Nat) : Bool :=
  match serving s with | none => false | some v => id ≠ 0 && (id = v.poolH || id = v.poolL)

/-- Bytes of a tier that the job holds (R296): pages of placed objects, one bound twice counted once, and the pages allocated of the pools
that it places or binds; those of another kept pool count against no quota (R418). -/
def holding (s : State) (tier : Nat) : Nat :=
  ((((s.tiers.placed.filter (fun o => o.entry.tier = tier && !isPool s o.entry.objId)).map
      (fun o => (o.base, ceilDiv o.entry.bytes (pageBytes tier)))).eraseDups.map (fun x => x.2)).foldl (· + ·) 0 +
   (s.serve.poolPages.filter (fun p => s.tiers.placed.any (fun o => o.entry.tier = tier && isPool s o.entry.objId &&
      o.base ≤ p && p < o.base + o.entry.bytes))).length) *
   pageBytes tier

/-- The quota of a tier in bytes, as in force in this stride (R296, R313). -/
def quotaBytes (s : State) (tier : Nat) : Nat :=
  if tier = 0 then s.tiers.quotaHNow * 2 ^ 20 else if tier = 1 then s.tiers.quotaLNow * 2 ^ 20 else s.tiers.quotaFNow * 2 ^ 30

/-- What an allocation answers. -/
inductive Alloc where
  | ok (addr : Nat)
  | fails (code : Nat) (detail : List Byte)
  deriving DecidableEq, Repr

/-- The free slot with the lowest address, else the first slot of a new page of the pool (R392, R297). -/
def allocSlot (v : Serving) (tier : Nat) (s : State) : State × Alloc :=
  let full : State × Alloc := (s, .fails 0x0707 (item 4 (poolObj v tier)))
  let take := fun (a : Nat) (s : State) => modServe (fun k => { k with used := k.used ++ [a] }) s
  match poolPlaced s v tier with
  | none => full
  | some o =>
    let pages := poolPageList o tier
    match ((pages.filter (fun p => s.serve.poolPages.contains p)).flatMap (pageSlots v o tier)).find?
        (fun a => !s.serve.used.contains a) with
    | some a => (take a s, .ok a)
    | none =>
      match pages.find? (fun p => !s.serve.poolPages.contains p && !(pageSlots v o tier p).isEmpty) with
      | none => full
      | some p =>
        if quotaBytes s tier < holding s tier + pageBytes tier then
          (s, .fails 0x0422 (item 1 tier ++ item 4 (if tier = 0 then s.tiers.quotaHNow else s.tiers.quotaLNow)))
        else
          (take p (modTiers (fun t => { t with pages := sset .unmapped t.pages p (.present 0) })
            (modServe (fun k => { k with poolPages := k.poolPages ++ [p] }) s)), .ok p)

/-- `n` slots, or the first failure with every slot of this call given back. -/
def allocSlots (v : Serving) (tier : Nat) : Nat → List Nat → State → State × Except (Nat × List Byte) (List Nat)
  | 0, l, s => (s, .ok l)
  | n + 1, l, s =>
    match allocSlot v tier s with
    | (t, .ok a) => allocSlots v tier n (l ++ [a]) t
    | (t, .fails c d) => (modServe (fun k => { k with used := k.used.filter (fun a => !l.contains a) }) t, .error (c, d))

/-- A freed slot's wave is complete and the ROW_QUIET boundaries of its job have passed (R393). -/
def slotDue (s : State) (f : Freeing) : Bool :=
  waveDone s f.decode f.wave && (match f.quiet with | some k => f.need ≤ k | none => f.need = 0)

/-- SLOT_RELEASE (R393). -/
def execSlotRelease (addr : BitVec 48) (s : State) : Out :=
  .next (match s.serve.freeing.find? (fun f => f.addr = addr.toNat) with
    | none => s
    | some f => if slotDue s f then
        modServe (fun v => { v with freeing := v.freeing.erase f, used := v.used.erase f.addr }) s
      else s)

/-! ## Requests start and end -/

/-- A request's own slots in flight are freed and their page-list entries zeroed (R390, R410). -/
def dropStep (n : Nat) (q : Request) (s : State) : State :=
  match q.wave with
  | none => s
  | some w =>
    let e := sessOf s n
    let decode := e.state = 3
    let first := if decode then (match serving s with | some v => v.maxCtx | none => 0) else e.len
    let s := forEach q.slots.zipIdx (fun p t => freeSlot n decode w p.1 (setEntry n (first + p.2) 0 t)) s
    modServe (fun v => { v with rows := v.rows.map (fun u => if u.sess = n then { u with live := false } else u) }) s

/-- A session has no request running: IDLE, its running fields 0 (R397, R408). -/
def sessIdle (n : Nat) (s : State) : State :=
  modServe (fun v => { v with running := sset none v.running n none, order := v.order.erase n })
    (modSess n (fun e => { e with state := if e.state = 4 then 4 else 1, curTag := 0, remain := 0, rowCount := 0 }) s)

/-- Checks of a request that starts to run (R395): the context limit of OPEN and APPEND. -/
def startFails (s : State) (n : Nat) (q : Request) : Bool :=
  match q.kind, serving s with
  | .verify, _ => false
  | _, none => false
  | _, some v => v.maxCtx < (sessOf s n).len + bit01 (sessOf s n).pendValid + q.req.count

/-- A request starts to run (R397). -/
def startReq (n : Nat) (q : Request) (s : State) : State :=
  let e := sessOf s n
  let left := if q.kind = .verify then [] else (if e.pendValid then [e.pend] else []) ++ q.req.tokens
  modServe (fun v => { v with running := sset none v.running n (some { q with left := left }), order := v.order ++ [n] })
    (modSess n (fun e => { e with
      curTag := q.req.reqTag, endToken := q.req.endToken
      remain := if q.kind = .verify then q.req.count + 1 else q.req.maxNew }) s)

/-- A request ends with a fault outside any step: its record, LAST_CODE and completion (R410). -/
def faultDone (n : Nat) (q : Request) (code : Nat) (s : State) : State :=
  let e := sessOf s n
  remember n q.req.reqTag (serveCompletion q.req q.handle 4 code 0 q.emitted q.acc e.len
    (lastFault n code s))

/-- The session starts its next queued request; one that fails its last check ends and the next follows (R396, R408). -/
def startNext (n : Nat) : Nat → State → State
  | 0, s => s
  | k + 1, s =>
    match sget [] s.serve.queues n with
    | [] => s
    | q :: l =>
      let s := modServe (fun v => { v with queues := sset [] v.queues n l }) s
      if startFails s n q then startNext n k (faultDone n q 0x0704 (requestFault 0x0704 (item 4 q.handle) s))
      else startReq n q s

/-- A running request completes and the session goes on (R408, R410, R411). -/
def endReq (n kind code reason : Nat) (s : State) : State :=
  match reqOf s n with
  | none => s
  | some q =>
    let s := if kind = 0 then s else dropStep n q s
    let e := sessOf s n
    let s := remember n q.req.reqTag (serveCompletion q.req q.handle kind code reason q.emitted q.acc e.len s)
    let s := modSess n (fun e => { e with lastCode := if kind = 4 then code else e.lastCode, lastKind := kind }) s
    let s := sessIdle n s
    startNext n ((sget [] s.serve.queues n).length) s

/-! ## Admission -/

/-- The first failing check of a serving request (R395): the code with its record, and whether LAST_CODE of the session takes it. -/
abbrev Reject := (Nat × List Byte) × Bool

/-- Check 1 of R395 and R518 of a request of this KIND: fields, the host reads, token values. -/
def checkFields (kind : Nat) (r : ServeReq) (vocab : Option Nat) : Option Reject :=
  if r.rsvd || r.reqTag = 0 || serveUnused kind r then some ((0x0706, item 1 0), false)
  else if kind < 4 && !r.readOk then some ((0x0902, item 8 r.src), false)
  else match (if kind < 4 then vocab else none) with
    | some v => if r.tokens.any (fun t => v ≤ t) || r.tokens.length ≠ r.count then some ((0x0706, item 1 1), false) else none
    | none => none

/-- Checks 2 to 4 of R395 of a request for a session: its handle, KV_FMT and queue. -/
def checkSession (s : State) (r : ServeReq) (queues : Bool) : Except Reject Nat :=
  match sessionNamed s r.session r.client with
  | none =>
    let e := sessOf s (r.session % 16384)
    .error ((0x0701, item 4 r.session ++ item 4 e.gen.toNat ++ item 2 e.client), false)
  | some n =>
    let fmt := match serving s with | some v => v.kvFmt | none => 0
    if (serving s).isNone || (sessOf s n).kvFmt ≠ fmt then .error ((0x0708, item 4 (sessOf s n).kvFmt ++ item 4 fmt), false)
    else if queues && (reqOf s n).isSome && 8 ≤ (sget [] s.serve.queues n).length then .error ((0x0703, []), true)
    else .ok n

/-- A request that a check of R395 rejects. -/
def rejectReq (r : ServeReq) (x : Reject) (s : State) : State := serveRefuse r false x.1 x.2 s

/-- An admitted request runs at once, or waits behind the one that runs (R396). -/
def enqueue (n : Nat) (q : Request) (s : State) : State :=
  if (reqOf s n).isSome then modServe (fun v => { v with queues := smod [] v.queues n (· ++ [q]) }) s
  else if startFails s n q then faultDone n q 0x0704 (requestFault 0x0704 (item 4 q.handle) s)
  else startReq n q s

/-- The lowest FREE entry below SESSIONS (R395). -/
def freeEntry (s : State) (v : Serving) : Option Nat := (List.range (Nat.min v.sessions 16384)).find? (fun n => (sessOf s n).state = 0)

/-- GEN of a newly allocated entry (R388). -/
def nextGen (g : BitVec 32) : BitVec 32 := if (g + 1).toNat % 2 ^ 18 = 0 then g + 2 else g + 1

/-- OPEN allocates entry `n` (R388, R390, R395); its page list holds 0. -/
def openEntry (n : Nat) (v : Serving) (r : ServeReq) (s : State) : State :=
  let list := objBase s v.plObj + n * (v.maxCtx + 64) * 8
  let s := zeroFill list ((v.maxCtx + 64) * 8) (portTouch list ((v.maxCtx + 64) * 8) (transferCharge 4 list ((v.maxCtx + 64) * 8) s))
  modServe (fun k => { k with written := sset [] k.written n []
                              pools := if k.pools.contains (v.kvFmt, poolObj v r.kvTier) then k.pools
                                       else k.pools ++ [(v.kvFmt, poolObj v r.kvTier)] })
    (modSess n (fun e => { e with
      state := 1, kvTier := r.kvTier, pendValid := false, client := r.client, gen := nextGen e.gen, len := 0
      plAddr := list, kvFmt := v.kvFmt, tokensOut := 0, accepted := 0, steps := 0 }) s)

/-- The checks of an OPEN in the order of R395, which leave the session table as it is (R394, R518): the entry it takes. -/
def openCheck (s : State) (r : ServeReq) : Except Reject (Nat × Serving) :=
  match checkFields 1 r ((serving s).map (fun v => v.vocab)) with
  | some x => .error x
  | none => match serving s with
    | none => .error ((0x0708, item 4 0 ++ item 4 0), false)
    | some v => match freeEntry s v with
      | none => .error ((0x0702, item 2 v.sessions), false)
      | some n =>
        if v.maxCtx < r.count then .error ((0x0704, item 4 0), false)
        else if r.count = 0 then .error ((0x0706, item 1 2), false)
        else .ok (n, v)

/-- OPEN (R394, R395, R518): one that fails completes with SESSION 0 (R398). -/
def execSessOpen (r : ServeReq) (s : State) : Out :=
  .next (if !admitsServe s 1 r then s else
    let s := admitEntry r.ring s
    match openCheck s r with
    | .error x => rejectReq { r with session := 0 } x s
    | .ok (n, v) =>
      let s := openEntry n v r s
      enqueue n { kind := .opn, req := r, handle := handleOf (sessOf s n) n } s)

/-- APPEND (R394, R395). -/
def execSessAppend (r : ServeReq) (s : State) : Out :=
  .next (if !admitsServe s 2 r then s else
    let s := admitEntry r.ring s
    match checkFields 2 r ((serving s).map (fun v => v.vocab)) with
    | some x => rejectReq r x s
    | none => match checkSession s r true with
      | .error x => rejectReq r x s
      | .ok n =>
        if r.count = 0 then rejectReq r ((0x0706, item 1 2), false) s
        else enqueue n { kind := .append, req := r, handle := r.session } s)

/-- The first draft whose parent is not below it (R395). -/
def badParent (r : ServeReq) : Option (Nat × Nat) :=
  ((List.range r.count).map (fun i => (i + 1, r.parents.getD i 0))).find? (fun p => p.1 ≤ p.2)

/-- VERIFY (R394, R395). -/
def execSessVerify (r : ServeReq) (s : State) : Out :=
  .next (if !admitsServe s 3 r then s else
    let s := admitEntry r.ring s
    match checkFields 3 r ((serving s).map (fun v => v.vocab)) with
    | some x => rejectReq r x s
    | none => match checkSession s r true with
      | .error x => rejectReq r x s
      | .ok n =>
        let v := (serving s).getD {}
        if !(sessOf s n).pendValid || v.maxNodes < r.count + 1 then rejectReq r ((0x0705, item 1 0 ++ item 1 0), false) s
        else match badParent r with
        | some p => rejectReq r ((0x0705, item 1 p.1 ++ item 1 p.2), false) s
        | none =>
          if v.maxCtx < (sessOf s n).len + r.count + 1 then rejectReq r ((0x0704, item 4 r.session), true) s
          else enqueue n { kind := .verify, req := r, handle := r.session } s)

/-- CANCEL and CLOSE are admitted and act at action 3 of the next boundary (R396). -/
def admitEnd (close : Bool) (r : ServeReq) (s : State) : State :=
  let kind := if close then 5 else 4
  if !admitsServe s kind r then s else
  let s := admitEntry r.ring s
  match checkFields kind r none with
  | some x => serveRefuse r true x.1 x.2 s
  | none => match checkSession s r false with
    | .error x => serveRefuse r true x.1 x.2 s
    | .ok _ => modServe (fun v => { v with cancels := v.cancels ++ [(close, r, s.stride.count)] }) s

/-- CANCEL (R396, R411): admitted; it acts at action 3 of the next boundary. -/
def execSessCancel (r : ServeReq) (s : State) : Out := .next (admitEnd false r s)

/-- CLOSE (R396, R412): admitted; it acts at action 3 of the next boundary. -/
def execSessClose (r : ServeReq) (s : State) : Out := .next (admitEnd true r s)

/-! ## Adapters of rows (R429 to R431) -/

/-- The adapter of a session: its own binding, else the default; 0 for none (R429). -/
def adapterOf (s : State) (n : Nat) : Nat :=
  let b := sget 0 s.weights.bindings n
  if b ≠ 0 then b else s.weights.deflt

/-- A directory entry by OBJ_ID (R415). -/
def dirFind (s : State) (id : Nat) : Option DirEntry := s.weights.dir.find? (fun d => d.objId = id)

/-- A directory entry changed. -/
def dirSet (id : Nat) (f : DirEntry → DirEntry) (s : State) : State :=
  modWeights (fun w => { w with dir := w.dir.map (fun d => if d.objId = id then f d else d) }) s

/-- A model is bound by the running job as a BASE object (R429). -/
def baseBound (s : State) (model : Nat) : Bool :=
  s.weights.dir.any (fun d => d.kind = 0 && d.byJob && d.modelId = model)

/-- MODEL_ID of a BASE object that the running job binds, 0 if none: the second that ADAPTER_MISMATCH names (R443). -/
def baseModel (s : State) : Nat := ((s.weights.dir.find? (fun x => x.kind = 0 && x.byJob)).map (fun x => x.modelId)).getD 0

/-- Pages of a directory entry. -/
def dirPages (d : DirEntry) : List Nat := (List.range (ceilDiv d.bytes (pageBytes d.tier))).map (fun i => d.base + i * pageBytes d.tier)

/-- What a request's adapter needs at a wave: a slot number, no slot now, or an end with a code. -/
inductive AdapterSlot where
  | slot (n : Nat)
  | full
  | fails (code : Nat) (detail : List Byte)
  deriving DecidableEq, Repr

/-- The slot of session `n`'s adapter (R431): the one that holds it, or the lowest that no row in use holds. -/
def adapterSlot (s : State) (n slots : Nat) : AdapterSlot :=
  let a := adapterOf s n
  if slots = 0 || a = 0 then .slot 0
  else match dirFind s a with
  | none => .fails 0x0246 (item 4 0 ++ item 4 (baseModel s))
  | some d =>
    if !(d.state = 1 || d.state = 2) || !baseBound s d.modelId then .fails 0x0246 (item 4 d.modelId ++ item 4 (baseModel s))
    else if !d.byJob && quotaBytes s d.tier < holding s d.tier + (dirPages d).length * pageBytes d.tier then
      .fails 0x0422 (item 1 d.tier ++ item 4 (quotaBytes s d.tier / 2 ^ 20))
    else match ((List.range slots).map (· + 1)).find? (fun k => sget 0 s.weights.adapters k = a) with
    | some k => .slot k
    | none =>
      match ((List.range slots).map (· + 1)).find? (fun k => !s.serve.rows.any (fun u => u.aslot = k && u.live)) with
      | some k => .slot k
      | none => .full

/-- An adapter first used by the job is bound, as of the preceding action 6, and its pages become PRESENT; the slot table holds it
(R430, R431). -/
def useAdapter (v : Serving) (n k : Nat) (s : State) : State :=
  let a := adapterOf s n
  if k = 0 then s else
  match dirFind s a with
  | none => s
  | some d =>
    let s := if d.byJob then s else
      modTiers (fun t => { t with
          pages := (dirPages d).foldl (fun m p => sset .unmapped m p (.present 0)) t.pages
          placed := t.placed ++ [{ entry := { objId := a, tier := d.tier, die := d.die, resident := true, bytes := d.bytes }
                                   base := d.base }] })
        (dirSet a (fun x => { x with state := 2, byJob := true }) s)
    let at_ := objBase s v.serveObj + 0x1B000 + 16 * k
    etxiaWrite at_ (bytesLE 8 d.base ++ bytesLE 4 a ++ bytesLE 4 0)
      (modWeights (fun w => { w with adapters := sset 0 w.adapters k a }) s)

/-- A row's adapter slot and its bit in the row masks (R430). -/
def setRowAdapter (v : Serving) (slots row k : Nat) (s : State) : State :=
  if slots = 0 then s else
  let s := etxiaWrite (adapterRowAt s v row) (bytesLE 1 k) s
  forEach ((List.range slots).map (· + 1)) (fun j t =>
    let a := objBase t v.serveObj + 0x1C000 + (j - 1) * 0x200 + row / 8
    let b := 1#8 <<< (row % 8)
    etxiaWrite a [if j = k then readByte t a ||| b else readByte t a &&& ~~~b] t) s

/-- ADAPTER_SLOTS of the running job. -/
def adapterSlots (s : State) : Nat := match s.job.run with | none => 0 | some r => r.tack.adapterSlots

/-! ## Waves start -/

/-- Rows from the lowest free one of a list, consecutive, at most `n` (R400). -/
def rowRun (free : List Nat) (n : Nat) : List Nat :=
  match free with
  | [] => []
  | r :: _ => ((List.range n).map (r + ·)).takeWhile (fun x => free.contains x)

/-- One row of a wave: its row-map entry, token, tree mask and adapter (R384, R399 to R401). -/
def fillRow (v : Serving) (row pos node : Nat) (prefill : Bool) (n token mask aslot wave : Nat) (s : State) : State :=
  let s := etxiaWrite (rowMapAt s v row) (bytesLE 8 (rowMapWord pos node prefill n)) s
  let s := etxiaWrite (inTokenAt s v row) (bytesLE 4 token) s
  let s := if prefill then s else etxiaWrite (treeMaskAt s v row) (bytesLE 8 mask) s
  modServe (fun k => { k with rows := k.rows.filter (fun u => u.row ≠ row) ++
      [{ row := row, decode := !prefill, sess := n, wave := wave, aslot := aslot }] })
    (setRowAdapter v (adapterSlots s) row aslot s)

/-- A request ends at a wave start with a code (R392, R431). -/
def waveFault (n code : Nat) (detail : List Byte) (s : State) : State := endReq n 4 code 0 (requestFault code detail s)

/-- The request of session `n` gets its chunk of the prefill rows free (R400): the state, and whether filling goes on. -/
def fillPrefill (v : Serving) (wave n : Nat) (s : State) : State × Bool :=
  match reqOf s n with
  | none => (s, true)
  | some q =>
    let rows := rowRun ((List.range v.prefillRows).filter (rowFree s)) q.left.length
    if rows.isEmpty then (s, false)
    else match adapterSlot s n (adapterSlots s) with
    | .full => (s, false)
    | .fails c d => (waveFault n c d s, true)
    | .slot k =>
      let e := sessOf s n
      match allocSlots v e.kvTier rows.length [] s with
      | (t, .error x) => (waveFault n x.1 x.2 t, true)
      | (t, .ok slots) =>
        let t := useAdapter v n k t
        let t := forEach rows.zipIdx (fun p u =>
          setEntry n (e.len + p.2) (slots.getD p.2 0)
            (fillRow v p.1 (e.len + p.2) 0 true n (q.left.getD p.2 0) 0 k wave u)) t
        let t := modReq n (fun q => { q with
          left := q.left.drop rows.length, wave := some wave, row0 := rows.headD 0, chunk := rows.length, slots := slots }) t
        (modSess n (fun e => { e with state := 2 }) t, true)

/-- The tree masks of a step's nodes (R403): bit j of node i is 1 for i itself and its ancestors. -/
def treeMasks (parents : List Nat) : List Nat :=
  parents.zipIdx.foldl (fun l p => l ++ [l.getD p.1 0 + 2 ^ (p.2 + 1)]) [1]

/-- The depths of a step's nodes (R403). -/
def treeDepths (parents : List Nat) : List Nat := parents.foldl (fun l p => l ++ [l.getD p 0 + 1]) [0]

/-- The drafts of a step in flight and their parents; an OPEN or APPEND step has none. -/
def stepTree (q : Request) : List Nat × List Nat :=
  if q.kind = .verify then (q.req.tokens, (List.range q.req.count).map (fun i => q.req.parents.getD i 0)) else ([], [])

/-- The step of session `n` gets its rows (R401, R403): the state, and whether filling goes on. -/
def fillDecode (v : Serving) (wave n : Nat) (s : State) : State × Bool :=
  match reqOf s n with
  | none => (s, true)
  | some q =>
    let tree := stepTree q
    let nodes := tree.1.length + 1
    let free := ((List.range v.decodeRows).map (v.prefillRows + ·)).filter (rowFree s)
    let starts := free.filter (fun r => (List.range nodes).all (fun i => free.contains (r + i)))
    match starts with
    | [] => (s, false)
    | r0 :: _ =>
      match adapterSlot s n (adapterSlots s) with
      | .full => (s, false)
      | .fails c d => (waveFault n c d s, true)
      | .slot k =>
        let e := sessOf s n
        match allocSlots v e.kvTier nodes [] s with
        | (t, .error x) => (waveFault n x.1 x.2 t, true)
        | (t, .ok slots) =>
          let t := useAdapter v n k t
          let toks := e.pend :: tree.1
          let t := forEach (List.range nodes) (fun i u =>
            setEntry n (v.maxCtx + i) (slots.getD i 0)
              (fillRow v (r0 + i) (e.len + (treeDepths tree.2).getD i 0) i false n (toks.getD i 0)
                ((treeMasks tree.2).getD i 0) k wave u)) t
          let t := modReq n (fun q => { q with
            wave := some wave, row0 := r0, chunk := nodes, slots := slots, first := false }) t
          (modSess n (fun e => { e with state := 3, rowFirst := r0, rowCount := nodes }) t, true)

/-- Requests are filled in order until one does not fit. -/
def fillAll (f : Nat → State → State × Bool) : List Nat → State → State
  | [], s => s
  | n :: l, s => let x := f n s; if x.2 then fillAll f l x.1 else x.1

/-- Running requests before newly admitted ones, each in the order they started (R400). -/
def waveOrder (s : State) (p : Request → Bool) : List Nat :=
  let has := fun (b : Bool) => s.serve.order.filter (fun n =>
    match reqOf s n with | some q => p q && q.wave.isNone && q.first = b | none => false)
  has false ++ has true

/-- The order of a decode wave (R401): steps that an earlier wave had no rows for, then the rest in the order of R400. -/
def decodeOrder (s : State) : List Nat :=
  let l := waveOrder s (fun q => q.left.isEmpty)
  s.serve.stuck.filter (fun n => l.contains n) ++ l.filter (fun n => !s.serve.stuck.contains n)

/-- What a decode wave has no rows for waits for the next in this order (R401). -/
def stuckNow (l : List Nat) (s : State) : State :=
  modServe (fun v => { v with stuck := l.filter (fun n => match reqOf s n with | some q => q.wave.isNone | none => false) }) s

/-- Row `r` carries no work of a wave that is not complete (R399, R402). -/
def rowDone (s : State) (r : Nat) : Bool := s.serve.rows.all (fun u => u.row ≠ r || waveDone s u.decode u.wave)

/-- Rows of a kind that carry no work of an earlier wave have VALID 0 as the next starts, those in ROW_QUIET too (R399). -/
def clearRows (v : Serving) (lo n : Nat) (s : State) : State :=
  forEach (((List.range n).map (lo + ·)).filter (rowDone s)) (fun r t =>
    setRowAdapter v (adapterSlots t) r 0 (etxiaWrite (rowMapAt t v r) (bytesLE 8 0) t)) s

/-- A wave of a cadence starts at this boundary (R400, R401): counted from the job's first stride, once a boundary. -/
def waveDue (s : State) (cadence : Nat) (last : Option Nat) : Bool :=
  mayAct s 9 && match s.job.run with
    | none => false
    | some r => r.started && !r.draining && r.stride % Nat.max 1 cadence = 0 && last ≠ some r.stride

/-- PREFILL_WAVE_START (R400, R402). -/
def execPrefillWaveStart (s : State) : Out :=
  .next (match serving s with
    | none => s
    | some v =>
      if !waveDue s v.prefillCadence s.serve.prefillAt then s
      else
        let s := modServe (fun k => { k with prefillWaves := k.prefillWaves + 1, prefillAt := some (jobStride s) }) (openNine s)
        fillAll (fillPrefill v s.serve.prefillWaves) (waveOrder s (fun q => !q.left.isEmpty))
          (clearRows v 0 v.prefillRows s))

/-- DECODE_WAVE_START (R401, R402). -/
def execDecodeWaveStart (s : State) : Out :=
  .next (match serving s with
    | none => s
    | some v =>
      if !waveDue s v.decodeCadence s.serve.decodeAt then s
      else
        let s := modServe (fun k => { k with decodeWaves := k.decodeWaves + 1, decodeAt := some (jobStride s) }) (openNine s)
        stuckNow (decodeOrder s) (fillAll (fillDecode v s.serve.decodeWaves) (decodeOrder s) (clearRows v v.prefillRows v.decodeRows s)))

/-! ## Commits -/

/-- y of row `r`. -/
def resultOf (s : State) (v : Serving) (r : Nat) : Nat := readNum s (resultAt s v r) 4

/-- Etxia's reads of a row's result and its tag are charged to class 4 (R264, log 45). -/
def chargeResult (v : Serving) (r : Nat) (s : State) : State :=
  let read := fun (a n : Nat) (t : State) => portTouch a n (transferCharge 4 a n t)
  read (resultTagAt s v r) 2 (read (resultAt s v r) 4 s)

/-- Rows of the chunk or step in flight of a request. -/
def stepRows (q : Request) : List Nat := (List.range q.chunk).map (q.row0 + ·)

/-- Some row's result tag carries LAME (R406, R407, R409). -/
def stepLame (s : State) (v : Serving) (q : Request) : Bool :=
  (stepRows q).any (fun r => tagLame (BitVec.ofNat 16 (readNum s (resultTagAt s v r) 2)))

/-- The first row of a decode step whose y is not below VOCAB (R406, R409). -/
def badResult (s : State) (v : Serving) (q : Request) : Option Nat := (stepRows q).find? (fun r => v.vocab ≤ resultOf s v r)

/-- The running request of session `n` whose step's wave is complete. -/
def stepReady (s : State) (n : Nat) : Option (Serving × Request) :=
  match serving s, reqOf s n with
  | some v, some q => match q.wave with
    | some w => if waveDone s ((sessOf s n).state = 3) w then some (v, q) else none
    | none => none
  | _, _ => none

/-- A step or chunk in flight ends committed: its rows no longer belong to it. -/
def stepDone (n : Nat) (s : State) : State :=
  modServe (fun v => { v with rows := v.rows.map (fun u => if u.sess = n then { u with live := false } else u) })
    (modReq n (fun q => { q with wave := none, chunk := 0, slots := [], first := false })
      (modSess n (fun e => { e with rowCount := 0 }) s))

/-- Tokens are emitted (R406): written to OUT, taken from REMAIN; `false` where held OUT data does not fit (R519). -/
def emitTokens (n : Nat) (toks : List Nat) (s : State) : State × Bool :=
  match reqOf s n with
  | none => (s, true)
  | some q =>
    let s := modSess n (fun e => { e with remain := e.remain - toks.length, tokensOut := acctAdd toks.length e.tokensOut }) s
    let s := modReq n (fun q => { q with emitted := q.emitted + toks.length }) s
    outWrite q.req.ring.val (q.req.out + 4 * q.emitted) toks s

/-- After a commit the request completes or goes on (R408, R519). -/
def afterCommit (n : Nat) (v : Serving) (last : Option Nat) (ended fits : Bool) (s : State) : State :=
  match reqOf s n with
  | none => s
  | some q =>
    let e := sessOf s n
    if !fits then endReq n 4 0x0903 0 (requestFault 0x0903 (item 4 s.host.heldOut) s)
    else if q.kind = .verify then endReq n 0 0 (if ended then 1 else 4) s
    else if !q.left.isEmpty then s
    else if q.req.maxNew = 0 then endReq n 0 0 3 s
    else if e.remain = 0 then endReq n 0 0 0 s
    else if last.isSome && ended then endReq n 0 0 1 s
    else if v.maxCtx < e.len + 1 then endReq n 0 0 2 s
    else s

/-- The accepted path of a step (R405): nodes from 0 on, as far as drafts match the results. -/
def acceptPath (toks parents ys : List Nat) (endTok remain : Nat) : Nat → List Nat → Nat → List Nat
  | 0, path, _ => path
  | f + 1, path, k =>
    if k ≠ 0 && toks.getD k 0 = endTok then path
    else match (List.range parents.length).find? (fun i => parents.getD i 0 = k && toks.getD (i + 1) 0 = ys.getD k 0) with
    | none => path
    | some i =>
      if path.length = remain then path
      else if toks.getD (i + 1) 0 = endTok then path ++ [i + 1]
      else acceptPath toks parents ys endTok remain f (path ++ [i + 1]) (i + 1)

/-- The tokens a path emits (R405), and whether the last is a draft equal to END_TOKEN. -/
def emittedOf (toks ys path : List Nat) (endTok : Nat) : List Nat × Bool :=
  let drafts := (path.drop 1).map (fun k => toks.getD k 0)
  let k := path.getLastD 0
  let ends := k ≠ 0 && toks.getD k 0 = endTok
  (if ends then drafts else drafts ++ [ys.getD k 0], ends)

/-- A decode step commits (R405, R406, R408). -/
def commitStep (n : Nat) (v : Serving) (q : Request) (s : State) : State :=
  let e := sessOf s n
  let tree := stepTree q
  let toks := e.pend :: tree.1
  let ys := (stepRows q).map (resultOf s v)
  let path := acceptPath toks tree.2 ys e.endToken e.remain toks.length [0] 0
  let out := emittedOf toks ys path e.endToken
  let slots := (List.range toks.length).map (fun i => getEntry s n (v.maxCtx + i))
  let s := forEach path.zipIdx (fun p t => setEntry n (e.len + p.2) (slots.getD p.1 0) t) s
  let s := forEach (List.range toks.length) (fun i t =>
    let t := setEntry n (v.maxCtx + i) 0 t
    if path.contains i then t else freeSlot n true (q.wave.getD 0) (slots.getD i 0) t) s
  let s := modSess n (fun e => { e with
    len := e.len + path.length, pend := out.1.getLastD e.pend, pendValid := !out.2
    accepted := acctAdd (path.length - 1) e.accepted, steps := acctAdd 1 e.steps }) s
  let s := noteWritten n (sessOf s n).len s
  let s := modReq n (fun q => { q with acc := q.acc + (path.length - 1) }) (stepDone n s)
  let x := emitTokens n out.1 s
  afterCommit n v out.1.getLast? (out.1.contains e.endToken) x.2 x.1

/-- STEP_COMMIT (R405, R406): at boundary action 2, a step whose wave is complete and whose rows are clean. -/
def execStepCommit (n : Fin 16384) (s : State) : Out :=
  .next (if !mayAct s 2 || (sessOf s n.val).state ≠ 3 then s else
    match stepReady s n.val with
    | none => s
    | some (v, q) =>
      if stepLame s v q || (badResult s v q).isSome then s else
      commitStep n.val v q (forEach (stepRows q) (chargeResult v) (setAct 2 s)))

/-- A prefill chunk commits (R407, R408); a y at or above VOCAB is known to action 3 (R409, log 89). -/
def commitChunk (n : Nat) (v : Serving) (q : Request) (s : State) : State :=
  let row := q.row0 + q.chunk - 1
  let y := resultOf s v row
  let last := q.left.isEmpty && q.req.maxNew ≠ 0
  let s := modSess n (fun e => { e with len := e.len + q.chunk, pendValid := last, pend := if last then y else e.pend }) s
  let s := noteWritten n (sessOf s n).len s
  let s := modReq n (fun q => if last && v.vocab ≤ y then { q with bad := some (row, y) } else q) (stepDone n s)
  let x := if last then emitTokens n [y] s else (s, true)
  afterCommit n v (if last then some y else none) (last && y = (sessOf s n).endToken) x.2 x.1

/-- PREFILL_COMMIT (R407): at boundary action 2, a chunk whose wave is complete and whose rows are clean. -/
def execPrefillCommit (n : Fin 16384) (s : State) : Out :=
  .next (if !mayAct s 2 || (sessOf s n.val).state ≠ 2 then s else
    match stepReady s n.val with
    | none => s
    | some (v, q) => if stepLame s v q then s else
      commitChunk n.val v q (forEach (stepRows q) (chargeResult v) (setAct 2 s)))

/-! ## Ends and cancellations (R409 to R412) -/

/-- A request ends for a y at or above VOCAB: with the first code recorded against its rows, else RESULT_RANGE (R409). -/
def rangeEnd (n : Nat) (q : Request) (row y : Nat) (s : State) : State :=
  if q.code ≠ 0 then endReq n 4 q.code 0 s
  else endReq n 4 0x0709 0 (requestFault 0x0709 (item 2 row ++ item 4 y) s)

/-- Ends of R409 step 1 for session `n`: a row that is lame in a complete wave, or a y out of range. -/
def faultEnd (n : Nat) (s : State) : State :=
  match reqOf s n with
  | none => s
  | some q => match q.bad with
    | some x => rangeEnd n q x.1 x.2 s
    | none => match stepReady s n with
      | none => s
      | some (v, _) =>
        if stepLame s v q then endReq n 4 q.code 0 s
        else if (sessOf s n).state ≠ 3 then s
        else match badResult s v q with
        | some r => rangeEnd n q r (resultOf s v r) s
        | none => s

/-- A session's LAST_KIND (R388). -/
def lastDone (n kind : Nat) (s : State) : State := modSess n (fun e => { e with lastKind := kind }) s

/-- A queued request of session `n` completes CANCELLED (R411). -/
def cancelQueued (n : Nat) (q : Request) (s : State) : State :=
  lastDone n 1 (remember n q.req.reqTag (serveCompletion q.req q.handle 1 0 0 0 0 (sessOf s n).len
    (modServe (fun v => { v with queues := smod [] v.queues n (fun l => l.erase q) }) s)))

/-- The running request of session `n` completes CANCELLED: its rows leave every open launch (R376, R411). -/
def cancelRunning (n : Nat) (s : State) : State :=
  match reqOf s n with | none => s | some q => endReq n 1 0 0 (hitchCancel (stepRows q) s)

/-- A CANCEL or CLOSE of session `n` completes (R411, R412). -/
def endDone (n kind : Nat) (r : ServeReq) (s : State) : State :=
  lastDone n kind (serveCompletion r r.session kind 0 0 0 0 (sessOf s n).len s)

/-- A CANCEL acts (R411). -/
def applyCancel (r : ServeReq) (s : State) : State :=
  let n := r.session % 16384
  let late := fun (s : State) => endDone n (if s.serve.recent.contains (n, r.target) then 2 else 3) r s
  if handleOf (sessOf s n) n ≠ r.session then serveCompletion r r.session 3 0 0 0 0 0 s
  else match (sget [] s.serve.queues n).find? (fun q => q.req.reqTag = r.target) with
  | some q => endDone n 0 r (cancelQueued n q s)
  | none =>
    match reqOf s n with
    | some q => if q.req.reqTag = r.target then endDone n 0 r (cancelRunning n s) else late s
    | none => late s

/-- A CLOSE acts (R412): every request of the session is cancelled, its slots are freed, and it waits for their return. -/
def applyClose (r : ServeReq) (s : State) : State :=
  let n := r.session % 16384
  if handleOf (sessOf s n) n ≠ r.session then serveCompletion r r.session 3 0 0 0 0 0 s
  else
    let s := forEach (sget [] s.serve.queues n) (fun q t => cancelQueued n q t) s
    let before := s.serve.freeing.length
    let s := cancelRunning n s
    let e := sessOf s n
    let s := if e.state = 4 then s else forEach (List.range e.len) (fun p t => closeSlot n p (getEntry t n p) (setEntry n p 0 t)) s
    let mark := fun (l : List Freeing) => l.take before ++ (l.drop before).map (fun f => { f with byClose := true })
    modServe (fun v => { v with freeing := mark v.freeing, closing := smod [] v.closing n (· ++ [r]) }) (modSess n (fun e => { e with state := 4 }) s)

/-- REQUEST_FAULT_END (R409 to R411): action 3 ends the requests whose rows are lame or out of range, then applies the CANCELs
and CLOSEs admitted at earlier boundaries, in admission order. -/
def execRequestFaultEnd (s : State) : Out :=
  .next (if !mayAct s 3 then s else
    let s := setAct 3 s
    let s := forEach s.serve.order faultEnd s
    let due := s.serve.cancels.filter (fun c => c.2.2 < s.stride.count)
    let s := modServe (fun v => { v with cancels := v.cancels.filter (fun c => !(c.2.2 < s.stride.count)) }) s
    forEach due (fun c t => if c.1 then applyClose c.2.1 t else applyCancel c.2.1 t) s)

/-- CLOSE_COMPLETE (R412): at the first boundary at which every slot the CLOSE freed has returned. -/
def execCloseComplete (n : Fin 16384) (s : State) : Out :=
  .next (if !mayAct s 3 || (sessOf s n.val).state ≠ 4 || s.serve.freeing.any (fun f => f.sess = n.val && f.byClose) then s else
    let l := sget [] s.serve.closing n.val
    let s := forEach l (fun r t => endDone n.val 0 r t) (setAct 3 s)
    modServe (fun v => { v with closing := sset [] v.closing n.val [] }) (freeSession n.val s))

/-! ## Job end -/

/-- JOB_ENDED is a request fault of its own (R466); a job fault's code is recorded where it is declared. -/
def jobEnded (code : Nat) (detail : List Byte) (s : State) : State := if code = 0x0260 then requestFault code detail s else s

/-- The CLOSEs of session `n` that act end with the job, and it becomes IDLE: as its last commit left it where every slot that the CLOSE
freed still waits, else with no KV (R413, R455, log 89). -/
def endClosing (code : Nat) (n : Nat) (s : State) : State :=
  let mine := s.serve.freeing.filter (fun f => f.sess = n && f.pos.isSome)
  let whole := mine.length = (sessOf s n).len
  let s := forEach (sget [] s.serve.closing n) (fun r t =>
    lastFault n code (serveCompletion r r.session 4 code 0 0 0 (sessOf t n).len (jobEnded code (item 4 r.session) t))) s
  let s := modServe (fun v => { v with closing := sset [] v.closing n [] }) s
  let s := modSess n (fun e => { e with state := 1, len := if whole then e.len else 0, pendValid := e.pendValid && whole }) s
  if !whole then s else
  forEach mine (fun f t => setEntry n (f.pos.getD 0) f.addr (modServe (fun v => { v with freeing := v.freeing.erase f }) t)) s

/-- A CLOSE that was admitted and has not acted ends with the job (R413, R455). -/
def endCloseReq (code : Nat) (r : ServeReq) (s : State) : State :=
  let n := r.session % 16384
  lastFault n code (serveCompletion r r.session 4 code 0 0 0 (sessOf s n).len (jobEnded code (item 4 r.session) s))

/-- Every request of the job that has not completed ends with a code; sessions keep their last commit (R413, R455). CANCELs stay and
report what became of their targets. -/
def endRequests (code : Nat) (s : State) : State :=
  let s := forEach ((s.serve.queues.map (fun p => p.1))) (fun n t =>
    forEach (sget [] t.serve.queues n) (fun q u => faultDone n q code (jobEnded code (item 4 q.handle) u))
      (modServe (fun v => { v with queues := sset [] v.queues n [] }) t)) s
  let s := forEach s.serve.order (fun n t =>
    endReq n 4 code 0 (jobEnded code (item 4 (handleOf (sessOf t n) n)) t)) s
  let s := forEach ((s.serve.sessions.filter (fun x => x.2.state = 4)).map (fun x => x.1)) (endClosing code) s
  let s := forEach (s.serve.cancels.filter (fun c => c.1)) (fun c => endCloseReq code c.2.1) s
  modServe (fun v => { v with
    cancels := v.cancels.filter (fun c => !c.1)
    freeing := v.freeing.map (fun f => { f with wave := 0, quiet := some (f.quiet.getD 0) })
    rows := [], stuck := [], prefillWaves := 0, decodeWaves := 0, prefillAt := none, decodeAt := none }) s

/-- Quiet boundaries of rows and freed slots pass (R393, R402); rows that are free again are forgotten. -/
def quietTick (s : State) : State :=
  let tick := fun (d : Bool) (w : Nat) (q : Option Nat) => match q with
    | some k => some (k + 1)
    | none => if waveDone s d w then some 0 else none
  let s := modServe (fun v => { v with
    rows := v.rows.map (fun u => { u with quiet := tick u.decode u.wave u.quiet })
    freeing := v.freeing.map (fun f => { f with quiet := tick f.decode f.wave f.quiet }) }) s
  modServe (fun v => { v with rows := v.rows.filter (fun u => !rowFree s u.row || u.live) }) s

end Sys2Proof.Machine
end

