-- ==== Sys2Proof/Machine/Weights.lean ====
section
/-!
DEFINITION. Weight delivery (R415 to R431): the resident directory, weight commands, the relay, STAGE with its checks
(R433 to R438) and adapter bindings.
-/
namespace Sys2Proof.Machine

/-! ## Space in a tier -/

/-- Ranges of a die half in use: resident objects, the job's placed objects, and what waits to be released (R415, R420). -/
def occupied (s : State) (tier die : Nat) : List (Nat × Nat) :=
  (s.weights.dir.filter (fun d => d.tier = tier && d.die = die)).map (fun d => (d.base, ceilDiv d.bytes (pageBytes tier) * pageBytes tier)) ++
  ((s.tiers.placed ++ s.tiers.leaving).filter (fun o => o.entry.tier = tier && o.entry.die = die)).map
    (fun o => (o.base, ceilDiv o.entry.bytes (pageBytes tier) * pageBytes tier))

/-- A range of `n` bytes from `a` meets none of the ranges. -/
def rangeFree (l : List (Nat × Nat)) (a n : Nat) : Bool := l.all (fun r => a + n ≤ r.1 || r.1 + r.2 ≤ a)

/-- Whole blocks of tier F behind a die that hold a page bound to the running job: Etxia programs none of them (R288). -/
def boundBlocks (s : State) (die : Nat) : List (Nat × Nat) :=
  let span := blockSpan s
  (s.tiers.placed.filter (fun o => o.entry.tier = 2 && o.entry.die = die)).map
    (fun o => (o.base / span * span, ceilDiv (o.base % span + o.entry.bytes) span * span))

/-- The lowest page boundary of a die half from which an object fits beside the ranges `l`, outside the regions of R298. -/
def spaceBeside (s : State) (l : List (Nat × Nat)) (tier die bytes : Nat) : Option Nat :=
  let n := ceilDiv bytes (pageBytes tier) * pageBytes tier
  let base := tierBase tier die
  let ok := fun (a : Nat) => a + n ≤ base + tierRoom s tier die && rangeFree l a n
  let starts := (base :: l.map (fun r => r.1 + r.2)).filter (fun a => base ≤ a && ok a)
  starts.foldl (fun (m : Option Nat) a => match m with | none => some a | some b => some (Nat.min a b)) none

/-- Where an object that the job's table places goes (R290). -/
def findSpace (s : State) (tier die bytes : Nat) : Option Nat := spaceBeside s (occupied s tier die) tier die bytes

/-- Where an object that Etxia writes goes (R420): in tier F beside the blocks of R288 if it fits there; else its writing waits. -/
def writeSpace (s : State) (tier die bytes : Nat) : Option Nat :=
  if tier ≠ 2 then findSpace s tier die bytes
  else (spaceBeside s (occupied s tier die ++ boundBlocks s die) tier die bytes).or (findSpace s tier die bytes)

/-- Free placement pages of a die half. -/
def freePages (s : State) (tier die : Nat) : Nat :=
  let used := ((occupied s tier die).eraseDups).foldl (fun n r => n + r.2 / pageBytes tier) 0
  tierRoom s tier die / pageBytes tier - used

/-! ## Commands -/

/-- Why a LOAD or a relay hop cannot place an object (R420): the details of RESIDENT_FULL. -/
def placeFails (s : State) (objId tier die bytes : Nat) : Option (List Byte) :=
  let pages := item 1 tier ++ item 1 die ++ item 4 (ceilDiv bytes (pageBytes tier)) ++ item 4 (freePages s tier die)
  if (dirFind s objId).isSome then some pages
  else if 4096 ≤ s.weights.dir.length then some (item 4 s.weights.dir.length)
  else if (findSpace s tier die bytes).isNone then some pages
  else none

/-- A new directory entry in state LOADING (R415, R416). -/
def dirAdd (objId tier die kind bytes modelId : Nat) (stored : Bool) (s : State) : State :=
  let e : DirEntry := { objId := objId, tier := tier, die := die, kind := kind, state := 0, bytes := bytes
                        base := (writeSpace s tier die bytes).getD 0, modelId := modelId, stored := stored }
  modWeights (fun w => { w with dir := w.dir ++ [e] }) s

/-- Fields that every weight command checks (R419, R420). -/
def weightFieldsOk (cmd : Nat) (w : WeightCmd) : Bool := !w.rsvd && w.cmdTag ≠ 0 && !weightUnused cmd w

/-- Etxia may write `n` bytes of an object at `a`: no block of R288, and its class is open (R266, log 45). -/
def writeOpen (s : State) (a n : Nat) : Bool := mayProgram s a n && pageOpen s 4 a

/-- The last byte of an object is stored in this stride (R417). -/
def dirStored (id : Nat) (s : State) : State := dirSet id (fun d => { d with stored := true, since := s.stride.count }) s

/-- A LOAD goes on as far as class 4 allows; none writes a tier F block of the running job (R264, R266, R288). With its last unit the
object is stored and the command completes (R420, R421). -/
def loadGo (x : Load) (s : State) : State :=
  match dirFind s x.cmd.objId with
  | none => weightRefused x.cmd s
  | some d =>
    if !mayProgram s d.base d.bytes then modWeights (fun w => { w with loads := w.loads ++ [x] }) s
    else
      let m := moveUnits x.left s
      if m.1 ≠ [] then modWeights (fun w => { w with loads := w.loads ++ [{ x with left := m.1 }] }) m.2
      else weightDone x.cmd 0 0 d.bytes (dirStored d.objId (portTouch d.base d.bytes (writeBytes d.base (x.data.take d.bytes) m.2)))

/-- Every LOAD under way goes on, the oldest first. -/
def loadsGo (s : State) : State := forEach s.weights.loads loadGo (modWeights (fun w => { w with loads := [] }) s)

/-- LOAD (R419 to R422): once the checks pass, the object's bytes come over PCIe under class 4. -/
def execWeightLoad (w : WeightCmd) (readOk : Bool) (data : List Byte) (s : State) : Out :=
  .next (if !admitsWeight s 1 w then s else
    let s := admitEntry w.ring s
    if !weightFieldsOk 1 w || w.objId = 0 || 3 ≤ w.tier || w.bytes % 64 ≠ 0 || w.bytes < 64 then weightRefused w s
    else match placeFails s w.objId w.tier w.die w.bytes with
    | some d => weightFault w 0x0242 d s
    | none =>
      if !readOk then weightFault w 0x0244 (item 8 w.src) s
      else loadGo { cmd := w, data := data, left := unitsOver (pagePorts w.tier w.die) w.bytes }
        (dirAdd w.objId w.tier w.die (bit01 w.adapter) w.bytes w.modelId false s))

/-- DROP (R417, R420). -/
def execWeightDrop (w : WeightCmd) (s : State) : Out :=
  .next (if !admitsWeight s 3 w then s else
    let s := admitEntry w.ring s
    if !weightFieldsOk 3 w then weightRefused w s
    else match dirFind s w.objId with
    | none => weightRefused w s
    | some d =>
      let holder := (s.weights.bindings.find? (fun b => b.2 = w.objId)).map (fun b => handleOf (sessOf s b.1) b.1)
      if d.state = 2 || d.byJob then weightFault w 0x0243 (item 4 w.objId ++ item 8 (runTackId s)) s
      else if d.kind = 1 && holder.isSome then weightFault w 0x0243 (item 4 w.objId ++ item 4 (holder.getD 0)) s
      else weightDone w 0 0 0 (dirSet w.objId (fun d => { d with dropReq := true }) s))

/-- BIND (R429). -/
def execWeightBind (w : WeightCmd) (s : State) : Out :=
  .next (if !admitsWeight s 5 w then s else
    let s := admitEntry w.ring s
    let n := w.session % 16384
    if !weightFieldsOk 5 w then weightRefused w s
    else if w.session ≠ 0 && ((sessOf s n).state = 0 || handleOf (sessOf s n) n ≠ w.session) then
      weightFault w 0x0701 (item 4 w.session ++ item 4 (sessOf s n).gen.toNat ++ item 2 (sessOf s n).client) s
    else
      let d := dirFind s w.objId
      let ok := w.objId = 0 || match d with
        | some d => d.kind = 1 && (d.state = 1 || d.state = 2) && baseBound s d.modelId
        | none => false
      if !ok then weightFault w 0x0246 (item 4 ((d.map (fun x => x.modelId)).getD 0) ++ item 4 (baseModel s)) s
      else
        weightDone w 0 0 0 (modWeights (fun k => if w.session = 0 then { k with deflt := w.objId }
          else { k with bindings := sset 0 k.bindings n w.objId }) s))

/-- LIST (R416, R419): the directory goes to STATUS. -/
def execWeightList (w : WeightCmd) (s : State) : Out :=
  .next (if !admitsWeight s 6 w then s else
    let s := admitEntry w.ring s
    if !weightFieldsOk 6 w then weightRefused w s
    else weightDone w 0 0 0 (emit (.hostWrite w.status (s.weights.dir.map dirWords).flatten) s))

/-! ## STAGE -/

/-- A cache slot (R435). -/
def cacheSlot (s : State) (k : Fin 2) : CacheSlot := if k = 0 then s.weights.slotA else s.weights.slotB

/-- A cache slot changed. -/
def setSlot (k : Fin 2) (c : CacheSlot) (s : State) : State :=
  modWeights (fun w => if k = 0 then { w with slotA := c } else { w with slotB := c }) s

/-- The header of R433. -/
def headerOk (t : Tack) : Bool :=
  t.ver = 4 && !t.headerRsvd && t.tackId ≠ 0 && 1 ≤ t.groupChips && t.groupChips ≤ 4096 && t.groupRank < t.groupChips &&
  3 ≤ t.installStrides && t.installStrides ≤ 1048576 && t.adapterSlots ≤ 15

/-- The sections of R434 in an image of `n` bytes: types, presence, places, no overlap (R436). -/
def sectionsOk (t : Tack) (n : Nat) : Bool :=
  let used := t.sections.filter (fun x => x.type ≠ 0)
  let types := used.map (fun x => x.type)
  t.sections.all (fun x => x.zero = 0) && (t.sections.filter (fun x => x.type = 0)).all (fun x => x.length = 0 && x.offset = 0) &&
  types.all (fun x => x ≤ 11) && types.eraseDups.length = types.length &&
  [1, 2, 3, 4, 5, 6, 7, 11].all (fun x => types.contains x) && (!t.serving || types.contains 9) &&
  used.all (fun x => x.offset % 64 = 0 && x.offset + x.length ≤ n) &&
  (used.zipIdx.all (fun a => used.zipIdx.all (fun b => a.2 = b.2 || a.1.offset + a.1.length ≤ b.1.offset ||
    b.1.offset + b.1.length ≤ a.1.offset)))

/-- The tier of a local address: 0 H, 1 L, 2 F, 3 another. -/
def tierNo (s : State) (a : Nat) : Nat := match tierOf (regionOf s a) with | some (t, _) => t | none => 3
/-- The die of a tier address. -/
def dieNo (s : State) (a : Nat) : Nat := match tierOf (regionOf s a) with | some (_, d) => d | none => 2

/-- Sum of the sizes of the objects with a property. -/
def sumBytes (l : List ObjEntry) (p : ObjEntry → Bool) : Nat := (l.filter p).foldl (fun n o => n + o.bytes) 0

/-- nH, nL and nF of R438 for an image of `n` bytes: the larger of the two dies. -/
def phaseStrides (s : State) (t : Tack) (n : Nat) : Nat × Nat × Nat :=
  let l := (tackObjects t).filter (fun o => !o.resident)
  let copies := fun (o : ObjEntry) => o.backing ≠ 0 && o.pin
  let xh := fun (d : Nat) => (if d = 0 then Nat.min n 201326592 else n - Nat.min n 201326592) +
    sumBytes l (fun o => o.tier = 0 && o.die = d && o.backing = 0)
  let xl := fun (d : Nat) =>
    sumBytes l (fun o => o.tier = 0 && copies o && tierNo s o.backing = 1 && dieNo s o.backing = d) +
    sumBytes l (fun o => o.tier = 1 && o.die = d && (o.backing = 0 || copies o))
  let xf := fun (d : Nat) => sumBytes l (fun o => copies o && tierNo s o.backing = 2 && dieNo s o.backing = d)
  (Nat.max (ceilDiv (xh 0) 53687040) (ceilDiv (xh 1) 53687040),
   Nat.max (ceilDiv (xl 0) 6990504) (ceilDiv (xl 1) 6990504),
   Nat.max (ceilDiv (xf 0) 314576) (ceilDiv (xf 1) 314576))

/-- S of R438, assuming every RESIDENT entry binds (R436). -/
def stridesNeeded (s : State) (t : Tack) (n : Nat) : Nat :=
  let x := phaseStrides s t n
  3 + x.1 + x.2.1 + x.2.2

/-- The first check of R436 that fails, 1 to 5. -/
def stageCheck (s : State) (t : Tack) (n : Nat) : Option Nat :=
  if 402653184 < n then some 1
  else if !headerOk t then some 2
  else if !sectionsOk t n then some 3
  else if t.installStrides < stridesNeeded s t n then some 4
  else if !t.keep.all (fun k => (tackObjects t).any (fun o => o.objId = k && o.tier < 2)) then some 5
  else none

/-- What the image of `n` bytes takes of the cache slot: 192 MiB on die 0, the rest on die 1 (R435). -/
def stageUnits (n : Nat) : Sparse Nat :=
  let n := Nat.min n 402653184
  unitsOver (pagePorts 0 0) (Nat.min n 201326592) ++ unitsOver (pagePorts 0 1) (n - 201326592)

/-- STAGE (R435, R436, R442): the slot is STAGING while the image is read under class 4; Etxia records the SHA-256 digest of its bytes. `t`
is the tack that the image's bytes spell (log 9). -/
def execWeightStage (w : WeightCmd) (readOk : Bool) (t : Tack) (image : List Byte) (s : State) : Out :=
  .next (if !admitsWeight s 4 w then s else
    let s := admitEntry w.ring s
    let c := cacheSlot s w.slot
    if !weightFieldsOk 4 w || w.bytes % 64 ≠ 0 || w.bytes < 64 then weightRefused w s
    else if c.state = 1 || c.state = 3 then weightFault w 0x0241 (item 1 c.state) s
    else setSlot w.slot { state := 1, tack := some t, digest := Config.digest 256 (image.map (fun b => b.toNat)), bytes := w.bytes
                          cmd := some w, readOk := readOk, image := image.take w.bytes, left := stageUnits w.bytes } s)

/-! ## Object states -/

/-- The pages of a resident object return to their tier; sessions of its pool become FREE (R389, R417). -/
def dirRemove (d : DirEntry) (s : State) : State :=
  poolReleased d.objId d.base (ceilDiv d.bytes (pageBytes d.tier) * pageBytes d.tier)
    (modTiers (fun t => { t with pages := (dirPages d).foldl (fun m p => sset .unmapped m p .unmapped) t.pages })
      (modWeights (fun w => { w with dir := w.dir.filter (fun x => x.objId ≠ d.objId) }) s))

/-- OBJECT_STATE_UPDATE (R417): boundary action 6. -/
def execObjectStateUpdate (s : State) : Out :=
  .next (if !mayAct s 6 then s else
    let now := s.stride.count
    let s := setAct 6 s
    let s := forEach (s.weights.dir.filter (fun d => d.state = 3 && d.since < now)) dirRemove s
    modWeights (fun w => { w with dir := w.dir.map (fun d =>
      if d.state = 0 && d.stored && d.since < now && pagePaid s 4 d.base then { d with state := 1 }
      else if d.state = 1 && d.byJob then { d with state := 2 }
      else if d.state = 2 && !d.byJob then { d with state := 1 }
      else if d.state = 1 && d.dropReq then { d with state := 3, since := now } else d) }) s)

/-! ## The relay -/

/-- Relay slot `k`. -/
def relayOf (s : State) (k : Fin 2) : Option Relay := sget none s.weights.relays k.val
/-- Relay slot `k` set. -/
def setRelay (k : Fin 2) (r : Option Relay) (s : State) : State :=
  modWeights (fun w => { w with relays := sset none w.relays k.val r }) s

/-- Chunk size (R424). -/
def chunkSize : Nat := 1048576
/-- Chunks of a relay. -/
def relayChunks (r : Relay) : Nat := ceilDiv r.bytes chunkSize
/-- Hop `i` of a relay. -/
def hopAt (r : Relay) (i : Nat) : Hop := r.hops.getD i {}
/-- Hop `h` keeps a byte of chunk `k`. -/
def hopKeeps (h : Hop) (k : Nat) : Bool :=
  h.objId ≠ 0 && h.keepOff < (k + 1) * chunkSize && k * chunkSize < h.keepOff + h.keepLen
/-- Hop `i` or one behind it keeps a byte of chunk `k` (R424). -/
def keptFrom (r : Relay) (i k : Nat) : Bool := (r.hops.drop i).any (fun h => hopKeeps h k)
/-- Some hop after this one, from `r.next` on, keeps a byte of chunk `k` (R424). -/
def laterNeeds (r : Relay) (k : Nat) : Bool := keptFrom r r.next k
/-- Chunk `k` comes to this hop: hop 0 reads every chunk, another hop gets those that it or a later one keeps (R424). -/
def chunkComes (r : Relay) (k : Nat) : Bool := k < relayChunks r && (r.me = 0 || keptFrom r r.me k)
/-- Chunk `k` has been received. -/
def chunkHere (r : Relay) (k : Nat) : Bool := k < r.got || r.ahead.contains k
/-- Every chunk that comes to this hop has been received. -/
def allHere (r : Relay) : Bool := (List.range (relayChunks r)).all (fun k => !chunkComes r k || chunkHere r k)
/-- The lowest chunk from `k` on that comes to this hop and is not received. -/
def lowestMissing (r : Relay) (k : Nat) : Nat :=
  (((List.range (relayChunks r - k)).map (k + ·)).find? (fun j => chunkComes r j && !chunkHere r j)).getD (relayChunks r)
/-- Chunk `k` received. -/
def takeChunk (k : Nat) (r : Relay) : Relay :=
  let r := { r with ahead := r.ahead ++ [k], tries := sset 0 r.tries k 0 }
  let g := lowestMissing r r.got
  { r with got := g, ahead := r.ahead.filter (fun j => g ≤ j) }

/-- A relay begins on this chip: its object, if its hop names one, is created or the hop is REFUSED (R420, R428). -/
def relayBegin (k : Fin 2) (r : Relay) (s : State) : State :=
  let h := hopAt r r.me
  let r := { r with got := lowestMissing r 0 }
  if h.objId = 0 then setRelay k (some r) s
  else if (placeFails s h.objId h.tier h.die h.keepLen).isSome then setRelay k (some { r with refused := true }) s
  else setRelay k (some r) (dirAdd h.objId h.tier h.die (bit01 r.adapter) h.keepLen r.modelId false s)

/-- A hop from its 32 bytes (R423). -/
def hopDecode (x : BitVec 256) : Hop :=
  let f := fun (byte lo n : Nat) => (x.extractLsb' (8 * byte + lo) n).toNat
  { chip := f 0 0 16, tier := f 2 0 2, die := f 2 2 1, objId := f 4 0 32, keepOff := f 8 0 64, keepLen := f 0x10 0 64
    rsvd := f 2 3 5 ≠ 0 || f 3 0 8 ≠ 0 || f 0x18 0 64 ≠ 0 }

/-- Hops of a list are well formed (R423). -/
def hopsOk (hops : List Hop) (bytes : Nat) : Bool :=
  1 ≤ hops.length && hops.length ≤ 4096 && hops.all (fun h => !h.rsvd && h.tier < 3 && h.die < 2 &&
    h.keepOff % chunkSize = 0 && h.keepLen % 64 = 0 && (h.objId ≠ 0 || h.keepLen = 0) && h.keepOff + h.keepLen ≤ bytes)

/-- RELAY (R419, R423, R424): this chip is hop 0; a third relay at once fails. -/
def execWeightRelay (w : WeightCmd) (readOk : Bool) (list : List (BitVec 256)) (s : State) : Out :=
  .next (if !admitsWeight s 2 w then s else
    let s := admitEntry w.ring s
    let hops := list.map hopDecode
    if !weightFieldsOk 2 w || w.bytes % 64 ≠ 0 || w.bytes < 64 || w.hops = 0 || 4096 < w.hops then weightRefused w s
    else if !readOk then weightFault w 0x0244 (item 8 w.desc) s
    else if hops.length ≠ w.hops || !hopsOk hops w.bytes then weightRefused w s
    else
      let r : Relay := { cmd := some w, hops := hops, adapter := w.adapter, modelId := w.modelId, bytes := w.bytes }
      match [(0 : Fin 2), 1].find? (fun k => (relayOf s k).isNone) with
      | none => weightFault w 0x0242 (item 1 2) s
      | some k => relayBegin k r s)

/-! ## RELAY packets (R482, log 28) -/

/-- Bytes of chunk `k` of an object. -/
def chunkLen (r : Relay) (k : Nat) : Nat := Nat.min chunkSize (r.bytes - k * chunkSize)

/-- The bytes of a hop (R423). -/
def hopBytes (h : Hop) : List Byte :=
  bytesLE 2 h.chip ++ bytesLE 1 (h.tier % 4 + 4 * (h.die % 2)) ++ bytesLE 1 0 ++ bytesLE 4 h.objId ++ bytesLE 8 h.keepOff ++
  bytesLE 8 h.keepLen ++ bytesLE 8 0

/-- What goes before chunk 0: BYTES, MODEL_ID, HOPS, the place of the hop it goes to, KIND, whether chunk 0 itself follows, and the hop list
(R424, R482, log 28). -/
def introBytes (r : Relay) (i : Nat) (data : Bool) : List Byte :=
  padTo 32 (bytesLE 8 r.bytes ++ bytesLE 4 r.modelId ++ bytesLE 2 r.hops.length ++ bytesLE 2 i ++ bytesLE 1 (bit01 r.adapter) ++
    bytesLE 1 (bit01 data)) ++ r.hops.flatMap hopBytes

/-- A chunk with its CRC-32C at the end of the last segment (R424, R482). -/
def chunkBytes (r : Relay) (i k : Nat) (data : List Byte) : List Byte :=
  (if k = 0 then introBytes r i (!data.isEmpty) else []) ++ data ++ bytesLE 12 0 ++ bytesLE 4 (crc32c data).toNat

/-- A RELAY packet (R482): `flags` is 0 for a segment, 1 ACK, 2 resume query, 3 a note of Etxia (log 28). -/
def relayPacket (s : State) (dst : Nat) (slot : Fin 2) (chunk seg flags : Nat) (b : List Byte) : Packet :=
  { dstChip := BitVec.ofNat 16 dst, srcChip := BitVec.ofNat 16 (ownChip s), type := 7, epoch := s.job.epoch, body := ceilDiv b.length 16
    data := bodyWords b
    info := atBit 0 (chunk % 2 ^ 24) ||| atBit 24 (seg % 2048) ||| atBit 35 flags ||| atBit 37 slot.val }

/-- The segments of a message of up to 512 bytes each (R482). -/
def relaySegments (s : State) (dst : Nat) (slot : Fin 2) (chunk : Nat) (b : List Byte) : List Packet :=
  (List.range (ceilDiv b.length 512)).map (fun i => relayPacket s dst slot chunk i 0 ((b.drop (512 * i)).take 512))

/-- What a relay note says (log 28): a chunk acknowledged (R426), the resume query (R427), a chunk received, a chunk asked for again
(R425), the lowest chunk not received (R427), no good copy of a chunk (R425). -/
inductive NoteKind where
  | ack
  | query
  | received
  | again
  | lowest
  | noCopy
  deriving DecidableEq, Repr

/-- The flags of a note (R482). -/
def noteFlags : NoteKind → Nat
  | .ack => 1
  | .query => 2
  | _ => 3

/-- The SEGMENT of a note (log 28). -/
def noteSeg : NoteKind → Nat
  | .again => 1
  | .lowest => 2
  | .noCopy => 3
  | _ => 0

/-- A note goes to a chip; one that has no route is lost. -/
def relayNote (chip : Nat) (slot : Fin 2) (kind : NoteKind) (chunk : Nat) (s : State) : State :=
  packetOut (jobStride s) (relayPacket s chip slot chunk (noteSeg kind) (noteFlags kind) [])
    (.relayNote chip slot.val (4 * noteFlags kind + noteSeg kind) chunk) (fun _ => linkDiscard) s

/-! ## A broken chain (R427) -/

/-- Chunks of hop `i`'s range that hop is known to have (R428): sent to it, and acknowledged or reported received. -/
def chunksOf (r : Relay) (i : Nat) : Nat :=
  ((List.range (relayChunks r)).filter (fun k => hopKeeps (hopAt r i) k && chunkHere r k && !r.waiting.any (fun x => x.1 = k) &&
    (!r.kept.any (fun x => x.1 = k) || r.there.contains k))).length

/-- A hop's result noted (R428): 1 UNREACHABLE, 2 NOT_REACHED, with the `n` chunks it is known to have stored. -/
def relayMark (i result n : Nat) (r : Relay) : Relay := { r with results := sset none r.results i (some (result, n)) }

/-- The chain ends at this hop: nothing more is forwarded, and what it owes it acknowledges (R426). -/
def relayCut (slot : Fin 2) (s : State) : State :=
  match relayOf s slot with
  | none => s
  | some r => forEach (if r.me = 0 then [] else r.owe) (relayNote (hopAt r (r.me - 1)).chip slot .ack)
      (setRelay slot (some { r with next := r.hops.length, asking := none, kept := [], there := [], waiting := [], owe := [] }) s)

/-- The first of the hops `l` that has a route is asked for the lowest chunk it has not received; one without a route is UNREACHABLE, and
with none left the chain ends here (R427). -/
def relayAskFrom (slot : Fin 2) : List Nat → State → State
  | [], s => relayCut slot s
  | i :: l, s =>
    match relayOf s slot with
    | none => s
    | some r =>
      match routeNext s (hopAt r i).chip (hopAt r i).die true with
      | .nowhere _ => relayAskFrom slot l (countUnreach (setRelay slot (some (relayMark i 1 0 r)) s))
      | _ => relayNote (hopAt r i).chip slot .query 0 (setRelay slot (some { r with asking := some i }) s)

/-- The hops beyond hop `i`. -/
def hopsAfter (r : Relay) (i : Nat) : List Nat := (List.range (r.hops.length - (i + 1))).map (i + 1 + ·)

/-- Hop `i`, the next one or the one asked, is unreachable (R427). -/
def relayBreak (slot : Fin 2) (i : Nat) (s : State) : State :=
  match relayOf s slot with
  | none => s
  | some r =>
    if r.hops.length ≤ i || !(r.asking = some i || (r.asking = none && i = r.next)) then s
    else relayAskFrom slot (hopsAfter r i) (setRelay slot (some (relayMark i 1 (if i = r.next then chunksOf r i else 0) r)) s)

/-! ## Forwarding (R424 to R426) -/

/-- The first chunk that waits is forwarded while fewer than 32 await acknowledgement and the next hop is known (R426). -/
def relayForwardOne (slot : Fin 2) (s : State) : State :=
  match relayOf s slot with
  | none => s
  | some r => match r.waiting with
    | [] => s
    | x :: l =>
      if 32 ≤ r.kept.length || r.asking.isSome then s else
      let dst := (hopAt r r.next).chip
      let b := chunkBytes r r.next x.1 x.2
      segmentsOut (jobStride s) (relaySegments s dst slot x.1 b) (.relayChunk dst slot.val x.1 b) (fun _ => relayBreak slot r.next)
        (setRelay slot (some { r with kept := r.kept ++ [x], waiting := l }) s)

/-- Chunks that wait are forwarded as far as they may be. -/
def relayForward (slot : Fin 2) (s : State) : State := forEach (List.range 32) (fun _ => relayForwardOne slot) s

/-- Chunk `c` goes to the next hop once more (R425). -/
def relayAgain (slot : Fin 2) (c : Nat) (s : State) : State :=
  match relayOf s slot with
  | none => s
  | some r => match r.kept.find? (fun x => x.1 = c) with
    | none => s
    | some x =>
      let dst := (hopAt r r.next).chip
      let b := chunkBytes r r.next c x.2
      segmentsOut (jobStride s) (relaySegments s dst slot c b) (.relayChunk dst slot.val c b) (fun _ => relayBreak slot r.next) s

/-- Chunk `c` is acknowledged to the hop before, if this hop still owes it (R426). -/
def relayAckBack (slot : Fin 2) (c : Nat) (s : State) : State :=
  match relayOf s slot with
  | none => s
  | some r => if r.me = 0 || !r.owe.contains c then s
    else relayNote (hopAt r (r.me - 1)).chip slot .ack c (setRelay slot (some { r with owe := r.owe.erase c }) s)

/-- The kept part of chunk `c` is stored (R424). -/
def relayStore (r : Relay) (c : Nat) (data : List Byte) (s : State) : State :=
  let h := hopAt r r.me
  if r.refused || !hopKeeps h c then s
  else match dirFind s h.objId with
  | none => s
  | some d =>
    let lo := c * chunkSize
    let part := (data.take (h.keepOff + h.keepLen - lo)).drop (h.keepOff - lo)
    let a := d.base + (Nat.max lo h.keepOff - h.keepOff)
    portTouch a part.length (chargePage 4 d.base part.length (writeBytes a part s))

/-- The part of chunk `c` that this hop keeps waits for the ports it is written to (R266, R288). -/
def relayWaits (r : Relay) (c : Nat) (s : State) : Bool :=
  let h := hopAt r r.me
  !r.refused && hopKeeps h c && (match dirFind s h.objId with | some d => !writeOpen s d.base d.bytes | none => false)

/-- A relay ends on this chip without its object (R422, R425); an entry of that OBJ_ID that made the hop REFUSED is another command's. -/
def relayFail (slot : Fin 2) (r : Relay) (s : State) : State :=
  let h := hopAt r r.me
  let s := if r.refused then s else modWeights (fun w => { w with dir := w.dir.filter (fun d => d.objId ≠ h.objId || d.state ≠ 0) }) s
  match r.cmd with
  | some w => weightFault w 0x0244 (item 8 w.src) (setRelay slot none s)
  | none => setRelay slot (some { r with failed := true }) s

/-- A chunk without a good copy: asked for again up to 4 times, then the hop has failed and tells the hop before (R425). -/
def relayBad (slot : Fin 2) (r : Relay) (c : Nat) (s : State) : State :=
  let n := sget 0 r.tries c
  if r.me = 0 then relayFail slot r s
  else if n < 4 then
    relayNote (hopAt r (r.me - 1)).chip slot .again c (setRelay slot (some { r with tries := sset 0 r.tries c (n + 1) }) s)
  else relayNote (hopAt r (r.me - 1)).chip slot .noCopy c (relayFail slot r s)

/-- Every chunk of this hop's own range has been received: its object is stored (R417, R428). -/
def relayStored (r : Relay) (s : State) : State :=
  let h := hopAt r r.me
  if !r.refused && (List.range (relayChunks r)).all (fun k => !hopKeeps h k || chunkHere r k) &&
      (match dirFind s h.objId with | some d => !d.stored | none => false) then dirStored h.objId s else s

/-- A good chunk is stored and forwarded, the hop before told that it is here, and acknowledged where no later hop needs it (R424, R426). -/
def relayGood (slot : Fin 2) (r : Relay) (c : Nat) (data : List Byte) (s : State) : State :=
  let later := laterNeeds r c
  let r' := takeChunk c r
  let r' := { r' with owe := r'.owe ++ [c], waiting := if later then r'.waiting ++ [(c, data)] else r'.waiting }
  let s := setRelay slot (some r') (relayStored r' (relayStore r c data s))
  let s := if r.me = 0 then s else relayNote (hopAt r (r.me - 1)).chip slot .received c s
  if later then relayForward slot s else relayAckBack slot c s

/-- A relay that reaches this chip with its hop list (R423, R424); behind hop 0 the first forwarded chunk may not be chunk 0. -/
def relayIntro (slot : Fin 2) (x : RelayIntro) (s : State) : State :=
  let hops := x.hops.map hopDecode
  if (relayOf s slot).isSome || !hopsOk hops x.bytes || x.me = 0 || hops.length ≤ x.me then s
  else
    let r : Relay := { hops := hops, me := x.me, adapter := x.adapter, modelId := x.modelId, bytes := x.bytes, next := x.me + 1 }
    let s := relayBegin slot r s
    match relayOf s slot with
    | none => s
    | some r => if r.hops.length ≤ r.next || keptFrom r r.next 0 then s
      else
        let dst := (hopAt r r.next).chip
        let b := chunkBytes r r.next 0 []
        segmentsOut (jobStride s) (relaySegments s dst slot 0 b) (.relayChunk dst slot.val 0 b) (fun _ => relayBreak slot r.next) s

/-- A chunk reaches this hop (R424, R425): one not awaited is dropped. -/
def relayChunk (slot : Fin 2) (intro : Option RelayIntro) (c : Nat) (crc : Option (BitVec 32)) (data : List Byte) (s : State) : State :=
  let s := match intro with | none => s | some x => if c = 0 then relayIntro slot x s else s
  match relayOf s slot with
  | none => s
  | some r =>
    if r.failed || !chunkComes r c || chunkHere r c || (r.me = 0 && c ≠ r.got) then s
    else if crc.isNone || (r.me ≠ 0 && (crc ≠ some (crc32c data) || data.length ≠ chunkLen r c)) then relayBad slot r c s
    else if relayWaits r c s then s
    else relayGood slot r c data s

/-- RELAY_CHUNK_RECEIVE (R424 to R426): `crc` is the CRC-32C that came with the chunk. At hop 0 the chunk comes from SRC: no CRC stands
for a host read that failed (R422), and the value of one for nothing. -/
def execRelayChunkReceive (slot : Fin 2) (intro : Option RelayIntro) (chunk : Nat) (crc : Option (BitVec 32))
    (data : List Byte) (s : State) : Out :=
  .next (if fabricUp s then relayChunk slot intro chunk crc data s else s)

/-! ## Notes that arrive (R425 to R427) -/

/-- The next hop has chunk `c`, and with `acked` this hop need not keep it (R426). -/
def relayThere (slot : Fin 2) (acked : Bool) (c : Nat) (s : State) : State :=
  match relayOf s slot with
  | none => s
  | some r =>
    if !r.kept.any (fun x => x.1 = c) then s else
    let r := if acked then { r with kept := r.kept.filter (fun x => x.1 ≠ c), there := r.there.erase c }
      else { r with there := (r.there ++ [c]).eraseDups }
    relayForward slot (relayAckBack slot c (setRelay slot (some r) s))

/-- The hop asked has answered with the lowest chunk it has not received (R427): if nothing before the oldest chunk kept is missing there,
the chain goes on with it; what it has, or nothing behind it needs, is acknowledged. -/
def relayAnswered (slot : Fin 2) (i n : Nat) (s : State) : State :=
  match relayOf s slot with
  | none => s
  | some r =>
    let l := r.kept ++ r.waiting
    let oldest := match l with | x :: _ => x.1 | [] => r.got
    if n < oldest then relayAskFrom slot (hopsAfter r i)
      (setRelay slot (some (relayMark i 2 ((List.range n).filter (hopKeeps (hopAt r i))).length r)) s)
    else
      let send := l.filter (fun x => n ≤ x.1 && keptFrom r i x.1)
      let rest := r.owe.filter (fun c => !send.any (fun x => x.1 = c))
      relayForward slot (forEach rest (relayAckBack slot)
        (setRelay slot (some { r with next := i, asking := none, kept := [], there := [], waiting := send }) s))

/-- A note reaches this chip from chip `src`: one about a chunk counts from the next hop alone, an answer from the hop asked. -/
def relayNoted (slot : Fin 2) (kind : NoteKind) (src c : Nat) (s : State) : State :=
  match relayOf s slot with
  | none => if kind = .query then relayNote src slot .lowest 0 s else s
  | some r =>
    let next := r.asking.isNone && r.next < r.hops.length && (hopAt r r.next).chip = src
    match kind with
    | .query => relayNote src slot .lowest r.got s
    | .lowest => match r.asking with
      | some i => if (hopAt r i).chip = src then relayAnswered slot i c s else s
      | none => s
    | .ack => if next then relayThere slot true c s else s
    | .received => if next then relayThere slot false c s else s
    | .again => if next then relayAgain slot c s else s
    | .noCopy => if next then relayBreak slot r.next s else s

/-- RELAY_ACK (R426). -/
def execRelayAck (slot : Fin 2) (chip : BitVec 16) (chunk : Nat) (s : State) : Out :=
  .next (if fabricUp s then relayNoted slot .ack chip.toNat chunk s else s)

/-- RELAY_HOP_UNREACHABLE (R427): hop `hop`, the next one or the one asked, is lost; the hops beyond it are asked in turn. -/
def execRelayHopUnreachable (slot : Fin 2) (hop : Nat) (s : State) : Out :=
  .next (if fabricUp s then relayBreak slot hop s else s)

/-- RELAY_RESUME_QUERY (R427): chip `chip` asks. -/
def execRelayResumeQuery (slot : Fin 2) (chip : BitVec 16) (s : State) : Out :=
  .next (if fabricUp s then relayNoted slot .query chip.toNat 0 s else s)

/-- The result of this chip's own hop and the chunks it stored (R428). -/
def ownResult (r : Relay) : Nat × Nat :=
  (if r.refused then 3 else if r.failed then 1 else 0,
   if r.refused then 0 else ((List.range (relayChunks r)).filter (fun k => hopKeeps (hopAt r r.me) k && chunkHere r k)).length)

/-- A relay has nothing left to do on this chip (R428). -/
def relayOver (r : Relay) : Bool := r.failed || (allHere r && r.kept.isEmpty && r.waiting.isEmpty && r.asking.isNone)

/-- RELAY_COMPLETE (R428): every hop has stored its range or is marked; hop 0 writes the status array and completes. -/
def execRelayComplete (slot : Fin 2) (results : List (Nat × Nat)) (s : State) : Out :=
  .next (if !fabricUp s then s else
    match relayOf s slot with
    | none => s
    | some r =>
      if !relayOver r then s
      else match r.cmd with
      | none => setRelay slot none s
      | some w =>
        if results.length ≠ r.hops.length then s
        else
          let all := (List.range r.hops.length).map (fun i =>
            if i = r.me then ownResult r else (sget none r.results i).getD (results.getD i (2, 0)))
          let words := all.zipIdx.map (fun x => (hopAt r x.2).chip * 2 ^ 48 + x.1.1 * 2 ^ 40 + x.1.2 % 2 ^ 40)
          let bad := all.zipIdx.filter (fun x => x.1.1 ≠ 0)
          let s := emit (.hostWrite w.status words) (setRelay slot none s)
          let stored := if r.refused then 0 else (hopAt r 0).keepLen
          if bad.isEmpty then weightDone w 0 0 stored s
          else weightDone w 4 0x0245 stored
            (requestFault 0x0245 ((bad.map (fun x => item 2 (hopAt r x.2).chip ++ item 1 x.1.1)).flatten) s))

end Sys2Proof.Machine
end

