-- ==== Sys2Proof/Machine/Codes.lean ====
section
/-!
DEFINITION. Programs as bytes: the fields of stream and vector instructions (R204, R206, R248), what a groom instruction
reaches next (R176), the bytes a tack puts into a core's scratchpad, and the expansion of FWMATs (R197, R198).
-/
namespace Sys2Proof.Machine

/-! ## Fields -/

/-- The fields of the two words of a stream instruction (R248). -/
def streamFields (w0 w1 : Word) : StreamF :=
  { imm := fieldOf w0 32 32, lvl := fieldOf w0 30 2, creg := bitOf w0 29, src := fieldOf w0 23 6, sreg := bitOf w0 22
    cov := fieldOf w0 20 2, port := (fieldOf w0 16 4).toFin, ta := fieldOf w0 12 2, sa := fieldOf w0 10 2
    da := fieldOf w0 8 2, nrow := fieldOf w1 32 13, len := fieldOf w1 0 32
    rsvd := bitsOf w0 15 14 ≠ 0 || bitsOf w1 63 45 ≠ 0 }

/-- The fields of a vector operand descriptor (R206). -/
def operandFields (w : Word) : VecOperand :=
  { space := fieldOf w 62 2, bc := fieldOf w 60 2, fstep := fieldOf w 49 11, pitch := fieldOf w 32 16, base := fieldOf w 0 23
    rsvd := bitOf w 48 || bitsOf w 31 23 ≠ 0 }

/-- The fields of the four words of a vector instruction (R204). -/
def vecFields (w0 w1 w2 w3 : Word) : VecF :=
  { colsM1 := fieldOf w0 51 12, rowsM1 := fieldOf w0 39 12, sh := fieldOf w0 32 7, parg := fieldOf w0 26 6
    pinv := bitOf w0 25, psrc := fieldOf w0 23 2, cin := bitOf w0 22, dacc := bitOf w0 21, skv3 := bitOf w0 20
    sfn := fieldOf w0 17 3, fb := fieldOf w0 14 3, fa := fieldOf w0 11 3, fd := fieldOf w0 8 3, rsvd := bitOf w0 63
    d := operandFields w1, a := operandFields w2, b := operandFields w3 }

/-- The opcode byte of an instruction (R176, R204, R248). -/
def opcOf (w : Word) : Nat := w.toNat % 256

/-! ## Bytes of a tack -/

/-- Byte `off` that a tack puts into the scratchpad of core `c` (R434, R437): 0 where no block holds it. -/
def tackByte (k : Tack) (c off : Nat) : Byte :=
  match k.cores.find? (fun (x : CoreImage) => x.core.val = c) with
  | none => 0
  | some x => match x.blocks.find? (fun b => b.1 ≤ off && off < b.1 + b.2.length) with
    | none => 0
    | some b => b.2.getD (off - b.1) 0

/-- The word at `off` that a tack puts into the scratchpad of core `c`. -/
def tackWord (k : Tack) (c off : Nat) : Word :=
  BitVec.ofNat 64 (numLE ((List.range 8).map (fun i => tackByte k c (off + i))))

/-! ## Groom programs of a tack -/

/-- Bytes of a groom instruction by its opcode (R176). -/
def groomSize (opc : Nat) : Nat := if 0x40 ≤ opc && opc ≤ 0x4F then 32 else 8

/-- Where a groom instruction at `pc` may go (R176). -/
def groomNext (w : Word) (pc : Nat) : List Nat :=
  let opc := opcOf w
  let far := ((pc : Int) + (scalarFields w).imm.toInt * 8).toNat
  if opc = 0x1B then [far]
  else if 0x18 ≤ opc && opc ≤ 0x1A then [far, pc + 8]
  else if opc = 0x21 then []
  else if (0x01 ≤ opc && opc ≤ 0x11) || opc = 0x20 || opc = 0x40 || opc = 0x41 || opc = 0x4E || opc = 0x4F then [pc + groomSize opc]
  else []

/-- PCs that the threads of a core can reach from their entries, within `n` instructions. -/
def reach (k : Tack) (c : Nat) : Nat → List Nat → List Nat → List Nat
  | 0, _, seen => seen
  | _, [], seen => seen
  | n + 1, pc :: todo, seen =>
    if seen.contains pc then reach k c n todo seen
    else reach k c n (todo ++ groomNext (tackWord k c pc) pc) (seen ++ [pc])

/-- PCs of the groom instructions of a core's program. -/
def groomPcs (k : Tack) (x : CoreImage) : List Nat :=
  let entries := (x.entries.flatten.map (fun e => e.2)).eraseDups
  let size := x.blocks.foldl (fun n b => n + b.2.length / 8) 0
  reach k x.core.val (3 * (size + entries.length) + 1) entries []

/-! ## FWMAT (R197, R198) -/

/-- The gait a core's engine index and slot name in a tack. -/
def tackGait (k : Tack) (e slot : Nat) : Gait :=
  match k.engines.find? (fun (x : EngineCfg) => x.engine.val = e) with
  | none => {}
  | some x => (((cfgGaits x).find? (fun g => g.1.val = slot)).map (fun g => g.2)).getD {}

/-- A scalar word. -/
def scalarWord (opc dst src1 src2 : Nat) (imm : Int) : Word :=
  atBit 0 opc ||| atBit 8 dst ||| atBit 14 src1 ||| atBit 20 src2 ||| atBit 32 (ofSigned 32 imm)

/-- ADDs that set S[dst] = S[src] + `off`, an offset past one immediate taken in parts. -/
def addWords (dst src off : Nat) : List Word :=
  let big := 2 ^ 31 - 1
  scalarWord 0x03 dst src 0 (Nat.min off big) ::
    (List.range ((off - Nat.min off big + big - 1) / big)).map (fun i =>
      scalarWord 0x03 dst dst 0 (Nat.min (off - big * (i + 1)) big))

/-- Scalar words filled up to a multiple of 32 bytes with additions to S0, which discards them (R171). -/
def fillWords (l : List Word) : List Word := l ++ List.replicate ((4 - l.length % 4) % 4) (scalarWord 0x03 0 0 0 0)

/-- The words of group `q` of an expansion (R198) whose output elements have `ob` bits. -/
def expandGroup (w0 w1 w2 w3 : Word) (pb g ob q : Nat) : List Word :=
  let f := tileFields w0 w1 w2 w3
  let n := f.nExt.toNat
  let nb := ceilDiv f.kExt.toNat 32
  let c0 := q * g * 32
  let nq := Nat.min (g * 32) (n - c0)
  let line := if f.sgranW = 2 then nb else 1
  let adds := addWords 56 (bitsOf w3 5 0) (q * g * pb) ++
    addWords 57 f.swBase.toNat (if f.sgranW = 0 then 0 else c0 * 2 * line) ++
    addWords 58 f.outBase.toNat (c0 * ob / 8) ++ addWords 59 f.rqBase.toNat (if f.rqCol then c0 * 4 else 0) ++
    (if f.cmaskReg = 0 then [] else addWords 60 f.cmaskReg.toNat (c0 / 8))
  let res := [atBit 0 0x4E ||| atBit 8 f.eng.val ||| atBit 11 f.gait.val, atBit 0 56 ||| atBit 32 (ceilDiv nq 32 * pb), 0, 0]
  let m0 := (w0 &&& ~~~(atBit 0 0xFF ||| atBit 14 1 ||| atBit 54 63)) ||| atBit 0 0x40 ||| atBit 14 1 |||
    atBit 54 (if f.cmaskReg = 0 then 0 else 60)
  let m1 := (w1 &&& ~~~(atBit 16 0xFFFF)) ||| atBit 16 nq
  let m2 := (w2 &&& ~~~(atBit 18 63 ||| atBit 24 63 ||| atBit 36 63)) ||| atBit 18 57 ||| atBit 24 58 ||| atBit 36 59
  fillWords adds ++ res ++ fillWords [scalarWord 0x20 0 0 0 0] ++ [m0, m1, m2, 0]

/-- Why an FWMAT of engine `e` cannot be expanded (R198): 1 no panel fits or fewer than 2 tile registers, 2 a column-mask
offset that is not a multiple of 8 bytes. K = 0 has no panel to divide by and counts as 1 (DESIGN CHOICE, log 97). -/
def expandFails (g : Gait) (w0 w1 w2 w3 : Word) : Option Nat :=
  let f := tileFields w0 w1 w2 w3
  let pb := 128 * ceilDiv f.kExt.toNat 32 * weightBits f.wfmt.toNat
  if pb = 0 || g.resLen / pb = 0 || g.accCount < 2 then some 1
  else
    let n := g.resLen / pb
    if f.cmaskReg ≠ 0 && (List.range (ceilDiv (ceilDiv f.nExt.toNat 32) n)).any (fun q => q * n * 32 % 64 ≠ 0) then some 2
    else none

/-- The whole expansion of one FWMAT (R198). -/
def expandWords (g : Gait) (ob : Nat) (w0 w1 w2 w3 : Word) : List Word :=
  let f := tileFields w0 w1 w2 w3
  let pb := 128 * ceilDiv f.kExt.toNat 32 * weightBits f.wfmt.toNat
  let n := g.resLen / Nat.max 1 pb
  ((List.range (ceilDiv (ceilDiv f.nExt.toNat 32) (Nat.max 1 n))).flatMap (expandGroup w0 w1 w2 w3 pb n ob)) ++
    [scalarWord 0x20 0 0 0 0]

/-- The fields of an FWMAT break R197. -/
def fwmatBad (w0 w1 w2 w3 : Word) : Bool :=
  let f := tileFields w0 w1 w2 w3
  f.rsvd || f.init || f.keep || f.accFirst ≠ 0 || f.nsrc ≠ 0 || f.ksrc ≠ 0 || f.msrc = 3 || bitsOf w3 17 6 ≠ 0 ||
  extentRsvd f.msrc f.mExt

/-- A groom instruction names one of S56 to S63 (R197). A scalar instruction names what stands in its DST and SRC fields, used or not
(DESIGN CHOICE, log 97). -/
def groomHigh (w0 w1 w2 w3 : Word) : Bool :=
  let opc := opcOf w0
  let hi := fun (r : Nat) => 56 ≤ r
  if opc < 0x40 then
    let f := scalarFields w0
    hi f.dst.toNat || hi f.src1.toNat || hi f.src2.toNat
  else if opc = 0x4E then hi (bitsOf w1 5 0)
  else
    let f := tileFields w0 w1 w2 w3
    hi f.cmaskReg.toNat || hi f.rmaskReg.toNat || hi f.tagOut.toNat || hi f.tagIn.toNat || hi f.rqBase.toNat ||
    hi f.outPitch.toNat || hi f.outBase.toNat || hi f.swBase.toNat || hi f.saBase.toNat || hi f.aPitch.toNat || hi f.aBase.toNat ||
    (f.msrc ≠ 0 && hi (f.mExt.toNat % 64)) || (f.nsrc ≠ 0 && hi (f.nExt.toNat % 64)) || (f.ksrc ≠ 0 && hi (f.kExt.toNat % 64)) ||
    (opc = 0x4F && hi (bitsOf w3 5 0))

/-- The four words of a tile instruction of a tack. -/
def tackTile (k : Tack) (c pc : Nat) : Word × Word × Word × Word :=
  (tackWord k c pc, tackWord k c (pc + 8), tackWord k c (pc + 16), tackWord k c (pc + 24))

/-- FWMATs of a core's program, in ascending PC. -/
def fwmats (k : Tack) (x : CoreImage) : List Nat :=
  let l := (groomPcs k x).filter (fun pc => opcOf (tackWord k x.core.val pc) = 0x4F && pc % 32 = 0)
  (l.foldl (fun (m : Sparse Bool) pc => sset false m pc true) []).map (fun p => p.1)

/-- The words of every FWMAT of a core behind each other in its expansion area from `at_` on (R198, log 29): the FWMAT's place
takes a jump there, and each expansion ends with a jump behind it. -/
def expandCore (k : Tack) (c : Nat) (ob : Nat) : List Nat → Nat → List (Nat × List Word)
  | [], _ => []
  | pc :: l, at_ =>
    let (w0, w1, w2, w3) := tackTile k c pc
    let f := tileFields w0 w1 w2 w3
    let body := expandWords (tackGait k (c * 8 + f.eng.val) f.gait.val) ob w0 w1 w2 w3
    let back := scalarWord 0x1B 0 0 0 (((pc + 32 : Nat) : Int) / 8 - ((at_ + 8 * body.length : Nat) : Int) / 8)
    let jump := scalarWord 0x1B 0 0 0 ((at_ : Int) / 8 - (pc : Int) / 8)
    (pc, [jump]) :: (at_, body ++ [back]) :: expandCore k c ob l (at_ + 32 * ceilDiv (body.length + 1) 4)

/-- The expansion area of a core: offset and bytes. -/
def expandArea (k : Tack) (c : Nat) : Nat × Nat :=
  ((k.expansion.find? (fun x => x.1.val = c)).map (fun x => x.2)).getD (0, 0)

/-- Bits of an output element that an expansion assumes: no field of the FWMAT gives them, a free value (R198, log 29). -/
def expandBits (s : State) : Nat := [4, 8, 16, 32].getD (Config.freeNat s.free % 4) 8

/-- FWMATs of a list of expansions, each behind its jump, that pass `lim`. -/
def overLimit (lim : Nat) : List (Nat × List Word) → List Nat
  | (pc, _) :: (a, b) :: l => (if lim < a + 8 * b.length then [pc] else []) ++ overLimit lim l
  | _ => []

/-- FWMATs of a core whose expansion overflows the expansion area or the backed scratchpad (R198). -/
def areaOver (s : State) (k : Tack) (x : CoreImage) : List Nat :=
  let area := expandArea k x.core.val
  overLimit (Nat.min (area.1 + area.2) (spadBytes s x.core.val))
    (expandCore k x.core.val (expandBits s) (fwmats k x) (ceilDiv area.1 32 * 32))

/-- Every expansion of a compatible tack: core, offset, words. -/
def expansions (s : State) (k : Tack) : List (Nat × Nat × List Word) :=
  if !k.compat then [] else
  k.cores.flatMap (fun x => (expandCore k x.core.val (expandBits s) (fwmats k x)
    (ceilDiv (expandArea k x.core.val).1 32 * 32)).map (fun p => (x.core.val, p)))

end Sys2Proof.Machine
end

