-- ==== Sys2Proof/Machine/Checks.lean ====
section
/-!
DEFINITION. What Etxia checks of a tack at install (R40, R74, R83, R94, R132, R135, R148, R150, R198, R202, R214, R227, R234,
R250, R265, R269, R277, R291, R296, R336, R353, R383, R430, R488). Each check answers the fault code and its record's
details, or nothing. The order among the checks is the chapters' (log 30).
-/
namespace Sys2Proof.Machine

/-- What a failing check answers. -/
abbrev Refuse := Option (Nat × List Byte)

/-- The first failing check of a list. -/
def firstRefuse (l : List Refuse) : Refuse := l.findSome? id

/-- A refusal where `bad` holds. -/
def refuseIf (bad : Bool) (code : Nat) (detail : List Byte) : Refuse := if bad then some (code, detail) else none

/-- The first element with a failing check. -/
def refuseAny {α : Type} (l : List α) (f : α → Refuse) : Refuse := l.findSome? f

/-! ## The job group -/

/-- Chips of the group of a tack as this chip knows them: itself, those that reported the tack STAGED, those its reins and
expert maps name, those that Etxia has learnt of (R453, log 31). -/
def groupOf (s : State) (k : Tack) : List Nat :=
  if k.groupChips = 1 then [ownChip s] else
  (ownChip s :: ((s.job.groupReady ++ s.job.members).filter (fun g => g.2 = k.tackId)).map (fun g => g.1) ++
    (k.reinIn.filter (fun r => r.2.en)).map (fun r => r.2.srcChip) ++
    (k.reinOut.filter (fun r => r.2.en)).map (fun r => r.2.dstChip) ++
    k.hitch.flatMap (fun h => (cfgMap h).map (fun m => m.2.chip))).eraseDups

/-- The domain root: the lowest-numbered chip (R71). -/
def rootOf (l : List Nat) : Nat := l.foldl Nat.min (l.headD 0)

/-! ## Marker paths (R493) -/

/-- Steps round a ring of `n`, the short way. -/
def ringDist (n a b : Nat) : Nat := Nat.min ((b + n - a) % n) ((a + n - b) % n)

/-- The most fc that a marker's path inside a rack takes (R493). -/
def rackPath (a b : Nat) : Nat :=
  let (_, t0, k0) := chipAt a
  let (_, t1, k1) := chipAt b
  let dx := ringDist 4 k0 k1
  let dy := ringDist 32 t0 t1
  dx * 66 + (if dx ≠ 0 && dy ≠ 0 then 24 else 0) + dy * 82

/-- The most fc that a marker's path from the root to a chip of the domain takes (R493); Etxia tests what it measures (R74). -/
def markerPath (root d : Nat) (l : List Nat) : Nat :=
  if root / 128 = d / 128 then rackPath root d
  else 1654 + rackPath ((l.filter (fun x => x / 128 = d / 128)).foldl Nat.min d) d

/-! ## Routes (R488) -/

/-- The neighbour of a chip over a link within a rack; a Z link leads where the spine delivers (R467, R491). -/
def neighbour (a d l : Nat) : Nat :=
  let (r, t, k) := chipAt a
  if l = 0 then r * 128 + t * 4 + (k + 1) % 4
  else if l = 1 then r * 128 + t * 4 + (k + 3) % 4
  else if l = 3 then r * 128 + (t + 1) % 32 * 4 + k
  else if l = 4 then r * 128 + (t + 31) % 32 * 4 + k
  else d

/-- Links and chips of the path from `a` to `d` under a route entry, at most `n` hops: (chip, link) in order. -/
def pathFrom (d die : Nat) (e : BitVec 8) : Nat → Nat → List (Nat × Nat)
  | 0, _ => []
  | n + 1, a => if a = d then [] else
      let l := routeLink a d die e
      (a, l) :: pathFrom d die e n (neighbour a d l)

/-- The route entries of R488 in order: plain, XREV, YREV, both, ZFIRST, ZFIRST with ZSWAP. -/
def routeTries : List (BitVec 8) := [0x00, 0x01, 0x02, 0x03, 0x08, 0x0C]

/-- Dies of chip `d` to which the tack's reins and expert maps send: the consumers of its output reins, the producers to which credits
go home, the experts; both where it names none (R485, R489). -/
def pairDies (k : Tack) (d : Nat) : List Nat :=
  let outs : List Nat := (k.reinOut.filter (fun r => r.2.en && r.2.dstChip = d)).map (fun r => dieOfEng r.2.dstEngine)
  let ins : List Nat := (k.reinIn.filter (fun r => r.2.en && r.2.srcChip = d)).map (fun r => dieOfEng r.2.srcEngine)
  let experts : List Nat := k.hitch.flatMap (fun h => ((cfgMap h).filter (fun m => m.2.chip = d)).map (fun m => m.2.core / 144))
  let l := (outs ++ ins ++ experts).eraseDups
  if l.isEmpty then [0, 1] else l

/-- The path from `a` to `d` for a die keeps to the group and to links that are UP, as this chip finds its own and Etxia has gathered the
others (R488). -/
def pathOk (s : State) (g : List Nat) (a d : Nat) (e : BitVec 8) (die : Nat) : Bool :=
  (pathFrom d die e 40 a).all (fun h =>
    g.contains h.1 && (if h.1 = ownChip s then linkLive s h.2 else !s.links.gathered.contains h))

/-- Dies that a path from `a` to `d` is to serve: of another chip's traffic this chip does not know which (log 31). -/
def entryOk (s : State) (k : Tack) (g : List Nat) (a d : Nat) (e : BitVec 8) : Bool :=
  if a = ownChip s then (pairDies k d).all (pathOk s g a d e) else [0, 1].any (pathOk s g a d e)

/-- The route entry by which chip `a` of the group reaches chip `d` (R488). -/
def routeFor (s : State) (k : Tack) (g : List Nat) (a d : Nat) : Option (BitVec 8) := routeTries.find? (entryOk s k g a d)

/-- Pairs of chips that a rein or an expert map joins: those of this chip's tack, and those of the group that Etxia has learnt (R489). -/
def joinedPairs (s : State) (k : Tack) : List (Nat × Nat) :=
  let own := ownChip s
  let ins : List Nat := (k.reinIn.filter (fun r => r.2.en)).map (fun r => r.2.srcChip)
  let outs : List Nat := (k.reinOut.filter (fun r => r.2.en)).map (fun r => r.2.dstChip)
  let experts : List Nat := k.hitch.flatMap (fun h => (cfgMap h).map (fun m => m.2.chip))
  let l := (ins ++ outs ++ experts).eraseDups
  ((l.flatMap (fun d => [(own, d), (d, own)])) ++ s.links.joined.flatMap (fun p => [p, (p.2, p.1)])).eraseDups.filter (fun p => p.1 ≠ p.2)

/-- The link set of a job (R489): every link, as (chip, link), that carries a path between two joined chips of the group. -/
def linksUsed (k : Tack) (g : List Nat) (s : State) : List (Nat × Nat) :=
  ((joinedPairs s k).flatMap (fun p => match routeFor s k g p.1 p.2 with
    | none => []
    | some e => ((if p.1 = ownChip s then pairDies k p.2 else [0, 1].filter (pathOk s g p.1 p.2 e))).flatMap (fun die =>
        pathFrom p.2 die e 40 p.1))).eraseDups

/-! ## Cores, Ledger, alignment -/

/-- R40: no rule gives this refusal a code, so it is a free one of R28's ranges (log 27). -/
def chkCores (s : State) (k : Tack) : Refuse :=
  refuseAny (tackCores k) (fun c => refuseIf (bindingOf s c).unbacked (someFaultCode (Config.freeNat s.free)) (item 2 c))

/-- The tack uses the unit of a Ledger figure (R94); a link, where the chip's routes to the group take it. -/
def figureUsed (s : State) (k : Tack) (f : Figure) : Bool :=
  match f.kind with
  | .issueFc | .gaitSwitches => (tackEngines k).contains f.unit
  | .tiles => (tackCores k).contains f.unit
  | .tokens => k.reinOut.any (fun r => r.1 = f.unit && r.2.en)
  | .bytes => (tackObjects k).any (fun o => o.tier < 3 && (pagePorts o.tier o.die).contains (f.unit / 8))
  | .linkBytes => (linksUsed k (groupOf s k) s).contains (ownChip s, f.unit / 2)

/-- LEDGER_INVALID (R83, R94). -/
def chkLedger (s : State) (k : Tack) : Refuse :=
  let l := k.ledger
  let bad := fun (n : Nat) (b : Bool) => refuseIf b 0x0104 (item 1 n)
  firstRefuse [
    bad 1 (l.lBase % 64 ≠ 0 || l.lBase < 2048 || 4194304 < l.lBase),
    bad 2 (l.period = 0 || 4096 < l.period),
    bad 3 (l.chips ≠ k.groupChips),
    bad 4 (l.steps.any (fun x => x.any (fun f => !figureUsed s k f))),
    bad 5 (l.lFixed ≠ 0 && (s.stride.fixedPermit ≠ 1 || l.lFixed < l.lBase))]

/-- STRIDE_ALIGN_LOST at job start (R74): `pathFc` is the longest marker path measured; a domain of one chip has none. -/
def chkAlign (pathFc : Nat) (s : State) (k : Tack) : Refuse :=
  let far := if k.groupChips = 1 then 0 else pathFc
  refuseIf (s.stride.markerLead < far || k.ledger.lBase < 2 * s.stride.markerLead) 0x0103 (item 4 far ++ item 4 s.stride.markerLead)

/-! ## Gaits and schedules -/

/-- The field of a VALID descriptor that breaks R132, in descriptor order. -/
def gaitField (s : State) (c : Nat) (g : Gait) : Option Nat :=
  let far := fun (p : ProgRef) => p.en && spadBytes s c ≤ p.off
  if g.rsvd then some 0
  else if 2 ≤ g.mix.toNat then some 1
  else if (g.mix = 1) != (1 ≤ g.mixSpan && g.mixSpan ≤ 65535) || (g.mix = 0 && g.mixSpan ≠ 0) then some 2
  else if g.accCount = 0 || 32 < g.accCount || 32 < g.accBase + g.accCount then some 3
  else if g.resBase % 64 ≠ 0 || 262144 < g.resBase + g.resLen then some 4
  else if far g.ag0 then some 5
  else if far g.ag1 then some 6
  else if far g.ag2 then some 7
  else if far g.ag3 then some 8
  else if far g.vec then some 9
  else none

/-- VALID gaits of a tack: engine, slot, gait. -/
def liveGaits (k : Tack) : List (Nat × Fin 8 × Gait) :=
  k.engines.flatMap (fun e => ((cfgGaits e).filter (fun g => g.2.valid)).map (fun g => (e.engine.val, g.1, g.2)))

/-- The slot of the entry with which a schedule breaks R135: one that holds no VALID gait, or the first past the 32nd. -/
def schedBad (e : EngineCfg) (l : List (BitVec 16 × Bool)) : Option Nat :=
  match (schedList l).find? (fun q => !(cfgGaits e).any (fun g => g.1 = q.slot && g.2.valid)) with
  | some q => some q.slot.val
  | none => ((l.drop 32).head?).map (fun p => (schedDecode p).slot.val)

/-- GAIT_INVALID at install (R132, R135). -/
def chkGaits (s : State) (k : Tack) : Refuse :=
  firstRefuse [
    refuseAny (liveGaits k) (fun g => (gaitField s (g.1 / 8) g.2.2).map (fun n =>
      (0x0205, item 2 g.1 ++ item 1 g.2.1.val ++ item 1 n))),
    refuseAny k.engines (fun e => refuseAny e.sched (fun l => (schedBad e l).map (fun slot =>
      (0x0205, item 2 e.engine.val ++ item 1 slot ++ item 1 10))))]

/-! ## Reins (R147, R148, R150) -/

/-- The input queue a local output rein names, and the other way. -/
def queueOf (k : Tack) (e q : Nat) : ReinInCfg := ((k.reinIn.find? (fun r => r.1 = e * 16 + q)).map (fun r => r.2)).getD {}
/-- The output rein a local input queue names. -/
def reinOf (k : Tack) (e o : Nat) : ReinOutCfg := ((k.reinOut.find? (fun r => r.1 = e * 16 + o)).map (fun r => r.2)).getD {}

/-- The stated bound N of a queue; 0 where the Ledger gives none (R147). -/
def boundN (k : Tack) (key : Nat) : Nat := ((k.ledger.bounds.find? (fun b => b.1 = key)).map (fun b => b.2)).getD 0

/-- P of the rein that enters a queue, where its producer is on this chip; else 1. -/
def reinP (s : State) (k : Tack) (r : ReinInCfg) : Nat := if r.srcChip = ownChip s then (reinOf k r.srcEngine r.srcPort).p else 1

/-- The least capacity of R147. -/
def leastCredits (n p q : Nat) : Nat := Nat.max n (p + q - Nat.gcd p q)

/-- Check 1 of R148 for an enabled output rein and for an enabled queue. -/
def outBound (s : State) (k : Tack) (key : Nat) (r : ReinOutCfg) : Bool :=
  r.dstChip ≠ ownChip s || (let q := queueOf k r.dstEngine r.dstQueue
    q.en && q.srcChip = ownChip s && q.srcEngine * 16 + q.srcPort = key && q.credits = r.credits)
/-- Check 1 of R148 for an enabled queue. -/
def inBound (s : State) (k : Tack) (key : Nat) (q : ReinInCfg) : Bool :=
  q.srcChip ≠ ownChip s || (let r := reinOf k q.srcEngine q.srcPort
    r.en && r.dstChip = ownChip s && r.dstEngine * 16 + r.dstQueue = key && q.credits = r.credits)

/-- Check 2 of R148. -/
def creditsOk (s : State) (k : Tack) (key : Nat) (q : ReinInCfg) : Bool :=
  1 ≤ q.q && q.q ≤ 63 && 1 ≤ q.credits && q.credits ≤ 4096 && leastCredits (boundN k key) (reinP s k q) q.q ≤ q.credits

/-- Edges of the rein graph between gaits of this chip (R148, check 3): output rein, producing gait, consuming gait. -/
def reinEdges (s : State) (k : Tack) : List (Nat × Nat × Nat) :=
  (k.reinOut.filter (fun r => r.2.en && r.2.dstChip = ownChip s)).map (fun r =>
    (r.1, r.1 / 16 * 8 + r.2.srcGait, r.2.dstEngine * 8 + (queueOf k r.2.dstEngine r.2.dstQueue).dstGait))

/-- Edges left after removing, `n` times, those whose source no edge enters and those whose end no edge leaves: those on a cycle, or
on a path between two. -/
def trimEdges : Nat → List (Nat × Nat × Nat) → List (Nat × Nat × Nat)
  | 0, l => l
  | n + 1, l => trimEdges n (l.filter (fun x => l.any (fun y => y.2.2 = x.2.1) && l.any (fun y => y.2.1 = x.2.2)))

/-- Programs, expansion areas and queues of a core as ranges of its scratchpad, the queues last (R148, check 4). -/
def coreRanges (s : State) (k : Tack) (c : Nat) : List (Nat × Nat) × List (Nat × Nat) :=
  let prog := (liveGaits k).filter (fun g => g.1 / 8 = c) |>.flatMap (fun g =>
    (allAgs.filter (fun a => (g.2.2.ag a).en)).map (fun a =>
      let off := (g.2.2.ag a).off
      (off, 16 * (1 + ((List.range 256).find? (fun i => opcOf (tackWord k c (off + 16 * i)) = 0x3F)).getD 255))) ++
    (if g.2.2.vec.en then [(g.2.2.vec.off,
      32 * (1 + ((List.range 257).find? (fun i => opcOf (tackWord k c (g.2.2.vec.off + 32 * i)) = 0x3F)).getD 256))] else []))
  let groom := k.cores.filter (fun x => x.core.val = c) |>.flatMap (fun x =>
    (groomPcs k x).map (fun pc => (pc, groomSize (opcOf (tackWord k c pc)))))
  let area := (k.expansion.filter (fun x => x.1.val = c)).map (fun x => x.2)
  let q := (k.reinIn.filter (fun r => r.2.en && r.1 / 128 = c)).flatMap (fun r =>
    [(r.2.slotBase * 64, r.2.credits * 64), (r.2.tagBase * 64, ceilDiv r.2.credits 32 * 64)])
  let _ := s
  (prog ++ groom ++ area, q)

/-- Two ranges meet. -/
def rangesMeet (a b : Nat × Nat) : Bool := a.1 < b.1 + b.2 && b.1 < a.1 + a.2

/-- Check 4 of R148 for a queue of core `c`. -/
def queuePlaced (s : State) (k : Tack) (c : Nat) (q : ReinInCfg) : Bool :=
  let r := coreRanges s k c
  let mine := [(q.slotBase * 64, q.credits * 64), (q.tagBase * 64, ceilDiv q.credits 32 * 64)]
  mine.all (fun m => spadBacked s c m.1 m.2 && (r.1).all (fun x => !rangesMeet m x) &&
    ((r.2).filter (fun x => rangesMeet m x)).length ≤ 1)

/-- Check 5 of R148 (R150). -/
def reconvOk (s : State) (k : Tack) (x : Reconv) : Bool :=
  let q := queueOf k (x.join / 16) (x.join % 16)
  let p := reinP s k q
  x.delta + p + q.q - Nat.gcd p q.q ≤ (x.short.map (fun r => (queueOf k (r / 16) (r % 16)).credits)).foldl (· + ·) 0

/-- Check 6 of R148 for a rein on one engine. -/
def sameEngineOk (k : Tack) (e : Nat) (src dst : Nat) : Bool :=
  match k.engines.find? (fun (x : EngineCfg) => x.engine.val = e) with
  | none => true
  | some x => x.sched.all (fun l =>
      let l := schedList l
      l.zipIdx.all (fun y => y.1.slot.val ≠ dst || (l.take y.2).any (fun q => q.slot.val = src)))

/-- REIN_CONFIG_INVALID (R148). -/
def chkReins (s : State) (k : Tack) : Refuse :=
  let bad := fun (key n : Nat) (b : Bool) => refuseIf b 0x0204 (item 2 (key / 16) ++ item 1 (key % 16) ++ item 1 n)
  let ins := k.reinIn.filter (fun r => r.2.en)
  let outs := k.reinOut.filter (fun r => r.2.en)
  let edges := reinEdges s k
  firstRefuse [
    refuseAny outs (fun r => bad r.1 1 (!outBound s k r.1 r.2)),
    refuseAny ins (fun r => bad r.1 1 (!inBound s k r.1 r.2)),
    refuseAny ins (fun r => bad r.1 2 (!creditsOk s k r.1 r.2)),
    refuseAny outs (fun r => bad r.1 2 (r.2.p = 0 || 63 < r.2.p || r.2.credits = 0 || 4096 < r.2.credits)),
    refuseAny (trimEdges edges.length edges) (fun x => bad x.1 3 true),
    refuseAny ins (fun r => bad r.1 4 (!queuePlaced s k (r.1 / 128) r.2)),
    refuseAny k.ledger.reconv (fun x => bad x.join 5 (!reconvOk s k x)),
    refuseAny outs (fun r => bad r.1 6 (r.2.dstChip = ownChip s && r.2.dstEngine = r.1 / 16 &&
      !sameEngineOk k (r.1 / 16) r.2.srcGait (queueOf k r.2.dstEngine r.2.dstQueue).dstGait))]

/-! ## Programs -/

/-- Offsets of the instructions of a stream or vector program, its end among them, at most `n` (R202, R248). -/
def progOffs (k : Tack) (c off size n : Nat) : List Nat :=
  let l := (List.range n).map (fun i => off + size * i)
  match l.findIdx? (fun o => opcOf (tackWord k c o) = 0x3F) with
  | some i => l.take (i + 1)
  | none => l

/-- A SETA or LOOP takes S56 to S63 (R197, R249). -/
def streamHigh (w : Word) : Bool :=
  let f := streamFields w 0
  56 ≤ f.src.toNat && ((opcOf w = 0x01 && f.sreg) || (opcOf w = 0x03 && f.creg))

/-- A vector instruction takes S56 to S63: as a scalar operand, a mask, carry or high-limb register (R197, R206, R212, R215). -/
def vecHigh (w d a b : Word) : Bool :=
  let operand := fun (x : Word) => bitsOf x 63 62 = 2 && 56 ≤ bitsOf x 22 0 && decide (bitsOf x 22 0 < 64)
  operand d || operand a || operand b ||
  (56 ≤ bitsOf w 31 26 && (bitsOf w 24 23 = 3 || (0x40 ≤ opcOf w && opcOf w ≤ 0x42)))

/-- The first instruction of a gait's stream and vector programs that names S56 to S63 (R197). -/
def progHigh (k : Tack) (e : Nat) (g : Gait) : Option Nat :=
  let c := e / 8
  let streams := (allAgs.filter (fun a => (g.ag a).en)).flatMap (fun a => progOffs k c (g.ag a).off 16 256)
  match streams.find? (fun o => streamHigh (tackWord k c o)) with
  | some o => some o
  | none => if !g.vec.en then none else (progOffs k c g.vec.off 32 257).find? (fun o =>
      vecHigh (tackWord k c o) (tackWord k c (o + 8)) (tackWord k c (o + 16)) (tackWord k c (o + 24)))

/-- TILE_INVALID and TILING_UNFIT at install (R197, R198): FWMATs of a tack, and S56 to S63 in any instruction of a compatible one. -/
def chkTiling (s : State) (k : Tack) : Refuse :=
  let pcs := k.cores.flatMap (fun x => (groomPcs k x).map (fun pc => (x.core.val, pc)))
  let at_ := fun (p : Nat × Nat) => tackTile k p.1 p.2
  let fw := pcs.filter (fun p => opcOf (at_ p).1 = 0x4F)
  if !k.compat then (fw.head?).map (fun p => (0x0310, item 2 p.1 ++ item 4 p.2))
  else firstRefuse [
    refuseAny fw (fun p => let (w0, w1, w2, w3) := at_ p
      refuseIf (fwmatBad w0 w1 w2 w3) 0x0310 (item 2 p.1 ++ item 4 p.2)),
    refuseAny pcs (fun p => let (w0, w1, w2, w3) := at_ p
      refuseIf (opcOf w0 ≠ 0x20 && opcOf w0 ≠ 0x21 && groomHigh w0 w1 w2 w3) 0x0317 (item 4 p.2 ++ item 1 4)),
    refuseAny (liveGaits k) (fun g => (progHigh k g.1 g.2.2).map (fun o => (0x0317, item 4 o ++ item 1 4))),
    refuseAny fw (fun p => let (w0, w1, w2, w3) := at_ p
      let f := tileFields w0 w1 w2 w3
      (expandFails (tackGait k (p.1 * 8 + f.eng.val) f.gait.val) w0 w1 w2 w3).map (fun n => (0x0317, item 4 p.2 ++ item 1 n))),
    refuseAny k.cores (fun x =>
      refuseAny (areaOver s k x) (fun pc => some (0x0317, item 4 pc ++ item 1 3)))]

/-- A vector program breaks R202, R214 or R234: the offset of the instruction and the condition. -/
def vecProgBad (s : State) (k : Tack) (c : Nat) (g : Gait) : Option (Nat × Nat) :=
  let off := g.vec.off
  let opc := fun (i : Nat) => opcOf (tackWord k c (off + 32 * i))
  if off % 32 ≠ 0 then some (off, 1)
  else match (List.range 257).find? (fun i => opc i = 0x3F) with
  | none => some (off, 2)
  | some n =>
    if !spadBacked s c off (32 * (n + 1)) then some (off, 3)
    else match (List.range n).find? (fun i => g.mix = 0 && 0x24 ≤ opc i && opc i ≤ 0x26) with
    | some i => some (off + 32 * i, 4)
    | none => ((List.range (n + 1)).find? (fun i => bitOf (tackWord k c (off + 32 * i)) 20 &&
        !(k.compat && 0x30 ≤ opc i && opc i ≤ 0x32))).map (fun i => (off + 32 * i, 5))

/-- VEC_PROG_INVALID (R202, R214, R234). -/
def chkVec (s : State) (k : Tack) : Refuse :=
  refuseAny ((liveGaits k).filter (fun g => g.2.2.vec.en)) (fun g => (vecProgBad s k (g.1 / 8) g.2.2).map (fun x =>
    (0x0322, item 2 g.1 ++ item 1 g.2.1.val ++ item 4 x.1 ++ item 1 x.2)))

/-- Opcodes of R249. -/
def streamOpcOk (o : Nat) : Bool := [0x01, 0x02, 0x03, 0x04, 0x10, 0x11, 0x20, 0x21, 0x30, 0x3F].contains o

/-- The fields of a stream instruction with those its opcode uses at 0 (R248, R249); what is left must be all 0. -/
def streamUnused (o : Nat) (f : StreamF) : StreamF :=
  if o = 0x01 then { f with imm := 0, da := 0, sreg := false, len := 0, src := if f.sreg then 0 else f.src }
  else if o = 0x02 then { f with imm := 0, da := 0 }
  else if o = 0x03 then { f with lvl := 0, creg := false, src := if f.creg then 0 else f.src, imm := if f.creg then f.imm else 0 }
  else if o = 0x04 then { f with lvl := 0 }
  else if o = 0x10 then { f with len := 0, sa := 0, da := 0, cov := 0, ta := if f.cov = 1 then 0 else f.ta
                                 nrow := if f.cov = 1 then 0 else f.nrow }
  else if o = 0x11 then { f with len := 0, sa := 0, da := 0 }
  else if o = 0x20 then { f with len := 0, da := 0, ta := 0, port := 0 }
  else if o = 0x21 then { f with len := 0, sa := 0, ta := 0, port := 0 }
  else f

/-- The immediates of a stream instruction lie in their ranges (R250, check 6). -/
def streamImmOk (o : Nat) (f : StreamF) : Bool :=
  if o = 0x10 || o = 0x11 then lenOk f.len.toNat
  else if o = 0x03 then f.creg || (0 ≤ f.imm.toInt && f.imm.toInt ≤ 65535)
  else true

/-- Where a program stands while it is read: open loops, past SYNC, and the index and check that failed first. -/
structure StreamScan where
  depth : Nat := 0
  post  : Bool := false
  bad   : Option (Nat × Nat) := none
  deriving DecidableEq, Repr

/-- One instruction of a stream program against checks 2, 3, 4 and 6 of R250. -/
def scanOne (k : Tack) (c off : Nat) (x : StreamScan) (i : Nat) : StreamScan :=
  if x.bad.isSome then x else
  let w0 := tackWord k c (off + 16 * i)
  let f := streamFields w0 (tackWord k c (off + 16 * i + 8))
  let o := opcOf w0
  let fail := fun (n : Nat) => { x with bad := some (i, n) }
  if !streamOpcOk o || f.rsvd || f.cov = 3 || (streamUnused o f) ≠ {} ||
      (o = 0x10 && f.cov = 1 && (f.nrow = 0 || 4096 < f.nrow.toNat)) then fail 2
  else if o = 0x03 && (f.lvl.toNat ≠ x.depth || 4 ≤ x.depth) then fail 3
  else if o = 0x04 && (x.depth = 0 || f.lvl.toNat ≠ x.depth - 1) then fail 3
  else if (o = 0x30 || o = 0x3F) && x.depth ≠ 0 then fail 3
  else if (x.post && (o = 0x10 || o = 0x20 || o = 0x30)) || (!x.post && (o = 0x11 || o = 0x21)) then fail 4
  else if !streamImmOk o f then fail 6
  else { x with depth := if o = 0x03 then x.depth + 1 else if o = 0x04 then x.depth - 1 else x.depth
                post := x.post || o = 0x30 }

/-- A stream program against checks 1 to 4 and 6 of R250: the index and the check. -/
def streamProgBad (s : State) (k : Tack) (c off : Nat) : Option (Nat × Nat) :=
  if off % 16 ≠ 0 then some (0, 1)
  else match (List.range 256).find? (fun i => opcOf (tackWord k c (off + 16 * i)) = 0x3F) with
  | none => some (0, 1)
  | some n =>
    if !spadBacked s c off (16 * (n + 1)) then some (0, 1)
    else ((List.range (n + 1)).foldl (scanOne k c off) {}).bad

/-- The instructions of a gait's programs that name port `p` with an opcode, as address generator and index (R250, check 5). -/
def portUses (k : Tack) (c : Nat) (g : Gait) (o p : Nat) : List (Nat × Nat) :=
  (allAgs.filter (fun a => (g.ag a).en)).flatMap (fun a =>
    let word := fun (i : Nat) => tackWord k c ((g.ag a).off + 16 * i)
    let n := ((List.range 256).find? (fun i => opcOf (word i) = 0x3F)).getD 0
    ((List.range n).filter (fun i => opcOf (word i) = o && bitsOf (word i) 19 16 = p)).map (fun i => (a.val, i)))

/-- The instruction by which port `p` breaks check 5 of R250 under a mask: one outside the mask, or the first in a second program. A
port of the mask that no program names breaks it with no instruction: 0, 0 stands there (log 83). -/
def portCulprit (k : Tack) (c : Nat) (g : Gait) (mask : BitVec 16) (o p : Nat) : Option (Nat × Nat) :=
  match portUses k c g o p with
  | [] => if mask.getLsbD p then some (0, 0) else none
  | x :: l => if mask.getLsbD p then l.find? (fun y => y.1 ≠ x.1) else some x

/-- Check 5 of R250 for the queues and reins of a gait. -/
def portsBad (k : Tack) (c : Nat) (g : Gait) : Option (Nat × Nat) :=
  ((List.range 16).findSome? (portCulprit k c g g.inMask 0x20)).orElse (fun _ =>
    (List.range 16).findSome? (portCulprit k c g g.outMask 0x21))

/-- STREAM_INVALID (R250, R265), and the rule of R197 for compatible tacks. -/
def chkStreams (s : State) (k : Tack) : Refuse :=
  let rec_ := fun (e : Nat) (i : Fin 8) (a n c : Nat) => (0x0403, item 2 e ++ item 1 i.val ++ item 1 a ++ item 1 n ++ item 1 c)
  firstRefuse [
    refuseAny (liveGaits k) (fun g => refuseAny (allAgs.filter (fun a => (g.2.2.ag a).en)) (fun a =>
      (streamProgBad s k (g.1 / 8) (g.2.2.ag a).off).map (fun x => rec_ g.1 g.2.1 a.val x.1 x.2))),
    refuseAny (liveGaits k) (fun g => (portsBad k (g.1 / 8) g.2.2).map (fun x => rec_ g.1 g.2.1 x.1 x.2 5)),
    refuseAny k.engines (fun e => (e.classes.find? (fun x => 3 ≤ x.2)).map (fun x => rec_ e.engine.val x.1 0 0 7))]

/-! ## Curb budgets -/

/-- Units of 64 bytes of a port in 16,384 fc (R268). -/
def portUnits (p : Nat) : Nat := if p < 8 then 209715 else if p < 24 then 14563 else 614

/-- The default budget of a class at 16,384 fc, its share as OD 0x2300 sets it (R268, R313). -/
def baseBudget (s : State) (p k : Nat) : Nat :=
  let u := portUnits p
  if k = 0 then u * 108 / 252 else if k = 1 then u * 144 / 252 else if k = 2 then 0
  else if k = 3 then u * s.tiers.shareHitch / 256 else if k = 4 then u * s.tiers.shareEtxia / 256
  else if k = 5 then u * s.tiers.shareHost / 256 else if k = 6 then u * s.tiers.shareFarrier / 256 else 0xFFFFFFFF

/-- A budget scaled to a stride base (R269). -/
def scaleBudget (lBase b : Nat) : Nat := if b = 0xFFFFFFFF then b else b * lBase / 16384

/-- The budget of a class on a port under a tack (R269). -/
def tackBudget (s : State) (k : Tack) (p c : Nat) : Nat :=
  match (if c < 3 then k.budgets.find? (fun b => b.1 = p * 8 + c) else none) with
  | some b => b.2
  | none => scaleBudget k.ledger.lBase (baseBudget s p c)

/-- CURB_UNFIT (R269). -/
def chkCurb (s : State) (k : Tack) : Refuse :=
  refuseAny k.ledger.steps.zipIdx (fun x => refuseAny (x.1.filter (fun f => f.kind = .bytes)) (fun f =>
    let b := tackBudget s k (f.unit / 8) (f.unit % 8)
    refuseIf (b ≠ 0xFFFFFFFF && b * 64 < f.value) 0x0406
      (item 2 x.2 ++ item 1 (f.unit / 8) ++ item 1 (f.unit % 8) ++ item 8 f.value ++ item 4 b)))

/-! ## Tables, tiers -/

/-- SFT_MISMATCH (R227). -/
def chkSft (s : State) (k : Tack) : Refuse :=
  refuseIf (k.sftId ≠ 0 && k.sftId ≠ s.sft.activeId.toNat) 0x0323 (item 4 k.sftId ++ item 4 s.sft.activeId.toNat)

/-- TIER_PORT_FAILED (R277). -/
def chkPorts (s : State) (k : Tack) : Refuse :=
  refuseAny (tackObjects k) (fun o => ((pagePorts o.tier o.die).find? (fun p =>
      o.tier < 3 && ((portOf s p).state = 4 || (portOf s p).restoring))).map (fun p =>
    (0x0424, item 1 p)))

/-- An entry's own fields and backing (R291). -/
def entryBad (s : State) (o : ObjEntry) : Bool :=
  o.rsvd || 3 ≤ o.tier || o.bytes < 64 || o.bytes % 64 ≠ 0 || o.backing % 4096 ≠ 0 ||
  (o.backing ≠ 0 && (tierNo s o.backing = 3 || tierNo s o.backing ≤ o.tier))

/-- The resident object that a RESIDENT entry binds (R291). -/
def residentFor (s : State) (o : ObjEntry) : Option DirEntry :=
  s.weights.dir.find? (fun d => d.objId = o.objId && d.tier = o.tier && d.die = o.die && (d.state = 1 || d.state = 2) &&
    !d.dropReq && d.bytes = o.bytes)

/-- Objects placed one after another (R290, R291, R296): what was placed, the bytes held of each tier, the entry that fails. -/
structure Placing where
  placed : List Placed := []
  held   : Sparse Nat := []
  failed : Option ObjEntry := none
  deriving DecidableEq, Repr

/-- One entry is placed or bound. An OBJ_ID that an earlier entry has is refused (log 26); a page bound twice counts once (R296). -/
def placeOne (s : State) (k : Tack) (x : Placing) (o : ObjEntry) : Placing :=
  if x.failed.isSome then x else
  let base := if entryBad s o || (x.placed.any (fun p => p.entry.objId = o.objId)) then none
    else if o.resident then (residentFor s o).map (fun d => d.base)
    else findSpace (modTiers (fun t => { t with placed := x.placed, leaving := [] }) s) o.tier o.die o.bytes
  match base with
  | some b =>
    let n := if tackPool k o.objId || x.placed.any (fun p => p.base = b) then 0 else pagedBytes o.tier o.bytes
    let held := sget 0 x.held o.tier + n
    if quotaBytes s o.tier < held then { x with failed := some o }
      else { x with placed := x.placed ++ [{ entry := o, base := b }], held := sset 0 x.held o.tier held }
  | none => { x with failed := some o }

/-- The object table placed whole. -/
def placeAll (s : State) (k : Tack) : Placing := (tackObjects k).foldl (placeOne s k) {}

/-- TIER_QUOTA (R291, R296). -/
def chkObjects (s : State) (k : Tack) : Refuse :=
  let x := placeAll s k
  x.failed.map (fun o => (0x0421, item 4 o.objId ++ item 1 o.tier ++ item 1 o.die ++ item 8 o.bytes ++
    item 8 (quotaBytes s o.tier - sget 0 x.held o.tier)))

/-! ## Synchronisation, Hitch, serving -/

/-- A synchronisation-table entry's fields (R336). -/
def syncEntryOk (o : SyncEntry) : Bool :=
  !o.rsvd && o.obj < 8192 && 1 ≤ o.waitLimit && o.waitLimit ≤ 65535 &&
  (if o.type = 1 then o.nclaim = 0 && o.param = 0 && -(2 ^ 63) ≤ o.init && o.init < 2 ^ 63
   else if o.type = 2 then o.nclaim = 0 && 1 ≤ o.param && o.param ≤ 4096 && o.init = 0
   else o.type = 3 && 1 ≤ o.nclaim && o.nclaim ≤ 64 && o.claimants.length = o.nclaim && 1 ≤ o.param && o.param ≤ 65535 &&
     1 ≤ o.init && o.init ≤ 2 ^ 63 && o.claimants.all (fun c => c.2 < 288))

/-- SYNC_CONFIG_INVALID (R336). -/
def chkSync (s : State) (k : Tack) : Refuse :=
  let l := groupOf s k
  refuseAny (tackSync k).zipIdx (fun x =>
    let n := if !syncEntryOk x.1 then 1
      else if ((tackSync k).take x.2).any (fun y => y.obj = x.1.obj) then 2
      else if 512 < (((tackSync k).take (x.2 + 1)).filter (fun y => y.type = 3)).length then 3
      else if x.1.claimants.any (fun c => !l.contains c.1) then 4 else 0
    refuseIf (n ≠ 0) 0x0220 (item 2 x.2 ++ item 1 n))

/-- The tack's table makes an object a COUNTER. -/
def isCounter (k : Tack) (n : Nat) : Bool := (tackSync k).any (fun o => o.obj = n && o.type = 1)

/-- Checks 1 and 2 of R353 for an HLD: fields and SPILL. -/
def hldFieldsOk (d : Hld) : Bool :=
  !d.rsvd && d.outFmt ≤ 1 && 1 ≤ d.experts && d.experts ≤ 256 && d.cshift ≤ 63 && 1 ≤ d.cap && d.cap ≤ 4096 &&
  1 ≤ d.rowUnits && d.rowUnits ≤ 256 && 1 ≤ d.retUnits && d.retUnits ≤ 512 && 1 ≤ d.retWait && d.retWait ≤ 255 &&
  1 ≤ d.nsrc && d.nsrc ≤ 64 && 1 ≤ d.readyArr && d.readyArr ≤ 4096 && d.mapIdx + d.experts ≤ 4096

/-- SPILL agrees with POLICY (R353). -/
def hldSpillOk (d : Hld) : Bool :=
  (if d.next then 1 ≤ d.spill && d.spill ≤ 15 else d.spill = 0) && topK d + d.spill ≤ d.experts

/-- Map entries of an HLD in its Hitch's part of the tack. -/
def hldMap (h : HitchCfg) (d : Hld) : List MapEntry :=
  (List.range d.experts).map (fun x => (((cfgMap h).find? (fun m => m.1 = d.mapIdx + x)).map (fun m => m.2)).getD {})

/-- The areas of an HLD and of its experts on this chip lie in backed memory (R353 to R357). The row count of a launch is
known only when it opens (R359), so each area is checked for one row. -/
def hldAreasOk (s : State) (d : Hld) (l : List MapEntry) : Bool :=
  (launchAreas d 1).all (fun a => a.2 = 0 || areaOk s a.1 a.2) &&
  (l.filter (fun m => m.chip = ownChip s)).all (fun m =>
    m.core < 288 && m.inOff % 64 = 0 && m.outOff % 64 = 0 && spadBacked s m.core m.inOff (inArea d) &&
    spadBacked s m.core m.outOff (outArea d))

/-- Two descriptors are the same but for the fields that R352 lets differ. -/
def hldSame (d e : Hld) : Bool :=
  let x := fun (d : Hld) => { d with srcIdx := 0, rowHdr := 0, routeBase := 0, rowsBase := 0, gatherBase := 0, outBase := 0 }
  decide (x d = x e)

/-- Hitch `p` of this tack holds descriptor `i` as `d`, with the map entries `l` (R352). -/
def hldHeld (k : Tack) (p i : Nat) (d : Hld) (l : List MapEntry) : Option Hld :=
  match k.hitch.find? (fun g => g.hitch.val = p) with
  | none => none
  | some g => ((cfgHlds g).find? (fun y => y.1 = i && hldSame d y.2 && hldMap g y.2 == l)).map (fun y => y.2)

/-- R352 on this chip: the chips that the tack names are no more than its group has, and every Hitch that serves an expert holds the
descriptor. What other chips hold this chip does not see (log 87). -/
def peersOk (s : State) (k : Tack) (h i : Nat) (d : Hld) (l : List MapEntry) : Bool :=
  l.all (fun m => (groupOf s k).contains m.chip) && decide ((groupOf s k).length ≤ k.groupChips) &&
  ((l.map (fun m => peerHitch h m.core)).eraseDups).all (fun p => (hldHeld k p i d l).isSome)

/-- SRC_IDX lies below NSRC and differs from that of the copy which the chip's other Hitch holds (R353). -/
def srcOk (k : Tack) (h i : Nat) (d : Hld) (l : List MapEntry) : Bool :=
  d.srcIdx < d.nsrc && match hldHeld k ((h + 2) % 4) i d l with | some e => e.srcIdx ≠ d.srcIdx | none => true

/-- Another descriptor of the chip shares READY_OBJ (R353); a copy under R352 is the same one (log 87). -/
def readyShared (k : Tack) (h i : Nat) (d : Hld) : Bool :=
  k.hitch.any (fun g => (cfgHlds g).any (fun y => y.2.valid && y.2.readyObj = d.readyObj &&
    !(y.1 = i && g.hitch.val % 2 = h % 2 && hldSame d y.2)))

/-- The check of R353 that a descriptor fails, 1 to 7; 0 for none. -/
def hldCheck (s : State) (k : Tack) (h : HitchCfg) (i : Nat) (d : Hld) : Nat :=
  let l := hldMap h d
  if !hldFieldsOk d then 1
  else if !hldSpillOk d then 2
  else if !hldAreasOk s d l then 3
  else if !(isCounter k d.readyObj && isCounter k d.doneObj && (l.filter (fun m => m.chip = ownChip s)).all (fun m =>
    isCounter k m.inObj && isCounter k m.outObj)) then 4
  else if !peersOk s k h.hitch.val i d l then 5
  else if !srcOk k h.hitch.val i d l then 6
  else if readyShared k h.hitch.val i d then 7 else 0

/-- HITCH_CONFIG_INVALID (R353): an HLD that is not VALID is checked for its reserved fields alone (log 47); `bad` are the chips of the
group whose tables Etxia has found to break R352 or the rule on SRC_IDX. -/
def chkHitch (bad : List Nat) (s : State) (k : Tack) : Refuse :=
  firstRefuse [
    refuseAny k.hitch (fun h => refuseAny (cfgHlds h) (fun x =>
      let n := if x.2.valid then hldCheck s k h x.1 x.2 else bit01 x.2.rsvd
      refuseIf (n ≠ 0) 0x0601 (item 1 h.hitch.val ++ item 1 x.1 ++ item 1 n))),
    refuseIf (!k.hitch.isEmpty && bad.any (groupOf s k).contains) 0x0601 (item 1 0xFF ++ item 1 0xFF ++ item 1 5)]

/-- The fields of a serving descriptor lie in their ranges (R382). -/
def servingRanges (v : Serving) : Bool :=
  v.prefillRows + v.decodeRows ≤ 4096 && 1 ≤ v.prefillCadence && v.prefillCadence ≤ 1048576 && 1 ≤ v.decodeCadence &&
  v.decodeCadence ≤ 1048576 && v.prefillDone < 8192 && v.decodeDone < 8192 && 1 ≤ v.maxNodes && v.maxNodes ≤ 64 &&
  v.rowQuiet ≤ 255 && 1 ≤ v.sessions && v.sessions ≤ 16384 && v.slotBytes % 64 = 0 && 1 ≤ v.maxCtx && v.maxCtx ≤ 16777215

/-- An object of a tack. -/
def tackObj (k : Tack) (id : Nat) : Option ObjEntry := (tackObjects k).find? (fun o => o.objId = id)

/-- A named pool is a WRITABLE object of its tier. -/
def poolOk (k : Tack) (id tier : Nat) : Bool :=
  id = 0 || match tackObj k id with | some o => o.writable && o.tier = tier | none => false

/-- SERVE_CONFIG_INVALID (R383, R430). -/
def chkServe (k : Tack) : Refuse :=
  let bad := fun (n : Nat) (b : Bool) => refuseIf b 0x070A (item 1 n)
  let size := fun (id : Nat) => ((tackObj k id).map (fun o => o.bytes)).getD 0
  match tackServe k with
  | none => none
  | some v => firstRefuse [
      bad 1 v.rsvd,
      bad 2 (!servingRanges v),
      bad 3 ((v.poolH = 0 && v.poolL = 0) || !poolOk k v.poolH 0 || !poolOk k v.poolL 1),
      bad 4 (v.slotBytes = 0 || (v.poolH ≠ 0 && pageBytes 0 < v.slotBytes) || (v.poolL ≠ 0 && pageBytes 1 < v.slotBytes)),
      bad 5 (size v.serveObj < (if k.adapterSlots = 0 then 106496 else 122880)),
      bad 6 (size v.plObj < v.sessions * (v.maxCtx + 64) * 8),
      bad 7 (!isCounter k v.prefillDone || !isCounter k v.decodeDone)]

/-! ## Routes -/

/-- Links of the group that are not UP, as (chip, link): this chip's and those gathered (R488). -/
def groupDowns (s : State) (g : List Nat) : List (Nat × Nat) :=
  ((List.range 6).filter (isDown s)).map (fun l => (ownChip s, l)) ++ s.links.gathered.filter (fun h => g.contains h.1)

/-- ROUTE_INVALID (R488): some pair of chips of the group has no path. -/
def chkRoutes (s : State) (k : Tack) : Refuse :=
  let g := groupOf s k
  refuseAny (g.flatMap (fun a => (g.filter (fun d => d ≠ a)).map (fun d => (a, d)))) (fun p =>
    refuseIf (routeFor s k g p.1 p.2).isNone 0x0803 (item 2 p.1 ++ item 2 p.2 ++
      (groupDowns s g).flatMap (fun h => item 2 h.1 ++ item 1 h.2)))

/-- TACK_GROUP_MISMATCH (R439): `root` is INSTALL_STRIDES of the domain root as Etxia knows it (log 56). -/
def chkGroup (root : Nat) (s : State) (k : Tack) : Refuse :=
  refuseIf (k.groupChips ≠ 1 && rootOf (groupOf s k) ≠ ownChip s && root ≠ k.installStrides) 0x0248 (item 4 k.installStrides ++ item 4 root)

/-- The first failing check of an install, with what Etxia has learnt of the group. -/
def installRefusal (v : GroupView) (s : State) (k : Tack) : Refuse :=
  firstRefuse [chkCores s k, chkGroup v.rootStrides s k, chkLedger s k, chkAlign v.pathFc s k, chkGaits s k, chkReins s k, chkTiling s k,
    chkVec s k, chkSft s k, chkStreams s k, chkCurb s k, chkPorts s k, chkObjects s k, chkSync s k, chkHitch v.hitchBad s k, chkServe k,
    chkRoutes s k]

end Sys2Proof.Machine
end

