-- ==== Sys2Proof/Machine/Jobs.lean ====
section
/-!
DEFINITION. Jobs: what a job's end does (R39, R328, R418, R435, R446, R454, R455), drains and hard stops (R161 to R167), job
commands (R444, R445), shares and selection (R447 to R453), and requests for a changeover (R456, R457).
-/
namespace Sys2Proof.Machine

/-! ## Epoch advance (R157, R159) -/

/-- Credits of a core's enabled output reins that have not come home (R159). -/
def creditsOut (s : State) (c : Nat) : Nat :=
  (s.reinOut.filter (fun r => r.1 / 128 = c && r.2.cfg.en)).foldl (fun n r => n + (r.2.cfg.credits - r.2.avail)) 0

/-- Cores that have an enabled output rein. -/
def reinCores (s : State) : List Nat := ((s.reinOut.filter (fun r => r.2.cfg.en)).map (fun r => r.1 / 128)).eraseDups

/-- The configuration epoch advances by 1 mod 8; outstanding credits move to RET_COUNT under the old epoch (R157, R159). -/
def epochAdvance (s : State) : State :=
  let s' := forEach (reinCores s) (fun c t => modCore c (fun k => { k with retCount := k.retCount + creditsOut s c }) t) s
  modJob (fun j => { j with epoch := j.epoch + 1, retEpoch := j.epoch }) { s' with
    reinOut := smap {} (fun _ r => { r with avail := r.cfg.credits }) s'.reinOut }

/-- RET_COUNT is 0 on every core (R158). -/
def retHome (s : State) : Bool := s.cores.all (fun c => c.2.retCount = 0)

/-! ## Remaps at job end (R39, R40, R328, R329) -/

/-- Physical cores of a type on a die: 112 Draught from 0, then 38 Courser (R37, log 3). -/
def physOf (courser : Bool) : List Nat := if courser then (List.range 38).map (112 + ·) else List.range 112

/-- The lowest-numbered physical core of a type on a die that is neither bound nor retired (R38, R39). -/
def freePhys (s : State) (die : Nat) (courser : Bool) : Option Nat :=
  (physOf courser).find? (fun p =>
    !s.fuses.retired.contains (die, p) &&
    !((List.range 144).any (fun i => let b := bindingOf s (die * 144 + i); !b.unbacked && b.phys = p)))

/-- Key of a SPARE field: D die 0, C die 0, D die 1, C die 1 (R58). -/
def spareKey (c : Nat) : Nat := c / 144 * 2 + bit01 (isCourser c)

/-- A core leaves service: its SVC_EPOCH rises, the event names unit and epoch (R615, R625). -/
def coreLeaves (c : Nat) (s : State) : State :=
  let s := modCore c (fun k => { k with svc := k.svc + 1 }) s
  event 0x0C81 (item 2 c ++ item 1 (coreOf s c).svc.toNat) s

/-- A core that awaits retirement is remapped to a spare, or left unbacked; the fuses record it (R39, R40, R329). -/
def retireCore (c : Nat) (s : State) : State :=
  let b := bindingOf s c
  let die := c / 144
  let s := { s with fuses := { s.fuses with retired := s.fuses.retired ++ [(die, b.phys)] } }
  let s := modCore c (fun k => { k with far := { k.far with retire := false, hold := false, spares := [], region := 0 } }) s
  let s := coreLeaves c s
  match freePhys s die (isCourser c) with
  | some p => { s with
      bindings := sset {} s.bindings c { phys := p, unbacked := false, remapped := true }
      spares := smod 0 s.spares (spareKey c) (· - 1) }
  | none => { s with bindings := sset {} s.bindings c { b with unbacked := true, remapped := false } }

/-- Row mappings that the fuses do not hold yet are recorded, a row whose spare failed once for each mapping (R328); so are the Ostler cores
that need retirement (R330). -/
def recordRows (s : State) : State :=
  let new := s.cores.flatMap (fun c => c.2.far.spares.map (fun x => (c.1 / 144, (bindingOf s c.1).phys, x.1, x.2)))
  let sram := s.ostlers.flatMap (fun k => k.2.spares.map (fun x => (k.1, x.1, x.2)))
  { s with fuses := { s.fuses with
      rowMaps := s.fuses.rowMaps ++ new.diff s.fuses.rowMaps
      ostlerRows := s.fuses.ostlerRows ++ sram.diff s.fuses.ostlerRows
      ostlersRetired := (s.fuses.ostlersRetired ++ (List.range 8).filter (fun n => (ostlerOf s n).retire)).eraseDups } }

/-- What the fuses and the bindings take at a job's end. -/
def retireAll (s : State) : State :=
  let s := recordRows s
  forEach ((s.cores.filter (fun c => c.2.far.retire)).map (fun c => c.1)) retireCore s

/-! ## Job end -/

/-- An object that its tack's keep list names becomes a KEPT entry in state READY, unless the directory holds its OBJ_ID or 4,096 entries:
it is then released as an object that no list keeps (R415, R418, log 89). -/
def keepObject (o : Placed) (s : State) : State :=
  if 4096 ≤ s.weights.dir.length || (dirFind s o.entry.objId).isSome then modTiers (fun t => { t with leaving := t.leaving ++ [o] }) s
  else modWeights (fun w => { w with dir := w.dir ++ [{
    objId := o.entry.objId, tier := o.entry.tier, die := o.entry.die, kind := 2, state := 1, bytes := o.entry.bytes
    base := o.base, modelId := 0 }] }) s

/-- Objects of the ending job (R418): kept, no longer bound, or released at the next action 6, which also empties the map. -/
def releaseObjects (s : State) : State :=
  match s.job.run with
  | none => s
  | some r =>
    let own := s.tiers.placed.filter (fun o => !o.entry.resident)
    let kept := fun (o : Placed) => r.tack.keep.contains o.entry.objId
    let s := forEach s.tiers.pagingIn (fun p t => match pageState t p with | .absent b => pageReadDrop b t | _ => t) s
    let s := modTiers (fun t => { t with placed := [], evicting := [], pagingIn := [], remap := true
                                         leaving := t.leaving ++ own.filter (fun o => !kept o) }) s
    let s := modWeights (fun w => { w with dir := w.dir.map (fun d => { d with byJob := false }), adapters := [] }) s
    forEach (own.filter kept) keepObject s

/-- The slot of the running job is no longer ACTIVE (R435). -/
def slotRetire (s : State) : State :=
  modWeights (fun w => { w with
    slotA := if w.slotA.state = 3 then { w.slotA with state := 2 } else w.slotA
    slotB := if w.slotB.state = 3 then { w.slotB with state := 2 } else w.slotB }) s

/-- A client's counters (R454). -/
def modClient (n : Nat) (f : Client → Client) (s : State) : State :=
  modJob (fun j => { j with clients := smod {} j.clients n f }) s

/-- The threads and engines of the job's cores have no work (R163, R165). -/
def quietCores (s : State) : State :=
  { s with
    cores := smap {} (fun _ k => { k with threads := smap {} (fun _ h => { h with en := false, wait := .none }) k.threads
                                          snaps := [], seen := [], claim := false }) s.cores
    engines := smap {} (fun _ g => { g with entries := [], left := 0, fired := [], held := [], windows := [] }) s.engines }

/-- The chip is a stride domain of its own, with the lengths of no job (R67, R71). -/
def domainAlone (s : State) : State :=
  modStride (fun t => { t with
    base := 16384, root := false, fixed := false, overFixed := false, domainRoot := ownChip s, aligned := false
    fallback := t.fallback && t.sourceNow = 2, missing := 0, requests := [], markerLen := none, markerCode := 0, sendCode := 0
    sendTack := 0, placeAt := none, phaseErr := 0 }) s

/-- The running job is over (R165, R418, R446, R454, R455): its requests end, its SUBMIT completes, its objects and slot are given
back, cores that await it are retired. -/
def jobOver (s : State) : State :=
  match s.job.run with
  | none => s
  | some r =>
    let bad := r.reason = some 4
    let reason := r.reason.getD 2
    let code := if bad then r.code else 0
    let s := endRequests (if !bad then 0x0260 else if r.stop ≠ 0 then r.stop else r.code) s
    let s := jobCompletion r.cmd (if bad then 4 else 0) code reason r.stridesRun r.charged s
    let s := modClient r.cmd.client (fun c => if bad then { c with failed := statInc 32 c.failed }
      else { c with completed := statInc 32 c.completed }) s
    let s := retireAll (slotRetire (releaseObjects (quietCores s)))
    let s := if s.stride.fixed then measChange s else s
    domainAlone (modJob (fun j => { j with run := none, install := none, members := [], status := code }) (measChange s))

/-! ## Drains (R161 to R167) -/

/-- What an engine keeps of its schedule when the drain begins (R162): no further firing of a gait marked SOURCE; a firing it has begun
goes on. -/
def dropSources (s : State) (e : Nat) (g : Engine) : Engine :=
  let src := fun (q : SchedEntry) => (gaitOf s e q.slot.val).source
  match g.entries with
  | [] => g
  | q :: l =>
    if g.firing.isSome then { g with entries := q :: l.filter (fun x => !src x), left := if src q then 1 else g.left }
    else
      let m := (q :: l).filter (fun x => !src x)
      { g with entries := m, left := if src q then (match m with | [] => 0 | x :: _ => x.firings) else g.left }

/-- DRAIN_BEGIN (R162, R167, R450): an end of the started job is due. -/
def execDrainBegin (s : State) : Out :=
  .next (match s.job.run with
    | none => s
    | some r =>
      if !mayAct s 9 || !r.started || r.draining || r.reason.isNone || s.stride.count < r.drainStart then s else
      let s := modRun (fun r => { r with draining := true, drainAge := 0, unchecked := r.unchecked ++ r.openSteps }) (openNine s)
      { s with engines := smap {} (dropSources s) s.engines })

/-- A request of a run is out (R247). -/
def runBusy (r : Run) : Bool := r.reqs.any (fun q => q.stage = .admitted || q.stage = .served)

/-- A stream is idle (R247). -/
def agIdle (g : Ag) : Bool := g.runs.all (fun r => !runBusy r && (r.ended || !r.fired))

/-- An engine has nothing in progress (R163). -/
def engineIdle (g : Engine) : Bool := g.firing.isNone && g.early.isEmpty && g.ags.all (fun a => agIdle a.2)

/-- The job's drain follows LINK_DOWN or LINK_UNREACHABLE (R500). -/
def linkDrain (s : State) : Bool := match s.job.run with | none => false | some r => r.linkLost

/-- Packets of this chip's job of the given TYPEs neither wait for a link nor are unacknowledged on one. -/
def linksQuiet (s : State) (types : List Nat) : Bool :=
  s.links.links.all (fun k => (k.2.wait.map (fun x => x.2) ++ k.2.sent.flatMap (fun f => f.ends)).all (fun p =>
    !(types.contains p.type && p.srcChip.toNat = ownChip s && p.epoch = s.job.epoch)))

/-- Tokens, credits and Hitch messages find no way to a chip now: its link is DOWN, or it is unreachable (R490). -/
def reinLost (s : State) (chip die : Nat) : Bool :=
  match routeNext s chip die false with | .nowhere _ => true | _ => false

/-- The drain is complete (R163, R375), or so in the way of R500; while a debug session holds a core of the job it waits (R585). -/
def drainDone (s : State) : Bool :=
  !jobHeld s && if linkDrain s then
    s.engines.all (fun g => g.2.firing.isNone && g.2.ags.all (fun a => a.2.runs.all (fun r => !runBusy r))) &&
    linksQuiet s [1, 2, 3, 4, 5, 6] &&
    s.hitches.all (fun h => h.2.outbox.all (fun m => reinLost s m.chip (m.peer / 2)))
  else
    s.reinOut.all (fun r => !r.2.cfg.en || r.2.avail = r.2.cfg.credits) &&
    s.reinIn.all (fun r => r.2.tokens.isEmpty && r.2.freed.isEmpty) &&
    s.engines.all (fun g => engineIdle g.2) && linksQuiet s [1, 2] && !launchesOpen s

/-- Tokens left in queues are discarded, their credits going home; what ends across a DOWN link or on an unreachable chip owe is written
off, and with it what it would add to RET_COUNT (R500). -/
def linkWriteOff (s : State) : State :=
  if !linkDrain s then s else
  let s := forEach (jobEngines s) (fun e t => forEach (List.range 16) (fun q u => queueFree e q 0 u) (earlyEmpty e t)) s
  { s with reinOut := smap {} (fun _ r =>
      if reinLost s r.cfg.dstChip (dieOfEng r.cfg.dstEngine) then { r with avail := r.cfg.credits, owed := 0 } else r) s.reinOut }

/-- Engines of the job with stale tokens counted (R161). -/
def staleEngines (s : State) : List (Nat × Nat) :=
  ((jobEngines s).map (fun e => (e, (engOf s e).stale.n))).filter (fun x => x.2 ≠ 0)

/-- DRAIN_COMPLETE (R161, R163, R170, R245, R375, R500): the first boundary at which all is idle. -/
def execDrainComplete (s : State) : Out :=
  .next (match s.job.run with
    | none => s
    | some r =>
      if !mayAct s 6 || !r.draining || r.hardStop || !drainDone s then s else
      let s := setAct 6 s
      let l := staleEngines s
      let s := if l.isEmpty then s else jobFault 0x0206 ((l.map (fun x => item 2 x.1 ++ item 4 x.2)).flatten) s
      let s := linkWriteOff s
      let s := { s with engines := smap {} (fun _ g => { g with
        ags := smap {} (fun _ a => { a with runs := a.runs.filter (fun r => r.fired && !r.ended) }) g.ags }) s.engines }
      jobOver (forEach (List.range 4) closeLaunches s))

/-- DRAIN_TIMEOUT (R164): DRAIN_DEPTH + 64 strides have passed; the hard stop follows at the next boundary. -/
def execDrainTimeout (s : State) : Out :=
  .next (match s.job.run with
    | none => s
    | some r =>
      if !mayAct s 9 || !r.draining || r.hardStop || drainDone s || r.drainAge < r.tack.ledger.drainDepth + 64 then s else
      modRun (fun r => { r with hardStop := true, stop := 0x0207, drainStart := s.stride.count + 1 })
        (jobFault 0x0207 (item 4 r.tack.ledger.drainDepth ++ item 4 r.drainAge) s))

/-- An engine of the job at a hard stop (R165, R166, R245): WAIT 5, nothing in progress; a credit back for every token. -/
def stopEngine (e : Nat) (s : State) : State :=
  let s := forEach (List.range 16) (fun q t => queueFree e q 0 t) (earlyEmpty e s)
  let s := forEach (List.range 16) (fun o t => modRout e o (fun r => { r with owed := 0 }) t) s
  modEng e (fun g => { g with
    wait := 5, firing := none, entries := [], left := 0, held := []
    ags := smap {} (fun _ a => { a with runs := [] }) g.ags }) s

/-- The epoch advance of a hard stop falls at this boundary: in a domain of more chips the one that the root's marker names, as long as
markers come (R157, log 94). -/
def stopNamed (s : State) : Bool := !multiChip s || s.stride.root || s.stride.markerAdvance || s.stride.markerLen.isNone

/-- HARD_STOP (R157, R165, R166, R343, R375, R413): the boundary after the fault that caused it. -/
def execHardStop (s : State) : Out :=
  .next (match s.job.run with
    | none => s
    | some r =>
      if !mayAct s 7 || !r.hardStop || s.stride.count < r.drainStart || !stopNamed s then s else
      let s := forEach (jobEngines s) stopEngine (setAct 7 s)
      let s := forEach (List.range 4) closeLaunches s
      let s := modSync (fun y => { y with objs := smap {} (fun _ o => { o with waiters := [] }) y.objs }) s
      modJob (fun j => { j with hardAge := some 0 }) (jobOver (epochAdvance s)))

/-- CREDIT_WRITE_OFF (R166): 64 strides after a hard stop, credits still out are written off. -/
def execCreditWriteOff (s : State) : Out :=
  .next (match s.job.hardAge with
    | none => s
    | some n =>
      if !mayAct s 7 || n < 64 then s else
      let l := s.cores.filter (fun c => c.2.retCount ≠ 0)
      let s := modJob (fun j => { j with hardAge := none }) s
      if l.isEmpty then s else
      event 0x0282 ((l.map (fun c => item 2 c.1 ++ item 3 c.2.retCount)).flatten)
        { s with cores := smap {} (fun _ k => { k with retCount := 0 }) s.cores })

/-! ## Job commands (R444 to R446) -/

/-- The cache slot that holds a tack, STAGED (or STAGING too). -/
def slotWith (s : State) (id : Nat) (staging : Bool) : Option (Fin 2) :=
  [(0 : Fin 2), 1].find? (fun k =>
    let c := cacheSlot s k
    (c.state = 2 || (staging && c.state = 1)) && (match c.tack with | none => false | some t => t.tackId = id))

/-- The first field of a SUBMIT that fails (R445). -/
def submitField (s : State) (j : JobCmd) : Option Nat :=
  if j.rsvd || j.cmdTag = 0 || jobUnused 1 j then some 0
  else if j.term = 0 || 1048576 < j.term then some 1
  else if j.tenant ≠ s.job.tenant then some 2
  else if (slotWith s j.tackId true).isNone then some 3
  else none

/-- SUBMIT (R445). -/
def execJobSubmit (j : JobCmd) (s : State) : Out :=
  .next (if !admitsJob s 1 j then s else
    let s := admitEntry j.ring s
    match submitField s j with
    | some n => jobRefuse j 0x0262 (item 1 n) s
    | none =>
      if 64 ≤ (pendingJobs s).length then jobRefuse j 0x0261 [] s
      else modJob (fun k => { k with pending := k.pending ++ [j] }) s)

/-- END (R445, R455): the running job, or a pending SUBMIT. -/
def execJobEnd (j : JobCmd) (s : State) : Out :=
  .next (if !admitsJob s 2 j then s else
    let s := admitEntry j.ring s
    let running := match s.job.run with | none => false | some r => (j.target = 0 || r.cmd.cmdTag = j.target) && !r.endBy
    if j.rsvd || j.cmdTag = 0 || jobUnused 2 j then jobRefuse j 0x0262 (item 8 j.target) s
    else if running then
      jobCompletion j 0 0 0 0 0 (modRun (fun r => { r with endBy := true, drainStart := Nat.max r.drainStart (s.stride.count + 1) }) s)
    else match (pendingJobs s).find? (fun p => p.cmdTag = j.target && j.target ≠ 0) with
    | some p =>
      let s := modJob (fun k => { k with pending := k.pending.erase p, chosen := if k.chosen = some p then none else k.chosen }) s
      jobCompletion j 0 0 0 0 0 (jobRefuse p 0x0260 (item 8 p.cmdTag) s)
    | none => jobRefuse j 0x0262 (item 8 j.target) s)

/-- A changeover is requested (R457): pending SUBMITs end, the running job drains from the next boundary, REASON 3; so does one whose term
ended at this boundary (R455). -/
def requestChangeover (tenant : BitVec 16) (s : State) : State :=
  let s := forEach (pendingJobs s) (fun p t => jobRefuse p 0x0260 (item 8 p.cmdTag) t) s
  let s := modJob (fun k => { k with pending := [], chosen := none, tenantReq := some tenant }) s
  let n := s.stride.count
  modRun (fun r => if r.reason.isNone || (r.reason = some 2 && r.drainStart = n && !r.draining) then
    { r with reason := some 3, drainStart := n + 1 } else r) s

/-- TENANT (R457): entries behind it wait in the ring, whatever they hold (R512). -/
def execJobTenant (j : JobCmd) (s : State) : Out :=
  .next (if !admitsJob s 3 j then s else
    if j.rsvd || j.cmdTag = 0 || jobUnused 3 j then jobRefuse j 0x0262 (item 1 0) (admitEntry j.ring s)
    else requestChangeover j.tenant (jobCompletion j 0 0 0 0 0 (countAdmit j.ring.val (openNine s))))

/-- A write of TENANT_REQ (R456, R457): TENANT_BUSY is an SDO abort. -/
def tenantWrite (value : BitVec 16) (s : State) : State :=
  if changeoverPending s then
    modMgmt (fun m => { m with sdoAbort := 0x08000022 }) (requestFault 0x0263 (item 2 value.toNat) s)
  else modMgmt (fun m => { m with sdoAbort := 0 }) (requestChangeover value s)

/-- TENANT_REQ (R456, R457, R580). -/
def execTenantReq (value : BitVec 16) (s : State) : Out := .next (if fabricUp s then tenantWrite value s else s)

/-! ## Shares and selection (R447 to R453) -/

/-- WEIGHT of a class (R465). -/
def weightOf (s : State) (c : Nat) : Nat := sget 16 s.job.weights c
/-- USED of a class. -/
def usedOf (s : State) (c : Nat) : Nat := sget 0 s.job.used c

/-- Every chip of a group has reported the tack STAGED, and this chip is the root (R453). -/
def groupMet (s : State) (k : Tack) : Bool :=
  k.groupChips = 1 || (k.groupChips - 1 ≤ ((s.job.groupReady.filter (fun g => g.2 = k.tackId && g.1 ≠ ownChip s)).map
    (fun g => g.1)).eraseDups.length && rootOf (groupOf s k) = ownChip s)

/-- A pending job is eligible (R448, R453). -/
def eligible (s : State) (j : JobCmd) : Bool :=
  j.tenant = s.job.tenant && match slotWith s j.tackId false with
    | none => false
    | some k => match (cacheSlot s k).tack with | none => false | some t => groupMet s t

/-- END_OBJ of the running job has been reached (R444, R448). -/
def endReached (s : State) (r : Running) : Bool := r.cmd.endEn && (objOf s r.cmd.endObj.val).type = 1 && 1 ≤ (objOf s r.cmd.endObj.val).value

/-- The running job is renewable (R448). -/
def renewable (s : State) : Option JobCmd :=
  match s.job.run with
  | none => none
  | some r => if r.reason.isNone && !r.endBy && !endReached s r then some r.cmd else none

/-- Busy classes (R449); a job that waits for its install is still pending. -/
def busyNow (s : State) : List Nat :=
  (List.range 16).filter (fun c => (match s.job.chosen with | none => false | some j => j.cls.val = c) ||
    (s.job.pending.any (fun j => j.cls.val = c && eligible s j)) ||
    (match renewable s with | none => false | some j => j.cls.val = c))

/-- The class of a list with the smallest USED ÷ WEIGHT; the lower number between equals (R449). -/
def leastUsed (s : State) (l : List Nat) : Option Nat :=
  l.foldl (fun m c => match m with
    | none => some c
    | some b => if usedOf s c * weightOf s b < usedOf s b * weightOf s c then some c else some b) none

/-- Classes that became busy are raised to the level of those already busy (R452). -/
def raiseUsed (s : State) : State :=
  let old := s.job.busy
  let new := (busyNow s).filter (fun c => !old.contains c)
  let s' := match leastUsed s (old.filter (busyNow s).contains) with
    | none => s
    | some x => forEach new (fun c t =>
        let level := ceilDiv (usedOf s x * weightOf s c) (weightOf s x)
        modJob (fun j => { j with used := smod 0 j.used c (Nat.max level) }) t) s
  modJob (fun j => { j with busy := busyNow s }) s'

/-- The running job is to be renewed or ended (R448). -/
def endDue (s : State) (r : Running) : Bool :=
  r.started && r.reason.isNone && (r.termLeft = 0 || endReached s r || (r.endBy && r.drainStart ≤ s.stride.count))

/-- A selection is due (R448), unless a changeover is under way (R455, R457) or the job is already ending. -/
def selectionDue (s : State) : Bool :=
  !changeoverPending s && s.job.chosen.isNone && s.stride.sendTack = 0 &&
  match s.job.run with
  | none => s.job.pending.any (eligible s)
  | some r => endDue s r

/-- The job a class puts forward: the earliest admitted that is eligible (R449). -/
def nextOf (s : State) (c : Nat) : Option JobCmd := s.job.pending.find? (fun j => j.cls.val = c && eligible s j)

/-- The running job ends at this boundary with the reason of R455. -/
def endRunning (s : State) : State :=
  match s.job.run with
  | none => s
  | some r =>
    let why := if endReached s r then 0 else if r.endBy then 1 else 2
    modRun (fun r => { r with reason := some why, drainStart := s.stride.count }) s

/-- A job is chosen for the next install. -/
def chooseNow (j : Option JobCmd) (s : State) : State :=
  match j with
  | none => s
  | some j => modJob (fun k => { k with chosen := some j, pending := k.pending.erase j }) s

/-- The job takes part in a group (R453). -/
def groupJob (s : State) (j : JobCmd) : Bool :=
  match slotWith s j.tackId false with
  | none => false
  | some k => match (cacheSlot s k).tack with | none => false | some t => t.groupChips ≠ 1

/-- The decision `id` goes to every chip of the domain in the next marker, and is applied at that marker's boundary (R453). -/
def announceJob (id : Nat) (s : State) : State :=
  let n := s.stride.count
  modRun (fun r => { r with askedAt := some n }) (modStride (fun t => { t with sendTack := id }) s)

/-- The outcome of a selection: the decision of a domain's root, and a group job, wait for the marker that tells every chip (R453). -/
def choose (j : Option JobCmd) (s : State) : State :=
  match j with
  | none => endRunning s
  | some j => if multiChip s || groupJob s j then announceJob j.tackId s else chooseNow (some j) (endRunning s)

/-- The running job is renewed (R449). -/
def renew (s : State) : State := modRun (fun r => { r with termLeft := r.cmd.term, askedAt := none }) s

/-- What selection chooses (R449): nothing, the running job again, or a pending one. -/
def selection (s : State) : Option (Option JobCmd) :=
  match leastUsed s (busyNow s) with
  | none => none
  | some c => match renewable s with
    | some j => if j.cls.val = c then some none else some (nextOf s c)
    | none => some (nextOf s c)

/-- Selection in a domain of more chips (R453): the root decides, and every chip, the root among them, applies what the marker of the next
boundary names; where it names nothing the running job ends there with no successor (log 94). -/
def selectGroup (r : Running) (s : State) : State :=
  match r.askedAt with
  | some n => if n < s.stride.count && (s.stride.root || s.stride.markerLen.isSome) then endRunning (openNine s) else s
  | none =>
    let s := openNine s
    if !s.stride.root then announceJob 0 s else
    let s := raiseUsed s
    match selection s with
    | none => announceJob 0 s
    | some none => announceJob r.tack.tackId s
    | some (some j) => announceJob j.tackId s

/-- Selection (R449, R452). -/
def selectJob (s : State) : State :=
  if !selectionDue s then s else
  match s.job.run with
  | some r => if multiChip s then selectGroup r s else selectOne (raiseUsed (openNine s))
  | none => selectOne (raiseUsed (openNine s))
where
  /-- Selection on a chip that is a domain of its own. -/
  selectOne (s : State) : State :=
    match selection s with
    | none => endRunning s
    | some none => renew s
    | some (some j) => choose (some j) s

/-- TERM_EXPIRY (R447, R448): the running job's term has run out. -/
def execTermExpiry (s : State) : Out :=
  .next (match s.job.run with
    | none => s
    | some r => if mayAct s 9 && r.termLeft = 0 then selectJob s else s)

/-- The decision that the root's marker names is applied on every chip (R453): the running job renewed, or the job named chosen and the
running one ended. -/
def markerChoice (s : State) : State :=
  let id := s.stride.markerTack
  if id = 0 || s.job.chosen.isSome || changeoverPending s then s else
  let j := s.job.pending.find? (fun j => j.tackId = id && (slotWith s j.tackId false).isSome)
  match s.job.run with
  | some r =>
    if multiChip s && r.reason.isNone then
      if r.tack.tackId = id && !r.endBy && !endReached s r then renew (openNine s) else chooseNow j (endRunning (openNine s))
    else (match j with | none => s | some j => chooseNow (some j) (endRunning (openNine s)))
  | none => (match j with | none => s | some j => chooseNow (some j) (openNine s))

/-- JOB_SELECTION (R448 to R453): at boundary action 9. -/
def execJobSelection (s : State) : Out := .next (if mayAct s 9 then selectJob (markerChoice s) else s)

end Sys2Proof.Machine
end

