-- ==== Sys2Proof/Machine/Install.lean ====
section
/-!
DEFINITION. Switch-in (R437 to R442): the install of a tack with its phases, its completion, its refusal (R446), and the
overrun. Core bindings, objects and pages follow R290 to R293, R418 and R617.
-/
namespace Sys2Proof.Machine

/-! ## CONTROL (R437) -/

/-- Gait stores, schedules and gait classes of one engine as the tack gives them, every gait under the new epoch (R133). -/
def loadEngine (x : EngineCfg) (s : State) : State :=
  modEng x.engine.val (fun g => { g with
    gaits := (cfgGaits x).foldl (fun m p => sset {} m p.1.val { p.2 with epoch := s.job.epoch }) []
    classes := x.classes.foldl (fun m p => sset 0 m p.1.val p.2) [] }) s

/-- Every engine as an install clears it. Early tokens (R146, R160), the active slot (R137, log 76), STALE_OVF (R145) and the byte
counts of R271 stay. -/
def clearEngines (s : State) : State :=
  { s with engines := smap {} (fun _ g => ({ active := g.active, stale := { ovf := g.stale.ovf }, early := g.early
                                             ags := smap {} (fun _ a => ({ bytes := a.bytes } : Ag)) g.ags } : Engine)) s.engines }

/-- Reins as the tack gives them (R145 to R147). -/
def loadReins (k : Tack) (s : State) : State :=
  { s with
    reinIn := k.reinIn.foldl (fun m p => sset {} m p.1 { cfg := p.2, bound := if boundN k p.1 = 0 then p.2.credits else boundN k p.1 }) []
    reinOut := k.reinOut.foldl (fun m p => sset {} m p.1 { cfg := p.2, avail := p.2.credits }) [] }

/-- A synchronisation object as its table entry gives it (R336). -/
def syncEntryObj (o : SyncEntry) : SyncObj :=
  { type := o.type, param := o.param, waitLimit := o.waitLimit
    value := if o.type = 1 then o.init else 0
    limit := if o.type = 3 then o.init.toNat else 0
    claims := if o.type = 3 then o.claimants.map (fun c => { chip := c.1, core := c.2 }) else [] }

/-- The synchronisation objects: those of the table, every other of type NONE (R336). -/
def loadSync (k : Tack) (s : State) : State :=
  modSync (fun y => { y with objs := (tackSync k).foldl (fun m o => sset {} m o.obj (syncEntryObj o)) [] }) s

/-- The Hitch tables of the tack (R350, R351, R367): each peer grants an equal share of 16,384 units to the two Hitches of every other
chip of the group that may send to it (R352, log 87). -/
def loadHitch (k : Tack) (chips : Nat) (s : State) : State :=
  let one := fun (h : Nat) (x : Hitch) =>
    let c := (k.hitch.find? (fun (g : HitchCfg) => g.hitch.val = h))
    { x with
      hlds := match c with | none => [] | some c => (cfgHlds c).foldl (fun m p => sset {} m p.1 { p.2 with epoch := s.job.epoch }) []
      map := match c with | none => [] | some c => (cfgMap c).foldl (fun m p => sset {} m p.1 p.2) []
      halted := false, st := [], exp := [], grant := 16384 / Nat.max 1 (2 * (chips - 1)), owed := [], outbox := [] }
  forEach (List.range 4) (fun h => modHitch h (one h)) s

/-- Curbs at B0: CURB_BUDGET and CURB_STAT take their reset values (R271), which hold from the next boundary on (R46); class 4 is uncapped
at once (R267, R437). -/
def clearCurbs (s : State) : State :=
  modTiers (fun t => { t with
    uncapped4 := true
    curbs := smap {} (fun _ c => ({ budgetNow := c.budgetNow, spent := c.spent, carried := c.carried } : Curb)) t.curbs }) s

/-- Route entries of the group's destinations; every other chip has dimension order, or UNREACH outside the system's racks (R470,
R488). -/
def loadRoutes (k : Tack) (g : List Nat) (s : State) : State :=
  let own := ownChip s
  modLinks (fun x => { x with
    racksNow := some x.racks
    routes := (g.filter (fun d => d ≠ own)).foldl (fun m d =>
      match routeFor s k g own d with | some e => sset 0 m d e | none => m) [] }) s

/-- Groom registers at their Reset values (R196); credits owed, error counters, service epochs and the Farrier's registers
stay. Every core holds its part of the new ACTIVE slot (R617). -/
def clearCores (s : State) : State :=
  forEach ((s.cores.filter (fun c => c.2.svc ≠ c.2.loaded)).map (fun c => c.1)) (fun c => event 0x0C82 (item 2 c))
  { s with cores := smap {} (fun _ c => ({ retCount := c.retCount, spad := c.spad, svc := c.svc
                                           loaded := c.svc, far := c.far, dbgHalt := c.dbgHalt } : Core)) s.cores }

/-- Objects placed and bound (R290, R437); the map and the directory show it from the next action 6 on (R68, R417). -/
def loadObjects (k : Tack) (s : State) : State :=
  let l := (placeAll s k).placed
  let s := modTiers (fun t => { t with placed := l, remap := true, evicting := [], pagingIn := [] }) s
  forEach (l.filter (fun o => o.entry.resident)) (fun o t => dirSet o.entry.objId (fun d => { d with byJob := true }) t) s

/-- The work of CONTROL; the tokens that came early join the new queues (R160). -/
def installControl (k : Tack) (g : List Nat) (s : State) : State :=
  let s := loadObjects k (loadRoutes k g (clearCores (clearCurbs (loadHitch k g.length (loadSync k (loadReins k
    (forEach k.engines loadEngine (clearEngines s))))))))
  forEach ((s.engines.filter (fun e => !e.2.early.isEmpty)).map (fun e => e.1)) earlyJoin s

/-! ## The start of an install -/

/-- The job command of a refused install completes: FAULT, REASON 4, no stride run (R446, R455). -/
def installRefused (j : JobCmd) (x : Nat × List Byte) (s : State) : State :=
  let s := record 1 2 x.1 x.2 s
  let s := jobCompletion j 4 x.1 4 0 0 s
  modJob (fun k => { k with status := x.1, chosen := none }) (modClient j.client (fun c => { c with failed := statInc 32 c.failed }) s)

/-- The slot becomes ACTIVE, the one that was becomes STAGED (R435). -/
def slotActivate (n : Fin 2) (s : State) : State :=
  let s := slotRetire s
  setSlot n { cacheSlot s n with state := 3 } s

/-- The install of a job that passed every check begins (R157, R159, R437, R454); it clears ALTERED
(R586) and the job counters (R555). -/
def installBegin (j : JobCmd) (k : Tack) (n : Fin 2) (s : State) : State :=
  let g := groupOf s k
  let root := rootOf g
  let r : Running := { cmd := j, tack := k, termLeft := j.term, group := g, linkSet := linksUsed k g s }
  let s := epochAdvance s
  let s := slotActivate n (modClient j.client (fun c => { c with started := statInc 32 c.started }) s)
  let s := modJob (fun x => { x with
    run := some r, chosen := none
    install := some { phase := 0, strides := 0, total := k.installStrides, slot := n, tack := k, job := j } }) s
  let s := modMgmt (fun m => { m with ternary := {}, satRows := {}, sfnDomain := {}, weightClamp := {}, combineClamp := {}
                                      pageMisses := {} }) s
  let s := modStride (fun t => { t with domainRoot := root, root := root = ownChip s && k.groupChips ≠ 1 }) s
  let s := if s.sec.altered then measChange (modSec (fun x => { x with altered := false }) s) else s
  measChange (installControl k g s)

/-- What Etxia has learnt of the group as the install begins (R339, R488, R489, log 31). -/
def learnGroup (v : GroupView) (k : Tack) (s : State) : State :=
  modSync (fun y => { y with remote := v.objects.foldl (fun m o => sset 0 m (o.1 * 8192 + o.2.1) o.2.2) [] })
    <| modJob (fun j => { j with members := v.chips.map (fun c => (c, k.tackId)) })
    (modLinks (fun l => { l with gathered := v.downs, joined := v.joined }) (setAct 7 s))

/-- TACK_INSTALL (R157, R158, R437, R446): the job chosen is installed at action 7 once no job is loaded and RET_COUNT is 0; that
of a group at a boundary whose marker names the epoch advance. `v`: what Etxia
has learnt of the group (R74, R439, R488). -/
def execTackInstall (v : GroupView) (s : State) : Out :=
  .next (match s.job.chosen with
    | none => s
    | some j =>
      if !mayAct s 7 || s.job.run.isSome || !retHome s || s.job.chgOpen then s else
      match slotWith s j.tackId false with
      | none => s
      | some n => match (cacheSlot s n).tack with
        | none => s
        | some k => if k.groupChips ≠ 1 && !s.stride.markerAdvance then s else
          let s := learnGroup v k s
          match installRefusal v s k with
          | some x => installRefused j x (takeFree s).2
          | none => installBegin j k n s)

/-! ## IMAGE, LOWER, ARM -/

/-- An object's pages written at 0 under Curb class 4 (R264, R293). -/
def zeroObject (o : Placed) (s : State) : State :=
  let n := pagedBytes o.entry.tier o.entry.bytes
  chargePage 4 o.base n (portTouch o.base n (zeroFill o.base n s))

/-- IMAGE: every backed scratchpad byte 0, then the core images and expansions out of the slot, which Etxia reads under class 4 (R264);
tier H without backing at 0 (R293, R437). -/
def installImage (k : Tack) (s : State) : State :=
  let ex := expansions s k
  let s := forEach (stageUnits (k.cores.foldl (fun n c => c.blocks.foldl (fun n b => n + b.2.length) n) 0)) (fun p t => curbCharge p.1 4 p.2 t) s
  let s := zeroBytes 0xF00000000000 0x90000000 s
  let s := forEach k.cores (fun c t => forEach c.blocks (fun b u => writeSpad c.core.val b.1 b.2 u) t) s
  let s := forEach ex (fun x t => writeSpad x.1 x.2.1 ((x.2.2.map (fun w => bytesLE 8 w.toNat)).flatten) t) s
  forEach (s.tiers.placed.filter (fun o => !o.entry.resident && o.entry.tier = 0 && o.entry.backing = 0)) zeroObject s

/-- LOWER: PIN objects copied from their backing, tier L objects without backing at 0 (R293, R437). -/
def installLower (s : State) : State :=
  forEach (s.tiers.placed.filter (fun o => !o.entry.resident && o.entry.tier < 2)) (fun o t =>
    if o.entry.backing = 0 then
      (if o.entry.tier = 1 then zeroObject o t else t)
    else if o.entry.pin then
      chargePage 4 o.base o.entry.bytes (chargePage 4 o.entry.backing o.entry.bytes (copyBytes o.entry.backing o.base o.entry.bytes t))
    else t) s

/-- Budgets that the Curbs load at B0 + S (R269). -/
def readyBudgets (k : Tack) (s : State) : State :=
  modTiers (fun t => { t with curbs := (List.range 40).foldl (fun m p => (List.range 7).foldl (fun m c =>
    smod {} m (p * 8 + c) (fun x => { x with budget := tackBudget s k p c })) m) t.curbs }) s

/-- Entry PCs of step 0 (R172, R196). -/
def entryPcs (x : CoreImage) (s : State) : State :=
  forEach (x.entries.headD []) (fun e t => modThread x.core.val e.1.val (fun h => { h with pc := e.2 }) t) s

/-- The adapter areas of SERVE_OBJ hold no slot, no adapter and no row (R430). -/
def armAdapters (k : Tack) (s : State) : State :=
  match tackServe k with
  | none => s
  | some v => if k.adapterSlots = 0 then s else
    let a := objBase s v.serveObj + 0x1A000
    let n := 0x2000 + k.adapterSlots * 0x200
    zeroFill a n (portTouch a n (transferCharge 4 a n s))

/-- ARM: scalar registers, then object bases, entry PCs, budgets (R269, R290, R437). -/
def installArm (k : Tack) (s : State) : State :=
  let s := forEach k.cores (fun c t => entryPcs c (forEach c.sregs (fun r u => setSreg c.core.val r.1 r.2 u) t)) s
  let bases := s.tiers.placed.filter (fun o => o.entry.sreg ≠ 0)
  let s := forEach (tackCores k) (fun c t => forEach bases (fun o u => setSreg c o.entry.sreg (BitVec.ofNat 64 o.base) u) t) s
  let s := { s with cores := smap {} (fun _ c => { c with snaps := if c.sreg.isEmpty then [] else [(0, some c.sreg)] }) s.cores }
  readyBudgets k (armAdapters k s)

/-- The first stride of each phase (R437): CONTROL 2, IMAGE nH, LOWER what INSTALL_STRIDES leaves, ARM the last. -/
def phaseStart (s : State) (i : Install) (phase : Nat) : Nat :=
  let nH := (phaseStrides s i.tack (cacheSlot s i.slot).bytes).1
  if phase = 0 then 0 else if phase = 1 then 2 else if phase = 2 then Nat.min (2 + nH) (i.total - 1) else i.total - 1

/-- The work of a phase. -/
def phaseWork (phase : Nat) (k : Tack) (s : State) : State :=
  if phase = 1 then installImage k s else if phase = 2 then installLower s else installArm k s

/-- INSTALL_PHASE_ADVANCE (R437): at the boundary at which the next phase begins. -/
def execInstallPhaseAdvance (s : State) : Out :=
  .next (match s.job.install with
    | none => s
    | some i =>
      if !mayAct s 7 || 3 ≤ i.phase || i.strides < phaseStart s i (i.phase + 1) then s else
      modJob (fun j => { j with install := some { i with phase := i.phase + 1 } }) (phaseWork (i.phase + 1) i.tack (setAct 7 s)))

/-- An install that still runs at B0 + S. -/
def installDue (s : State) : Option Install :=
  s.job.install.bind (fun i => if mayAct s 7 && i.total ≤ i.strides then some i else none)

/-- INSTALL_COMPLETE (R64, R83, R95, R437): at B0 + S the Curbs load the budgets, class 4 is capped, and step 0 begins at the boundary's
issue span under the incoming Ledger's L_base. This boundary is the "next job start" at which a written MARKER_LEAD_FC comes into force
(DESIGN CHOICE, log 93). -/
def execInstallComplete (s : State) : Out :=
  .next (match installDue s with
    | none => s
    | some i =>
      if i.phase ≠ 3 then s else
      let s := modTiers (fun t => { t with
        uncapped4 := false
        curbs := smap {} (fun _ c => { c with budgetNow := c.budget }) t.curbs }) (setAct 7 s)
      let s := modStride (fun t => { t with base := i.tack.ledger.lBase, fixed := i.tack.ledger.lFixed ≠ 0, leadNow := t.markerLead }) s
      let s := if i.tack.ledger.lFixed = 0 then s else measChange s
      modJob (fun j => { j with install := none }) (modRun (fun r => { r with started := true, stride := 0 }) s))

/-- SWITCH_OVERRUN (R440): `bytes` of the install's transfers are unfinished at B0 + S; the job ends before step 0. -/
def execSwitchOverrun (bytes : Nat) (s : State) : Out :=
  .next (match installDue s with
    | none => s
    | some i =>
      if bytes = 0 then s else
      jobOver (modTiers (fun t => { t with uncapped4 := false }) (jobFault 0x0247 (item 1 i.phase ++ item 8 bytes) (setAct 7 s))))

/-! ## The end of a STAGE (R436) -/

/-- The root of a tack's group is told that the slot is STAGED (R453), in an EVENT packet (log 94). -/
def tellStaged (t : Tack) (s : State) : State :=
  let root := rootOf (groupOf s t)
  if t.groupChips = 1 || root = ownChip s then s else sendStride root 2 { stride := jobStride s, tackId := t.tackId } s

/-- A STAGE goes on under class 4 (R264); once the image is in the slot it is checked, and the slot is STAGED or EMPTY (R422, R436, R438).
-/
def stageGo (k : Fin 2) (s : State) : State :=
  let c := cacheSlot s k
  match c.cmd, c.tack with
  | some w, some t =>
    if c.state ≠ 1 then s else
    let m := moveUnits c.left s
    if m.1 ≠ [] then setSlot k { c with left := m.1 } m.2
    else if !c.readOk then weightFault w 0x0244 (item 8 w.src) (setSlot k {} m.2)
    else match stageCheck m.2 t c.bytes with
    | some n => weightFault w 0x0240 (item 1 k.val ++ item 1 n) (setSlot k {} m.2)
    | none => tellStaged t (weightDone w 0 0 c.bytes (setSlot k { c with state := 2, cmd := none, left := [] } m.2))
  | _, _ => s

/-- Every STAGE under way goes on. -/
def stagesGo (s : State) : State := stageGo 1 (stageGo 0 s)

end Sys2Proof.Machine
end

