-- ==== Sys2Proof/Machine/Changeover.lean ====
section
/-!
DEFINITION. The close of a debug session (R584, R586), and the phases of a tenant changeover (R457 to R464, R572, R579).
-/
namespace Sys2Proof.Machine

/-- The debug session closes (R584, R586): halted cores resume, block 9 changes, and an altered job ends under DEBUG_POLICY. -/
def debugShut (s : State) : State :=
  if !s.sec.dbgOpen then s else
  let path := s.sec.path
  let level := s.sec.level
  let s := { s with cores := smap {} (fun _ k => { k with dbgHalt := false }) s.cores }
  let s := modSec (fun k => { k with dbgOpen := false, level := 0, path := 0 }) s
  let s := measChange (event 0x0B82 (item 1 path ++ item 1 level) s)
  if s.sec.policy = 1 && s.sec.altered && jobLoaded s then jobFault 0x0B03 (item 8 s.sec.count ++ item 1 path) s else s

/-- The journal's PHASE changes: block 8 does (R463, R464, R575). -/
def chgPhase (n : Nat) (s : State) : State := measChange (modJob (fun j => { j with chg := { j.chg with phase := n } }) s)

/-- A write or key operation of a changeover fails (R462): the journal stays open. -/
def changeoverFailed (op : Nat) (s : State) : State := chipStop 0x0264 (item 8 (journalWord s) ++ item 1 op) true s

/-- The tier keys are replaced (R572): in TIO mode what was written before no longer reads as it was (R310). -/
def replaceKeys (s : State) : State :=
  if !s.tiers.tio then s else
  modTiers (fun t => { t with lEn := true, fEn := true, keyGen := t.keyGen + 1 }) (newKey s)

/-- What OPEN clears (R458): CANCELs and CLOSEs that wait complete first, and so do LOADs and STAGEs whose object or image is lost (log
88). -/
def clearTenant (s : State) : State :=
  let s := forEach s.serve.cancels (fun c t => if c.1 then applyClose c.2.1 t else applyCancel c.2.1 t) s
  let s := forEach s.serve.closing (fun x t => forEach x.2 (fun r u => serveCompletion r r.session 0 0 0 0 0 0 u) t) s
  let s := forEach [s.weights.slotA, s.weights.slotB] (fun c t => match c.cmd with | some w => weightRefused w t | none => t) s
  let s := forEach s.weights.loads (fun x t => weightRefused x.cmd t) s
  let s := modWeights (fun w => { w with loads := [], dir := [], slotA := {}, slotB := {}, deflt := 0, bindings := [], adapters := [] }) s
  let s := modTiers (fun t => { t with pages := [], placed := [], leaving := [], remap := false, evicting := [], pagingIn := [] }) s
  modJob (fun j => { j with pending := [], chosen := none, groupReady := [], busy := [] }) { s with serve := {} }

/-- CHANGEOVER_OPEN (R457, R458, R464): action 7 of the first boundary with no job loaded and RET_COUNT 0. -/
def execChangeoverOpen (keyOk : Bool) (s : State) : Out :=
  .next (match s.job.tenantReq with
    | none => s
    | some n =>
      if !mayAct s 7 || s.job.chgOpen || s.job.run.isSome || !retHome s then s else
      let s := modJob (fun j => { j with
        chgOpen := true, chgStrides := 0
        chg := { newTenant := n, oldTenant := j.tenant, phase := j.chg.phase
                 attempts := if j.chg.phase = 0 then 1 else Nat.min 15 (j.chg.attempts + 1) } }) (setAct 7 s)
      let s := modSync (fun y => { y with farPaused := true }) (modTiers (fun t => { t with uncapped4 := true }) (debugShut s))
      let s := chgPhase 1 s
      if keyOk then clearTenant (replaceKeys s) else changeoverFailed 1 s)

/-- On-chip stores zeroised (R458): scratchpads, engines with their accumulators and resident buffers, reins, synchronisation
objects, Hitch tables and groom registers. ENG_STATE's active slot and stale count, and the registers of R271, are not among
them (log 76). -/
def zeroStores (s : State) : State :=
  let s := zeroBytes 0xF00000000000 0x90000000 s
  let s := { s with
    engines := smap {} (fun _ g => ({ active := g.active, stale := g.stale
                                      ags := smap {} (fun _ a => { a with runs := [] }) g.ags } : Engine)) s.engines
    reinIn := [], reinOut := []
    cores := smap {} (fun _ c => ({ spad := c.spad, svc := c.svc, loaded := c.loaded, far := c.far } : Core)) s.cores
    hitches := smap {} (fun _ h => { h with hlds := [], map := [], st := [], exp := [], owed := [], outbox := [] }) s.hitches }
  modSync (fun y => { y with objs := [] }) s

/-- CHANGEOVER_ZERO (R458): the boundary after OPEN. -/
def execChangeoverZero (writeOk : Bool) (s : State) : Out :=
  .next (if !mayAct s 7 || !s.job.chgOpen || s.job.chg.phase ≠ 1 || s.job.chgStrides < 1 then s else
    let s := chgPhase 2 (setAct 7 s)
    if writeOk then zeroBytes 0 0x006000000000 (zeroStores s) else changeoverFailed 2 s)

/-- The Curbs return to the defaults of R268. -/
def defaultBudgets (s : State) : State :=
  modTiers (fun t => { t with
    uncapped4 := false
    curbs := (List.range 40).foldl (fun m p => (List.range 7).foldl (fun m c =>
      smod {} m (p * 8 + c) (fun x => { x with budget := baseBudget s p c, budgetNow := baseBudget s p c, spent := 0 })) m) t.curbs }) s

/-- SPDM sessions and the IDE stream end with a tenancy in TIO mode (R579). -/
def endTenancy (s : State) : State :=
  if !s.tiers.tio then s else
  let had := s.host.ide ≠ 0
  let s := modHost (fun h => { h with ide := 0 }) (modSec (fun k => { k with sessions := [] }) s)
  if had then measChange s else s

/-- What the end of CLOSE does (R458, R459, R464, R579, R587, R589). -/
def changeoverEnd (s : State) : State :=
  let s := modJob (fun j => { j with tenant := j.chg.newTenant, tenantReq := none, chgOpen := false, chgStrides := 0
                                     changeovers := j.changeovers + 1 }) s
  let s := endTenancy (modSync (fun y => { y with farPaused := false }) (defaultBudgets (chgPhase 0 s)))
  if s.sec.maxLevel = 0 && s.sec.base = s.sec.count then s
  else measChange (modSec (fun k => { k with maxLevel := 0, base := k.count }) s)

/-- CHANGEOVER_CLOSE (R458): the boundary after ZERO's 3,841 strides sets PHASE 3; the boundary after that ends the changeover
and writes PHASE 0. -/
def execChangeoverClose (s : State) : Out :=
  .next (if !mayAct s 7 || !s.job.chgOpen then s
    else if s.job.chg.phase = 2 && 3842 ≤ s.job.chgStrides then chgPhase 3 (setAct 7 s)
    else if s.job.chg.phase = 3 && 3843 ≤ s.job.chgStrides then changeoverEnd (setAct 7 s)
    else s)

end Sys2Proof.Machine
end

