-- ==== Sys2Proof/Machine/Links.lean ====
section
/-!
DEFINITION. Chip links (R467 to R504): training, lane recalibration, flits and replay, packets delivered and forwarded, a link
that goes DOWN and what it costs.
-/
namespace Sys2Proof.Machine

/-! ## Fields of a packet (R481, R482) -/

/-- The 128 bits of a packet's header (R481). -/
def headerBits (p : Packet) : BitVec 128 := BitVec.ofNat 128 (numLE (headerBytes p))

/-- A core, thread, engine or object number of an INFO field (R482). -/
def infoCore (i : Word) : CoreId := ⟨bitsOf i 25 17 % 288, Nat.mod_lt _ (by decide)⟩
/-- The thread of an INFO field (R482). -/
def infoThread (i : Word) : ThreadId := ⟨bitsOf i 28 26 % 8, Nat.mod_lt _ (by decide)⟩
/-- The engine of an INFO field that begins at bit `lo` (R482). -/
def infoEng (i : Word) (lo : Nat) : EngId := ⟨bitsOf i (lo + 11) lo % 2304, Nat.mod_lt _ (by decide)⟩
/-- The rein number of an INFO field that begins at bit `lo` (R482). -/
def infoRein (i : Word) (lo : Nat) : ReinNo := ⟨bitsOf i (lo + 3) lo % 16, Nat.mod_lt _ (by decide)⟩

/-! ## The loss of a packet (R495, R496) -/

/-- The slot of a RELAY packet (R482). -/
def relaySlot (p : Packet) : Fin 2 := if bitOf p.info 37 then 1 else 0

/-- A RELAY packet of this chip is lost (R427, R496): a segment to the next hop, or the query to the hop asked, breaks the chain there; any
other is discarded. -/
def relayLost (p : Packet) (s : State) : State :=
  let k := relaySlot p
  match relayOf s k with
  | none => linkDiscard s
  | some r =>
    let dst := p.dstChip.toNat
    match r.asking with
    | some i => if bitOf p.info 36 && !bitOf p.info 35 && (hopAt r i).chip = dst then relayBreak k i s else linkDiscard s
    | none => if !bitOf p.info 35 && !bitOf p.info 36 && (hopAt r r.next).chip = dst then relayBreak k r.next s else linkDiscard s

/-- What the source chip does about a lost packet (R496, R498): a store never goes again. -/
def unreachAct (p : Packet) (reason : Nat) (s : State) : State :=
  if p.type = 1 || p.type = 2 || p.type = 5 || p.type = 6 then lostJob p reason s
  else if p.type = 3 then
    if bitOf p.info 16 then lostJob p reason s else syncAgain 4 (infoCore p.info).val (infoThread p.info).val reason s
  else if p.type = 7 then relayLost p s
  else linkDiscard s

/-- An UNREACH packet goes to the source of a lost packet; it is discarded where it has no route itself (R495, R496). -/
def sendUnreach (reason : Nat) (p : Packet) (s : State) : State :=
  let h := headerBits p
  packetOut (jobStride s)
    { dstChip := p.srcChip, srcChip := BitVec.ofNat 16 (ownChip s), type := 9, epoch := s.job.epoch, body := 1
      info := BitVec.ofNat 64 reason, data := [h.extractLsb' 0 64, h.extractLsb' 64 64] }
    (.unreach p.srcChip.toNat reason p) (fun _ => linkDiscard) (countUnreach s)

/-- A packet is lost here: its source is told, unless it is one that is only discarded (R495, R496). -/
def packetLost (reason : Nat) (p : Packet) (s : State) : State :=
  if p.type = 4 || p.type = 9 then linkDiscard s
  else if p.srcChip.toNat = ownChip s then unreachAct p reason (countUnreach s)
  else sendUnreach reason p s

/-! ## States of a link (R502) -/

/-- The peer that R467 gives a ring link: chip and link. -/
def ringPeer (s : State) (l : Nat) : Nat × Nat := (neighbour (ownChip s) 0 l, if l = 0 then 1 else if l = 1 then 0 else if l = 3 then 4 else 3)

/-- The link is a Z link (R467). -/
def isZ (l : Nat) : Bool := l = 2 || l = 5

/-- Flits and replay as they are when a link comes up (R478, R479); what it received whole is still to be taken up. -/
def flitsFresh (k : Link) : Link :=
  { k with lastSeq := 4095, lastAck := 4095, sentSeq := 4095, stuck := 0, outVc := [], lane := none, wait := [], sent := []
           rrClass := 2, rrLeft := 4, turnAge := 0, flits := 0, laneFix := [], laneAt := []
           inPkts := k.inPkts.map (fun p => { p with frees := 0 }), part := [], partFlits := 0 }

/-- The root of the job that uses the link is told (R497); one that is installing keeps it in mind, should the link come UP again before
action 1 (R501). -/
def tellLinkDown (l : Nat) (s : State) : State :=
  match s.job.run with
  | none => s
  | some r =>
    if !r.linkSet.contains (ownChip s, l) then s else
    let s := if s.job.install.isSome then modRun (fun x => { x with fell := x.fell ++ [l] }) s else s
    if !multiChip s then s
    else if s.stride.root then modStride (fun t => { t with sendCode := if t.sendCode = 0 then 0x0801 else t.sendCode }) s
    else sendStride s.stride.domainRoot 2 { stride := r.stride, code := 0x0801 } s

/-- A link is DOWN (R495, R502, R503): every packet queued for it or unacknowledged on it completes as unreachable. -/
def linkFalls (l : Nat) (s : State) : State :=
  let k := linkOf s l
  let lost := k.sent.flatMap (fun f => f.ends) ++ k.wait.map (fun x => x.2)
  let s := modLinks (fun k => { k with downs := k.downs + 1 }) (modLink l (fun k => { flitsFresh k with
    state := 4, lanesUp := 0, downs := k.downs + 1 }) s)
  tellLinkDown l (forEach lost (packetLost 1) s)

/-! ## Flits as bytes (R476, R477) -/

/-- The bytes of a flit, the first lowest, up to its parity (R476). -/
def flitByte (x : BitVec 2112) (i : Nat) : Byte := x.extractLsb' (8 * i) 8

/-- The payload of a LINKCTL flit (R477). -/
def ctlDecode (x : BitVec 2112) : LinkCtl :=
  let f := fun (byte lo n : Nat) => (x.extractLsb' (8 * (4 + byte) + lo) n).toNat
  { credits := (List.range 10).map (fun v => f v 0 8), nak := x.getLsbD 112, laneOp := f 0x0B 0 8, lane := f 0x0C 0 8
    echoT := f 0x10 0 32, echoR := f 0x14 0 32, chip := f 0x18 0 16, link := f 0x18 16 4, spine := x.getLsbD 244, plane := f 0x18 21 1 }

/-- A flit from its 264 bytes before the parity (R476); `rsvd`: a byte or bit of a LINKCTL payload that R477 does not name is not 0. -/
def flitDecode (x : BitVec 2112) : Flit :=
  let f := fun (lo n : Nat) => (x.extractLsb' lo n).toNat
  let bytes := (List.range 260).map (flitByte x)
  { kind := f 28 4, seq := f 16 12, ack := f 4 12, vc := f 0 4, crcOk := crc32c bytes = x.extractLsb' 2080 32
    ctl := ctlDecode x, rsvd := (bytes.drop 4).map (fun b => b.toNat) ≠ (padTo 256 (ctlPayload (ctlDecode x))).map (fun b => b.toNat)
    payload := bytes.drop 4 }

/-! ## Training (R468, R469, R474, R477, R494) -/

/-- Lanes up at both ends, less those retired here (R474, R475). -/
def lanesBoth (t : LinkTrain) (k : Link) : BitVec 8 := t.lanes &&& t.peerLanes &&& ~~~k.retired

/-- The flight time in fc: half of what the peer's echo of a transmit time took (R494), modulo the 32 bits of the field. -/
def echoDelay (now echo : Nat) : Nat := (now + 2 ^ 32 - echo % 2 ^ 32) % 2 ^ 32 / 2 % 65536

/-- A link is UP with what training found (R468, R474, R494). -/
def linkComesUp (l : Nat) (t : LinkTrain) (c : LinkCtl) (s : State) : State :=
  modLink l (fun k => { flitsFresh k with
    state := 2, lanesUp := lanesBoth t k, delay := echoDelay t.now c.echoR
    peerChip := if c.spine then 0 else c.chip, peerLink := if c.spine then 15 else c.link }) s

/-- This chip sends its chip number and link number, and echoes the peer's transmit time (R468, R477, R494). -/
def sendIdent (l : Nat) (t : LinkTrain) (c : LinkCtl) (s : State) : State :=
  ctlOut l { echoT := t.now, echoR := c.echoT, chip := ownChip s, link := l } s

/-- A ring link's peer is the one that R467 expects; a Z link's is a spine port of the matching plane (R468). -/
def peerFits (s : State) (l : Nat) (c : LinkCtl) : Bool :=
  if isZ l then c.spine && c.plane = (if l = 2 then 0 else 1) else !c.spine && (c.chip, c.link) = ringPeer s l

/-- The end of a link's training, from TRAINING or from DOWN (R468, R474, R501): UP, MISWIRED, or not yet; below 4 lanes a link that is
not DOWN goes DOWN. -/
def linkTrained (l : Nat) (t : LinkTrain) (s : State) : State :=
  let f := flitDecode t.ctl
  let c := f.ctl
  let s := sendIdent l t c s
  if laneCount (lanesBoth t (linkOf s l)) < 4 then (if isDown s l then s else linkFalls l s)
  else if !f.crcOk || f.kind ≠ 2 then s
  else if peerFits s l c then linkComesUp l t c s
  else if isZ l then s
  else event 0x0880 (item 2 (ownChip s) ++ item 1 l ++ item 2 c.chip ++ item 1 c.link)
    (modLink l (fun k => { k with state := 5, peerChip := c.chip, peerLink := c.link }) s)

/-- LINK_TRAIN (R468, R474, R494): a link in OFF or TRAINING, from stage 6 on and with coordinates set. -/
def execLinkTrain (l : LinkId) (t : LinkTrain) (s : State) : Out :=
  .next (if !fabricUp s || s.boot.stage < 6 || !coordsSet s || 2 ≤ (linkOf s l.val).state then s else
    let s := modLink l.val (fun k => { k with state := 1 }) s
    if t.ok then linkTrained l.val t s else s)

/-- LINK_RETRAIN (R502): a link in DOWN or MISWIRED starts training. -/
def execLinkRetrain (l : LinkId) (s : State) : Out :=
  .next (if fabricUp s && coordsSet s && (isDown s l.val || (linkOf s l.val).state = 5) then modLink l.val (fun k => { k with state := 1 }) s
    else s)

/-- LINK_UP (R468, R474, R501): a link in DOWN has trained by itself once its peer is back; it joins no running job's link set. -/
def execLinkUp (l : LinkId) (t : LinkTrain) (s : State) : Out :=
  .next (if fabricUp s && coordsSet s && isDown s l.val && t.ok then linkTrained l.val t s else s)

/-! ## Lanes (R475) -/

/-- Lane `k` of a link in UP is out for recalibration; a width that would fall below 4 takes the link DOWN (R474, R475). -/
def laneOut (l : Nat) (k : Fin 8) (s : State) : State :=
  let x := linkOf s l
  if x.state ≠ 2 || !x.lanesUp.getLsbD k.val then s
  else if laneCount x.lanesUp ≤ 4 then linkFalls l s
  else modLink l (fun y => { y with
    state := 3, lanesUp := y.lanesUp &&& ~~~(1#8 <<< k.val), lane := some k, laneFix := sset 0 y.laneFix k.val 0
    laneAt := sset 0 y.laneAt k.val y.flits }) s

/-- Lane `k` is taken out at both ends of the link, by a link-control flit (R475). -/
def laneRemove (l : Nat) (k : Fin 8) (s : State) : State :=
  let x := linkOf s l
  if !fabricUp s || x.state ≠ 2 || !x.lanesUp.getLsbD k.val then s
  else if laneCount x.lanesUp ≤ 4 then linkFalls l s else ctlOut l { laneOp := 1, lane := k.val } (laneOut l k s)

/-- The link's next lane in turn is recalibrated; one that is not up loses its turn (R475). -/
def laneTurn (l : Nat) (s : State) : State :=
  let k := (linkOf s l).nextLane
  if !fabricUp s || (linkOf s l).state ≠ 2 then s else
  laneRemove l ⟨k % 8, Nat.mod_lt _ (by decide)⟩ (modLink l (fun y => { y with nextLane := (k + 1) % 8, turnAge := 0 }) s)

/-- LINK_RECAL (R475, R502): the link's next lane is recalibrated now. -/
def execLinkRecal (l : LinkId) (s : State) : Out := .next (laneTurn l.val s)

/-- A lane's share of FEC corrections since it was last recalibrated exceeds 1 per 10^5 flits (R475, log 32). -/
def lanePoor (k : Link) (lane : Nat) : Bool := k.flits - sget 0 k.laneAt lane < 100000 * sget 0 k.laneFix lane

/-- LANE_RECAL (R475): a lane whose turn has come after RECAL_INTERVAL strides, or whose share of FEC corrections asks for it. -/
def execLaneRecal (l : LinkId) (lane : Fin 8) (s : State) : Out :=
  .next (let k := linkOf s l.val
    if s.links.recalInterval ≤ k.turnAge && k.nextLane = lane.val then laneTurn l.val s
    else if lanePoor k lane.val then laneRemove l.val lane s
    else s)

/-- A recalibrated lane is back (R475). -/
def laneBack (l : Nat) (k : Fin 8) (s : State) : State :=
  modLink l (fun y => { y with
    state := 2, lane := none, lanesUp := y.lanesUp ||| (1#8 <<< k.val), fails := sset 0 y.fails k.val 0 }) s

/-- LANE_RESTORE (R475): the lane is back, or is tried again, or after two failures in a row is retired. -/
def execLaneRestore (l : LinkId) (ok : Bool) (s : State) : Out :=
  .next (match (linkOf s l.val).lane with
    | none => s
    | some k =>
      if !fabricUp s || (linkOf s l.val).state ≠ 3 then s
      else if ok then
        ctlOut l.val { laneOp := 2, lane := k.val } (laneBack l.val k s)
      else if sget 0 (linkOf s l.val).fails k.val + 1 < 2 then modLink l.val (fun y => { y with fails := sset 0 y.fails k.val 1 }) s
      else modLink l.val (fun y => { y with
        state := 2, lane := none, retired := y.retired ||| (1#8 <<< k.val), fails := sset 0 y.fails k.val 0 }) s)

/-! ## Flits (R476 to R479) -/

/-- Every unacknowledged flit goes once more, the oldest first (R478). -/
def resendAll (l : Nat) (s : State) : State := forEach (linkOf s l).sent (fun f t => flitOut l 1 f.seq f.vc f.bytes t) s

/-- The sender replays; eight replays in a row without ACK progress take the link DOWN (R478). -/
def linkReplay (l : Nat) (s : State) : State :=
  let k := linkOf s l
  if unacked k = 0 then s
  else if 8 ≤ k.stuck + 1 then linkFalls l (modLink l (fun k => { k with replays := statInc 16 k.replays }) s)
  else resendAll l (modLink l (fun k => { k with replays := statInc 16 k.replays, stuck := k.stuck + 1 }) s)

/-- The ACK of a flit (R478): only one within the flits sent makes progress; what is acknowledged leaves the replay buffer. -/
def takeAck (ack : Nat) (k : Link) : Link :=
  let n := (ack % 4096 + 4096 - k.lastAck) % 4096
  if n = 0 || unacked k < n then k else { k with lastAck := ack % 4096, stuck := 0, sent := k.sent.drop n }

/-- The credits of a LINKCTL flit (R477, R479); `none` where a VC gets more than it has out. -/
def takeCredits (credits : List Nat) (k : Link) : Option Link :=
  if (List.range 10).any (fun v => sget 0 k.outVc v < credits.getD v 0) then none
  else some { k with outVc := (List.range 10).foldl (fun m v => smod 0 m v (· - credits.getD v 0)) k.outVc }

/-- The 288 bytes of the codewords of a corrected flit (R476). -/
def flitWhole (x : BitVec 2112) : List Byte := let b := (List.range 264).map (flitByte x); b ++ flitParity b

/-- Byte positions at which the flit received differs from a corrected one. -/
def flitDiffs (raw : BitVec 2304) (x : BitVec 2112) : List Nat :=
  let w := flitWhole x
  (List.range 288).filter (fun i => raw.extractLsb' (8 * i) 8 ≠ w.getD i 0#8)

/-- What decoding gives, with the byte positions corrected (R476): the flit as it came where it is of the code, else `fixed`, where it
differs from it by at most 6 bytes in each codeword. -/
def flitCorrect (raw : BitVec 2304) (fixed : Option (BitVec 2112)) : Option (BitVec 2112 × List Nat) :=
  let own := raw.setWidth 2112
  if (flitDiffs raw own).isEmpty then some (own, []) else
  match fixed with
  | none => none
  | some x =>
    let d := flitDiffs raw x
    if (d.filter (fun i => i % 2 = 0)).length ≤ 6 && (d.filter (fun i => i % 2 = 1)).length ≤ 6 then some (x, d) else none

/-- The lane of byte `i` of a flit (R474): striped over the active lanes in ascending order, from the lowest on (log 92). -/
def laneOfByte (k : Link) (i : Nat) : Nat :=
  let l := (List.range 8).filter (fun n => k.lanesUp.getLsbD n)
  l.getD (i % Nat.max 1 l.length) 0

/-- Corrections of one flit (R475, R502): FEC_CORR counts the flit, each lane that carried a corrected byte counts one. -/
def countFixed (at_ : List Nat) (k : Link) : Link :=
  let k := { k with flits := k.flits + 1 }
  if at_.isEmpty then k
  else { k with fecCorr := statInc 32 k.fecCorr
                laneFix := ((at_.map (laneOfByte k)).eraseDups).foldl (fun m i => smod 0 m i (· + 1)) k.laneFix }

/-- Flits of buffer that the receiver holds on VC `v` (R479). -/
def vcHeld (k : Link) (v : Nat) : Nat :=
  (k.inPkts.filter (fun p => p.vc = v)).foldl (fun n p => n + p.frees) (if k.partVc = v then k.partFlits else 0)

/-- A DATA flit may be accepted: its SEQ follows and its VC has buffer (R478, R479). -/
def flitFits (k : Link) (f : Flit) : Bool := f.seq = (k.lastSeq + 1) % 4096 && f.vc < 10 && vcHeld k f.vc < vcBuffer f.vc

/-- Flits of buffer on VC `v` are free again: the sender is told (R477, R479). -/
def vcFreed (l v n : Nat) (s : State) : State :=
  if n = 0 then s else ctlOut l { credits := (List.range 10).map (fun i => if i = v then n else 0) } s

/-- A packet in the receive buffer, and what its taking up frees: the packet that ends last frees every flit up to it, but one that
the next packet begins in (R479, R481). -/
def inPackets (v held : Nat) (open_ : Bool) (l : List Packet) : List InPacket :=
  l.zipIdx.map (fun x => { vc := v, pkt := x.1, frees := if x.2 + 1 = l.length then (if open_ then held - 1 else held) else 0 })

/-- The payload of an accepted DATA flit joins what its packet had before (R481); a packet whose next flit is of another VC is discarded
and counted (log 92). -/
def dataTake (l : Nat) (f : Flit) (s : State) : State :=
  let k := linkOf s l
  let broken := k.partFlits ≠ 0 && k.partVc ≠ f.vc
  let s := if broken then vcFreed l k.partVc k.partFlits (modMgmt (fun m => { m with badPackets := statInc 32 m.badPackets }) s) else s
  let held := (if broken then 0 else k.partFlits) + 1
  let x := packetsIn 17 ((if broken then [] else k.part) ++ f.payload)
  let open_ := !x.2.isEmpty
  let s := modLink l (fun k => { k with
    lastSeq := f.seq, part := x.2, partVc := f.vc
    partFlits := if !open_ then 0 else if x.1.isEmpty then held else 1
    inPkts := k.inPkts ++ inPackets f.vc held open_ x.1 }) s
  let s := if x.1.isEmpty && !open_ then vcFreed l f.vc held s else s
  idleOut l s

/-- NAK (R478): the flit is dropped and replay asked for. -/
def nakOut (l : Nat) (s : State) : State := ctlOut l { nak := true } s

/-- What a LINKCTL flit asks (R475, R477 to R479): credits, a replay, a lane out or back. -/
def linkControl (l : Nat) (c : LinkCtl) (s : State) : State :=
  match takeCredits c.credits (linkOf s l) with
  | none => linkFalls l s
  | some k =>
    let s := linkFlush l (modLink l (fun _ => k) s)
    let s := whenB c.nak (linkReplay l) s
    let lane : Fin 8 := ⟨c.lane % 8, Nat.mod_lt _ (by decide)⟩
    if c.laneOp = 1 then laneOut l lane s
    else if c.laneOp = 2 && (linkOf s l).state = 3 && (linkOf s l).lane = some lane then laneBack l lane s
    else s

/-- A flit that decoded and passed its CRC (R476 to R479): its ACK counts, then what it carries. -/
def flitGood (l : Nat) (f : Flit) (s : State) : State :=
  let s := linkFlush l (modLink l (fun k => takeAck f.ack { k with flitAt := s.stride.count }) s)
  if f.kind = 1 then (if flitFits (linkOf s l) f then dataTake l f s else nakOut l s)
  else if f.kind = 2 then (if f.rsvd then s else linkControl l f.ctl s)
  else s

/-- FLIT_RECEIVE (R476 to R479, R481): the 288 bytes that came, and what the decoder corrects them to. Of what does not decode or fails its
CRC only a DATA flit is asked for again; a flit of a reserved FTYPE is dropped, and so is a LINKCTL flit with a byte set that R477 gives
as 0 (log 92). -/
def execFlitReceive (l : LinkId) (raw : BitVec 2304) (fixed : Option (BitVec 2112)) (s : State) : Out :=
  .next (if !fabricUp s || !linkLive s l.val then s else
    match flitCorrect raw fixed with
    | none =>
      let s := modLink l.val (countFixed []) s
      if (raw.extractLsb' 28 4).toNat = 1 then nakOut l.val s else s
    | some (x, d) =>
      let f := flitDecode x
      let s := modLink l.val (countFixed d) s
      if 3 ≤ f.kind then s
      else if !f.crcOk then
        let s := modLink l.val (fun k => { k with crcFail := statInc 12 k.crcFail }) s
        if f.kind = 1 then nakOut l.val s else s
      else flitGood l.val f s)

/-- REPLAY_TIMEOUT (R478): ACK has not advanced for 192 fc with flits outstanding. -/
def execReplayTimeout (l : LinkId) (elapsed : Nat) (s : State) : Out :=
  .next (if fabricUp s && linkLive s l.val && 192 ≤ elapsed then linkReplay l.val s else s)

/-! ## Links lost (R495 to R501) -/

/-- The cause takes a link DOWN (R495). -/
def causeDown : DownCause → Bool
  | .silence fc => 4096 ≤ fc
  | .lockLoss lanes fc => 4 < lanes && 256 ≤ fc

/-- LINK_GOES_DOWN (R495). -/
def execLinkGoesDown (l : LinkId) (why : DownCause) (s : State) : Out :=
  .next (if fabricUp s && linkLive s l.val && causeDown why then linkFalls l.val s else s)

/-- UNREACH_RECEIVE (R496): `header` is that of the lost packet. -/
def execUnreachReceive (header : BitVec 128) (reason : Nat) (s : State) : Out :=
  .next (if fabricUp s then unreachAct (packetDecode header []) reason s else s)

/-- What a LINK_DOWN record names (R504): chip, link, peer, the stride of the last valid flit. -/
def downDetail (s : State) (l : Nat) : List Byte :=
  item 2 (ownChip s) ++ item 1 l ++ item 2 (linkOf s l).peerChip ++ item 8 (linkOf s l).flitAt

/-- The running job takes LINK_DOWN for every DOWN link of its link set, recorded in the order of R556; one still installing ends there
(R497, R501, R504). -/
def linkDownJob (s : State) : State :=
  match s.job.run with
  | none => s
  | some r =>
    let own := (r.linkSet.filter (fun x => x.1 = ownChip s)).map (fun x => x.2)
    let l := own.filter (fun i => isDown s i || r.fell.contains i)
    if l.isEmpty then s else
    let s := forEach (sortOn (fun i => numLE (downDetail s i)) l) (fun i t => jobFault 0x0801 (downDetail t i) t) (setAct 1 s)
    let s := modRun (fun r => { r with linkSet := r.linkSet.filter (fun x => x.1 ≠ ownChip s || !l.contains x.2), fell := [] }) s
    if s.job.install.isSome then jobOver (modTiers (fun t => { t with uncapped4 := false }) s) else s

/-- LINK_DOWN (R497, R501): boundary action 1. -/
def execLinkDown (s : State) : Out := .next (if mayAct s 1 then linkDownJob s else s)

end Sys2Proof.Machine
end

