-- ==== Sys2Proof/Machine/Board.lean ====
section
/-!
DEFINITION. The host bus and the board (15): BAR2 (R60, R507, R569), PERST_N and the PCIe link (R508, R519), IDE (R522,
R523), supplies, temperature and the management clock (R528, R532, R565).
-/
namespace Sys2Proof.Machine

/-! ## BAR2 -/

/-- A region that BAR2 does not reach for firmware: Etxia H, Dump L, Dump F (R298, R569). -/
def reservedAt (s : State) (a : Nat) : Bool :=
  match regionOf s a with
  | .tierH d => d * 0x003000000000 + 0x003000000000 - 512 * 2 ^ 20 ≤ a
  | .tierL d => d = 0 && 0x010000000000 + lHalf s - 2 ^ 30 ≤ a
  | .tierF d => d = 0 && 0x400000000000 + fHalf s - 2 ^ 34 ≤ a
  | _ => false

/-- BAR2 may read or write the byte at `a` (R55, R56, R61, R338, R569). -/
def bar2May (s : State) (write : Bool) (a : Nat) : Bool :=
  if reservedAt s a then !write && !s.tiers.tio
  else match regionOf s a with
  | .tierH _ => true
  | .tierL _ => true
  | .tierF _ => !write
  | .spad _ _ => true
  | .setAlias _ _ => true
  | .clrAlias _ _ => true
  | .session _ _ => !write
  | _ => false

/-- The local address of a BAR2 offset (R60). -/
def bar2Addr (s : State) (off : Nat) : Nat := s.host.bar2Base * 2 ^ 36 + off

/-- A refused or poisoned BAR2 access: its counter and its record (R507). -/
def bar2Refuse (a : Nat) (s : State) : State :=
  event 0x0981 (item 6 a) (modHost (fun h => { h with bar2Ref := statInc 20 h.bar2Ref }) s)
/-- A BAR2 access that met an uncorrectable error (R304, R507). -/
def bar2Poison (a code : Nat) (s : State) : State :=
  event 0x0981 (item 6 a ++ item 2 code) (modHost (fun h => { h with bar2Poi := statInc 20 h.bar2Poi }) s)

/-- What a host read returned: data, and its status: 0 successful, 1 Unsupported Request, 2 poisoned (R507). -/
def hostReturn (data : List Byte) (status : Nat) (s : State) : State := modHost (fun h => { h with data := data, status := status }) s

/-- A host read that returns data 0 (R506, R507, R601). -/
def hostZero (size : Nat) (s : State) : State := hostReturn (List.replicate size 0#8) 0 s

/-- The host may transfer `n` bytes at `a` now (R264, R266); else the access waits. -/
def hostOpen (s : State) (a n : Nat) : Bool := transferOpen s 5 a n

/-- Class 5 pays for a transfer that touches a tier, and its ports note it (R264, R284, R286). -/
def hostCharge (a n : Nat) (s : State) : State := portTouch a n (transferCharge 5 a n s)

/-- Byte `o` of the Etxia H region of die `d`: slot A's part of its image, then slot B's (R435, log 95); the rest is Etxia's own. -/
def etxiaByte (s : State) (d o : Nat) : Option Byte :=
  let c := if o < 201326592 then s.weights.slotA else s.weights.slotB
  if o < 402653184 then c.image[d * 201326592 + o % 201326592]? else none

/-- A byte of a reserved region: the dumps, in TIO mode ciphertext under the dump key read through another key (R573, R574), or Etxia's own
data; both are open (log 14). -/
def reservedByte (s : State) (a : Nat) : Byte :=
  match regionOf s a with
  | .tierL _ => if s.tiers.tio then Config.dumpByte s.free 0xFFFC a else dumpLByte s (a - (0x010000000000 + lHalf s - 2 ^ 30))
  | .tierF _ => if s.tiers.tio then Config.dumpByte s.free 0xFFFC a else dumpFByte s (a - (0x400000000000 + fHalf s - 2 ^ 34))
  | .tierH d => (etxiaByte s d (a - (d * 0x003000000000 + 0x003000000000 - 512 * 2 ^ 20))).getD (Config.dumpByte s.free 0xFFFD a)
  | _ => Config.dumpByte s.free 0xFFFD a

/-- The byte that a read from outside the fabric finds at a permitted address. -/
def hostByte (s : State) (a : Nat) : Byte :=
  match regionOf s a with
  | .session n off => (sessionBytes s n).getD off 0#8
  | _ => if reservedAt s a then reservedByte s a else readByte s (plainAddr s a)

/-- The bytes that a BAR2 read finds. -/
def bar2Bytes (s : State) (a size : Nat) : List Byte := (List.range size).map (fun i => hostByte s (a + i))

/-- A BAR2 access of at most `most` bytes inside the 64 GiB, the endpoint up and the clocks running. -/
def bar2Fits (s : State) (most off size : Nat) : Bool :=
  pcieUp s && !s.thermal.tripped && 1 ≤ size && size ≤ most && off + size ≤ 2 ^ 36

/-- The address lies in the session table: of its two copies the good one serves (R387). -/
def isSession (s : State) (a : Nat) : Bool := match regionOf s a with | .session _ _ => true | _ => false

/-- What a served BAR2 read answers (R304, R387, R507): the bytes; poison, in free bytes, where a unit of plain memory is lost. -/
def bar2Answer (a size : Nat) (bad : Option (Nat × Ecc × Nat)) (s : State) : State :=
  let t := (takeFree s).2
  if isSession s a then hostReturn (bar2Bytes s a size) 0 t
  else match bad with
  | some (u, e, _) => hostReturn ((List.range size).map (fun i => Config.dumpByte s.free 0xFFFB i)) 2 (bar2Poison u (memCode s e u) t)
  | none => hostReturn (bar2Bytes s a size) 0 t

/-- BAR2_READ of up to the 4,096 bytes of a read request (R60, R61, R505, R266, R304, R387, R507, R522, R569). -/
def execBar2Read (off size : Nat) (errs : List (BitVec 48 × UnitErr)) (viaIde : Bool) (s : State) : Out :=
  .next (if !bar2Fits s 4096 off size then s
    else if !tlpHeard s viaIde then hostReturn [] 1 s
    else if !s.host.bar2En then hostZero size s
    else
      let a := bar2Addr s off
      if !bar2May s false a || !bar2May s false (a + size - 1) then hostReturn [] 1 (bar2Refuse a s)
      else if !hostOpen s a size || !readsMay s a size then s
      else
        let units := unitsIn s (plainAddr s a) size errs
        bar2Answer a size (badUnit s units) (hostCharge a size (forEach units (fun u => unitFound u.2 u.1) s)))

/-- One word of a BAR2 write through an alias reaches its bank (R321, R322): a read that meets an uncorrectable error leaves it as it is. -/
def aliasWord (set : Bool) (c : Nat) (errs : List (BitVec 48 × UnitErr)) (o : Nat) (v : Word) (s : State) : State :=
  let a := spadAddr c o
  let units := unitsIn s a 8 errs
  let bad := badUnit s units
  let s := forEach units (fun u => unitFound u.2 u.1) s
  if bad.isSome then bar2Poison a 0x0505 s else atomicWrite set a v s

/-- A refused write leaves an Unsupported Request error message where the host has enabled it (R507). -/
def urReport (on : Bool) (a : Nat) (s : State) : State := whenB on (emit (.urError a)) s

/-- BAR2_WRITE of up to the 512 bytes of a payload (R60, R61, R321, R322, R505, R507, R522, R569). -/
def execBar2Write (off : Nat) (bytes : List Byte) (errs : List (BitVec 48 × UnitErr)) (viaIde urOn : Bool) (s : State) : Out :=
  .next (let size := bytes.length
    if !bar2Fits s 512 off size || !tlpHeard s viaIde || !s.host.bar2En then s else
    let a := bar2Addr s off
    if !bar2May s true a || !bar2May s true (a + size - 1) then
      urReport urOn a (bar2Refuse a s)
    else if !hostOpen s a size then s
    else match aliasTarget s a with
    | none => writeBytes a bytes (hostCharge a size s)
    | some (set, c, o) =>
      if size % 8 ≠ 0 || a % 8 ≠ 0 then urReport urOn a (bar2Refuse a s)
      else forEach (List.range (size / 8)) (fun i =>
        aliasWord set c errs (o + 8 * i) (BitVec.ofNat 64 (numLE ((bytes.drop (8 * i)).take 8)))) s)

/-! ## PERST_N and the link -/

/-- A ring pair at its Reset values (R508, R520); completions and OUT data already decided are held (R519). -/
def ringReset (k : Ring) : Ring :=
  { fetched := k.fetched, decided := k.decided, heldOut := k.heldOut, lost := true }

/-- PERST_N_ASSERT (R508, R519): the host-rings block and BAR2_BASE at reset, the endpoint down. -/
def execPerstNAssert (s : State) : Out :=
  .next (modHost (fun h => { h with
      rings := smap {} (fun _ k => ringReset k) h.rings
      bar2Base := 0, bar2En := false, width := 0, rate := 0, rotate := 0, msix := [], pba := 0, latch := [] })
    { s with pins := { s.pins with perstN := false } })

/-- PERST_N_RELEASE (R508, R601). -/
def execPerstNRelease (s : State) : Out := .next { s with pins := { s.pins with perstN := true } }

/-- PCIE_LINK_DOWN (R519, R521). -/
def execPcieLinkDown (s : State) : Out := .next (modHost (fun h => { h with width := 0, rate := 0 }) s)

/-- PCIE_LINK_UP (R505, R519, R521, R601): from the end of stage 3 with PERST_N high; OUT data held for active rings goes out. -/
def execPcieLinkUp (width rate : BitVec 4) (s : State) : Out :=
  .next (if !s.pins.perstN || s.boot.stage < 4 || width = 0 || 5 < width.toNat || rate = 0 || 6 < rate.toNat then s else
    let s := modHost (fun h => { h with width := width.toNat, rate := rate.toNat }) s
    forEach (List.range 16) (fun n t => whenB ((ringOf t n).active && ringUp t n && !(ringOf t n).heldOut.isEmpty) (flushOut n) t) s)

/-- IDE_INTEGRITY_FAILURE (R523, R576): the stream leaves the secure state. -/
def execIdeIntegrityFailure (s : State) : Out :=
  .next (if s.host.ide ≠ 2 then s else
    let s := measChange (modHost (fun h => { h with ide := 3 }) s)
    if jobLoaded s then jobFault 0x0904 [] s else s)

/-! ## Supplies, temperature, clocks -/

/-- SUPPLY_LOST (R528): a rail of R526, 0 to 12, leaves tolerance while PORST_N and POWER_FAIL_N are high. -/
def execSupplyLost (rail : Nat) (s : State) : Out :=
  .next (if 13 ≤ rail || !s.pins.porstN || !s.pins.powerFailN then s else chipStop 0x0906 (item 1 rail) true s)

/-- THERMAL_THROTTLE (R532): a sensor reads T_HOT or more. -/
def execThermalThrottle (sensor : Fin 32) (tempDC : Int) (s : State) : Out :=
  .next (if tempDC < 950 then s else tripIfHot (noteChange { s with thermal := readSensors [(tempDC, sensor.val)] s.thermal }))

/-- THERMAL_THROTTLE_END (R532): the sensors' readings, from sensor 0 on, of which none exceeds 90 °C. -/
def execThermalThrottleEnd (temps : List Int) (s : State) : Out :=
  .next (if temps.any (fun t => 900 < t) then s else noteChange { s with thermal := readSensors temps.zipIdx s.thermal })

/-- THERMAL_TRIP (R532, R536, R610): a sensor reads 115 °C; every clock but the management clock stops, so no Ostler core
writes the dump. -/
def execThermalTrip (sensor : Fin 32) (tempDC : Int) (s : State) : Out :=
  .next (if tempDC < 1150 || s.thermal.tripped then s else
    tripIfHot { s with thermal := readSensors [(tempDC, sensor.val)] s.thermal })

/-- MGMT_CLOCK_LOST (R565): no management-clock edge for 64 fc; `mc` is the last count seen. The Tumbler, which that clock drives, answers
no more. -/
def execMgmtClockLost (mc : Nat) (s : State) : Out :=
  .next (if s.thermal.tripped then s else modMgmt (fun m => { m with clockLost := true }) (chipStop 0x0A02 (item 8 mc) true s))

end Sys2Proof.Machine
end

