-- ==== Sys2Proof/Machine/RegWrite.lean ====
section
/-!
DEFINITION. Writes to the registers outside the debug window (R13 to R19): which fields take a written value, which bits
a written 1 clears, and what the WO fields do. The debug window is in Debug.lean.
-/
namespace Sys2Proof.Machine

/-- A write as a register sees it: `v` the value in place, `m` the bits the access covers, `hw` the bits of W1C flags that
hardware sets in the same cycle (R16), `etxia` that an Ostler core writes. -/
structure RegAccess where
  v     : Word
  m     : Word
  hw    : Word := 0
  etxia : Bool := false
  deriving DecidableEq, Repr

/-- Bit `i` is written as 1. -/
def RegAccess.one (x : RegAccess) (i : Nat) : Bool := bitOf (x.v &&& x.m) i

/-- An image with the written bits replaced (R14 RW). -/
def RegAccess.over (x : RegAccess) (old : Word) : Word := (old &&& ~~~x.m) ||| (x.v &&& x.m)

/-- A W1C flag that clears its counter too, at bit `i`: where hardware sets it in the same cycle it ends set, and the event
counts from 0 (R14, R16, R22). -/
def RegAccess.clear (x : RegAccess) (i : Nat) (c : Stat) : Stat :=
  if x.one i then (if bitOf x.hw i then { n := 1, ovf := true } else {}) else c

/-- A W1C flag alone, at bit `i`: a written 1 clears it, unless hardware sets it in the same cycle, and then it ends set (R14, R16). -/
def RegAccess.flag (x : RegAccess) (i : Nat) (b : Bool) : Bool := if x.one i then bitOf x.hw i else b

/-- A field's new value unless it is a reserved encoding (R19). -/
def keepIf (ok : Bool) (new old : Nat) : Nat := if ok then new else old

/-- A queue's address and LOG2 (R520). -/
def ringBase (x : RegAccess) (old : Word) : Nat × Nat :=
  let w := x.over old
  (w.toNat / 4096 * 4096, keepIf (decide (4 ≤ bitsOf w 3 0 ∧ bitsOf w 3 0 ≤ 12)) (bitsOf w 3 0) (bitsOf old 3 0))

/-- The bases of a ring may change (R517): EN is 0 and nothing is outstanding. -/
def ringFree (s : State) (n : Nat) : Bool := !(ringOf s n).en && (ringOf s n).outstanding = 0

/-- A write of RING_CFG (R517, R520). -/
def ringCfgWrite (r : Nat) (w : Word) (s : State) : State :=
  setEn r (bitOf w 0) (modRing r (fun k => { k with
    spaces := BitVec.ofNat 3 (bitsOf w 10 8), vector := bitsOf w 5 2, irqEn := bitOf w 1 }) s)

/-- The state a command's outcome leaves. -/
def outState (o : Out) (s : State) : State := match o with | .next t => t | _ => s

/-- A write of SFT_CTRL (R225, R228, R230): LOAD, then CANCEL where both are written. -/
def sftCtrlWrite (x : RegAccess) (s : State) : State :=
  let s := if x.one 0 then outState (execSftLoad s) s else s
  if x.one 1 then outState (execSftCancel s) s else s

/-- Bytes of the staging area that a write covers (R230); discarded while BUSY or PENDING is 1. -/
def sftStageWrite (w : Nat) (x : RegAccess) (s : State) : State :=
  if s.sft.busy || s.sft.pending then s else
  modSft (fun f => { f with stage := (List.range 8).foldl (fun m i =>
    if bitOf x.m (8 * i) then sset 0#8 m (8 * w + i) (BitVec.ofNat 8 (x.v.toNat / 2 ^ (8 * i))) else m) f.stage }) s

/-- A link number. -/
def linkIdOf (l : Nat) : LinkId := ⟨l % 6, Nat.mod_lt _ (by decide)⟩
/-- An engine number. -/
def engIdOf (e : Nat) : EngId := ⟨e % 2304, Nat.mod_lt _ (by decide)⟩
/-- An address generator number. -/
def agNoOf (a : Nat) : AgNo := ⟨a % 4, Nat.mod_lt _ (by decide)⟩

/-- A write of LINK_CTRL by Etxia (R502): RECAL, RETRAIN. -/
def linkCtrlWrite (l : Nat) (x : RegAccess) (s : State) : State :=
  let s := if x.one 0 then outState (execLinkRecal (linkIdOf l) s) s else s
  if x.one 1 then outState (execLinkRetrain (linkIdOf l) s) s else s

/-- A write of TIER_DEADLINE by Etxia (R19, R312). -/
def deadlineWrite (w : Word) (s : State) : State :=
  modTiers (fun t => { t with
    dlF := keepIf (decide (65536 ≤ bitsOf w 55 32)) (bitsOf w 55 32) t.dlF
    dlL := keepIf (decide (1024 ≤ bitsOf w 23 0)) (bitsOf w 23 0) t.dlL }) s

/-- A write of ROUTE by Etxia (R487, R502); bits [7:5] of an entry are reserved (R13). -/
def routeWrite (i : Nat) (w : Word) (s : State) : State :=
  modLinks (fun k => { k with routes := (List.range 8).foldl (fun m j =>
    sset 0 m (8 * i + j) (BitVec.ofNat 8 (w.toNat / 2 ^ (8 * j) % 32))) k.routes }) s

/-- The SEQ that follows the last record of a bank: a GAP record stands for as many as it counts (R556, R561). -/
def seqAfter (l : List TallyRec) (old : BitVec 32) : BitVec 32 :=
  match l.getLast? with
  | none => old
  | some r => r.seq + (if r.type = 3 then BitVec.ofNat 32 (numLE r.detail) else 1)

/-- The reader hands a bank back and moves on (R558, R561, R562): an open gap closes, since the writer's other bank is free
now; the bank that holds the GAP record is handed over, and the next record starts the other. -/
def tallyFree (s : State) : State :=
  let t := s.tally
  let b := bankOf t t.next
  if !b.handed then s else
  let s := { s with tally := { setBank t t.next {} with next := 1 - t.next, popped := 0, released := seqAfter b.recs t.released } }
  match t.gap with
  | none => s
  | some g => tallyHand (modTally (fun t => { setBank t t.writer { (bankOf t t.writer) with
      recs := (bankOf t t.writer).recs ++ [gapRec g] } with gap := none }) s)

/-- A write of TALLY_CTRL (R564): IRQ_EN, then RELEASE. -/
def tallyCtrlWrite (x : RegAccess) (s : State) : State :=
  let s := if bitOf x.m 1 then modTally (fun t => { t with irqEn := bitOf x.v 1 }) s else s
  if x.one 0 && s.tally.reader = 0 then tallyFree s else s

/-- A write of a register outside the debug window. Fields of type RO ignore it; so do fields that only Etxia writes when the
host does (R271, R312, R502). -/
def regWrite (r : Reg) (x : RegAccess) (s : State) : State :=
  match r with
  | .bar2Base =>
    let w := x.over (regRead s .bar2Base)
    modHost (fun h => { h with bar2Base := bitsOf w 47 36, bar2En := bitOf w 0 }) s
  | .ringSq n =>
    let y := ringBase x (regRead s (.ringSq n))
    whenB (ringFree s n) (modRing n (fun k => { k with sqAddr := y.1, sqLog2 := y.2 })) s
  | .ringCq n =>
    let y := ringBase x (regRead s (.ringCq n))
    whenB (ringFree s n) (modRing n (fun k => { k with cqAddr := y.1, cqLog2 := y.2 })) s
  | .ringIdx n =>
    whenB (ringFree s n) (modRing n (fun k => { k with idxAddr := (x.over (regRead s (.ringIdx n))).toNat / 64 * 64 })) s
  | .ringCfg n => ringCfgWrite n (x.over (regRead s (.ringCfg n))) s
  | .hostErr => modHost (fun h => { h with
      bar0Ref := x.clear 2 h.bar0Ref, bar2Ref := x.clear 1 h.bar2Ref, bar2Poi := x.clear 0 h.bar2Poi }) s
  | .msixTable w => msixUnmask (modHost (fun h => { h with
      msix := sset (if w % 2 = 1 then 0x100000000#64 else 0) h.msix w (x.over (regRead s (.msixTable w))) }) s)
  | .agCtrl e a => if x.etxia && x.one 0 then outState (execAgResume (engIdOf e) (agNoOf a) s) s else s
  | .curbBudget p k =>
    if x.etxia then modCurb p k (fun c => { c with budget := bitsOf (x.over (regRead s (.curbBudget p k))) 31 0 }) s else s
  | .curbStat p k => if x.etxia then modCurb p k (fun c => { c with exhausted := { c.exhausted with ovf := x.flag 0 c.exhausted.ovf } }) s else s
  | .tierDeadline => if x.etxia then deadlineWrite (x.over (regRead s .tierDeadline)) s else s
  | .tierMapStat => modTiers (fun t => { t with mapMiss := x.clear 0 t.mapMiss }) s
  | .portStatus p => modPort p (fun k => { k with retrains := x.clear 31 k.retrains }) s
  | .memErr p => modTiers (fun t => { t with errs := smod {} t.errs p (fun k => { k with
      corr := x.clear 2 k.corr, uncorr := x.clear 1 k.uncorr, crc := x.clear 0 k.crc }) }) s
  | .linkErr l => modLink l (fun k => { k with
      fecCorr := x.clear 2 k.fecCorr, replays := x.clear 1 k.replays, crcFail := x.clear 0 k.crcFail }) s
  | .linkCtrl l => if x.etxia then linkCtrlWrite l x s else s
  | .route w => if x.etxia then routeWrite w (x.over (regRead s (.route w))) s else s
  | .hitchStats h => modHitch h (fun k => { k with cancelRet := x.clear 1 k.cancelRet, staleRet := x.clear 0 k.staleRet }) s
  | .hitchDrops h => modHitch h (fun k => { k with spills := x.clear 1 k.spills, dropped := x.clear 0 k.dropped }) s
  | .syncStatus => modSync (fun y => { y with stale := x.clear 1 y.stale, replays := x.clear 0 y.replays }) s
  | .sftStage w => sftStageWrite w x s
  | .sftHdr =>
    let w := x.over (regRead s .sftHdr)
    if s.sft.busy || s.sft.pending then s else
      modSft (fun f => { f with hdrCrc := BitVec.ofNat 32 (bitsOf w 63 32), hdrId := BitVec.ofNat 32 (bitsOf w 31 0) }) s
  | .sftCtrl => sftCtrlWrite x s
  | .reinInHwm e q => modRin e q (fun k => { k with exceeded := x.flag 30 k.exceeded }) s
  | .engState e => modEng e (fun g => { g with stale := { g.stale with ovf := x.flag 24 g.stale.ovf } }) s
  | .spadErr c => modCore c (fun k => { k with spad := { k.spad with corr := x.clear 1 k.spad.corr, uncorr := x.clear 0 k.spad.uncorr } }) s
  | .tallyCtrl => tallyCtrlWrite x s
  | .gctlId | .gctlTopology | .ringStat _ | .hostStatus | .msixPba | .agState _ _ | .agPos _ _ | .agLoop _ _ | .agBytes _ _
  | .agMiss _ _ | .gaitClass _ | .tierCrypt | .memErrLast _ | .linkSelf | .linkStatus _ | .linkPeer _ | .hitchStatus _
  | .hldMirror _ _ _ | .hldState _ _ | .mapMirror _ _ _ | .syncMirror _ _ | .farCoreStat _ | .farCoreFail _ | .sftStatus
  | .sftCommits | .coreIdent _ | .groomStatus _ | .threadPc _ _ | .sregAt _ _ | .tileFault _ | .tileFaultPc _ | .reinInCfg _ _
  | .reinInBuf _ _ | .reinInStat _ _ | .reinOutCfg _ _ | .reinOutStat _ _ | .coreRetired _ | .spadErrLast _ | .tallyBank _ _
  | .tallyStatus | .dbgSession | .dbgCount | .dbgCtrl | .dbgAddr | .dbgData | .dbgCore => s

end Sys2Proof.Machine
end

