-- ==== Sys2Proof/Machine/Debug.lean ====
section
/-!
DEFINITION. The debug block (R582 to R587): sessions, DBG_DATA, HALT, STEP and RESUME; and the dump read path (R588).
-/
namespace Sys2Proof.Machine

/-! ## Sessions -/

/-- The register number of a path (R587 PATH). -/
def pathNo : DbgPath → Nat
  | .jtag => 1
  | .field => 2
  | .bar0 => 3

/-- A path reaches the debug block: BAR0 in FWP mode only, the TAP while TRST_N is high (R534, R570, R582). -/
def pathUp (s : State) (p : DbgPath) : Bool :=
  match p with | .bar0 => !s.tiers.tio | .jtag => s.pins.trstN | _ => true

/-- An OPEN write (R583): DEBUG_COUNT, MAX_LEVEL and block 9 first, then OPEN. -/
def debugOpen (p : DbgPath) (level : Nat) (s : State) : State :=
  if !pathUp s p || level = 0 || s.sec.dbgOpen || (2 ≤ level && s.job.chgOpen) then s else
  let s := modSec (fun k => { k with count := acctAdd 1 k.count, maxLevel := Nat.max k.maxLevel level }) s
  let s := measChange s
  event 0x0B82 (item 1 (pathNo p) ++ item 1 level)
    (modSec (fun k => { k with dbgOpen := true, level := level, path := pathNo p }) s)

/-- A write of DBG_CTRL on a path that reaches the block; over BAR0 in TIO mode it is refused as R506 has it (R570). -/
def debugCtrl (p : DbgPath) (act : State → State) (s : State) : State :=
  if pathUp s p then act s
  else if p = .bar0 then event 0x0980 (item 4 0x2000010) (modHost (fun h => { h with bar0Ref := statInc 20 h.bar0Ref }) s)
  else s

/-- DBG_OPEN (R570, R583, R587). -/
def execDbgOpen (path : DbgPath) (level : BitVec 2) (s : State) : Out := .next (debugCtrl path (debugOpen path level.toNat) s)

/-- A CLOSE write on a path (R584, R587). -/
def debugClose (p : DbgPath) (s : State) : State := if s.sec.dbgOpen && s.sec.path = pathNo p then debugShut s else s

/-- DBG_CLOSE (R570, R584). -/
def execDbgClose (path : DbgPath) (s : State) : Out := .next (debugCtrl path (debugClose path) s)

/-- TAP_RESET (R534, R584): the TAP enters Test-Logic-Reset, or TRST_N goes low and holds it there; the session closes. -/
def execTapReset (trstN : Bool) (s : State) : Out := .next (debugShut { s with pins := { s.pins with trstN := trstN } })

/-- The session permits CONTROL (R582). -/
def dbgControl (s : State) : Bool := s.sec.dbgOpen && s.sec.level = 3

/-! ## HALT, STEP, RESUME (R585) -/

/-- A HALT write; a step in which a core of the job is halted is unchecked (R92). -/
def debugHalt (s : State) : State :=
  if !dbgControl s then s else
  whenB ((jobCores s).contains s.sec.core) uncheckSteps (modCore s.sec.core (fun k => { k with dbgHalt := true }) s)
/-- A RESUME write. -/
def debugResume (s : State) : State := if dbgControl s then modCore s.sec.core (fun k => { k with dbgHalt := false }) s else s

/-- DBG_HALT (R585). -/
def execDbgHalt (s : State) : Out := .next (debugHalt s)
/-- DBG_RESUME (R585). -/
def execDbgResume (s : State) : Out := .next (debugResume s)

/-- The scalar instruction of an opcode (R176). -/
def groomScalar (opc : Nat) (c : CoreId) (t : ThreadId) (f : ScalarF) (s : State) : Option Out :=
  match opc with
  | 0x01 => some (execLi c t f s)
  | 0x02 => some (execLui c t f s)
  | 0x03 => some (execAdd c t f s)
  | 0x04 => some (execSub c t f s)
  | 0x05 => some (execMul c t f s)
  | 0x06 => some (execShl c t f s)
  | 0x07 => some (execShr c t f s)
  | 0x08 => some (execSar c t f s)
  | 0x09 => some (execAnd c t f s)
  | 0x0A => some (execOr c t f s)
  | 0x0B => some (execXor c t f s)
  | 0x0C => some (execMin c t f s)
  | 0x0D => some (execMax c t f s)
  | 0x10 => some (execLd c t f s)
  | 0x11 => some (execSt c t f s)
  | 0x18 => some (execBeq c t f s)
  | 0x19 => some (execBne c t f s)
  | 0x1A => some (execBlt c t f s)
  | 0x1B => some (execJmp c t f s)
  | 0x20 => some (execTwait c t f s)
  | 0x21 => some (execStepEnd c t f s)
  | _ => none

/-- An instruction fetch is refused with SCALAR_ALIGN (R176, R177): the PC is off its multiple, of 32 for an opcode byte 0x40
to 0x4F, or the instruction's bytes pass the end of the backed scratchpad. -/
def fetchBad (s : State) (c pc : Nat) : Bool :=
  pc % 8 ≠ 0 || !spadBacked s c pc 8 ||
    (0x40 ≤ opcOf (readWord s (spadAddr c pc)) && opcOf (readWord s (spadAddr c pc)) ≤ 0x4F &&
      (pc % 32 ≠ 0 || !spadBacked s c pc 32))

/-- The instruction at a thread's PC executes (R176 to R178); a reserved opcode is refused. -/
def groomExec (c : CoreId) (t : ThreadId) (s : State) : State :=
  let pc := (threadOf s c.val t.val).pc
  let w := fun (i : Nat) => readWord s (spadAddr c.val (pc + 8 * i))
  if fetchBad s c.val pc then groomRefuse c.val t.val 0 0x0315 (item 4 pc) 0 0 s
  else
    let opc := opcOf (w 0)
    let o := if opc = 0x40 then some (execTmac c t (tileFields (w 0) (w 1) (w 2) (w 3)) s)
      else if opc = 0x41 then some (execTout c t (tileFields (w 0) (w 1) (w 2) (w 3)) s)
      else if opc = 0x4E then some (execResload c t (resloadFields (w 0) (w 1) (w 2) (w 3)) s)
      else groomScalar opc c t (scalarFields (w 0)) s
    match o with
    | some x => outState x s
    | none => groomRefuse c.val t.val 0 0x0310 [] 0 0 s

/-- A core number. -/
def coreIdOf (c : Nat) : CoreId := ⟨c % 288, Nat.mod_lt _ (by decide)⟩
/-- A thread number. -/
def threadIdOf (t : Nat) : ThreadId := ⟨t % 8, Nat.mod_lt _ (by decide)⟩

/-- A STEP write (R585, R587): one groom instruction on the halted core. -/
def debugStep (s : State) : State :=
  let c := coreIdOf s.sec.core
  if !dbgControl s || !(coreOf s c.val).dbgHalt then s else
  match nextThread s c.val with
  | none => s
  | some t =>
    whenB ((jobCores s).contains c.val) uncheckSteps <| modCore c.val (fun k => { k with dbgHalt := true })
      (groomExec c (threadIdOf t) (modCore c.val (fun k => { k with dbgHalt := false }) s))

/-- DBG_STEP (R585). -/
def execDbgStep (s : State) : Out := .next (debugStep s)

/-! ## DBG_DATA (R587) -/

/-- The 8 bytes at a local address as a debug read finds them (R51, R320, R348, R386, R573); a hole reads 0. -/
def debugWord (s : State) (a : Nat) : Word :=
  match regionOf s a with
  | .regs o => match regAt o with
    | some r => if isDbgReg r then 0 else regRead s r
    | none => 0
  | .sync n off => syncMirrorWord (objOf s n) (off / 8)
  | .session n off => sessionWord s n off
  | .hole => 0
  | _ => BitVec.ofNat 64 (numLE ((List.range 8).map (fun i => hostByte s (a + i))))

/-- The level a debug access at an address needs (R582). -/
def debugNeeds (s : State) (write : Bool) (a : Nat) : Nat :=
  if write then 3 else match regionOf s a with | .regs _ => 1 | _ => 2

/-- The session permits an access at DBG_ADDR. -/
def debugMay (s : State) (write : Bool) : Bool := s.sec.dbgOpen && debugNeeds s write s.sec.addr ≤ s.sec.level

/-- DBG_ADDR moves on by 8. -/
def debugAdvance (s : State) : State := modSec (fun k => { k with addr := (k.addr + 8) % 2 ^ 48 }) s

/-- A read of DBG_DATA: the value, and the state with ADDR moved on (R587). A word of Etxia's own data is open (log 7). -/
def debugRead (s : State) : Word × State :=
  if debugMay s false then (debugWord s s.sec.addr, debugAdvance { s with free := s.free + 1 }) else (0, s)

/-- DBG_DATA_READ (R587). -/
def execDbgDataRead (s : State) : Out := .next (modSec (fun k => { k with data := (debugRead s).1 }) (debugRead s).2)

/-- A debug write to the register space: a scalar register takes the value, any other register as from an Ostler core. -/
def debugRegWrite (o : Nat) (v : Word) (s : State) : State :=
  match regAt o with
  | some (.sregAt c r) => setSreg c (BitVec.ofNat 6 r) v s
  | some r => regWrite r { v := v, m := ~~~0, etxia := true } s
  | none => s

/-- A debug write to a synchronisation object acts as an Ostler core's store does (R337, R338). -/
def debugSyncWrite (n off : Nat) (v : Word) (s : State) : State :=
  let r : SyncReq := { obj := ⟨n % 8192, Nat.mod_lt _ (by decide)⟩ }
  if off = 0x08 then (opSet r v s).1
  else if off = 0x10 then (if (objOf s n).type = 2 then (opArrive r false s).1 else (opAdd r v s).1)
  else s

/-- The 8 bytes at a local address as a debug write leaves them; holes, tier F and the session table discard it (R55, R386). -/
def debugStore (a : Nat) (v : Word) (s : State) : State :=
  match regionOf s a with
  | .regs o => debugRegWrite o v s
  | .sync n off => debugSyncWrite n off v s
  | .tierH _ => if reservedAt s a then s else writeWord a v s
  | .tierL _ => if reservedAt s a then s else writeWord a v s
  | .spad _ _ => writeWord a v s
  | .setAlias c o => atomicWrite true (spadAddr c o) v s
  | .clrAlias c o => atomicWrite false (spadAddr c o) v s
  | _ => s

/-- A register belongs to a core of the running job. -/
def jobCoreReg (s : State) (r : Reg) : Bool :=
  let core := fun (c : Nat) => (jobCores s).contains c
  match r with
  | .coreIdent c | .groomStatus c | .threadPc c _ | .tileFault c | .tileFaultPc c | .coreRetired c | .spadErr c | .spadErrLast c => core c
  | .reinInCfg e _ | .reinInBuf e _ | .reinInStat e _ | .reinInHwm e _ | .reinOutCfg e _ | .reinOutStat e _ | .engState e
  | .agState e _ | .agPos e _ | .agLoop e _ | .agBytes e _ | .agMiss e _ | .agCtrl e _ | .gaitClass e => core (coreOfEng e)
  | _ => false

/-- A change at an address sets ALTERED (R586). -/
def altersJob (s : State) (a : Nat) : Bool :=
  match regionOf s a with
  | .spad _ _ => true
  | .setAlias _ _ => true
  | .clrAlias _ _ => true
  | .tierH _ => (objectAt s a).isSome
  | .tierL _ => (objectAt s a).isSome
  | .regs o => match regAt o with
    | some (.sregAt _ _) => true
    | some r => jobCoreReg s r
    | none => false
  | _ => false

/-- A write of DBG_DATA (R582, R586, R587). -/
def debugWrite (v : Word) (s : State) : State :=
  if !debugMay s true then s else
  let a := s.sec.addr
  let t := debugStore a v s
  let t := if altersJob s a && debugWord t a ≠ debugWord s a && !s.sec.altered then
      measChange (modSec (fun k => { k with altered := true }) t) else t
  debugAdvance t

/-- DBG_DATA_WRITE (R587). -/
def execDbgDataWrite (value : Word) (s : State) : Out := .next (debugWrite value s)

/-! ## The dump read path -/

/-- Byte `off` of the copy that DUMP_SOURCE names (R623): Dump L, a Dump F slot, a NOR slot. -/
def dumpSourceByte (s : State) (off : Nat) : Byte :=
  let n := s.dumps.source
  if n = 0 then dumpLByte s off
  else if n ≤ 16 then dumpFByte s ((n - 1) * 2 ^ 30 + off)
  else match sget none s.dumps.nor (n - 17) with
    | some d => dumpByteAt d off
    | none => Config.dumpByte 0 (0xFF00 + n) off

/-- DUMP_OFFSET lies in the copy that DUMP_SOURCE names (R588, R623). -/
def dumpOffsetOk (source off : Nat) : Bool := off % 64 = 0 && off < (if source ≤ 16 then 2 ^ 30 else 65536)

/-- A read of DUMP_DATA (R588, R623): 64 bytes of the dump at DUMP_OFFSET, which moves on by 64. -/
def dumpRead (s : State) : State :=
  if !dumpOffsetOk s.dumps.source s.dumps.offset then modMgmt (fun m => { m with sdoAbort := 0x06090030 }) s else
  modMgmt (fun m => { m with
      sdoAbort := 0, sdoData := numLE ((List.range 64).map (fun i => dumpSourceByte s (s.dumps.offset + i))) })
    (modDumps (fun d => { d with offset := (d.offset + 64) % 2 ^ 30 }) s)

/-- DUMP_DATA_READ (R588). -/
def execDumpDataRead (s : State) : Out := .next (dumpRead s)

/-! ## The debug window (R587) -/

/-- The value a register of the debug window reads, and the state after: a read of DBG_DATA acts. -/
def dbgRegRead (r : Reg) (s : State) : Word × State := if r = .dbgData then debugRead s else (regRead s r, s)

/-- A write of a register of the debug window on a path. -/
def dbgRegWrite (p : DbgPath) (r : Reg) (x : RegAccess) (s : State) : State :=
  match r with
  | .dbgCtrl =>
    let s := if x.one 0 then debugOpen p (bitsOf (x.v &&& x.m) 3 2) s else s
    if x.one 1 then debugClose p s else s
  | .dbgAddr => modSec (fun k => { k with addr := bitsOf (x.over (regRead s .dbgAddr)) 47 3 * 8 }) s
  | .dbgData => debugWrite (x.v &&& x.m) s
  | .dbgCore =>
    let w := x.over (regRead s .dbgCore)
    let s := modSec (fun k => { k with core := keepIf (decide (bitsOf w 24 16 < 288)) (bitsOf w 24 16) k.core }) s
    let s := if x.one 0 then debugHalt s else s
    let s := if x.one 1 then debugResume s else s
    if x.one 2 then debugStep s else s
  | _ => s

end Sys2Proof.Machine
end

