-- ==== Sys2Proof/Machine/Registers.lean ====
section
/-!
DEFINITION. Accesses to BAR0 and to the register space (R13 to R21, R56, R506, R570, R601).
-/
namespace Sys2Proof.Machine

/-- The register an access of `size` bytes at `off` names (R20): naturally aligned, 4 or 8 bytes, its half implemented. -/
def regFor (off size : Nat) : Option Reg :=
  if (size ≠ 4 && size ≠ 8) || off % size ≠ 0 then none else
  match regAt (off / 8 * 8) with
  | none => none
  | some r => if size = 4 && off % 8 = 4 && regHalf r then none else some r

/-- As `regFor`, for the host: the debug window is closed in TIO mode (R570). -/
def hostReg (s : State) (off size : Nat) : Option Reg :=
  (regFor off size).bind (fun r => if s.tiers.tio && 0x2000000 ≤ off then none else some r)

/-- The endpoint hears BAR0 accesses: the link is up, the clocks run, and the offset lies in the BAR. -/
def bar0Heard (s : State) (off size : Nat) : Bool := pcieUp s && !s.thermal.tripped && off + size ≤ 2 ^ 26

/-- A refused BAR0 access: counted and recorded with its offset (R506). -/
def bar0Refuse (off : Nat) (s : State) : State :=
  event 0x0980 (item 4 off) (modHost (fun h => { h with bar0Ref := statInc 20 h.bar0Ref }) s)

/-- The halves of a register's value: [31:0] and [63:32]. -/
def lowWord (w : Word) : Nat := w.toNat % 2 ^ 32
/-- Bits [63:32] of a value. -/
def highWord (w : Word) : Nat := w.toNat / 2 ^ 32

/-- The latch of the register at a slot (R21). -/
def setLatch (slot : Nat) (v : Option Nat) (s : State) : State :=
  modHost (fun h => { h with latch := sset none h.latch slot v }) s

/-- A read of an implemented register: the low word latches the high word, and the next read of the high word returns it (R21). -/
def regReadAt (r : Reg) (off size : Nat) (s : State) : State :=
  let slot := off / 8 * 8
  if size = 8 then hostReturn (bytesLE 8 (dbgRegRead r s).1.toNat) 0 (dbgRegRead r s).2
  else if off % 8 = 0 then
    let x := dbgRegRead r s
    hostReturn (bytesLE 4 (lowWord x.1)) 0 (if regHalf r then x.2 else setLatch slot (some (highWord x.1)) x.2)
  else match sget none s.host.latch slot with
    | some v => hostReturn (bytesLE 4 v) 0 (setLatch slot none s)
    | none => hostReturn (bytesLE 4 (highWord (dbgRegRead r s).1)) 0 (dbgRegRead r s).2

/-- READ_LOW_WORD_LATCH (R20, R21, R506, R522, R601): a host read of BAR0. Before stage 5 it returns 0 and nothing is counted. -/
def execReadLowWordLatch (off size : Nat) (viaIde : Bool) (s : State) : Out :=
  .next (if !bar0Heard s off size then s
    else if !tlpHeard s viaIde then hostReturn [] 1 s
    else if s.boot.stage < 5 then hostZero size s
    else match hostReg s off size with
      | some r => regReadAt r off size s
      | none => hostZero size (bar0Refuse off s))

/-- The access that a write of `value` at `off` makes. -/
def accessOf (off size : Nat) (value hw : Word) (etxia : Bool) : RegAccess :=
  { v := value <<< (8 * (off % 8))
    m := (if size = 8 then ~~~0 else 0xFFFFFFFF#64) <<< (8 * (off % 8))
    hw := hw, etxia := etxia }

/-- A write of a register on a path. -/
def regWriteAt (p : DbgPath) (r : Reg) (x : RegAccess) (s : State) : State :=
  if isDbgReg r then dbgRegWrite p r x s else regWrite r x s

/-- An online Ostler core can reach the register space (R56): stage 5 is reached and no chip fault stopped it. -/
def ostlerReach (s : State) : Bool := fabricUp s && 5 ≤ s.boot.stage && ostlersUp s ≠ 0

/-- REGISTER_WRITE (R13 to R20, R506, R587, R601, R626). `hw`: the W1C bits that hardware sets in the cycle of the write. -/
def execRegisterWrite (path : RegPath) (off size : Nat) (value hw : Word) (s : State) : Out :=
  .next (match path with
    | .host viaIde =>
      if !bar0Heard s off size || !tlpHeard s viaIde || s.boot.stage < 5 then s
      else match hostReg s off size with
        | some r => regWriteAt .bar0 r (accessOf off size value hw false) s
        | none => bar0Refuse off s
    | .ostler =>
      if !ostlerReach s then s
      else match regFor off size with
        | some r => if isDbgReg r then s else regWrite r (accessOf off size value hw true) s
        | none => s)

/-- BAR0_UNIMPLEMENTED_ACCESS (R20, R506, R601): data 0 or the write discarded, counted and recorded. -/
def execBar0UnimplementedAccess (write : Bool) (off size : Nat) (viaIde : Bool) (s : State) : Out :=
  .next (if !bar0Heard s off size || !tlpHeard s viaIde || s.boot.stage < 5 || (hostReg s off size).isSome then s
    else if write then bar0Refuse off s
    else hostZero size (bar0Refuse off s))

end Sys2Proof.Machine
end

