-- ==== Sys2Proof/Machine/Spdm.lean ====
section
/-!
DEFINITION. The measurement chain (R575, R576) and the SPDM responder (R577 to R579). Digests, keys, signatures and
certificates are uninterpreted functions of what they cover (log 10); response and error codes are SPDM 1.2's (log 35).
-/
namespace Sys2Proof.Machine

/-! ## Measurement blocks (R575) -/

/-- What block 2 covers as fused: SERIAL, the PROT_MODE count, both floors, OWNER_KEY_HASH. -/
def fuseList (f : Fuses) : List Nat := [f.serial, f.protCount, f.tumblerFloor, f.etxiaFloor, f.ownerHash]

/-- The image a slot of a kind holds: kind 1 Tumbler, 2 configuration; slot 0 A, 1 B. -/
def imageOf (b : Boot) (kind slot : Nat) : ImgSlot :=
  if kind = 1 then (if slot = 0 then b.tumA else b.tumB) else (if slot = 0 then b.cfgA else b.cfgB)

/-- The directory in use (R595). -/
def dirNow (b : Boot) : DirCopy := if b.dirCur = 0 then b.dir0 else b.dir1

/-- The directory changes: the Tumbler writes the other copy, with the next sequence number (R595). -/
def dirWrite (f : DirCopy → DirCopy) (b : Boot) : Boot :=
  let d := f { dirNow b with seq := (dirNow b).seq + 1 }
  if b.dirCur = 0 then { b with dir1 := d, dirCur := 1 } else { b with dir0 := d, dirCur := 0 }

/-- `n` bytes of an image from byte `off` on (R596). -/
def imgField (i : ImgSlot) (off n : Nat) : Nat := numLE ((i.bytes.drop off).take n)
/-- VERSION of an image. -/
def imgVersion (i : ImgSlot) : Nat := imgField i 4 1
/-- PROTO of an image. -/
def imgProto (i : ImgSlot) : Nat := imgField i 5 1

/-- A digest of an image: kind 256 of all its bytes, 4 of a configuration image less its Etxia part, 5 of that part (R575, log 10). -/
def imageDigest (kind : Nat) (i : ImgSlot) : Nat := Config.digest kind (i.bytes.map (fun b => b.toNat))

/-- The ACTIVE tack cache slot, if a job is loaded. -/
def activeSlot (s : State) : Option CacheSlot :=
  if s.weights.slotA.state = 3 then some s.weights.slotA else if s.weights.slotB.state = 3 then some s.weights.slotB else none

/-- Content of a measurement block, 1 to 10. -/
def measBlock (s : State) (i : Nat) : List Nat :=
  match i with
  | 1 => [Config.digest 256 []]
  | 2 => [Config.digest 256 s.sec.fused]
  | 3 => [s.boot.runTumbler, imgVersion s.boot.ranTumbler, imageDigest 256 s.boot.ranTumbler]
  | 4 => [imageDigest 4 s.boot.ranConfig]
  | 5 => (List.range 8).flatMap (fun n =>
      if ostlerUp s n then [(ostlerOf s n).version, (ostlerOf s n).image] else [0, 0])
  | 6 => [s.sft.activeId.toNat, Config.digest 256 (s.sft.active.flatMap (fun x => [x.1, x.2.toNat]))]
  | 7 => if jobLoaded s then [runTackId s, ((activeSlot s).map (fun c => c.digest)).getD 0] else [0]
  | 8 => [s.job.tenant.toNat, s.job.changeovers.toNat, s.tiers.keyGen.toNat, s.job.chg.phase]
  | 9 => [s.sec.count, s.sec.base, (dbgSessionWord s).toNat % 256]
  | 10 => [bit01 s.tiers.tio, s.host.ide, s.stride.fixedPermit, s.stride.floorW, fixedLen s]
  | _ => []

/-- Blocks 1 to 10 in index order. -/
def measAll (s : State) : List Nat := (List.range 10).flatMap (fun i => measBlock s (i + 1))

/-- MEAS_SUMMARY (R576). -/
def measSummary (s : State) : Nat := Config.digest 256 (measAll s)

/-- The alias key, derived from the digests of blocks 1 to 3 (R578). -/
def aliasKey (s : State) : Nat := Config.digest 3 (measBlock s 1 ++ measBlock s 2 ++ measBlock s 3)

/-- The certificate chain of slot 0 (R578). -/
def certChain (s : State) : Nat := Config.certificate (aliasKey s)

/-! ## Requests (R577) -/

/-- The responder answers: the PCIe link carries DOE and the Tumbler runs (R505, R597). -/
def spdmUp (s : State) : Bool := pcieUp s && 2 ≤ s.boot.stage && !s.boot.stopped && !s.mgmt.clockLost

/-- The state with a reply. -/
def reply (l : List Nat) (s : State) : State := modSec (fun k => { k with reply := l }) s

/-- An ERROR response. -/
def spdmError (code : Nat) (s : State) : State := reply [0x7F, code] s

/-- A request: Unspecified after SECRET_FUSE_FAULT (R592), else none while the responder is out of reach. -/
def spdm (act : State → State) (s : State) : State :=
  if s.chipFault = some 0x0B01 then spdmError 0x05 s else if !spdmUp s then s else act s

/-- GET_VERSION: SPDM 1.2. -/
def execGetVersion (s : State) : Out :=
  .next (spdm (fun t => reply [0x04, 0x12] (modSec (fun k => { k with version := true, algos := false }) t)) s)

/-- GET_CAPABILITIES. -/
def execGetCapabilities (s : State) : Out := .next (spdm (reply [0x61]) s)

/-- NEGOTIATE_ALGORITHMS: the one set of R577, or InvalidRequest where the request offers no part of it. -/
def execNegotiateAlgorithms (supported : Bool) (s : State) : Out :=
  .next (spdm (fun t => if supported then reply [0x63] (modSec (fun k => { k with algos := true }) t) else spdmError 0x01 t) s)

/-- GET_DIGESTS (R578): the digest of slot 0's chain. -/
def execGetDigests (s : State) : Out := .next (spdm (fun t => reply [0x01, Config.digest 256 [certChain t]] t) s)

/-- GET_CERTIFICATE (R578): slot 0 only. -/
def execGetCertificate (slot : Nat) (s : State) : Out :=
  .next (spdm (fun t => if slot = 0 then reply [0x02, certChain t] t else spdmError 0x01 t) s)

/-- CHALLENGE: signed with the alias key over the chain and the summary, with a fresh nonce. -/
def execChallenge (slot : Nat) (s : State) : Out :=
  .next (spdm (fun t =>
    if slot ≠ 0 then spdmError 0x01 t else
    let x := takeFree t
    reply [0x03, x.1, measSummary t, Config.sign (aliasKey t) [x.1, certChain t, measSummary t]] x.2) s)

/-- GET_MEASUREMENTS (R576): every block as it stands; index 0 asks for their number, 0xFF for all. -/
def execGetMeasurements (index : Nat) (signed : Bool) (s : State) : Out :=
  .next (spdm (fun t =>
    let body := if index = 0 then [10] else if index = 0xFF then measAll t else measBlock t index
    if index ≠ 0xFF && 10 < index then spdmError 0x01 t
    else if signed then
      let x := takeFree t
      reply ([0x60, x.1] ++ body ++ [Config.sign (aliasKey t) (x.1 :: body)]) x.2
    else reply (0x60 :: body) t) s)

/-- An SPDM session. -/
def spdmSess (s : State) (n : Nat) : SpdmSess := sget {} s.sec.sessions n
/-- The state with a session changed. -/
def modSpdm (n : Nat) (f : SpdmSess → SpdmSess) (s : State) : State :=
  modSec (fun k => { k with sessions := smod {} k.sessions n f }) s

/-- KEY_EXCHANGE: opens one of 2 sessions, Busy beyond them. -/
def execKeyExchange (slot : Nat) (s : State) : Out :=
  .next (spdm (fun t =>
    if slot ≠ 0 then spdmError 0x01 t else
    match [0, 1].find? (fun n => !(spdmSess t n).up) with
    | none => spdmError 0x03 t
    | some n =>
      let x := takeFree t
      reply [0x64, n, x.1, Config.sign (aliasKey t) [x.1, n]] (modSpdm n (fun _ => { up := true }) x.2)) s)

/-- FINISH: a session whose MAC verifies is established, another ends. -/
def execFinish (session : Fin 2) (macOk : Bool) (s : State) : Out :=
  .next (spdm (fun t =>
    let k := spdmSess t session.val
    if !k.up || k.fin then spdmError 0x04 t
    else if macOk then reply [0x65] (modSpdm session.val (fun k => { k with fin := true }) t)
    else spdmError 0x06 (modSpdm session.val (fun _ => {}) t)) s)

/-- A request inside an established session. -/
def inSession (n : Nat) (act : State → State) (s : State) : State :=
  spdm (fun t => if (spdmSess t n).fin then act t else spdmError 0x04 t) s

/-- HEARTBEAT. -/
def execHeartbeat (session : Fin 2) (s : State) : Out := .next (inSession session.val (reply [0x68]) s)

/-- KEY_UPDATE: the session's keys change. -/
def execKeyUpdate (session : Fin 2) (s : State) : Out :=
  .next (inSession session.val (fun t => reply [0x69] (modSpdm session.val (fun k => { k with keys := k.keys + 1 }) t)) s)

/-- END_SESSION. -/
def execEndSession (session : Fin 2) (s : State) : Out :=
  .next (inSession session.val (fun t => reply [0x6C] (modSpdm session.val (fun _ => {}) t)) s)

/-- IDE of HOST_STATUS takes a value: block 10 changes (R521, R575). -/
def setIde (n : Nat) (s : State) : State :=
  if s.host.ide = n then s else measChange (modHost (fun h => { h with ide := n }) s)

/-- VENDOR_DEFINED_REQUEST with IDE key management (R579): keys for stream 0 only; `go` makes the stream secure. A rekey keeps
it secure. -/
def execVendorDefinedRequest (session : Fin 2) (stream : Nat) (go : Bool) (s : State) : Out :=
  .next (inSession session.val (fun t =>
    if stream ≠ 0 then spdmError 0x01 t
    else if go then
      (if t.host.ide = 1 || t.host.ide = 2 then reply [0x7E] (setIde 2 t) else spdmError 0x04 t)
    else reply [0x7E] (if t.host.ide = 2 then t else setIde 1 t)) s)

/-- ENTROPY_FAILED (R571, R592): a continuous health test fails; `test` names it. -/
def execEntropyFailed (test : Nat) (s : State) : Out :=
  .next (if s.thermal.tripped then s else
    let s := chipStop 0x0B02 (item 1 test) true s
    if s.job.chgOpen then chipStop 0x0264 (item 8 (journalWord s) ++ item 1 1) true s else s)

end Sys2Proof.Machine
end

