-- ==== Sys2Proof/Machine/Wards.lean ====
section
/-!
DEFINITION. Wards and their authorisation (R552 to R554, R581), and the reader's side of the Tally FIFO (R558 to R564).
-/
namespace Sys2Proof.Machine

/-! ## Wards -/

/-- Object-dictionary entry of a ward (R552, R589). -/
def wardEntry : Ward → Nat × Nat
  | .protMode => (0x2000, 0x03)
  | .tumblerFloor => (0x2000, 0x05)
  | .etxiaFloor => (0x2000, 0x06)
  | .ownerKeyHash => (0x2600, 0x06)

/-- The fuse value of a ward as its entry reads it (R552, R589). -/
def wardValue (f : Fuses) : Ward → Nat
  | .protMode => f.protCount % 2
  | .tumblerFloor => f.tumblerFloor
  | .etxiaFloor => f.etxiaFloor
  | .ownerKeyHash => f.ownerHash

/-- The change lies outside the ward's limit (R552, R553, R589). -/
def wardBeyond (f : Fuses) (w : Ward) (v : Nat) : Bool :=
  match w with
  | .protMode => 2 ≤ v || 15 ≤ f.protCount
  | .tumblerFloor => v < f.tumblerFloor || 64 ≤ v
  | .etxiaFloor => v < f.etxiaFloor || 64 ≤ v
  | .ownerKeyHash => f.ownerHash ≠ 0 || 2 ^ 256 ≤ v

/-- The SDO response of a write. -/
def sdoAnswer (abort : Nat) (s : State) : State := modMgmt (fun m => { m with sdoAbort := abort }) s

/-- A new WARD_NONCE (R581). -/
def newNonce (s : State) : State := modSec (fun k => { k with nonce := Config.freeWord s.free }) { s with free := s.free + 1 }

/-- A refused authorisation: counted and recorded (R581). -/
def authRefuse (s : State) : State :=
  sdoAnswer 0x08000021 (event 0x0B81 [] (modSec (fun k => { k with authFails := statInc 32 k.authFails }) s))

/-- No ward write is taken while POWER_FAIL_N is low, a changeover is open, or another ward burns (R553). -/
def wardShut (s : State) : Bool := !s.pins.powerFailN || s.job.chgOpen || s.mgmt.burn.isSome

/-- A write to a ward that may go on: the current value burns nothing, a change starts to burn (R553). -/
def wardStart (w : Ward) (v : Nat) (s : State) : State :=
  if v = wardValue s.fuses w then sdoAnswer 0 s
  else if wardBeyond s.fuses w v then sdoAnswer 0x06090030 s
  else modMgmt (fun m => { m with burn := some (w, wardValue s.fuses w, v) }) s

/-- The 28 bytes that an authorisation signs (R581). -/
def wardMessage (w : Ward) (v serial nonce : Nat) : List Byte :=
  bytesLE 2 (wardEntry w).1 ++ bytesLE 1 (wardEntry w).2 ++ bytesLE 1 0 ++ bytesLE 8 v ++ bytesLE 8 serial ++ bytesLE 8 nonce

/-- Bytes of an authorisation, the first lowest: the public key, X then Y, and the signature, r then s (R581). -/
def authKey (b : BitVec 1024) : BitVec 512 := b.extractLsb' 0 512
/-- SHA-256 of an authorisation's public key. -/
def authHash (b : BitVec 1024) : Nat := Config.digest 256 ((bytesLE 64 (authKey b).toNat).map (fun x => x.toNat))

/-- fc in the 10 s for which an authorisation stands (R3, R581). -/
def authLife : Nat := 15000000000

/-- The authorisation that stands covers a write of `v` to ward `w`: it is at most 10 s old and its signature verifies over the message
with the nonce it was written under (R581). -/
def authorised (w : Ward) (v : Nat) (s : State) : Bool :=
  match s.sec.auth with
  | none => false
  | some x => decide (s.sec.authAge ≤ authLife) &&
      Config.verify (authKey x.1) (wardMessage w v s.fuses.serial x.2.toNat) (x.1.extractLsb' 512 512)

/-- A ward write that needs no authorisation, or has it, meets R553. -/
def wardPass (w : Ward) (v : Nat) (s : State) : State := if wardShut s then sdoAnswer 0x08000022 s else wardStart w v s

/-- A write to a ward entry (R553, R581): every one uses up the authorisation and the nonce. -/
def wardWrite (w : Ward) (v : Nat) (s : State) : State :=
  let t := newNonce (modSec (fun k => { k with auth := none }) s)
  if s.fuses.ownerHash = 0 then (if w = .ownerKeyHash then wardPass w v t else sdoAnswer 0x08000022 t)
  else if authorised w v s then wardPass w v t
  else authRefuse t

/-- The slave takes mailbox requests (R537, R539). -/
def mailboxUp (s : State) : Bool := !s.mgmt.clockLost && (s.mgmt.al = .preOp || s.mgmt.al = .safeOp || s.mgmt.al = .op)

/-- WARD_WRITE (R553, R581); after a start-up that stopped the wards of OD 0x2000 alone are served (R599). -/
def execWardWrite (w : Ward) (value : Nat) (s : State) : Out :=
  .next (if mailboxUp s && (!s.boot.stopped || (wardEntry w).1 = 0x2000) then wardWrite w value s else s)

/-- The lowest bit of `v` that `f` lacks, as a fuse value: the next bit of a hash to burn. -/
def nextBit (f v : Nat) : Nat := ((List.range 256).find? (fun i => v.testBit i && !f.testBit i)).getD 256

/-- One more bit of a ward is burnt towards `v`. -/
def burnBit (w : Ward) (v : Nat) (f : Fuses) : Fuses :=
  match w with
  | .protMode => { f with protCount := f.protCount + 1 }
  | .tumblerFloor => { f with tumblerFloor := f.tumblerFloor + 1 }
  | .etxiaFloor => { f with etxiaFloor := f.etxiaFloor + 1 }
  | .ownerKeyHash => { f with ownerHash := f.ownerHash + 2 ^ nextBit f.ownerHash v }

/-- The bit of a ward that burns next, as the fault names it. -/
def burnIndex (w : Ward) (v : Nat) (f : Fuses) : Nat :=
  match w with
  | .protMode => f.protCount
  | .tumblerFloor => f.tumblerFloor
  | .etxiaFloor => f.etxiaFloor
  | .ownerKeyHash => nextBit f.ownerHash v

/-- WARD_PENDING (R552): a ward whose change awaits a reset. -/
def wardPends : Ward → BitVec 3
  | .protMode => 1
  | .tumblerFloor => 2
  | .etxiaFloor => 4
  | .ownerKeyHash => 0

/-- The burn ends: what it reached is recorded with ward, old value and new value (R553). -/
def burnEnd (w : Ward) (old abort : Nat) (s : State) : State :=
  let n := if w = .ownerKeyHash then 32 else 1
  sdoAnswer abort (event 0x0A83 (item 2 (wardEntry w).1 ++ item 1 (wardEntry w).2 ++ item n old ++ item n (wardValue s.fuses w))
    (modMgmt (fun m => { m with burn := none }) s))

/-- WARD_BIT_BURN (R553, R554): one bit burns and verifies. The last sends the response; a fall of POWER_FAIL_N abandons the
rest; a bit that fails is WARD_WRITE_FAILED. -/
def execWardBitBurn (ok : Bool) (s : State) : Out :=
  .next (match s.mgmt.burn with
    | none => s
    | some (w, old, v) =>
      if !ok then
        sdoAnswer 0x08000020 (chipStop 0x0A01 (item 2 (wardEntry w).1 ++ item 1 (wardEntry w).2 ++ item 2 (burnIndex w v s.fuses)) true
          (modMgmt (fun m => { m with burn := none }) s))
      else
        let s := modMgmt (fun m => { m with wardPending := m.wardPending ||| wardPends w }) { s with fuses := burnBit w v s.fuses }
        if wardValue s.fuses w = v then burnEnd w old 0 s
        else if !s.pins.powerFailN then burnEnd w old 0x08000022 s
        else s)

/-- WARD_AUTH (R581): an authorisation under the owner's key stands for one ward write; another is refused. -/
def execWardAuth (bytes : BitVec 1024) (s : State) : Out :=
  .next (if !mailboxUp s || s.boot.stopped then s else
    let t := newNonce s
    if s.fuses.ownerHash ≠ 0 && authHash bytes = s.fuses.ownerHash then
      sdoAnswer 0 (modSec (fun k => { k with auth := some (bytes, s.sec.nonce), authAge := 0 }) t)
    else authRefuse (modSec (fun k => { k with auth := none }) t))

/-! ## Tally FIFO -/

/-- TALLY_HANDOVER (R560): a full bank, or in the boundary window one that holds a record, once the other bank is free. -/
def execTallyHandover (s : State) : Out :=
  .next (if s.stride.window || 127 ≤ (bankOf s.tally s.tally.writer).recs.length then tallyHand s else s)

/-- TALLY_RELEASE (R562, R564): ignored while READY is 0 or TALLY_READER is 1. -/
def execTallyRelease (s : State) : Out := .next (if s.tally.reader = 0 then tallyFree s else s)

/-- The next record of TALLY_NEXT, if one is available to the field network (R562). -/
def nextRecord (s : State) : Option TallyRec :=
  if s.tally.reader = 1 && !s.boot.restart && (bankOf s.tally s.tally.next).handed then
    (bankOf s.tally s.tally.next).recs[s.tally.popped]?
  else none

/-- A read of TALLY_NEXT (R555, R562): the record, its bank released after its last; 32 zero bytes when there is none. -/
def tallyPop (s : State) : State :=
  match nextRecord s with
  | none => modMgmt (fun m => { m with sdoAbort := 0, sdoData := 0 }) s
  | some r =>
    let s := modMgmt (fun m => { m with sdoAbort := 0, sdoData := numLE (recBytes r) }) s
    let last := (bankOf s.tally s.tally.next).recs.length ≤ s.tally.popped + 1
    if last then tallyFree s else modTally (fun t => { t with popped := t.popped + 1 }) s

/-- TALLY_NEXT_POP (R555, R562). -/
def execTallyNextPop (s : State) : Out := .next (if mailboxUp s && !s.boot.stopped then tallyPop s else s)

/-- A write of TALLY_READER (R555, R562): at once, and the new reader starts at slot 1 of bank NEXT. -/
def tallyReader (value : Nat) (s : State) : State :=
  if 2 ≤ value then sdoAnswer 0x06090030 s
  else sdoAnswer 0 (modTally (fun t => if t.reader = value then t else { t with reader := value, popped := 0 }) s)

/-- TALLY_READER_WRITE (R555, R562). -/
def execTallyReaderWrite (value : Nat) (s : State) : Out :=
  .next (if mailboxUp s && !s.boot.stopped then tallyReader value s else s)

end Sys2Proof.Machine
end

