-- ==== Sys2Proof/Machine/Od.lean ====
section
/-!
DEFINITION. The object dictionary (R25, R26, R539): which entries exist and how they are accessed, what each reads, and what a
write does. Layouts that R25 leaves to CiA 301 (PDO mappings) are PRESUMED from it (log 36).
-/
namespace Sys2Proof.Machine

/-! ## Entries -/

/-- Access of an entry (R26). -/
inductive OdAccess where
  | ro | rw | wo | const
  deriving DecidableEq, Repr

/-- Highest subindex of an index; `none`: the index does not exist. -/
def odHighest (index : Nat) : Option Nat :=
  match index with
  | 0x1018 => some 4
  | 0x1600 => some 3
  | 0x1A00 => some 10
  | 0x1C12 => some 1
  | 0x1C13 => some 1
  | 0x2000 => some 0x07
  | 0x2001 => some 0x11
  | 0x2100 => some 0x17
  | 0x2200 => some 0x11
  | 0x2300 => some 0x0F
  | 0x2400 => some 0x0D
  | 0x2500 => some 0x2F
  | 0x2600 => some 0x0C
  | 0x2700 => some 0x10
  | 0x2800 => some 0x09
  | 0x2F00 => some 0x09
  | _ => none

/-- Subindices of an index that are rw, wo and const; every other one is ro. -/
def odKinds (index : Nat) : List Nat × List Nat × List Nat :=
  match index with
  | 0x1018 => ([], [], [0, 1, 2, 3, 4])
  | 0x1600 => ([], [], [0, 1, 2, 3])
  | 0x1A00 => ([], [], List.range 11)
  | 0x1C12 => ([], [], [0, 1])
  | 0x1C13 => ([], [], [0, 1])
  | 0x2000 => ([3, 5, 6], [], [1, 2])
  | 0x2001 => ([5, 0x0C, 0x11], [6, 7], [])
  | 0x2100 => ([1, 2, 3, 4], [], [])
  | 0x2200 => ([4, 7, 9, 0x0B, 0x0C, 0x0D, 0x0E, 0x0F], [], [])
  | 0x2300 => ([1, 2, 3, 4, 5, 6, 7, 8, 9], [0x0F], [])
  | 0x2400 => ([1, 2, 3, 5, 9, 0x0B, 0x0D], [], [])
  | 0x2500 => ([0x0B, 0x0F] ++ (List.range 16).map (0x10 + ·), [8], [])
  | 0x2600 => ([6, 0x0C], [8], [])
  | 0x2700 => ([0x0B, 0x0E], [], [])
  | 0x2800 => ([1, 2, 9], [], [])
  | 0x2F00 => ([4, 5, 6, 7, 8], [3], [])
  | _ => ([], [], [])

/-- A subindex of an existing index exists. -/
def odSub (index sub : Nat) : Bool := match odHighest index with | none => false | some h => sub ≤ h && !(index = 0x2100 && 5 ≤ sub && sub ≤ 0x0F)

/-- Access of an existing entry. -/
def odAccess (index sub : Nat) : OdAccess :=
  let k := odKinds index
  if k.1.contains sub then .rw else if k.2.1.contains sub then .wo else if k.2.2.contains sub then .const else .ro

/-- Entries served after start-up stopped on a fault (R599). -/
def odServed (s : State) (index sub : Nat) : Bool :=
  !s.boot.stopped || (0x1000 ≤ index && index ≤ 0x1FFF) || index = 0x2000 || index = 0x2001 || (index = 0x2F00 && 8 ≤ sub)

/-- The abort of a request for an entry that does not exist (R539): 0 where it exists. -/
def odMissing (s : State) (index sub : Nat) : Nat :=
  if (odHighest index).isNone then 0x06020000
  else if !odSub index sub then 0x06090011
  else if !odServed s index sub then (if index = 0x2F00 then 0x06090011 else 0x06020000)
  else 0

/-! ## Reading -/

/-- PDO mapping entries: index, subindex, bits (R542, R543). -/
def pdoMap (l : List (Nat × Nat × Nat)) (sub : Nat) : Nat :=
  if sub = 0 then l.length else match l[sub - 1]? with | some x => x.1 * 65536 + x.2.1 * 256 + x.2.2 | none => 0

/-- RxPDO 0x1600 (R542). -/
def rxPdo : List (Nat × Nat × Nat) := [(0x2100, 1, 16), (0x2100, 2, 16), (0x2100, 3, 8)]

/-- TxPDO 0x1A00 (R543). -/
def txPdo : List (Nat × Nat × Nat) :=
  [(0x2200, 0x03, 64), (0x2200, 0x02, 32), (0x2100, 0x14, 32), (0x2100, 0x10, 16), (0x2100, 0x11, 16), (0x2100, 0x12, 16),
   (0x2100, 0x15, 16), (0x2100, 0x13, 8), (0x2200, 0x05, 8), (0x2500, 0x01, 8)]

/-- OD 0x1018 (R537). -/
def odIdentity (s : State) (sub : Nat) : Nat :=
  match sub with
  | 0 => 4
  | 1 => Config.vendorId
  | 2 => 0x288
  | 3 => s.fuses.major * 65536 + s.fuses.minor
  | _ => s.fuses.serial % 2 ^ 32

/-- OD 0x2000 (R552). -/
def od2000 (s : State) (sub : Nat) : Nat :=
  match sub with
  | 0 => 0x07
  | 1 => s.fuses.serial
  | 2 => s.fuses.major * 16 + s.fuses.minor
  | 3 => wardValue s.fuses .protMode
  | 4 => 15 - s.fuses.protCount
  | 5 => s.fuses.tumblerFloor
  | 6 => s.fuses.etxiaFloor
  | _ => s.mgmt.wardPending.toNat

/-- OD 0x2001 (R623). -/
def od2001 (s : State) (sub : Nat) : Nat :=
  let b := s.boot
  match sub with
  | 0 => 0x11
  | 1 => b.cause
  | 2 => b.stage
  | 3 => b.code
  | 4 => b.runTumbler % 2 + 2 * (b.runConfig % 2) + 4 * bit01 b.fellTumbler + 8 * bit01 b.fellConfig
  | 5 => b.target
  | 8 => b.segments % 65536 * 65536 + b.imgErr * 256 + b.imgState
  | 9 => numLE ((List.range 8).map (fun n => (ostlerOf s n).svc))
  | 0x0A => (s.cores.filter (fun c => c.1 < 288 && c.2.svc != c.2.loaded)).length
  | 0x0B => s.mgmt.staleDrops.n
  | 0x0C => bit01 s.mgmt.staleDrops.ovf
  | 0x0D => s.dumps.index.toNat
  | 0x0E => s.dumps.rindex.toNat
  | 0x0F => s.dumps.lastCode
  | 0x10 => s.dumps.pfCount.toNat
  | 0x11 => s.dumps.source
  | _ => 0

/-- OD 0x2100 (R546). -/
def od2100 (s : State) (sub : Nat) : Nat :=
  match sub with
  | 0 => 0x17
  | 1 => s.mgmt.budget
  | 2 => s.mgmt.rmCycle.toNat
  | 3 => s.mgmt.rack.toNat
  | 4 => s.mgmt.watchdogMs
  | 0x10 => s.stride.pMeasW
  | 0x11 => s.stride.pTailW
  | 0x12 => ofSigned 16 (tempMax s)
  | 0x13 => powerState s
  | 0x14 => health s
  | 0x15 => s.mgmt.rmEcho.toNat
  | 0x16 => s.mgmt.powerFails.toNat
  | _ => s.mgmt.losses.toNat

/-- OD 0x2200 (R95). -/
def od2200 (s : State) (sub : Nat) : Nat :=
  let t := s.stride
  match sub with
  | 0 => 0x11
  | 1 => if jobLoaded s then t.base else 16384
  | 2 => t.len
  | 3 => t.count
  | 4 => t.source
  | 5 => strideState s
  | 6 => if jobLoaded s then t.domainRoot else ownChip s
  | 7 => t.markerLead
  | 8 => t.slips.n
  | 9 => bit01 t.slips.ovf
  | 0x0A => t.mismatches.n
  | 0x0B => bit01 t.mismatches.ovf
  | 0x0C => t.policy
  | 0x0D => t.fixedPermit
  | 0x0E => t.floorW
  | 0x0F => t.throttleFactor
  | 0x10 => ofSigned 16 t.phaseErr
  | _ => t.lenReq

/-- OD 0x2300 (R313). -/
def od2300 (s : State) (sub : Nat) : Nat :=
  let t := s.tiers
  match sub with
  | 0 => 0x0F
  | 1 => t.quotaH
  | 2 => t.quotaL
  | 3 => t.quotaF
  | 4 => t.shareHitch
  | 5 => t.shareEtxia
  | 6 => t.shareHost
  | 7 => t.shareFarrier
  | 8 => t.odDlL
  | 9 => t.odDlF
  | 0x0A => t.corrTotal
  | 0x0B => t.uncorrTotal
  | 0x0C => portsUp s
  | 0x0D => t.pageIns
  | _ => bit01 t.tio + 2 * bit01 t.lEn + 4 * bit01 t.fEn

/-- OD 0x2400 (R503). -/
def od2400 (s : State) (sub : Nat) : Nat :=
  let k := s.links
  match sub with
  | 0 => 0x0D
  | 1 => k.rack
  | 2 => k.tray
  | 3 => k.slot
  | 4 => ownChip s
  | 5 => k.racks
  | 6 => maskOf 6 (linkLive s)
  | 7 => maskOf 6 (fun l => linkLive s l && laneCount (linkOf s l).lanesUp < 8)
  | 8 => k.downs.toNat
  | 9 => k.recalInterval
  | 0x0A => s.sync.reissues.n
  | 0x0B => bit01 s.sync.reissues.ovf
  | 0x0C => k.unreach.n
  | _ => bit01 k.unreach.ovf

/-- Counters of the client that CLIENT_SELECT names (R454, R465). -/
def shownClient (s : State) : Client := sget {} s.job.clients s.job.clientSelect

/-- OD 0x2500 (R465). -/
def od2500 (s : State) (sub : Nat) : Nat :=
  let j := s.job
  match sub with
  | 0 => 0x2F
  | 1 => jobState s
  | 2 => j.status
  | 3 => runTackId s
  | 4 => match j.run with | none => 0 | some r => r.cmd.cls.val
  | 5 => match j.run with | none => 0 | some r => r.termLeft
  | 6 => (pendingJobs s).length
  | 7 => j.tenant.toNat
  | 9 => journalWord s
  | 0x0A => j.changeovers.toNat
  | 0x0B => j.clientSelect
  | 0x0C => (shownClient s).started.n
  | 0x0D => (shownClient s).completed.n
  | 0x0E => (shownClient s).failed.n
  | 0x0F => bit01 (shownClient s).started.ovf + 2 * bit01 (shownClient s).completed.ovf + 4 * bit01 (shownClient s).failed.ovf
  | n => if n < 0x20 then weightOf s (n - 0x10) else usedOf s (n - 0x20)

/-- OD 0x2600 (R589). -/
def od2600 (s : State) (sub : Nat) : Nat :=
  match sub with
  | 0 => 0x0C
  | 1 => bit01 s.tiers.tio
  | 2 => s.sec.measGen.toNat
  | 3 => s.sec.count
  | 4 => s.sec.base
  | 5 => (dbgSessionWord s).toNat % 256
  | 6 => s.fuses.ownerHash
  | 7 => s.sec.nonce.toNat
  | 9 => measSummary s
  | 0x0A => (s.sec.sessions.filter (fun x => x.2.up)).length
  | 0x0B => s.sec.authFails.n
  | _ => bit01 s.sec.authFails.ovf

/-- Subs 0x01 to 0x0A of OD 0x2700 (R555). -/
def counters (m : Mgmt) : List Stat :=
  [m.ternary, m.satRows, m.sfnDomain, m.weightClamp, m.combineClamp, m.pageMisses, m.hingeRetries, m.chgDiscards, m.badPackets,
   m.linkDiscards]

/-- OD 0x2700 (R555). -/
def od2700 (s : State) (sub : Nat) : Nat :=
  match sub with
  | 0 => 0x10
  | 0x0B => ((counters s.mgmt).zipIdx.map (fun x => bit01 x.1.ovf * 2 ^ (x.2 + 1))).foldl (· + ·) 0
  | 0x0C => s.tally.records
  | 0x0D => s.tally.dropped
  | 0x0E => s.tally.reader
  | 0x10 => tallyAvail s.tally
  | n => ((counters s.mgmt).getD (n - 1) {}).n

/-- Spare rows in use, chip-wide (R334). -/
def rowsRetired (s : State) : Nat :=
  ((s.cores.map (fun c => c.2.far.spares.length)) ++ (s.ostlers.map (fun o => o.2.spares.length))).foldl (· + ·) 0

/-- OD 0x2800 (R334). -/
def od2800 (s : State) (sub : Nat) : Nat :=
  match sub with
  | 0 => 0x09
  | 1 => s.sync.farEn
  | 2 => s.sync.interval
  | 3 => s.sync.passes
  | 4 => rowsRetired s
  | 5 => coresPending s
  | 6 => s.sync.scrubH.toNat
  | 7 => s.sync.scrubL.toNat
  | 8 => s.sync.scrubUncorr.n
  | _ => bit01 s.sync.scrubUncorr.ovf

/-- OD 0x2F00 less DBG_DATA and DUMP_DATA, whose reads act (R588). -/
def od2F00 (s : State) (sub : Nat) : Nat :=
  match sub with
  | 0 => 0x09
  | 1 => (dbgSessionWord s).toNat
  | 2 => s.sec.count
  | 4 => s.sec.addr
  | 6 => (regRead s .dbgCore).toNat
  | 7 => s.sec.policy
  | _ => s.dumps.offset

/-- What an entry whose read does not act reads. -/
def odValue (s : State) (index sub : Nat) : Nat :=
  match index with
  | 0x1018 => odIdentity s sub
  | 0x1600 => pdoMap rxPdo sub
  | 0x1A00 => pdoMap txPdo sub
  | 0x1C12 => if sub = 0 then 1 else 0x1600
  | 0x1C13 => if sub = 0 then 1 else 0x1A00
  | 0x2000 => od2000 s sub
  | 0x2001 => od2001 s sub
  | 0x2100 => od2100 s sub
  | 0x2200 => od2200 s sub
  | 0x2300 => od2300 s sub
  | 0x2400 => od2400 s sub
  | 0x2500 => od2500 s sub
  | 0x2600 => od2600 s sub
  | 0x2700 => od2700 s sub
  | 0x2800 => od2800 s sub
  | _ => od2F00 s sub

/-- SDO_READ (R539): the entry's value, or the abort of a missing or a wo entry. Reads of TALLY_NEXT, DBG_DATA and DUMP_DATA act. -/
def execSdoRead (index sub : Nat) (s : State) : Out :=
  .next (if !mailboxUp s then s
    else if odMissing s index sub ≠ 0 then sdoAnswer (odMissing s index sub) s
    else if odAccess index sub = .wo then sdoAnswer 0x06010001 s
    else if index = 0x2700 && sub = 0x0F then tallyPop s
    else if index = 0x2F00 && sub = 5 then
      modMgmt (fun m => { m with sdoAbort := 0, sdoData := (debugRead s).1.toNat }) (debugRead s).2
    else if index = 0x2F00 && sub = 9 then dumpRead s
    else modMgmt (fun m => { m with sdoAbort := 0, sdoData := odValue s index sub }) s)

/-! ## Overflow entries (R96) -/

/-- A counter that a clearing write meets: a saturation in the same cycle leaves it at 1 (R96). -/
def cleared (sat : Bool) : Stat := if sat then { n := 1 } else {}

/-- The counters behind an overflow entry are cleared; bit n of `sat`: counter n saturates in the same cycle. -/
def ovfClear (index sub : Nat) (sat : BitVec 16) (s : State) : State :=
  let z := fun (i : Nat) => cleared (sat.getLsbD i)
  match index, sub with
  | 0x2001, 0x0C => modMgmt (fun m => { m with staleDrops := z 0 }) s
  | 0x2200, 0x09 => modStride (fun t => { t with slips := z 0 }) s
  | 0x2200, 0x0B => modStride (fun t => { t with mismatches := z 0 }) s
  | 0x2400, 0x0B => modSync (fun y => { y with reissues := z 0 }) s
  | 0x2400, 0x0D => modLinks (fun k => { k with unreach := z 0 }) s
  | 0x2500, 0x0F => modJob (fun j => { j with clients := smod {} j.clients j.clientSelect (fun c => { c with
      started := z 0, completed := z 1, failed := z 2 }) }) s
  | 0x2600, 0x0C => modSec (fun k => { k with authFails := z 0 }) s
  | 0x2700, 0x0B => modMgmt (fun m => { m with
      ternary := z 1, satRows := z 2, sfnDomain := z 3, weightClamp := z 4, combineClamp := z 5, pageMisses := z 6
      hingeRetries := z 7, chgDiscards := z 8, badPackets := z 9, linkDiscards := z 10 }) s
  | 0x2800, 0x09 => modSync (fun y => { y with scrubUncorr := z 0 }) s
  | _, _ => s

/-- An overflow entry. -/
def isOvf (index sub : Nat) : Bool :=
  [(0x2001, 0x0C), (0x2200, 0x09), (0x2200, 0x0B), (0x2400, 0x0B), (0x2400, 0x0D), (0x2500, 0x0F), (0x2600, 0x0C), (0x2700, 0x0B),
   (0x2800, 0x09)].contains (index, sub)

/-- A write to an overflow entry: 0 clears on receipt, any other value of the entry's type has no effect (R96, R26, R539). -/
def ovfWrite (index sub value : Nat) (sat : BitVec 16) (s : State) : State :=
  if value < (if index = 0x2700 then 65536 else 256) then sdoAnswer 0 (if value = 0 then ovfClear index sub sat s else s)
  else sdoAnswer 0x06090030 s

/-- OD_OVF_CLEAR (R96, R599). -/
def execOdOvfClear (index sub value : Nat) (saturates : BitVec 16) (s : State) : Out :=
  .next (if mailboxUp s && odMissing s index sub = 0 && isOvf index sub then ovfWrite index sub value saturates s else s)

/-! ## Writing -/

/-- `act` where the value lies in range, else abort 0x0609_0030 (R539). -/
def inRange (ok : Bool) (act : State → State) (s : State) : State := if ok then sdoAnswer 0 (act s) else sdoAnswer 0x06090030 s

/-- RACK_STATE takes a value; a change is recorded (R546). -/
def setRack (v : BitVec 8) (s : State) : State :=
  if s.mgmt.rack = v then s else event 0x0A82 (item 1 s.mgmt.rack.toNat ++ item 1 v.toNat) (modMgmt (fun m => { m with rack := v }) s)

/-- An item of block 10 may change. -/
def measIf (changed : Bool) (s : State) : State := if changed then measChange s else s

/-- The stride base that scales budgets: during an install the incoming tack's (R269). -/
def curbBase (s : State) : Nat := match s.job.install with | some i => i.tack.ledger.lBase | none => s.stride.base

/-- Curb budgets of classes 3 to 6 after a share changed (R269, R313); the Curbs load them at the next boundary. -/
def shareBudgets (s : State) : State :=
  modTiers (fun t => { t with curbs := (List.range 40).foldl (fun m p => [3, 4, 5, 6].foldl (fun m c =>
    smod {} m (p * 8 + c) (fun x => { x with budget := scaleBudget (curbBase s) (baseBudget s p c) })) m) t.curbs }) s

/-- A write of a share (R313): refused where the four would sum above 128. -/
def setShare (sub v : Nat) (s : State) : State :=
  let t := s.tiers
  let l := [if sub = 4 then v else t.shareHitch, if sub = 5 then v else t.shareEtxia, if sub = 6 then v else t.shareHost,
            if sub = 7 then v else t.shareFarrier]
  inRange (decide (v < 256) && decide (l.foldl (· + ·) 0 ≤ 128)) (fun s => shareBudgets (modTiers (fun t => { t with
    shareHitch := l.getD 0 0, shareEtxia := l.getD 1 0, shareHost := l.getD 2 0, shareFarrier := l.getD 3 0 }) s)) s

/-- Coordinates may not change while a link trains or is up, or a job is loaded (R469). -/
def coordsBusy (s : State) : Bool :=
  jobLoaded s || (List.range 6).any (fun l => let x := (linkOf s l).state; x = 1 || x = 2 || x = 3)

/-- A write of a coordinate (R469). -/
def setCoord (v limit : Nat) (f : Links → Links) (s : State) : State :=
  if coordsBusy s then sdoAnswer 0x08000022 s else inRange (decide (v < limit)) (modLinks f) s

/-- Writes of OD 0x2100 (R546); a frozen budget is the last that process data brought (R549, log 91). -/
def write2100 (sub v : Nat) (s : State) : State :=
  match sub with
  | 1 => if s.mgmt.frozen then sdoAnswer 0x08000022 s
         else inRange (decide (v ≤ 1150)) (fun s => noteChange (modMgmt (fun m => { m with budget := v }) s)) s
  | 2 => inRange (decide (v < 65536)) (modMgmt (fun m => { m with rmCycle := BitVec.ofNat 16 v })) s
  | 3 => inRange (decide (v < 8)) (setRack (BitVec.ofNat 8 v)) s
  | _ => inRange (decide (1 ≤ v ∧ v ≤ 10000)) (modMgmt (fun m => { m with watchdogMs := v })) s

/-- Writes of OD 0x2200 less its overflow entries (R95, R96). -/
def write2200 (sub v : Nat) (s : State) : State :=
  match sub with
  | 4 => inRange (decide (v ≤ 4)) (modStride (fun t => { t with source := v })) s
  | 7 => inRange (decide (v % 64 = 0 ∧ 256 ≤ v ∧ v ≤ 8192)) (modStride (fun t => { t with markerLead := v })) s
  | 0x0C => inRange (decide (v ≤ 1)) (modStride (fun t => { t with policy := v })) s
  | 0x0D => inRange (decide (v < 256)) (fun s => measIf (decide (s.stride.fixedPermit ≠ v)) (modStride (fun t => { t with fixedPermit := v }) s)) s
  | 0x0E => inRange (decide (400 ≤ v ∧ v ≤ 1150))
      (fun s => measIf (decide (s.stride.floorW ≠ v)) (modStride (fun t => { t with floorW := v }) s)) s
  | _ => inRange (decide (1 ≤ v ∧ v ≤ 16)) (modStride (fun t => { t with throttleFactor := v })) s

/-- Writes of OD 0x2300 (R278, R296, R313). -/
def write2300 (sub v : Nat) (s : State) : State :=
  match sub with
  | 1 => inRange (decide (v ≤ 392192)) (modTiers (fun t => { t with quotaH := v })) s
  | 2 => inRange (decide (v ≤ lHalf s * 2 / 2 ^ 20 - 1024)) (modTiers (fun t => { t with quotaL := v })) s
  | 3 => inRange (decide (v ≤ s.board.nandGib * 16 - 16)) (modTiers (fun t => { t with quotaF := v })) s
  | 8 => inRange (decide (1024 ≤ v ∧ v ≤ 16777215)) (modTiers (fun t => { t with odDlL := v, dlPendL := true })) s
  | 9 => inRange (decide (65536 ≤ v ∧ v ≤ 16777215)) (modTiers (fun t => { t with odDlF := v, dlPendF := true })) s
  | 0x0F => portRestore v s
  | n => setShare n v s

/-- Writes of OD 0x2400 less its overflow entries (R469, R503). -/
def write2400 (sub v : Nat) (s : State) : State :=
  match sub with
  | 1 => setCoord v 512 (fun k => { k with rack := v }) s
  | 2 => setCoord v 32 (fun k => { k with tray := v }) s
  | 3 => setCoord v 4 (fun k => { k with slot := v }) s
  | 5 => inRange (decide (1 ≤ v ∧ v ≤ 512)) (modLinks (fun k => { k with racks := v })) s
  | _ => inRange (decide (1024 ≤ v ∧ v ≤ 16777215)) (modLinks (fun k => { k with recalInterval := v })) s

/-- Writes of OD 0x2500 less its overflow entry (R456, R465). -/
def write2500 (sub v : Nat) (s : State) : State :=
  match sub with
  | 8 => if v < 65536 then (if fabricUp s then tenantWrite (BitVec.ofNat 16 v) s else sdoAnswer 0x08000022 s) else sdoAnswer 0x06090030 s
  | 0x0B => inRange (decide (v < 4096)) (modJob (fun j => { j with clientSelect := v })) s
  | n => inRange (decide (1 ≤ v ∧ v ≤ 255)) (modJob (fun j => { j with weights := sset 16 j.weights (n - 0x10) v })) s

/-- Writes of OD 0x2800 less its overflow entry (R334). -/
def write2800 (sub v : Nat) (s : State) : State :=
  match sub with
  | 1 => inRange (decide (v < 8)) (modSync (fun y => { y with farEn := v })) s
  | _ => inRange (decide (1 ≤ v ∧ v ≤ 65535)) (modSync (fun y => { y with interval := v })) s

/-- Writes of OD 0x2F00 (R587, R588). -/
def write2F00 (sub v : Nat) (s : State) : State :=
  let x : RegAccess := { v := BitVec.ofNat 64 v, m := ~~~0 }
  match sub with
  | 3 => sdoAnswer 0 (dbgRegWrite .field .dbgCtrl x s)
  | 4 => sdoAnswer 0 (dbgRegWrite .field .dbgAddr x s)
  | 5 => sdoAnswer 0 (dbgRegWrite .field .dbgData x s)
  | 6 => sdoAnswer 0 (dbgRegWrite .field .dbgCore x s)
  | 7 => inRange (decide (v ≤ 1)) (modSec (fun k => { k with policy := v })) s
  | _ => inRange (dumpOffsetOk s.dumps.source v) (modDumps (fun d => { d with offset := v })) s

/-- Writes of OD 0x2001 that no command of their own makes (R623). -/
def write2001 (sub v : Nat) (s : State) : State :=
  match sub with
  | 5 => inRange (decide (v ≤ 2)) (modBoot (fun b => { b with target := v })) s
  | 0x11 => inRange (decide (v ≤ 32)) (modDumps (fun d => { d with source := v })) s
  | _ => s

/-- A write of an rw or wo entry. IMG_CTRL, IMG_DATA and WARD_AUTH carry more than a number: their own commands write them. -/
def odWrite (index sub v : Nat) (s : State) : State :=
  if isOvf index sub then ovfWrite index sub v 0 s else
  match index with
  | 0x2000 => if sub = 3 then wardWrite .protMode v s else if sub = 5 then wardWrite .tumblerFloor v s else wardWrite .etxiaFloor v s
  | 0x2001 => write2001 sub v s
  | 0x2100 => write2100 sub v s
  | 0x2200 => write2200 sub v s
  | 0x2300 => write2300 sub v s
  | 0x2400 => write2400 sub v s
  | 0x2500 => write2500 sub v s
  | 0x2600 => if sub = 6 then wardWrite .ownerKeyHash v s else s
  | 0x2700 => tallyReader v s
  | 0x2800 => write2800 sub v s
  | 0x2F00 => write2F00 sub v s
  | _ => s

/-- SDO_WRITE (R539): a missing entry, an ro or const entry and a value outside the range are refused. -/
def execSdoWrite (index sub : Nat) (value : Nat) (s : State) : Out :=
  .next (if !mailboxUp s then s
    else if odMissing s index sub ≠ 0 then sdoAnswer (odMissing s index sub) s
    else if odAccess index sub = .ro || odAccess index sub = .const then sdoAnswer 0x06010002 s
    else odWrite index sub value s)

end Sys2Proof.Machine
end

