-- ==== Sys2Proof/Machine/Ethercat.lean ====
section
/-!
DEFINITION. The EtherCAT slave (R537 to R550): state requests, output images, the loss of the master, ports, and the failure of the
distributed clock (R75).
-/
namespace Sys2Proof.Machine

/-- The slave's AL status code and state after a request. -/
def alTo (a : AlState) (code : Nat) (s : State) : State := modMgmt (fun m => { m with al := a, alCode := code }) s

/-- The AL state machine has this step (R537): one up, or any number down. -/
def alStep (cur new : AlState) : Bool :=
  match cur, new with
  | .init, .preOp => true
  | .preOp, .safeOp => true
  | .safeOp, .op => true
  | _, .init => true
  | .op, .preOp => true
  | .op, .safeOp => true
  | .safeOp, .preOp => true
  | .init, _ => false
  | .preOp, .preOp => true
  | .safeOp, .safeOp => true
  | .op, .op => true
  | .preOp, _ => false
  | .safeOp, _ => false
  | .op, _ => false
  | .boot, _ => false

/-- OP is entered: WATCHDOG_MS takes effect (R546), and the master is back if it was lost (R550). -/
def alOp (s : State) : State :=
  modMgmt (fun m => { m with al := .op, alCode := 0, watchdogNow := m.watchdogMs, backInOp := m.masterLost }) s

/-- AL_STATE_REQUEST (R537, R539, R599): refused with an AL status code where the state machine, the sync managers or start-up
do not allow it. Codes 0x0011 and 0x0013 are EtherCAT's (log 36). -/
def execAlStateRequest (a : AlState) (sm2 sm3 : Nat) (s : State) : Out :=
  .next (if s.boot.stopped || s.boot.stage < 5 || s.mgmt.clockLost then s
    else if a = .boot then alTo s.mgmt.al 0x0013 s
    else if !alStep s.mgmt.al a then alTo s.mgmt.al 0x0011 s
    else if a = .op then
      (if sm2 ≠ 5 then alTo s.mgmt.al 0x001D s
       else if sm3 ≠ 27 then alTo s.mgmt.al 0x001E s
       else if s.mgmt.al = .op then s else alOp s)
    else alTo a 0 s)

/-- A budget arrives (R545, R622): out of range it is refused; while the Tumbler restarts it waits. -/
def takeBudget (b : Nat) (s : State) : State :=
  if 1150 < b then s
  else if s.boot.restart then modMgmt (fun m => { m with heldBudget := some b }) s
  else noteChange (modMgmt (fun m => { m with budget := b }) s)

/-- OUTPUT_IMAGE_ACCEPT (R542, R545, R546, R550): in OP the outputs take effect; the first image after the slave is back in OP ends
MASTER_LOST. -/
def execOutputImageAccept (o : OutImage) (s : State) : Out :=
  .next (if s.mgmt.al ≠ .op || s.mgmt.clockLost then s else
    let s := takeBudget o.budget (modMgmt (fun m => { m with rmCycle := o.cycle, rmImage := o.cycle }) s)
    let s := if o.rack.toNat < 8 then setRack o.rack s else s
    if s.mgmt.masterLost && s.mgmt.backInOp then
      event 0x0A81 [] (modMgmt (fun m => { m with masterLost := false, frozen := false, backInOp := false }) s)
    else s)

/-- The master is lost (R548). -/
def loseMaster (s : State) : State :=
  event 0x0A80 [] (modMgmt (fun m => { m with
    al := .safeOp, alCode := 0x001B, masterLost := true, frozen := true, backInOp := false, losses := m.losses + 1 }) s)

/-- MASTER_LOST (R546, R548): in OP `elapsedMs` have passed with no output image accepted; the SM2 watchdog expires after the WATCHDOG_MS
in effect, and an image accepted in the same mc prevails. -/
def execMasterLost (elapsedMs : Nat) (accepted : Bool) (s : State) : Out :=
  .next (if s.mgmt.al = .op && s.mgmt.watchdogNow ≤ elapsedMs && !accepted then loseMaster s else s)

/-- ETHERCAT_PORT_LINK_CHANGE (R537, R548): port A or B; with both down in OP the master is lost. -/
def execEthercatPortLinkChange (portB up : Bool) (s : State) : Out :=
  .next (
    let s := modMgmt (fun m => if portB then { m with portB := up } else { m with portA := up }) s
    if s.mgmt.al = .op && !s.mgmt.portA && !s.mgmt.portB then loseMaster s else s)

/-- DISTRIBUTED_CLOCK_FAILURE (R75, R557): under source 2 the chip runs free and FALLBACK is set. -/
def execDistributedClockFailure (s : State) : Out :=
  .next (if s.stride.sourceNow ≠ 2 || s.stride.fallback then s else
    event 0x0181 [] (modStride (fun t => { t with freeRun := true, fallback := true, aligned := false }) s))

end Sys2Proof.Machine
end

