-- ==== Sys2Proof/Machine/Stride.lean ====
section
/-!
DEFINITION. Stride timing (R65 to R98): the boundary with what it closes and loads, the issue span, the watchdog, markers and what
they carry, the pins that move the stride (R530, R605), and the timer of the Tumbler.
-/
namespace Sys2Proof.Machine

/-! ## Work of a step (R85, R91) -/

/-- Thread `t` of core `c` has work of step `n` left (R172). -/
def threadLate (k : Tack) (s : State) (c n t : Nat) : Bool :=
  let h := threadOf s c t
  (entryOf k c t n).isSome && (decide (h.upto ≤ n) || (decide (h.step = n) && h.en && !h.done))

/-- Engine `e` has work of step `n` left: entries, a firing, an accepted instruction, a run (R90, R135). -/
def engineLate (k : Tack) (s : State) (n e : Nat) : Bool :=
  let g := engOf s e
  (!(schedOf k e n).isEmpty && (decide (g.upto ≤ n) || (decide (g.step = n) && !g.entries.isEmpty))) ||
  (match g.firing with | none => false | some x => x.step = n) ||
  g.held.any (fun h => h.step = n) || g.ags.any (fun a => a.2.runs.any (fun r => r.step = n))

/-- Core `c` has work of step `n` left. -/
def coreLate (k : Tack) (s : State) (n c : Nat) : Bool :=
  (List.range 8).any (threadLate k s c n) || (coreEngines c).any (engineLate k s n)

/-- The first core of the tack with work of a step in `l` left. -/
def firstLate (k : Tack) (s : State) (l : List Nat) : Option Nat :=
  allCores.find? (fun c => (tackCores k).contains c && l.any (fun n => coreLate k s n c))

/-! ## Boundary action 1 (R85 to R93) -/

/-- SLIP (R85): work of stride `r.stride` is late at its closing boundary. -/
def slipStatus (r : Running) (s : State) : State :=
  match firstLate r.tack s [r.stride] with
  | none => s
  | some c => event 0x0180 (item 8 r.stride ++ item 2 c) (modStride (fun t => { t with slips := statInc 32 t.slips }) s)

/-- The measured value of a figure of step `n` (R90). -/
def measured (r : Running) (n : Nat) (f : Figure) : Nat :=
  match r.meas.find? (measIs n f.kind f.unit) with | none => 0 | some m => m.value

/-- The figure matches (R91). -/
def figureOk (r : Running) (n : Nat) (f : Figure) : Bool :=
  if f.exact then decide (measured r n f = f.value) else decide (measured r n f ≤ f.value)

/-- The number of a figure kind in a record: the rows of R89 in order (log 78). -/
def figureNo : FigKind → Nat
  | .issueFc => 0
  | .gaitSwitches => 1
  | .tiles => 2
  | .tokens => 3
  | .bytes => 4
  | .linkBytes => 5

/-- LEDGER_MISMATCH (R93): counted, and an event, or a job fault under LEDGER_POLICY 1. -/
def ledgerMismatch (r : Running) (n : Nat) (f : Figure) (s : State) : State :=
  let d := item 2 (stepIndex r.tack n) ++ item 1 (figureNo f.kind) ++ item 4 f.unit ++ item 4 f.value ++ item 4 (measured r n f)
  let s := modStride (fun t => { t with mismatches := statInc 32 t.mismatches }) s
  if s.stride.policyNow = 1 then jobFault 0x0102 d s else event 0x0184 d s

/-- Step `n`, whose work is complete, is checked against the Ledger or counted as unchecked (R91, R92). -/
def ledgerCheck (r : Running) (n : Nat) (s : State) : State :=
  let s := modRun (fun x => { x with
    openSteps := x.openSteps.erase n, unchecked := x.unchecked.filter (· ≠ n), meas := x.meas.filter (fun m => m.step ≠ n)
    uncheckedCount := x.uncheckedCount + bit01 (x.unchecked.contains n) }) s
  if r.unchecked.contains n then s else
  match (r.tack.ledger.steps.getD (stepIndex r.tack n) []).find? (fun f => !figureOk r n f) with
  | none => s
  | some f => ledgerMismatch r n f s

/-- A request of a run is in flight and counts under R86: a write, or a read of anything but tier L or F. One that waits at the Curb is
not yet in flight (log 78). -/
def inFlight (s : State) (r : Run) : Bool :=
  r.reqs.any (fun q => (q.stage = .admitted || q.stage = .served) &&
    (r.committed || !(match tierOf (regionOf s q.addr) with | some (t, _) => t = 1 || t = 2 | none => false)))

/-- Core `c` holds outstanding credits: a rein's, or a stream's requests in flight (R86). -/
def coreOwed (s : State) (c : Nat) : Bool :=
  s.reinOut.any (fun r => r.1 / 128 = c && r.2.cfg.en && r.2.avail < r.2.cfg.credits) ||
  (coreEngines c).any (fun e => (engOf s e).ags.any (fun a => a.2.runs.any (inFlight s)))

/-- The first core of the job with outstanding credits (R86, R97). -/
def firstOwed (s : State) : Option Nat := allCores.find? (fun c => (jobCores s).contains c && coreOwed s c)

/-- A phase of the job's streams, a RESLOAD or a groom thread waits for a placement page (R258, R260). -/
def pageWait (s : State) : Bool :=
  s.engines.any (fun e => e.2.ags.any (fun a => a.2.runs.any (fun r => r.miss.isSome)) ||
    (match e.2.firing with | some x => x.miss.isSome | none => false)) ||
  s.cores.any (fun c => c.2.threads.any (fun t => match t.2.wait with | .page _ => true | _ => false))

/-- Whole strides in a row without progress while credits are out (R86, R87). What a wait on a page-in stalls is not outstanding: a
page miss never causes the watchdog (R260, log 84). -/
def watchTick (s : State) : State :=
  let owed := (firstOwed s).isSome && !pageWait s
  let q := fun (r : Running) => if jobHeld s then r.quiet else if owed && !r.progressed then r.quiet + 1 else 0
  modRun (fun r => { r with quiet := q r, progressed := false }) s

/-- The fault that the last marker carried applies (R98, R497); a job still installing ends before step 0 (R501, log 94). What a chip did
not see itself it records as the marker names it, by the root (R504). -/
def markerFault (s : State) : State :=
  let c := s.stride.markerCode
  let s' := modStride (fun t => { t with markerCode := 0 }) s
  if c = 0 || !multiChip s then s' else
  match s.job.run with
  | none => s'
  | some r =>
    let s' := if r.code = c then s'
      else jobFault c (if c = 0x0801 then item 2 s.stride.domainRoot ++ item 1 0xFF ++ item 2 (ownChip s) ++ item 8 r.stride else item 8 r.stride) s'
    if r.started then s' else jobOver (modTiers (fun t => { t with uncapped4 := false }) s')

/-- The ending stride of a started job closes. -/
def closeStarted (s : State) : State :=
  match s.job.run with
  | none => s
  | some r =>
    if !r.started then s else
    let s := slipStatus r s
    let s := forEach (r.openSteps.filter (fun n => !(tackCores r.tack).any (coreLate r.tack s n))) (fun n t =>
      match t.job.run with | none => t | some x => ledgerCheck x n t) s
    watchTick s

/-- Boundary action 1 of its own accord: the ending stride closes, and the fault of the last marker applies. -/
def strideClose (s : State) : State := markerFault (closeStarted s)

/-! ## What else a boundary does -/

/-- Writes of OD 0x2200 are in force (R96). -/
def strideInForce (s : State) : State :=
  modStride (fun t => { t with sourceNow := t.source, policyNow := t.policy, factorNow := t.throttleFactor }) s

/-- Other object-dictionary writes that apply at a boundary are in force (R305, R313, R334); quotas follow at action 6. -/
def odInForce (s : State) : State :=
  let s := modSync (fun y => { y with farEnNow := y.farEn }) s
  modTiers (fun t => { t with
    dlL := if t.dlPendL then t.odDlL else t.dlL, dlF := if t.dlPendF then t.odDlF else t.dlF
    dlPendL := false, dlPendF := false }) s

/-- The overshoot that a class carries over a boundary (R266); a class without a cap has none. -/
def overshoot (uncapped : Bool) (c : Curb) : Nat := if c.budgetNow = 0xFFFFFFFF || uncapped then 0 else c.spent - c.budgetNow

/-- A class at the start of a stride: its budget and the overshoot, which may reach the budget at once (R266, R271). -/
def curbStart (uncapped : Bool) (c : Curb) : Curb :=
  let n := overshoot uncapped c
  { c with budgetNow := c.budget, spent := n, carried := n
           exhausted := if c.budget ≠ 0xFFFFFFFF && c.budget ≤ n then statInc 31 c.exhausted else c.exhausted }

/-- CURB_BUDGET_LOAD (R266, R267): every class starts its stride; what waited over the boundary is admitted in one fc. -/
def curbLoad (s : State) : State :=
  modTiers (fun t => { t with
    curbs := smap {} (fun k c => curbStart (k % 8 = 4 && t.uncapped4) c) t.curbs
    orderB := t.order, order := t.order + 1 }) s

/-- USAGE_CHARGE (R446, R447, R451): the stride that ends is charged to the class of the loaded job. -/
def usageCharge (s : State) : State :=
  match s.job.run with
  | none => s
  | some r =>
    let n := (tackEngines r.tack).length
    let s := modJob (fun j => { j with used := smod 0 j.used r.cmd.cls.val (acctAdd n) }) s
    modRun (fun r => { r with
      charged := r.charged + n
      stridesRun := if r.started then r.stridesRun + 1 else r.stridesRun
      termLeft := if r.started then r.termLeft - 1 else r.termLeft
      stride := if r.started then r.stride + 1 else r.stride }) s

/-- Boundaries that a drain, an install, a changeover, and a hard stop's credits have seen (R164, R166, R437, R458). -/
def jobAges (s : State) : State :=
  let held := jobHeld s
  let s := modRun (fun r => if r.draining && !held then { r with drainAge := r.drainAge + 1 } else r) s
  modJob (fun j => { j with
    hardAge := j.hardAge.map (· + 1)
    chgStrides := if j.chgOpen then j.chgStrides + 1 else j.chgStrides
    install := j.install.map (fun i => { i with strides := i.strides + 1 }) }) s

/-- Boundaries that early tokens, resumed address generators, waits, launches and Ostler cores out of service have seen (R160, R259,
R343, R373, R621). -/
def waitAges (s : State) : State :=
  let held := jobHeld s
  let s := { s with
    ostlers := smap {} (fun _ k => if k.online then k else { k with downFor := k.downFor + 1 }) s.ostlers
    engines := smap {} (fun _ g => { g with
      early := g.early.map (fun p => (p.1, p.2 + 1))
      firing := g.firing.map (fun x => if x.resume = 1 then { x with resume := 2 } else x)
      ags := smap {} (fun _ a => { a with
        runs := a.runs.map (fun r => if r.resume = 1 then { r with resume := 2 } else r) }) g.ags }) s.engines
    hitches := smap {} (fun _ h => { h with
      st := smap {} (fun _ t => if t.isOpen then { t with waited := t.waited + 1 } else t) h.st }) s.hitches }
  if held then s else
  modSync (fun y => { y with objs := smap {} (fun _ o => { o with
    waiters := o.waiters.map (fun w => { w with spans := w.spans + 1 }) }) y.objs }) s

/-- The settings that govern L from a boundary on in a one-chip domain: those of the newest change at least 128 fc before it (R81). In a
domain of more chips the newest governs, as its request has been sent (R82). -/
def settle (late : Nat) (t : Stride) : Stride :=
  let k := t.settings.length - late
  { t with inForce := (t.settings.take k).getLastD t.inForce, settings := t.settings.drop k }

/-- What the boundary measured (R78, R532, R546); a sensor that reads 115 °C trips the part. -/
def takeMeasures (b : BoundaryIn) (s : State) : State :=
  let s := modStride (fun t => { settle (if multiChip s then 0 else b.late) t with
    lastLen := t.len, pMeasW := b.pMeasW, pTailW := if 1024 ≤ b.idleFc then b.tailW else t.pTailW }) s
  tripIfHot (noteChange { s with thermal := readSensors b.temps.zipIdx s.thermal })

/-- The boundary counts, STRIDE_OUT pulses for 64 fc, and the window opens at action 1 (R66, R77, R95). -/
def openWindow (s : State) : State :=
  modStride (fun t => { t with count := acctAdd 1 t.count, window := true, act := 1, edgeSeen := false })
    { s with pins := { s.pins with strideOut := 64 } }

/-- A boundary falls now: the stride timer runs (R597, R532), and under source 3 an edge has come or the chip runs free (R75). -/
def boundaryDue (s : State) : Bool :=
  5 ≤ s.boot.stage && !s.thermal.tripped && !(s.stride.sourceNow = 3 && !s.stride.freeRun && !s.stride.edgeSeen)

/-- Links that carry packets count the strides since a lane was last recalibrated in turn (R475). -/
def laneAges (s : State) : State :=
  modLinks (fun k => { k with links := smap {} (fun _ x => if x.state = 2 || x.state = 3 then { x with turnAge := x.turnAge + 1 } else x) k.links }) s

/-- What ages outside the fabric: an authorisation, by the length of the stride that ends (R581, log 91); the rings may be polled again
(R510). -/
def hostAges (s : State) : State :=
  modHost (fun h => { h with polled := false, rotate := (h.rotate + 1) % 16 })
    (modSec (fun k => { k with authAge := if k.auth.isSome then k.authAge + s.stride.lastLen else 0 }) s)

/-- Transfers of Etxia that waited for class 4 go on (R264, R266): a dump, its copy, zero-fills of restored ports, LOADs and STAGEs. -/
def etxiaGoes (s : State) : State := stagesGo (loadsGo (portsZero (dumpGo s)))

/-- What a boundary does while the fabric runs: action 1, and what ages or loads with the stride. -/
def boundaryWork (s : State) : State :=
  let s := strideClose (odInForce s)
  let s := waitAges (jobAges (usageCharge s))
  ostlersRetire (raiseUsed (quietTick (etxiaGoes (curbLoad (laneAges s)))))

/-- STRIDE_BOUNDARY (R66 to R68): the boundary actions that have no command of their own, and the window in which the others
may follow. After a chip fault it counts, sets L, and gives the Curbs a new stride, for the dump and for what BAR2 still reads (R266,
R608). -/
def execStrideBoundary (b : BoundaryIn) (s : State) : Out :=
  .next (if !boundaryDue s then s else
    let s := strideInForce (hostAges (openWindow (takeMeasures b s)))
    if s.chipFault.isSome then dumpGo (curbLoad (rebuildImage (setLen s))) else boundaryWork s)

/-- The step of the issue span that begins is in progress; one of a draining or held job is unchecked (R92, R135, R172). -/
def stepOpen (s : State) : State :=
  let held := jobHeld s
  modRun (fun r =>
    if !r.started || r.openSteps.contains r.stride then r else
    { r with
      avail := r.stride + 1, openSteps := r.openSteps ++ [r.stride]
      unchecked := if r.draining || held then r.unchecked ++ [r.stride] else r.unchecked }) s

/-- ISSUE_SPAN_START (R66, R68): the actions that are left are applied and the window closes. -/
def execIssueSpanStart (s : State) : Out :=
  .next (if !s.stride.window then s else
    let s := if fabricUp s then hitchResume (raiseUsed (openNine s)) else s
    let s := modStride (fun t => { t with window := false, act := 0, markerTack := 0, markerAdvance := false, markerLen := none })
      { s with pins := { s.pins with strideOut := 0 } }
    if fabricUp s then stepOpen s else s)

/-! ## Watchdogs (R87, R88, R152) -/

/-- The record of an engine that waits (R152): ENG_STATE, and the first queue or rein it waits on. -/
def waitRecord (e : Nat) (s : State) : State :=
  let g := gaitOf s e (engOf s e).active.val
  let i := if engWait s e = 1 then (shortQueue s e g).getD 0 else (shortRein s e g).getD 0
  event 0x0281 (item 2 e ++ item 8 (engStateWord s e).toNat ++ item 1 i) s

/-- STRIDE_WATCHDOG (R87, R97, R152, R164): two whole strides without progress; the record gives the second, which the boundary closes
(log 78). In a drain the hard stop follows. -/
def execStrideWatchdog (s : State) : Out :=
  .next (match s.job.run with
    | none => s
    | some r =>
      if !mayAct s 1 || r.quiet < 2 || r.hardStop then s else
      let waits := ((allCores.flatMap coreEngines).filter (fun e => (jobEngines s).contains e &&
        (engWait s e = 1 || engWait s e = 2))).take 64
      let s := jobFault 0x0101 (item 8 (r.stride - 1) ++ item 2 ((firstOwed s).getD 0)) (setAct 1 s)
      let s := forEach waits waitRecord s
      modRun (fun r => { r with
        quiet := 0, hardStop := r.draining, stop := if r.draining then 0x0101 else r.stop
        drainStart := if r.draining then s.stride.count + 1 else r.drainStart }) s)

/-- BOUNDARY_TIMER (R88, R622): `elapsed` fc without a boundary; the check pauses while the Tumbler restarts. -/
def execBoundaryTimer (elapsed : Nat) (s : State) : Out :=
  .next (if s.boot.stage < 5 || s.boot.restart || elapsed ≤ 2 * s.stride.len + s.stride.leadNow then s else chipStop 0x0105 [] false s)

/-! ## Markers (R72 to R75, R82, R98, R157, R453, R493) -/

/-- Chip of the rack and slot of `head`, `n` trays further round. -/
def trayOf (head own n : Nat) : Nat := head / 128 * 128 + (head / 4 + n) % 32 * 4 + own % 4

/-- Chips of a column from tray `a` to tray `b` beyond that of `head` are all of the group. -/
def columnIn (g : List Nat) (head own a b : Nat) : Bool :=
  (List.range (b + 1 - a)).all (fun i => g.contains (trayOf head own (a + i)))

/-- A tray `n` beyond that of `head` is reached the rising way: the shorter one, unless a chip on it is not of the group (R493, log 94). -/
def risesTo (g : List Nat) (head own n : Nat) : Bool :=
  columnIn g head own 1 n && (n ≤ 16 || !columnIn g head own n 31)

/-- A tray `n` beyond that of `head` is reached the falling way. -/
def fallsTo (g : List Nat) (head own n : Nat) : Bool :=
  columnIn g head own n 31 && !risesTo g head own n

/-- Chips to which this chip sends the marker on, each with the link (R72, R493): within its rack X both ways from the lowest chip of
the group there, then Y both ways, to chips of the group alone; the root also over Z0 to the lowest chip of the group in each other
rack. -/
def markerLinks (own root : Nat) (g : List Nat) : List (Nat × Nat) :=
  let head := (g.filter (fun x => x / 128 = own / 128)).foldl Nat.min own
  let dx := (own % 4 + 4 - head % 4) % 4
  let dt := (own / 4 % 32 + 32 - head / 4 % 32) % 32
  let right := own / 4 * 4 + (own + 1) % 4
  let left := own / 4 * 4 + (own + 3) % 4
  (if dt = 0 && dx < 2 && g.contains right then [(right, 0)] else []) ++
  (if dt = 0 && dx = 0 && g.contains left then [(left, 1)] else []) ++
  (if dt = 0 && dx = 3 && !g.contains (head / 4 * 4 + (head + 1) % 4) && g.contains left then [(left, 1)] else []) ++
  (if dt < 31 && risesTo g head own (dt + 1) then [(trayOf head own (dt + 1), 3)] else []) ++
  (let n := (dt + 31) % 32
   if n ≠ 0 && fallsTo g head own n then [(trayOf head own n, 4)] else []) ++
  (if own = root then
    ((g.map (fun x => x / 128)).eraseDups.filter (fun r => r ≠ own / 128)).map (fun r =>
      ((g.filter (fun x => x / 128 = r)).foldl Nat.min (r * 128 + 127), 2)) else [])

/-- The marker goes on to the next chips of the tree, each link adding its delay (R72); a link that carries no packet loses it. -/
def markerForward (m : Marker) (g : List Nat) (root : Nat) (s : State) : State :=
  forEach ((markerLinks (ownChip s) root g).filter (fun x => linkLive s x.2)) (fun x t =>
    let m := { m with delay := m.delay + (linkOf t x.2).delay }
    linkSend (jobStride t) x.2 none 0 (stridePacket t x.1 0 m) (emit (.stride x.1 0 m) t)) s

/-- The group of which this chip is: that of the running job, else that of the job to be installed, else that of the tack a marker
names; empty where there is none. -/
def markerGroup (s : State) (id : Nat) : List Nat :=
  let named := fun (id : Nat) => match slotWith s id false with
    | none => []
    | some k => match (cacheSlot s k).tack with | none => [] | some t => if t.groupChips = 1 then [] else groupOf s t
  if multiChip s then (match s.job.run with | none => [] | some r => r.group)
  else match s.job.chosen with
    | some j => if groupJob s j then named j.tackId else named id
    | none => named id

/-- A group job waits to be installed (R157). -/
def groupWaits (s : State) : Bool := match s.job.chosen with | none => false | some j => groupJob s j

/-- The root schedules an epoch advance for the next boundary (R157, R158): the install of a group job, once no job is loaded and every
RET_COUNT is 0, or a hard stop that is due there. That the other chips' RET_COUNT is 0 too Etxia learns by messages of its own, which the
spec does not give (log 94). -/
def advanceNext (s : State) : Bool :=
  (groupWaits s && s.job.run.isNone && retHome s && !s.job.chgOpen) ||
  (multiChip s && match s.job.run with | none => false | some r => r.hardStop && decide (r.drainStart ≤ s.stride.count + 1))

/-- What the marker that the root sends says, on the root too; a fault that no marker carries is none (R28, R98, R497). -/
def markerSays (m : Marker) (s : State) : State :=
  modStride (fun t => { t with
    markerLen := some m.len, markerCode := if domainFault m.code then m.code else t.markerCode, markerTack := m.tackId
    markerAdvance := m.advance }) s

/-- The job-relative number of the stride that begins at the next boundary; 0 until step 0 has begun (R72, log 78). -/
def nextStride (s : State) : Nat := match s.job.run with | none => 0 | some r => if r.started then r.stride + 1 else 0

/-- This chip sends the markers of its domain (R71, R72): the root of the running group, or of the one that is to run next. -/
def sendsMarkers (s : State) : Bool :=
  if multiChip s then s.stride.root
  else (s.stride.sendTack ≠ 0 || groupWaits s) && rootOf (markerGroup s s.stride.sendTack) = ownChip s

/-- MARKER_SEND (R72, R82, R98, R157, R453): MARKER_LEAD_FC before a boundary, on the root of a domain or of a group that is to
run next. -/
def execMarkerSend (s : State) : Out :=
  .next (if !fabricUp s || s.stride.window || !sendsMarkers s then s else
    let g := markerGroup s s.stride.sendTack
    let m : Marker := {
      stride := nextStride s
      len := s.stride.requests.foldl (fun n r => Nat.max n r.2) s.stride.lenReq
      delay := 0, advance := advanceNext s, code := s.stride.sendCode, tackId := s.stride.sendTack }
    let s := markerForward m g (ownChip s) (markerSays m s)
    modStride (fun t => { t with sendCode := 0, sendTack := 0, aligned := t.sourceNow ≤ 1 }) s)

/-- A valid marker is the source of this chip's boundaries again (R72, R73, R75). -/
def markerAlign (m : Marker) (phase : Int) (s : State) : State :=
  if 2 ≤ s.stride.sourceNow then s else
  let s' := if s.stride.fallback then event 0x0181 [] s else s
  modStride (fun t => { t with
    missing := 0, fallback := false, freeRun := false, aligned := true, phaseErr := phase
    placeAt := some ((t.leadNow : Int) - m.delay) }) s'

/-- The fields of a STRIDE body (R483). -/
def bodyMarker (b : BitVec 256) : Marker :=
  let f := fun (byte n : Nat) => (b.extractLsb' (8 * byte) (8 * n)).toNat
  { stride := f 0 8, len := f 8 4, delay := f 0x0C 4, advance := b.getLsbD 136, code := f 0x12 2, tackId := f 0x14 8 }

/-- SUBTYPE of a STRIDE body: 0 MARKER, 1 LEN_REQ, 2 EVENT (R483). -/
def bodyKind (b : BitVec 256) : Nat := (b.extractLsb' 128 8).toNat

/-- A reserved field of a STRIDE body is not 0 (R483). -/
def bodyRsvd (b : BitVec 256) : Bool := 2 < bodyKind b || b.extractLsb' 137 7 ≠ 0 || b.extractLsb' 224 32 ≠ 0

/-- A STRIDE packet of a kind is taken up by `f`; one with a reserved field is discarded and counted (R482, R483). -/
def strideBody (kind : Nat) (b : BitVec 256) (f : Marker → State → State) (s : State) : State :=
  if !fabricUp s then s
  else if bodyRsvd b then modMgmt (fun m => { m with badPackets := statInc 32 m.badPackets }) s
  else if bodyKind b ≠ kind then s else f (bodyMarker b) s

/-- A marker reaches a chip of its domain: its own boundary is placed and the marker goes on (R72, R73, R75, R82, R98, R157, R453). The
root, and a chip of no group, is not to be reached. -/
def takeMarker (phase : Int) (m : Marker) (s : State) : State :=
  let g := markerGroup s m.tackId
  if g.length < 2 || rootOf g = ownChip s then s
  else markerForward m g (rootOf g) (markerAlign m phase (markerSays m s))

/-- MARKER_RECEIVE (R72, R73, R75, R82, R98, R157, R453): `phase` is the correction that the marker makes. -/
def execMarkerReceive (body : BitVec 256) (phase : Int) (s : State) : Out := .next (strideBody 0 body (takeMarker phase) s)

/-- The fault code that the root's next marker announces (R98, R497): the first reported. -/
def announce (code : Nat) (s : State) : State :=
  modStride (fun t => { t with sendCode := if t.sendCode = 0 then code else t.sendCode }) s

/-- MARKER_LOSS (R75, R97, R98): an expected marker is missing; from the fourth in a row on the chip changes to the distributed clock
under source 0, and under source 1 takes STRIDE_ALIGN_LOST, which an EVENT packet tells the root (R483, R497), and runs free. -/
def execMarkerLoss (s : State) : Out :=
  .next (if !fabricUp s || !multiChip s || s.stride.root || 2 ≤ s.stride.sourceNow then s else
    let s := modStride (fun t => { t with missing := t.missing + 1 }) s
    if s.stride.missing < 4 then s
    else if s.stride.sourceNow = 0 then
      (if s.stride.fallback then s else event 0x0181 [] (modStride (fun t => { t with fallback := true, aligned := false }) s))
    else if s.stride.freeRun then s
    else sendStride s.stride.domainRoot 2 { stride := jobStride s, code := 0x0103 }
      (jobFault 0x0103 (item 8 (jobStride s)) (modStride (fun t => { t with freeRun := true, aligned := false }) s)))

/-- A length request reaches the root (R82). -/
def takeLenReq (chip : BitVec 16) (m : Marker) (s : State) : State :=
  if multiChip s && s.stride.root then
    modStride (fun t => { t with requests := sset 0 t.requests chip.toNat (Nat.min m.len lenMax) }) s
  else s

/-- LEN_REQ_RECEIVE (R82): the length a chip of the domain requests reaches the root. -/
def execLenReqReceive (chip : BitVec 16) (body : BitVec 256) (s : State) : Out := .next (strideBody 1 body (takeLenReq chip) s)

/-- A chip of a group has the tack STAGED (R453). -/
def stagedReport (chip tackId : Nat) (s : State) : State :=
  if !fabricUp s || s.job.groupReady.contains (chip, tackId) then s
  else modJob (fun j => { j with groupReady := j.groupReady ++ [(chip, tackId)] }) s

/-- An EVENT packet: a fault of the domain, LINK_DOWN or STRIDE_ALIGN_LOST, which the root announces in its next marker (R98, R497); one
with a TACK_ID and no fault reports that tack STAGED (R453, log 94). -/
def takeEvent (chip : BitVec 16) (m : Marker) (s : State) : State :=
  if m.code = 0 && m.tackId ≠ 0 then stagedReport chip.toNat m.tackId s
  else if multiChip s && s.stride.root && domainFault m.code then announce m.code s
  else s

/-- STRIDE_EVENT_RECEIVE (R98, R483, R497). -/
def execStrideEventReceive (chip : BitVec 16) (body : BitVec 256) (s : State) : Out := .next (strideBody 2 body (takeEvent chip) s)

/-- SLOT_STAGED_REPORT (R453). -/
def execSlotStagedReport (chip : BitVec 16) (tackId : Nat) (s : State) : Out := .next (stagedReport chip.toNat tackId s)

/-! ## Other sources and pins -/

/-- STRIDE_IN_EDGE (R75, R77): `sinceLast` fc after the last accepted edge. -/
def execStrideInEdge (sinceLast : Nat) (s : State) : Out :=
  .next (if s.stride.sourceNow ≠ 3 || s.boot.stage < 5 || s.thermal.tripped then s
    else if sinceLast < 2048 then event 0x0182 [] s
    else modStride (fun t => { t with edgeSeen := true, freeRun := false, aligned := true })
      { s with pins := { s.pins with strideOut := 64 } })

/-- STRIDE_IN_TIMEOUT (R75): 4 × L without an edge. -/
def execStrideInTimeout (sinceLast : Nat) (s : State) : Out :=
  .next (if s.stride.sourceNow = 3 && 4 * s.stride.len ≤ sinceLast then
      modStride (fun t => { t with freeRun := true, aligned := false }) s
    else s)

/-- SYNC0_EVENT (R540, R544): the event's system time reaches the stride logic, and the input image is rebuilt. -/
def execSync0Event (time : Word) (s : State) : Out :=
  .next (rebuildImage (modMgmt (fun m => { m with dcTime := time.toNat }) s))

/-- THROTTLE_N_CHANGE (R80, R81, R82, R530). -/
def execThrottleNChange (low : Bool) (s : State) : Out :=
  .next (noteChange { s with pins := { s.pins with throttleN := !low } })

/-- POWER_FAIL_N_FALL (R80, R546, R557, R605): counted, recorded, and the journal entry written. -/
def execPowerFailNFall (dcTime : Word) (s : State) : Out :=
  .next (if !s.pins.powerFailN then s else
    let s := modMgmt (fun m => { m with powerFails := m.powerFails + 1 }) (noteChange { s with pins := { s.pins with powerFailN := false } })
    journalWrite dcTime.toNat (event 0x0A84 (item 1 0) s))

/-- POWER_FAIL_N_RISE (R80, R557, R605). -/
def execPowerFailNRise (s : State) : Out :=
  .next (if s.pins.powerFailN then s else event 0x0A84 (item 1 1) (noteChange { s with pins := { s.pins with powerFailN := true } }))

end Sys2Proof.Machine
end

