-- ==== Sys2Proof/Machine/TierRead.lean ====
section
/-!
DEFINITION. What a read of a stored unit brings its reader (R261, R301 to R307, R379, R387, R628), and the end of a port's restore
(R278).
-/
namespace Sys2Proof.Machine

/-! ## Where a unit lies -/

/-- Offset of a scratchpad address in its core's slot. -/
def spadOff (s : State) (a : Nat) : Nat := match regionOf s (plainAddr s a) with | .spad _ o => o | _ => 0

/-- The store of a unit as R315's records name it (log 83): the instance of MEM_ERR for a tier, 48 for any other store. -/
def storeNo (s : State) (a : Nat) : Nat := if isTier s a then portOfAddr a else 48

/-- What the record of a memory code says of the unit at `a` (R315): core, bank and word in scratchpad; else port and address, and
on tier F the physical block and the retry levels tried. -/
def memDetail (s : State) (code a retries : Nat) : List Byte :=
  match regionOf s (plainAddr s a) with
  | .spad c o => item 2 c ++ item 1 (o / 128 % 32) ++ item 6 (o / 16 * 16)
  | _ => item 1 (portOfAddr a) ++ item 6 a ++ if code = 0x0503 then item 4 (physBlock s a) ++ item 1 (Nat.min retries 4) else []

/-! ## Streams -/

/-- A LOAD request of a stream returns its data, or is lost to a code with its details (R261, R306, R307); one past its deadline has had its
outcome. -/
def streamReadEnd (e : Nat) (ag a : Nat) (lost : Option (Nat × List Byte)) (s : State) : State :=
  match reqOut s e ag a with
  | none => s
  | some (i, q) =>
    match lost with
    | some (code, detail) => reqEnd e ag i q .returned (List.replicate q.bytes 0#8) (loadLost e ag i q code detail s)
    | none => reqEnd e ag i q .returned (readBytes s (plainAddr s a) q.bytes) s

/-- The request of a stream at an address has been served by its port. -/
def streamServed (s : State) (e : Nat) (ag a : Nat) : Bool :=
  match reqOut s e ag a with | some (_, q) => q.stage = .served | none => false

/-- A stream instruction's read of scratchpad failed (R253, R304): the run is dropped, the core halts. -/
def streamSpadLost (e ag : Nat) (post : Bool) (a : Nat) (s : State) : State :=
  match runIndex s e ag post with
  | none => s
  | some i =>
    let r := runAt s e ag i
    let pc := ((gaitOf s e r.slot.val).ag ⟨ag % 4, Nat.mod_lt _ (by decide)⟩).off + 16 * r.pcIdx
    let s' := modAg e ag (fun g => { g with runs := g.runs.eraseIdx i }) s
    spadRefuse (coreOfEng e) (engOwner s e r.step) (e % 8) 0x0505 pc (spadOff s a) s'

/-! ## Grooms and engines -/

/-- The word of an LD failed (R304, R315): MEM_SCALAR_LOST; the PC had gone on. Of a session entry the other copy serves (R387). -/
def scalarLost (c t a : Nat) (s : State) : State :=
  match (threadOf s c t).wait, regionOf s a with
  | .mem _ _, .session _ _ => s
  | .mem _ x, _ =>
    if x / 8 ≠ a / 8 then s else
    haltCore c t 0 0x0506 ((threadOf s c t).pc - 8) 0 0
      (jobFault 0x0506 (item 2 c ++ item 1 (spadOff s a / 128 % 32) ++ item 6 (spadOff s a / 16 * 16) ++ item 6 a)
        (modThread c t (fun h => { h with wait := .none }) s))
  | _, _ => s

/-- The fetch of the instruction at a thread's PC failed (R304): it may take 32 bytes (R178). -/
def fetchLost (c t a : Nat) (s : State) : State :=
  let pc := (threadOf s c t).pc
  if threadReady s c t && pc / 16 ≤ spadOff s a / 16 && spadOff s a < pc + 32 then spadRefuse c t 0 0x0505 pc (spadOff s a) s else s

/-- The scales of line `l`, block `b` lie in the unit of 16 bytes at `u` (R110). -/
def scaleIn (u base sgran l nb b : Nat) : Bool :=
  let a := base + 2 * (if sgran = 0 then 0 else if sgran = 1 then l else l * nb + b)
  decide (a < u + 16 ∧ u < a + 2)

/-- Blocks of a tile that an instruction accumulates (R184, R187). -/
def tileBlocks (h : HeldTile) : Nat := if h.kind = .tout then 0 else ceilDiv h.k 32

/-- Tile (n, m) reads the unit of 16 bytes at `u` in a stage of its work (R184): 0 the input tags, b + 1 block b's activations and
scales, one past the last block the descriptors. Masked rows and columns are not read (log 79). -/
def stageReads (h : HeldTile) (u : Nat) (p : Nat × Nat) (stage : Nat) : Bool :=
  let (n, m) := p
  let nb := tileBlocks h
  let within := fun (base k : Nat) => decide (base < u + 16 ∧ u < base + k)
  let rows := (tileRows h m).map (fun i => 16 * m + i)
  let cols := (tileCols h n).map (fun j => 32 * n + j)
  if stage = 0 then h.f.tags && rows.any (fun r => within (h.tagIn + 2 * r) 2)
  else if stage ≤ nb then
    let b := stage - 1
    let k := Nat.min 32 (h.k - 32 * b)
    rows.any (fun r =>
      within (h.aBase + r * h.aPitch + (if h.f.afmt = 0 then 32 * b else 16 * b)) (if h.f.afmt = 0 then k else ceilDiv k 2) ||
      scaleIn u h.saBase h.f.sgranA.toNat r nb b) ||
    cols.any (fun c => scaleIn u h.swBase h.f.sgranW.toNat c nb b)
  else !h.f.keep && cols.any (fun c => within (h.rqBase + 4 * (if h.f.rqCol then c else 0)) 4)

/-- The first tile of the loop that reads the unit of address `a`, as its place and the stage (R184, R628). -/
def failPoint (h : HeldTile) (a : Nat) : Option (Nat × Nat) :=
  (tileList h).zipIdx.findSome? (fun x =>
    ((List.range (tileBlocks h + 2)).find? (stageReads h (a / 16 * 16) x.1)).map (fun st => (x.2, st)))

/-- A tile operand read failed (R628): what was written before it stays, the instruction is abandoned. -/
def tileLost (e a : Nat) (s : State) : State :=
  match (engOf s e).firing with
  | none => s
  | some x => match x.tile with
    | none => s
    | some h =>
      if h.kind = .resload || tileEmpty h || !runsCommitted s e x then s else
      match failPoint h a with
      | none => s
      | some (i, st) =>
        let part := if st = 0 then none else ((tileList h)[i]?).map (fun p => (p, st - 1))
        spadRefuse (coreOfEng e) h.thread.val (e % 8) 0x0505 h.pc (spadOff s a)
          (abandonFiring e x (tileRunList e h x.step ((tileList h).take i) part false s))

/-- A vector instruction is accepted: its 32 bytes are backed and no check refuses it (R202, R207, R212). -/
def vecAccepted (s : State) (k : VecAt) (op : VecOp) (v : VecF) : Bool :=
  spadBacked s (coreOfEng k.e) (k.g.vec.off + 32 * k.x.vecIdx) 32 && !(decide (256 ≤ k.x.vecIdx) && op != .vend) &&
  !vecInvalid k (runCompat s) op v && (vecAddr s k op v).isNone

/-- A vector instruction is abandoned at a failing read (R628). -/
def vectorAbandon (k : VecAt) (a : Nat) (s : State) : State :=
  spadRefuse (coreOfEng k.e) (engOwner s k.e k.x.step) (k.e % 8) 0x0505 (k.g.vec.off + 32 * k.x.vecIdx) (spadOff s a)
    (abandonFiring k.e k.x s)

/-- A read of the vector instruction in progress failed (R628): of its own 32 bytes, or of an operand, where the groups of elements before
the first one that reads the unit stay written and their fc are issue fc (log 23). -/
def vectorLost (e a : Nat) (op : VecOp) (v : VecF) (s : State) : State :=
  match vecAt s e with
  | none => s
  | some k =>
    let u := spadOff s a / 16 * 16
    if inUnit u (k.g.vec.off + 32 * k.x.vecIdx) 32 then vectorAbandon k a s
    else if op = .vend || !vecAccepted s k op v then s
    else match vecFailAt s k op v u with
      | none => s
      | some rc => vectorAbandon k a
          (writeOutAll k v (vecOutBefore s k op v rc) (measAdd k.x.step .issueFc k.e (vecFcBefore op v rc) s))

/-- The request of the RESLOAD in progress on an engine that its port has served for address `a`. -/
def reloadOut (s : State) (e a : Nat) : Option Req :=
  match (engOf s e).firing with
  | none => none
  | some x => x.reload.find? (fun q => q.stage = .served && decide (q.addr ≤ a ∧ a < q.addr + q.bytes))

/-- A request of a RESLOAD returns (R188). -/
def resloadReturn (e a : Nat) (s : State) : State :=
  match reloadOut s e a, ((engOf s e).firing.bind (fun x => x.tile)) with
  | some q, some h =>
    resloadLand e h q.off (readBytes s q.addr q.bytes) (modFiring e (fun x => { x with reload := x.reload.erase q }) s)
  | _, _ => s

/-- A RESLOAD's source failed at `a` (R304, R628): bytes of requests that returned before are resident. Pieces of a scratchpad
source are read in order, those before the failing one land. -/
def resloadLost (e a code : Nat) (s : State) : State :=
  match (engOf s e).firing with
  | none => s
  | some x => match x.tile with
    | none => s
    | some h =>
      if h.kind ≠ .resload then s
      else if isTier s a then
        (if (reloadOut s e a).isSome then resloadAbandon e x h 0x0402 (item 2 e ++ item 1 3 ++ item 2 code ++ item 6 a) s else s)
      else
        let n := Nat.max h.src (a / 256 * 256) - h.src
        if a < h.src || h.src + h.len ≤ a || n < x.asked then s else
        spadRefuse (coreOfEng e) h.thread.val (e % 8) 0x0505 h.pc (spadOff s a)
          (abandonFiring e x (resloadLand e h x.asked (readBytes s (plainAddr s (h.src + x.asked)) (n - x.asked)) s))

/-! ## The read returns -/

/-- A store is Etxia's own memory (R610): an Ostler core's SRAM, or an Etxia H region. -/
def etxiaOwn (s : State) (store a : Nat) : Bool := (decide (40 ≤ store) && decide (store < 48)) || (decide (store < 8) && reservedAt s a)

/-- MEM_CTRL_LOST (R304, R315, R610): the store and the address; the Tumbler writes the dump where Etxia's own memory failed. -/
def ctrlLost (store a : Nat) (s : State) : State := chipStopBy (etxiaOwn s store a) 0x0507 (item 1 store ++ item 6 a) true s

/-- The reader's fault for a read of `a` whose unit at `u` was found bad (R304); a failed port has its own (R277). -/
def readLost (r : Reader) (a u : Nat) (x : Ecc) (retries : Nat) (s : State) : State :=
  let code := memCode s x u
  match r with
  | .streamLoad e ag =>
    whenB (streamServed s e.val ag.val a) (streamReadEnd e.val ag.val a (some (code, memDetail s code u retries))) s
  | .scalarLoad c t => scalarLost c.val t.val a s
  | .fetch c t => fetchLost c.val t.val u s
  | .tileOperand e => tileLost e.val u s
  | .vectorOperand e op v => vectorLost e.val u op v s
  | .streamSpad e ag post => streamSpadLost e.val ag.val post u s
  | .resload e => resloadLost e.val u code s
  | .etxia => ctrlLost (storeNo s u) u s
  | .ostler o => ctrlLost (40 + o.val) u s
  | .pageIn => s
  | .host => s
  | .hitchTable h => hitchTableLost h.val (u % 65536) s
  | .hitchRow h i row => hitchRowLost h.val i.val row a code (memDetail s code u retries) s
  | .session => s

/-- Where a unit's error is counted (R301): an Ostler SRAM's own counters; a Hitch table or a session copy in the totals alone. -/
def readNote (r : Reader) (a : Nat) (x : UnitErr) (s : State) : State :=
  let e := unitEcc s a x
  match r with
  | .ostler o => noteSram e o.val a s
  | .hitchTable _ | .session => if e = .clean then s else countEcc (e = .corrected) s
  | _ => unitFound x a s

/-- Bytes of the request of a stream or RESLOAD at an address; 64 for any other read. -/
def readSize (r : Reader) (a : Nat) (s : State) : Nat :=
  let size := fun (l : List Req) => (l.find? (fun q => q.addr = a)).map (fun q => q.bytes)
  match r with
  | .streamLoad e ag => ((agOf s e.val ag.val).runs.findSome? (fun r => size r.reqs)).getD 64
  | .resload e => ((engOf s e.val).firing.bind (fun x => size x.reload)).getD 64
  | _ => 64

/-- The ports note that a read of local memory has ended (R284, R286). -/
def readTouch (r : Reader) (a : Nat) (how : ReadEnd) (s : State) : State :=
  match r with
  | .ostler _ | .hitchTable _ | .session => s
  | _ => match how with
    | .portFailed => pageReadDrop a s
    | .data _ => portTouch a (readSize r a s) s

/-- A port that failed takes with it the deadlines' reads of a stream, and the second copy of a session entry (R306, R387). -/
def readPortFailed (r : Reader) (a : Nat) (s : State) : State :=
  match r with
  | .streamLoad e ag =>
    let code := memCode s .code a
    whenB (deadlineOf s a).isSome (streamReadEnd e.val ag.val a (some (code, memDetail s code a 0))) s
  | .session => ctrlLost 48 a s
  | _ => s

/-- A read brings its data. -/
def readGood (r : Reader) (a : Nat) (s : State) : State :=
  match r with
  | .streamLoad e ag => whenB (streamServed s e.val ag.val a) (streamReadEnd e.val ag.val a none) s
  | .resload e => resloadReturn e.val a s
  | _ => s

/-- A read ends as `how` for its reader: every unit's error is counted where it lies, the first uncorrectable one is its fault. -/
def readEnd (r : Reader) (a : Nat) (how : ReadEnd) (s : State) : State :=
  match how with
  | .portFailed => readPortFailed r a s
  | .data errs =>
    let units := unitsIn s (plainAddr s a) (readSize r a s) errs
    let bad := badUnit s units
    let s := forEach units (fun u => readNote r u.1 u.2) s
    match bad with
    | some (u, x, n) => readLost r a u x n s
    | none => readGood r a s

/-- TIER_READ_RETURN (R261, R301 to R307, R387, R628): the reader gets the data or its fault. A corrected sector's write-back leaves memory
as it is, whichever write prevails (R302). -/
def execTierReadReturn (r : Reader) (addr : BitVec 48) (how : ReadEnd) (_overwritten : Bool) (s : State) : Out :=
  .next (if !fabricUp s then s else readEnd r addr.toNat how (readTouch r addr.toNat how s))

end Sys2Proof.Machine
end

