-- ==== Sys2Proof/Machine/Reset.lean ====
section
/-!
DEFINITION. Resets and what survives them (R563, R602 to R604), and start-up (R38, R464, R597 to R601).
-/
namespace Sys2Proof.Machine

/-! ## Cold reset -/

/-- The NOR's contents with start-up and the image update at their Reset values (R604, R623). -/
def bootReset (cause : Nat) (b : Boot) : Boot :=
  { b with
    stage := 0, cause := cause, code := 0, stopped := false, fellTumbler := false, fellConfig := false, imgState := 0, imgErr := 0
    segments := 0, rolling := none, restart := false, restartDue := false
    target := if cause = 1 then 0 else b.target }

/-- The dumps and the journal stay; a dump in progress is abandoned (R604, R613). -/
def dumpsReset (cold : Bool) (d : Dumps) : Dumps :=
  { d with writing := false, tumblerOwns := false, onF := false, copying := false, left := []
           source := if cold then 0 else d.source, offset := if cold then 0 else d.offset }

/-- The tiers at a cold reset: the quotas' defaults are those of the board (R313), the block map stays (R281, log 82). -/
def boardTiers (s : State) : Tiers :=
  let l := 16 * s.board.lpGib * 960 - 1024
  let f := 16 * s.board.nandGib - 16
  { quotaL := l, quotaLNow := l, quotaF := f, quotaFNow := f, blocks := s.tiers.blocks }

/-- COLD_RESET (R602, R604): everything at its Reset value but what the fuses, the board, the NOR and the memory devices hold. What
tiers H and the scratchpads hold is zero-filled by the changeover that start-up runs (R458, R464). In TIO mode the tier keys are gone,
so tiers L and F no longer read as they did (R310). -/
def coldState (s : State) : State :=
  { State.reset with
    pending := s.pending, out := s.out, mem := s.mem, free := s.free
    scr := if s.tiers.tio then (newKey s).scr else s.scr
    fuses := s.fuses, board := s.board
    pins := { s.pins with porstN := true, wrstN := true, thermtripN := true, strideOut := 0 }
    thermal := { s.thermal with tripped := false }
    boot := bootReset 1 s.boot
    dumps := dumpsReset true s.dumps
    tiers := boardTiers s
    stride := { inForce := { nowSettings s with budget := 1150 } }
    host := { width := 0 } }

/-- COLD_RESET (R602). -/
def execColdReset (s : State) : Out := .next (coldState s)

/-! ## Warm reset -/

/-- Records that closed gaps of a bank count (R561). -/
def gapCounts (l : List TallyRec) : Nat := (l.map (fun r => if r.type = 3 then numLE (r.detail.take 4) else 0)).foldl (· + ·) 0

/-- The Tally FIFO after a warm reset (R563): both banks empty but for the GAP record that counts what was discarded. -/
def tallyWarm (count : Nat) (t : Tally) : Tally :=
  let n := (t.seq - t.released).toNat
  let was := gapCounts t.bank0.recs + gapCounts t.bank1.recs + (match t.gap with | none => 0 | some g => g.2.2)
  { bank0 := { recs := [gapRec (t.released, count, n)] }, seq := t.seq, released := t.released, gaps := 1, reader := t.reader
    records := t.records, dropped := acctAdd (n - was) t.dropped, last := t.last }

/-- A core after a warm reset (R604, R614, R615, R333): out of service; what the Farrier knows stays. -/
def coreWarm (k : Core) : Core := { svc := k.svc + 1, loaded := k.loaded, far := k.far }

/-- An Ostler core after a warm reset: out of service (R615). -/
def ostlerWarm (k : Ostler) : Ostler :=
  { svc := k.svc + 1, loaded := k.loaded, region := k.region, passes := k.passes, retire := k.retire, spares := k.spares
    tested := k.tested }

/-- A port after a warm reset: trained again unless failed or absent (R277, R312, R597). -/
def portWarm (p : Port) : Port :=
  { state := if p.state = 4 || p.state = 0 then p.state else 1, cap := p.cap, rate := p.rate }

/-- A session after a warm reset: its last commit, IDLE (R603, R604). -/
def sessWarm (e : Session) : Session := if e.state = 0 then e else { e with state := 1 }

/-- A cache slot after a warm reset (R604): ACTIVE becomes STAGED, and an image half staged is lost. -/
def slotWarm (c : CacheSlot) : CacheSlot := if c.state = 3 then { c with state := 2 } else if c.state = 1 then {} else c

/-- A link after a warm reset (R502, R604): LANES_RETIRED and DOWN_EVENTS stay. -/
def linkWarm (k : Link) : Link := { retired := k.retired, downs := k.downs }

/-- OD entries of the stride unit, the stride counter (R26, R604). -/
def strideWarm (t : Stride) (now : Settings) (own tail : Nat) : Stride :=
  { count := t.count, inForce := now, source := t.source, sourceNow := t.sourceNow, domainRoot := own, markerLead := t.markerLead, policy := t.policy
    policyNow := t.policyNow, fixedPermit := t.fixedPermit, floorW := t.floorW, throttleFactor := t.throttleFactor
    factorNow := t.factorNow, pTailW := tail }

/-- OD entries of the tiers, keys and totals (R26, R313, R604). -/
def tiersWarm (t : Tiers) : Tiers :=
  { ports := smap {} (fun _ p => portWarm p) t.ports, blocks := t.blocks
    odDlL := t.odDlL, odDlF := t.odDlF, dlPendL := t.odDlL ≠ 4096, dlPendF := t.odDlF ≠ 262144
    keyGen := t.keyGen, fEn := t.fEn, lEn := t.lEn, tio := t.tio, pageIns := t.pageIns, corrTotal := t.corrTotal
    uncorrTotal := t.uncorrTotal, quotaH := t.quotaH, quotaL := t.quotaL, quotaF := t.quotaF, quotaHNow := t.quotaHNow
    quotaLNow := t.quotaLNow, quotaFNow := t.quotaFNow, shareHitch := t.shareHitch, shareEtxia := t.shareEtxia
    shareHost := t.shareHost, shareFarrier := t.shareFarrier }

/-- TENANT_ID, CHG_JOURNAL, WEIGHT and USED (R463, R465, R604). -/
def jobWarm (j : Job) : Job :=
  { status := j.status, weights := j.weights, used := j.used, tenant := j.tenant, chg := j.chg, changeovers := j.changeovers
    clientSelect := j.clientSelect }

/-- OD entries of the management unit (R26, R555); its SEQ counters, RM_CYCLE among them, restart (R22). -/
def mgmtWarm (m : Mgmt) : Mgmt :=
  { portA := m.portA, portB := m.portB, budget := m.budget, rack := m.rack, watchdogMs := m.watchdogMs
    wardPending := m.wardPending, dcTime := m.dcTime }

/-- Sessions, slots and pools that outlive a warm reset (R389, R604). -/
def serveWarm (v : Serve) : Serve :=
  { sessions := smap {} (fun _ e => sessWarm e) v.sessions, used := v.used, poolPages := v.poolPages, recent := v.recent
    pools := v.pools, freeing := v.freeing.map (fun f => { f with wave := 0, quiet := some (f.quiet.getD 0) }) }

/-- Every core, with its image under `f`. -/
def allCoresTo (f : Core → Core) (m : Sparse Core) : Sparse Core := allCores.foldl (fun m c => smod {} m c f) m

/-- An engine after a warm reset: its AGs' byte counts, which run from a cold reset (R271). -/
def engineWarm (g : Engine) : Engine := { ags := smap {} (fun _ a => ({ bytes := a.bytes } : Ag)) g.ags }

/-- WARM_RESET from stage 5 on, or of a warm start-up (R229, R332, R602 to R604): the job ends without a drain, its objects as at
any job end (R418). -/
def warmState (s : State) : State :=
  let s := releaseObjects s
  { State.reset with
    pending := s.pending, out := s.out, mem := s.mem, free := s.free, scr := s.scr, fuses := s.fuses, board := s.board
    pins := { s.pins with wrstN := true, strideOut := 0 }
    thermal := s.thermal
    boot := bootReset 2 s.boot
    dumps := dumpsReset false s.dumps
    bindings := s.bindings, spares := s.spares
    ostlers := (List.range 8).foldl (fun m n => smod {} m n ostlerWarm) s.ostlers
    stride := strideWarm s.stride (nowSettings s) (ownChip s) s.fuses.pTailW
    job := jobWarm s.job
    cores := allCoresTo coreWarm s.cores
    engines := smap {} (fun _ g => engineWarm g) s.engines
    sft := { activeId := s.sft.activeId, active := s.sft.active, commits := s.sft.commits }
    tiers := tiersWarm s.tiers
    sync := { farEn := s.sync.farEn, farEnNow := s.sync.farEnNow, interval := s.sync.interval, passes := s.sync.passes }
    serve := serveWarm s.serve
    weights := { dir := (s.weights.dir.filter (fun d => d.state ≠ 0 || d.stored)).map (fun d =>
                   if d.byJob then { d with state := 1, byJob := false } else d)
                 slotA := slotWarm s.weights.slotA, slotB := slotWarm s.weights.slotB, deflt := s.weights.deflt
                 bindings := s.weights.bindings, adapters := s.weights.adapters }
    links := { rack := s.links.rack, tray := s.links.tray, slot := s.links.slot, racks := s.links.racks
               links := smap {} (fun _ k => linkWarm k) s.links.links, recalInterval := s.links.recalInterval }
    mgmt := mgmtWarm s.mgmt
    tally := tallyWarm s.stride.count s.tally
    sec := { fused := s.sec.fused, altered := s.sec.altered, maxLevel := s.sec.maxLevel, count := s.sec.count, base := s.sec.base
             policy := s.sec.policy } }

/-- WARM_RESET (R602, R603): before stage 5 of a cold start-up it restarts as cold. -/
def execWarmReset (s : State) : Out :=
  .next (if s.boot.cause = 1 && s.boot.stage < 5 then coldState s else warmState s)

/-! ## Core bindings (R38) -/

/-- Physical cores of a type on a die that the spare map marks bound, in ascending order. -/
def mapBound (f : Fuses) (die : Nat) (courser : Bool) : List Nat := (physOf courser).filter (fun p => !f.unbound.contains (die, p))

/-- The first pass of R38 for one type on one die. -/
def bindPass (die : Nat) (courser : Bool) (s : State) : State :=
  let logical := if courser then (List.range 36).map (die * 144 + 108 + ·) else (List.range 108).map (die * 144 + ·)
  forEach (logical.zip (mapBound s.fuses die courser)) (fun x t =>
    { t with bindings := sset {} t.bindings x.1 { phys := x.2, unbacked := false } }) s

/-- The second pass of R38: one retirement record. -/
def rebind (first : State) (x : Nat × Nat) (s : State) : State :=
  match (List.range 144).find? (fun i => let b := bindingOf first (x.1 * 144 + i); !b.unbacked && b.phys = x.2) with
  | none => s
  | some i =>
    let c := x.1 * 144 + i
    match freePhys s x.1 (isCourser c) with
    | some p => { s with bindings := sset {} s.bindings c { phys := p, unbacked := false, remapped := true } }
    | none => { s with bindings := sset {} s.bindings c { bindingOf s c with unbacked := true } }

/-- Free spares of a type on a die (R58, R329). -/
def spareCount (s : State) (die : Nat) (courser : Bool) : Nat :=
  ((physOf courser).filter (fun p => !s.fuses.retired.contains (die, p) &&
    !((List.range 144).any (fun i => let b := bindingOf s (die * 144 + i); !b.unbacked && b.phys = p)))).length

/-- CORE_BINDING (R38, R59, R328): bindings, SPARE fields and row maps from the fuses. -/
def bindCores (s : State) : State :=
  let s := bindPass 1 true (bindPass 1 false (bindPass 0 true (bindPass 0 false { s with bindings := [] })))
  let s := forEach s.fuses.retired (rebind s) s
  let s := { s with spares := [(0, false), (0, true), (1, false), (1, true)].zipIdx.foldl (fun m x =>
    sset 0 m x.2 (spareCount s x.1.1 x.1.2)) [] }
  forEach allCores (fun c t =>
    let b := bindingOf t c
    let l := (t.fuses.rowMaps.filter (fun r => r.1 = c / 144 && !b.unbacked && r.2.1 = b.phys)).map (fun r => (r.2.2.1, r.2.2.2))
    if l.isEmpty then t else modCore c (fun k => { k with far := { k.far with spares := l } }) t) s

/-- Ostler cores as the fuses record them: SRAM rows mapped to spares, and those retired (R328, R330). -/
def bindOstlers (s : State) : State :=
  forEach (List.range 8) (fun n => modOstler n (fun k => { k with
    spares := (s.fuses.ostlerRows.filter (fun r => r.1 = n)).map (fun r => r.2), retire := s.fuses.ostlersRetired.contains n })) s

/-! ## Stages of start-up (R597) -/

/-- Start-up stops on a fault (R599, R608, R610); `detail` is what R624 has its dump name. -/
def startStop (stage code : Nat) (detail : List Byte) (s : State) : State :=
  let s := chipStop code detail false (modBoot (fun b => { b with stage := stage, stopped := true, code := code }) s)
  reducedDump (modMgmt (fun m => { m with al := .preOp, alCode := 0x8000 + code % 4096 }) s)

/-- FUSES: what the fuses hold; at a cold start the bindings, the mode in force, and block 2 (R552, R575, R604). -/
def stageFuses (s : State) : State :=
  let s := modStride (fun t => { t with pTailW := s.fuses.pTailW }) s
  if s.boot.cause ≠ 1 then s else
  bindOstlers <| bindCores (modTiers (fun t => { t with tio := s.fuses.protCount % 2 = 1 }) (modSec (fun k => { k with fused := fuseList s.fuses }) s))

/-- The directory copy that start-up uses (R595): of those whose CRC is valid the later; `none` when neither is. -/
def pickDir (b : Boot) (ok : List Bool) : Option Nat :=
  match ok.getD 0 true, ok.getD 1 true with
  | true, true => some (bit01 (seqPrecedes 32 b.dir0.seq.toNat b.dir1.seq.toNat = some true))
  | true, false => some 0
  | false, true => some 1
  | false, false => none

/-- The image slot that runs (R567, R598): the directory's if it passes, else the other; `none` when neither does. -/
def pickImage (s : State) (kind : Nat) (ok : List Bool) : Option (Nat × Bool) :=
  let dir := if kind = 1 then (dirNow s.boot).tumbler else (dirNow s.boot).config
  let floor := if kind = 1 then s.fuses.tumblerFloor else s.fuses.etxiaFloor
  let good := fun (n : Nat) =>
    let i := imageOf s.boot kind n
    i.valid && ok.getD ((kind - 1) * 2 + n) true && floor ≤ imgVersion i && imgVersion i < 64
  if good dir then some (dir, false) else if good (1 - dir) then some (1 - dir, true) else none

/-- TUMBLER: the image that runs. -/
def stageTumbler (x : Nat × Bool) (s : State) : State := modBoot (fun b => { b with runTumbler := x.1, fellTumbler := x.2, ranTumbler := imageOf b 1 x.1 }) s

/-- CONFIG: the image in use, with the protocol level of its Etxia. -/
def stageConfig (x : Nat × Bool) (s : State) : State :=
  modBoot (fun b => { b with
    runConfig := x.1, fellConfig := x.2, runProto := imgProto (imageOf b 2 x.1), ranConfig := imageOf b 2 x.1, etxia := imageOf b 2 x.1 }) s

/-- CAP of a port after its first training (R273, R312): HBM3E 48 GiB, LPDDR5X and NAND as the board has them. -/
def portCap (s : State) (p : Nat) : Nat :=
  if p < 8 then 0
  else if p < 24 then (match s.board.lp with | .gib16 => 1 | .gib32 => 2 | .gib64 => 3 | .gib128 => 4)
  else (match s.board.nand with | .gib512 => 5 | .tib1 => 6 | .tib2 => 7 | .tib4 => 8)

/-- RATE of a port after its first training (R274, R312): the rates that the configuration image that runs selects. -/
def portRate (s : State) (p : Nat) : Nat :=
  let x := s.boot.ranConfig
  if p < 8 then 0
  else if p < 24 then (match x.lpRate with | .mt10667 => 1 | .mt8533 => 2 | .mt6400 => 3)
  else (match x.nandRate with | .mt3600 => 4 | .mt2400 => 5 | .mt1600 => 6)

/-! ## PORT_RESTORE_DONE (R278) -/

/-- Every byte behind LPDDR5X port `p` reads 0, and Curb class 4 has yet to move that many units. -/
def portZero (p : Nat) (s : State) : State :=
  let chunks := lHalf s / 8 / 960
  let s := modPort p (fun k => { k with zeroLeft := lHalf s / 8 / 64 }) s
  let s := modTiers (fun t => { t with checks := sset [] t.checks p ((List.range 64).map (fun i => (chunks - 64 + i) * 1024 + 960)) }) s
  if s.scr.gen = 0 then { s with mem := s.mem.filter (fun x => !(regionIsL x.1 && portOfAddr x.1 = p)) }
  else forEach (portCells p) (fun a => writeBytes a [0#8]) s
where
  /-- The address lies in tier L. -/
  regionIsL (a : Nat) : Bool := decide (0x010000000000 ≤ a ∧ a < 0x030000000000)
  /-- Addresses of the tier L half that port `p` serves. -/
  portCells (p : Nat) : List Nat :=
    ((List.range (2 ^ 40)).map (0x010000000000 + (p - 8) / 8 * 0x010000000000 + ·)).filter (fun a => portOfAddr a = p)

/-- Objects with pages in the half of tier L that port `p` serves are released (R278, R389). -/
def portObjects (p : Nat) (s : State) : State :=
  forEach (s.weights.dir.filter (fun d => d.tier = 1 && d.die = (p - 8) / 8)) dirRemove s

/-- PORT_RESTORE_DONE (R278, R312): the training that PORT_RESTORE started has ended; a port trains as at start-up, so its first success
sets CAP and RATE. -/
def execPortRestoreDone (p : PortId) (trained : Bool) (s : State) : Out :=
  .next (
    let n := p.val
    if !fabricUp s || !(portOf s n).restoring then s
    else if !trained then event 0x05C0 (item 1 n ++ item 1 0) (modPort n (fun k => { k with state := 4, restoring := false }) s)
    else if !s.stride.window then s
    else
      let s := if n < 24 then
          portZero n (portObjects n (whenB (n < 16) (modDumps (fun d => { d with dumpL := none })) s))
        else s
      event 0x05C0 (item 1 n ++ item 1 1) (modPort n (fun k => { k with
        state := 2, restoring := false, cap := portCap s n, rate := portRate s n }) s))

/-- MEMORY (R277, R600): each port trains, finds no device, or fails. -/
def stageMemory (i : StartIn) (s : State) : State :=
  forEach (List.range 40) (fun p t =>
    if i.absent.contains p then modPort p (fun k => { k with state := 0 }) t
    else if i.failed.contains p || (portOf t p).state = 4 then modPort p (fun k => { k with state := 4 }) t
    else modPort p (fun k => { k with state := 2, cap := portCap t p, rate := portRate t p }) t) s

/-- RELEASE: Etxia runs on every Ostler core but those retired (R330, R617), the slave is in PRE-OP (R539), WARD_NONCE is drawn (R589). -/
def stageRelease (x : StartIn) (s : State) : State :=
  let i := s.boot.etxia
  let s := forEach ((List.range 8).filter (fun n => !(ostlerOf s n).retire)) (fun n t =>
    event 0x0C82 (item 2 (0x8000 + n)) (modOstler n (fun k => { k with
      online := true, loaded := k.svc, version := imgVersion i, image := imageDigest 5 i, downFor := 0 }) t)) s
  modSec (fun k => { k with nonce := x.nonce }) (modMgmt (fun m => { m with al := .preOp, alCode := 0 }) s)

/-- The configuration image's table set in the staging area, its CRC and IMAGE_ID in the header (R225, R596). -/
def stageTables (i : StartIn) (s : State) : State :=
  let b : SftBank := i.sftImage.zipIdx.foldl (fun m x => x.1.zipIdx.foldl (fun m y =>
    (bytesLE 4 (ofSigned 32 y.1)).zipIdx.foldl (fun m z => sset 0#8 m (1024 * x.2 + 4 * y.2 + z.2) z.1) m) m) []
  modSft (fun f => { f with stage := b, hdrCrc := crc32ieee (bankImage b), hdrId := BitVec.ofNat 32 i.sftId, busy := true, err := 0 }) s

/-- The copy of the full dump into Dump F begins (R609), under class 4 (R264), unless a channel of die 0 has failed (R600). -/
def copyDump (s : State) : State :=
  match s.dumps.dumpL with
  | none => s
  | some d =>
    if !d.valid || d.kind ≠ 1 || d.copied || s.dumps.tumblerOwns || !dumpFUp s || !dumpLUp s then s else
    dumpGo (modDumps (fun k => { k with copying := true, left := dumpUnits 8 d ++ dumpUnits 24 d }) s)

/-- ETXIA: Curb defaults (R268), the table set loading (R225), links training once the coordinates are set (R469), an open changeover due
again (R464), a dump copied that was not (R613). -/
def stageEtxia (i : StartIn) (s : State) : State :=
  let s := stageTables i (defaultBudgets s)
  let s := if coordsSet s then forEach (List.range 6) (fun l => modLink l (fun k => { k with state := 1 })) s else s
  let s := if s.job.chg.phase ≠ 0 then modJob (fun j => { j with tenantReq := some j.chg.newTenant }) s else s
  modBoot (fun b => { b with stage := 6 }) (copyDump s)

/-- What BOOT_IMAGE_INVALID names (R624): the kind, and both slots. -/
def bothSlots (kind : Nat) : List Byte := item 1 kind ++ item 1 0 ++ item 1 1

/-- Stage 4 on: memory, release, Etxia. -/
def startLate (i : StartIn) (s : State) : State :=
  match (List.range 8).find? (fun p => (portOf s p).state ≠ 2) with
  | some p => startStop 4 0x0C04 (item 1 p ++ item 8 (portStatusWord s p).toNat) s
  | none => stageEtxia i (stageRelease i (modBoot (fun b => { b with stage := 5 }) s))

/-- Stages 0 to 6, each after the one before. -/
def startRun (i : StartIn) (s : State) : State :=
  if !i.secretOk then startStop 0 0x0B01 [] s
  else if !i.fuseOk then startStop 0 0x0C02 [] s
  else
    let s := stageFuses s
    match pickDir s.boot i.dirOk with
    | none => startStop 1 0x0C03 (bothSlots 1) s
    | some d =>
      let s := modBoot (fun b => { b with dirCur := d }) s
      match pickImage s 1 i.imageOk with
      | none => startStop 2 0x0C03 (bothSlots 1) s
      | some t =>
        let s := stageTumbler t s
        match pickImage s 2 i.imageOk with
        | none => startStop 3 0x0C03 (bothSlots 2) s
        | some c => startLate i (stageMemory i (stageConfig c s))

/-- ADMIT (R597, R625): action 9 of the first boundary at which PHASE is 0 and the table set has committed. -/
def startAdmit (i : StartIn) (s : State) : State :=
  if mayAct s 9 && s.boot.stage = 6 && s.job.chg.phase = 0 && !changeoverPending s && !s.sft.pending && !s.sft.busy &&
      s.sft.activeId.toNat = i.sftId then
    event 0x0C80 (item 1 s.boot.cause) (modBoot (fun b => { b with stage := 7 }) (setAct 9 s))
  else s

/-- START_UP (R597 to R600): the stages up to ETXIA, and ADMIT at the boundary that allows it. -/
def execStartUp (i : StartIn) (s : State) : Out :=
  .next (if s.boot.stopped then s else if s.boot.stage = 0 then startRun i s else startAdmit i s)

end Sys2Proof.Machine
end

