-- ==== Sys2Proof/Machine/Live.lean ====
section
/-!
DEFINITION. Chip faults and dumps (R608 to R613), units that leave service and come back (R614 to R618), and live update (R620 to
R623).
-/
namespace Sys2Proof.Machine

/-! ## Chip faults and dumps -/

/-- CHIP_FAULT (R608, R609, R613): no unit reports a code that is none of a chip fault (R28, R29). -/
def execChipFault (f : ChipFaultIn) (s : State) : Out := .next (if isChipFault f.code then chipStop f.code [] f.progress s else s)

/-- DUMP_F_COPY (R609, R613). -/
def execDumpFCopy (s : State) : Out := .next (if 5 ≤ s.boot.stage then copyDump s else s)

/-- REDUCED_DUMP (R610, R622): the Tumbler writes the dump that waits for it. -/
def execReducedDump (s : State) : Out :=
  .next (if s.chipFault.isSome && s.dumps.tumblerOwns && s.dumps.writing && !s.boot.restart then reducedDump s else s)

/-! ## Logical cores (R615, R616, R618) -/

/-- A core that its reset has cleared: nothing runs, what it held is gone. -/
def coreClear (c : Nat) (s : State) : State :=
  let s := modCore c (fun k => { retCount := k.retCount, spad := k.spad, svc := k.svc, loaded := k.loaded
                                 far := k.far }) s
  forEach (coreEngines c) (fun e t => modEng e (fun g => { g with
    entries := [], left := 0, held := [], firing := none, tiles := [], res := [], windows := []
    ags := smap {} (fun _ a => ({ bytes := a.bytes } : Ag)) g.ags }) t) s

/-- DROOP_TRIP (R615): the core is reset and leaves service. -/
def execDroopTrip (c : CoreId) (s : State) : Out :=
  .next (if s.boot.stage < 5 || (bindingOf s c.val).unbacked then s else coreLeaves c.val (coreClear c.val s))

/-- Credits that a lost core owes are written off (R618): what its queues held, and what producers on this chip wait for. -/
def coreWriteOff (c : Nat) (s : State) : State :=
  { s with
    reinIn := smap {} (fun n r => if n / 128 = c then { r with tokens := [], freed := [], claimed := 0 } else r) s.reinIn
    reinOut := smap {} (fun _ r => if r.cfg.dstChip = ownChip s && r.cfg.dstEngine / 8 = c then { r with avail := r.cfg.credits } else r)
      s.reinOut }

/-- CORE_STATE_LOST (R618, R624): boundary action 1, for each core of the job that is out of service. -/
def execCoreStateLost (s : State) : Out :=
  .next (match s.job.run with
    | none => s
    | some r =>
      if !mayAct s 1 then s else
      forEach ((tackCores r.tack).filter (fun c => coreStale s c && !r.coresLost.contains c)) (fun c t =>
        jobFault 0x0C05 (item 2 c ++ item 1 (coreOf t c).svc.toNat)
          (coreWriteOff c (modRun (fun r => { r with coresLost := r.coresLost ++ [c] }) (setAct 1 t)))) s)

/-! ## Ostler cores (R43, R615, R617, R618) -/

/-- OSTLER_LEAVE_SERVICE (R615): two missed heartbeats, or its droop detector; a boundary takes out one that R330 retires. -/
def execOstlerLeaveService (o : OstlerId) (s : State) : Out :=
  .next (if s.boot.stage < 5 || !(ostlerOf s o.val).online then s else ostlerLeave o.val s)

/-- IMG_STATUS (R623). -/
def imgStatus (s : State) : Nat := s.boot.segments % 65536 * 65536 + s.boot.imgErr * 256 + s.boot.imgState

/-- A step of an image update is recorded (R625). -/
def imgStep (f : Boot → Boot) (s : State) : State :=
  let s := modBoot f s
  event 0x0C83 (item 4 (imgStatus s)) s

/-- The rolling update goes on to the next Ostler core, or has done all (R621). -/
def rollNext (n : Nat) (s : State) : State :=
  match s.boot.rolling with
  | none => s
  | some x =>
    if x.1 ≠ n then s
    else if n = 7 then imgStep (fun b => { b with
      rolling := none, imgState := 4, runConfig := (dirNow b).config, etxia := imageOf b 2 (dirNow b).config }) s
    else modBoot (fun b => { b with rolling := some (n + 1, s.stride.count + 1) }) s

/-- The configuration image whose Etxia an Ostler core gets (R617, R621): the new one for the cores that the rolling update has reached. -/
def etxiaFor (n : Nat) (s : State) : ImgSlot :=
  match s.boot.rolling with
  | none => s.boot.etxia
  | some x => if n ≤ x.1 then imageOf s.boot 2 (dirNow s.boot).config else s.boot.etxia

/-- OSTLER_READMIT (R92, R617, R621): boundary action 7, once all 256 regions of its SRAM have passed a test; in a rolling
update the third boundary after the core went offline. -/
def execOstlerReadmit (o : OstlerId) (s : State) : Out :=
  .next (
    let n := o.val
    let k := ostlerOf s n
    let early := match s.boot.rolling with | none => false | some x => decide (x.1 = n ∧ k.downFor < 3)
    if !mayAct s 7 || s.boot.stage < 5 || k.online || k.retire || k.regions < 256 || early then s else
    let i := etxiaFor n s
    let s := modOstler n (fun k => { k with
      online := true, loaded := k.svc, version := imgVersion i, image := imageDigest 5 i, region := 0, downFor := 0 }) (setAct 7 s)
    let s := modRun (fun r => { r with unchecked := (r.unchecked ++ r.openSteps ++ [r.stride]).eraseDups }) s
    rollNext n (measChange (event 0x0C82 (item 2 (0x8000 + n)) s)))

/-- ROLLING_UPDATE_STEP (R621): at the boundary at which it is due, with every Ostler core online, the next one goes offline. -/
def execRollingUpdateStep (s : State) : Out :=
  .next (match s.boot.rolling with
    | none => s
    | some x =>
      if !fabricUp s || !s.stride.window || s.stride.count < x.2 || ostlersUp s < 8 then s else ostlerLeave x.1 s)

/-! ## Images (R620 to R623) -/

/-- An image command is refused (R620): ERR 6 and abort 0x0800_0022. -/
def imgRefuse (s : State) : State :=
  modMgmt (fun m => { m with sdoAbort := 0x08000022 }) (modBoot (fun b => { b with imgErr := 6 }) s)

/-- The conditions under which BEGIN, VERIFY and ACTIVATE are refused (R620). -/
def imgBusy (s : State) : Bool :=
  changeoverPending s || !s.pins.powerFailN || s.mgmt.burn.isSome || s.dumps.writing || s.boot.imgState = 3

/-- The slot of a kind that the directory does not name (R620). -/
def idleSlot (b : Boot) (kind : Nat) : Nat := if kind = 1 then 1 - (dirNow b).tumbler else 1 - (dirNow b).config

/-- A slot of the NOR takes new contents. -/
def setImage (kind slot : Nat) (i : ImgSlot) (b : Boot) : Boot :=
  if kind = 1 then (if slot = 0 then { b with tumA := i } else { b with tumB := i })
  else (if slot = 0 then { b with cfgA := i } else { b with cfgB := i })

/-- The object dictionary takes image commands (R539), after a start-up that stopped too (R599). -/
def imgHeard (s : State) : Bool := !s.boot.restart && mailboxUp s

/-- An SDO write that is accepted. -/
def sdoFine (s : State) : State := modMgmt (fun m => { m with sdoAbort := 0 }) s

/-- BEGIN (R620): the update in progress is discarded, the inactive slot of the target's kind erased. -/
def execImgBegin (s : State) : Out :=
  .next (if !imgHeard s then s
    else if imgBusy s || s.boot.target = 0 then imgRefuse s
    else sdoFine (imgStep (fun b => setImage b.target (idleSlot b b.target) { valid := false }
      { b with imgState := 1, imgErr := 0, segments := 0 }) s))

/-- Image bytes that a slot of the target's kind holds (R594). -/
def slotSize (b : Boot) : Nat := if b.target = 1 then 0x100000 else 0x400000

/-- The slot that the update in progress fills. -/
def newImage (b : Boot) : ImgSlot := imageOf b b.target (idleSlot b b.target)

/-- The slot that the update in progress fills takes new contents. -/
def setNew (i : ImgSlot) (b : Boot) : Boot := setImage b.target (idleSlot b b.target) i b

/-- The update in progress fails with ERR `e`. -/
def imgFail (e : Nat) (s : State) : State := sdoFine (imgStep (fun b => { b with imgState := 5, imgErr := e }) s)

/-- IMG_DATA (R620, R623): the next 512 bytes; more than the slot holds fail the update with ERR 1, a page that does not program with
ERR 5. -/
def execImgData (bytes : List Byte) (programmed : Bool) (s : State) : Out :=
  .next (if !imgHeard s then s
    else if s.boot.imgState ≠ 1 || bytes.length ≠ 512 then modMgmt (fun m => { m with sdoAbort := 0x08000022 }) s
    else if slotSize s.boot < (s.boot.segments + 1) * 512 then imgFail 1 s
    else if !programmed then imgFail 5 s
    else sdoFine (modBoot (fun b => { setNew { newImage b with bytes := (newImage b).bytes ++ bytes } b with
      segments := b.segments + 1 }) s))

/-- The first check of VERIFY that fails, as its ERR (R596, R620): TYPE, size, digest and signature, which `signed` tells, floor. An image
of which not all has come has no digest that matches. -/
def imgCheck (s : State) (signed : Bool) : Nat :=
  let i := newImage s.boot
  let n := imgField i 8 4 + 256
  if imgField i 0 4 ≠ s.boot.target then 4
  else if slotSize s.boot < n then 1
  else if !signed || i.bytes.length < n then 2
  else if imgVersion i < (if s.boot.target = 1 then s.fuses.tumblerFloor else s.fuses.etxiaFloor) then 3
  else 0

/-- IMG_VERIFY (R620): the rates are those of the settings that a configuration image carries (R274, R596). -/
def execImgVerify (signed : Bool) (lpRate : LpRate) (nandRate : NandRate) (s : State) : Out :=
  .next (if !imgHeard s then s
    else if imgBusy s || s.boot.imgState ≠ 1 then imgRefuse s
    else if imgCheck s signed ≠ 0 then imgFail (imgCheck s signed) s
    else sdoFine (imgStep (fun b => { setNew { newImage b with valid := true, lpRate := lpRate, nandRate := nandRate } b with
      imgState := 2 }) s))

/-- ACTIVATE (R595, R621, R622): the directory names the new slot; a rolling update or a restart follows, or a warm reset is
awaited. -/
def execActivate (s : State) : Out :=
  .next (if !imgHeard s then s
    else if imgBusy s || s.boot.imgState ≠ 2 then imgRefuse s
    else if s.boot.target = 1 then
      sdoFine (imgStep (fun b => { dirWrite (fun d => { d with tumbler := 1 - d.tumbler }) b with imgState := 3, restartDue := true }) s)
    else
      let same := decide (imgProto (newImage s.boot) = s.boot.runProto)
      sdoFine (imgStep (fun b => { dirWrite (fun d => { d with config := 1 - d.config }) b with
        imgState := if same then 3 else 6
        rolling := if same then some (0, s.stride.count + 1) else none }) s))

/-- IMG_ABORT (R623): an update that is not yet activated is abandoned. -/
def execImgAbort (s : State) : Out :=
  .next (if !imgHeard s then s
    else if s.boot.imgState = 1 || s.boot.imgState = 2 then
      sdoFine (imgStep (fun b => { b with imgState := 0, imgErr := 0, segments := 0 }) s)
    else sdoFine s)

/-! ## The Tumbler's restart (R578, R622) -/

/-- TUMBLER_RESTART (R622): at the boundary after the ACTIVATE. -/
def execTumblerRestart (s : State) : Out :=
  .next (if s.boot.restartDue && s.stride.window then modBoot (fun b => { b with restart := true, restartDue := false }) s else s)

/-- The Tumbler runs again: a budget that waited is applied. -/
def tumblerBack (s : State) : State :=
  let s := modBoot (fun b => { b with restart := false }) s
  match s.mgmt.heldBudget with
  | none => s
  | some w => noteChange (modMgmt (fun m => { m with budget := w, heldBudget := none }) s)

/-- TUMBLER_RESTART_END (R575, R578, R622): the new image runs; block 3 and the alias key change, SPDM sessions end, WARD_NONCE is
drawn. -/
def execTumblerRestartEnd (nonce : Word) (s : State) : Out :=
  .next (if !s.boot.restart then s else
    let s := modSec (fun k => { k with sessions := [], version := false, algos := false, nonce := nonce }) (tumblerBack s)
    imgStep (fun b => { b with imgState := 4, imgErr := 0 }) (measChange (modBoot (fun b => { b with
      runTumbler := (dirNow b).tumbler, ranTumbler := imageOf b 1 (dirNow b).tumbler }) s)))

/-- TUMBLER_RESTART_TIMEOUT (R622): the new image is abandoned, the directory restored, the previous image runs. -/
def execTumblerRestartTimeout (s : State) : Out :=
  .next (if !s.boot.restart then s else
    imgStep (fun b => { dirWrite (fun d => { d with tumbler := 1 - d.tumbler }) b with imgState := 5, imgErr := 7 }) (tumblerBack s))

end Sys2Proof.Machine
end

