-- ==== Sys2Proof/Machine/Packets.lean ====
section
/-!
DEFINITION. Packets that arrive over a link (R481 to R491): taken from the receive buffer, delivered to the endpoint their TYPE names,
or sent on.
-/
namespace Sys2Proof.Machine

/-- An object operation as offset, ST and data name it (R337). -/
def syncOp (r : SyncReq) (off : Nat) (st : Bool) (data : Word) (s : State) : State × SyncAns :=
  let o := objOf s r.obj.val
  if st then
    if off = 0x08 && o.type = 1 then opSet r data s
    else if off = 0x10 && o.type = 1 then opAdd r data s
    else if off = 0x10 && o.type = 2 then opArrive r false s
    else (s, syncInvalid r.obj.val off r.core.val)
  else match syncPeek o off with
  | some v => (s, .value v)
  | none =>
    if off = 0x10 && o.type = 1 then opFetchInc r s
    else if off = 0x10 && o.type = 2 then opArrive r true s
    else if off = 0x10 && o.type = 3 then opClaim r (data.extractLsb' 0 16) s
    else if off = 0x18 && o.type = 1 then opWait r data s
    else (s, syncInvalid r.obj.val off r.core.val)

/-- The token of a TOKEN packet (R482). -/
def packetToken (p : Packet) : TokenMsg :=
  { srcChip := p.srcChip, srcEngine := infoEng p.info 32, srcPort := infoRein p.info 44, dstEngine := infoEng p.info 0
    dstQueue := infoRein p.info 12, tag := BitVec.ofNat 16 (bitsOf p.info 31 16)
    payload := BitVec.ofNat 512 (numLE ((p.data.map (fun w => bytesLE 8 w.toNat)).flatten)) }

/-- The request of a SYNC_REQ packet (R346, R482). -/
def packetSync (p : Packet) : SyncReq :=
  { chip := p.srcChip, core := infoCore p.info, thread := infoThread p.info, epoch := p.epoch
    obj := ⟨bitsOf p.info 12 0 % 8192, Nat.mod_lt _ (by decide)⟩, info := p.info.setWidth 48 }

/-- The header bits that an UNREACH packet carries (R482). -/
def lostBits (p : Packet) : BitVec 128 := (p.data.getD 1 0) ++ (p.data.headD 0)

/-! ## Messages of several packets (R482) -/

/-- The bytes of a packet's body (R481). -/
def packetBody (p : Packet) : List Byte := (p.data.flatMap (fun w => bytesLE 8 w.toNat)).take (16 * p.body)

/-- A segment of a message of which `part` has arrived: segment 0 begins it anew, SEGMENT counting modulo `wrap` (R482, log 28). -/
def joinSegment (wrap seg : Nat) (part b : List Byte) : Option (List Byte) :=
  if !part.isEmpty && seg = part.length / 512 % wrap then some (part ++ b)
  else if seg = 0 then some b
  else none

/-- A HITCH packet (R482): the segments of a message join, and the last brings it to its Hitch, with whether the packet is taken up. -/
def hitchDeliver (p : Packet) (s : State) : State × Bool :=
  let h := bitsOf p.info 1 0
  let key := p.srcChip.toNat * 4 + h
  let keep := fun (b : List Byte) => modLinks (fun k => { k with asm := sset [] k.asm key b })
  match joinSegment 128 (bitsOf p.info 44 38) (sget [] s.links.asm key) (packetBody p) with
  | none => (keep [] s, true)
  | some b =>
    if !bitOf p.info 45 then (keep b s, true) else
    let m := msgDecode p.srcChip p.info b
    if hitchWaits h m s then (hitchIn h m s, false) else (hitchIn h m (keep [] s), true)

/-- The hop list and what goes with it at the head of chunk 0 (R482, log 28), with whether the chunk itself follows. -/
def introDecode (b : List Byte) : RelayIntro × Bool :=
  let f := fun (at_ n : Nat) => numLE ((b.drop at_).take n)
  ({ bytes := f 0 8, modelId := f 8 4, me := f 14 2, adapter := f 16 1 ≠ 0
     hops := (List.range (f 12 2)).map (fun i => BitVec.ofNat 256 (numLE ((b.drop (32 + 32 * i)).take 32))) }, f 17 1 ≠ 0)

/-- Bytes of the message of chunk `c` (R424, R482, log 28), as far as its beginning `b` or the relay tells. -/
def relayNeed (s : State) (k : Fin 2) (c : Nat) (b : List Byte) : Nat :=
  if c = 0 then
    if b.length < 32 then 32 else
    let x := introDecode b
    32 + 32 * x.1.hops.length + (if x.2 then Nat.min chunkSize x.1.bytes else 0) + 16
  else match relayOf s k with | some r => chunkLen r c + 16 | none => 16

/-- The message of a chunk is whole: it reaches the relay, with whether the packet is taken up; a chunk whose part is stored waits for the
ports it is written to (R266, R288). -/
def relayWhole (k : Fin 2) (c : Nat) (b : List Byte) (s : State) : State × Bool :=
  let x := introDecode b
  let head := if c = 0 then 32 + 32 * x.1.hops.length else 0
  let data := (b.drop head).take (b.length - head - 16)
  let crc := BitVec.ofNat 32 (numLE (b.drop (b.length - 4)))
  let clear := modWeights (fun w => { w with parts := sset {} w.parts k.val {} })
  if c = 0 && !x.2 then (relayIntro k x.1 (clear s), true)
  else
    let wait := match relayOf s k with | some r => crc = crc32c data && relayWaits r c s | none => false
    if wait then (s, false)
    else (relayChunk k (if c = 0 then some x.1 else none) c (some crc) data (clear s), true)

/-- A RELAY packet (R424 to R427, R482): a note, or a segment of a chunk, with whether it is taken up. -/
def relayDeliver (p : Packet) (s : State) : State × Bool :=
  let k := relaySlot p
  let c := bitsOf p.info 23 0
  let seg := bitsOf p.info 34 24
  let src := p.srcChip.toNat
  if bitOf p.info 35 && bitOf p.info 36 then
    (relayNoted k (if seg = 0 then .received else if seg = 1 then .again else if seg = 2 then .lowest else .noCopy) src c s, true)
  else if bitOf p.info 35 then (relayNoted k .ack src c s, true)
  else if bitOf p.info 36 then (relayNoted k .query src c s, true)
  else
    let part := sget {} s.weights.parts k.val
    match joinSegment 2048 seg (if part.chunk = c then part.bytes else []) (packetBody p) with
    | none => (s, true)
    | some b =>
      let n := relayNeed s k c b
      if b.length < n then (modWeights (fun w => { w with parts := sset {} w.parts k.val { chunk := c, bytes := b } }) s, true)
      else relayWhole k c (b.take n) s

/-! ## Delivery -/

/-- A free phase error (R73): what the phase detector measures at a marker that arrives. -/
def freePhase (s : State) : Int × State :=
  let x := takeFree s
  (if x.1 % 2 = 0 then (x.1 / 2 : Nat) else -((x.1 / 2 : Nat) : Int), x.2)

/-- A STRIDE packet by its SUBTYPE (R483). -/
def strideDeliver (p : Packet) (s : State) : State :=
  let b := BitVec.ofNat 256 (numLE (packetBody p))
  if bodyKind b = 0 then (let x := freePhase s; strideBody 0 b (takeMarker x.1) x.2)
  else if bodyKind b = 1 then strideBody 1 b (takeLenReq p.srcChip) s
  else strideBody 2 b (takeEvent p.srcChip) s

/-- A packet for this chip reaches its endpoint, with whether it is taken up (R482). What Etxia's own packets of TYPE 10 say the spec leaves
to Etxia. -/
def packetDeliver (p : Packet) (s : State) : State × Bool :=
  if p.type = 1 then (tokenArrive (packetToken p) s, true)
  else if p.type = 2 then (creditReturn (infoEng p.info 0).val (infoRein p.info 12).val (bitsOf p.info 20 16) p.epoch s, true)
  else if p.type = 3 then
    let r := packetSync p
    (syncServe r (syncOp r (8 * bitsOf p.info 15 13) (bitOf p.info 16) (p.data.headD 0)) s, true)
  else if p.type = 4 then (syncReturn (infoCore p.info).val (infoThread p.info).val (p.data.headD 0) s, true)
  else if p.type = 5 then hitchDeliver p s
  else if p.type = 6 then
    let h := bitsOf p.info 1 0
    let n := bitsOf p.info 29 16
    (hitchCredit h p.srcChip.toNat (creditPeer s h p.srcChip.toNat n) n s, true)
  else if p.type = 7 then relayDeliver p s
  else if p.type = 8 then (strideDeliver p s, true)
  else if p.type = 9 then (unreachAct (packetDecode (lostBits p) []) (bitsOf p.info 7 0) s, true)
  else (s, true)

/-- Link `k` can take a packet on VC `v`: none that came before it waits there (R479, R486). -/
def linkRoom (s : State) (k v : Nat) : Bool := (linkOf s k).wait.all (fun x => x.1 ≠ v)

/-- What becomes of a packet that link `l` received on VC `v`, with whether it is taken up (R481, R482, R485, R486, R490). -/
def packetTake (l : LinkId) (v : Nat) (p : Packet) (s : State) : State × Bool :=
  let p := { p with fromLink := l }
  if 11 ≤ p.type || p.rsvd then (modMgmt (fun m => { m with badPackets := statInc 32 m.badPackets }) s, true)
  else match routeNext s p.dstChip.toNat p.dstDie (failsOver p.type) with
  | .here => packetDeliver p s
  | .link k =>
    if linkRoom s k (2 * packetClass p.type + dateline s (some l.val) (v % 2) k) then
      (linkSend (jobStride s) k (some l.val) (v % 2) p s, true)
    else (s, false)
  | .nowhere r => (packetLost r p s, true)

/-- PACKET_RECEIVE (R479, R481, R482, R485, R490): the first packet of VC `vc` in the link's receive buffer; once it is taken up, the
flits it held go back to the sender as credits. -/
def execPacketReceive (l : LinkId) (vc : Fin 10) (s : State) : Out :=
  .next (match (linkOf s l.val).inPkts.find? (fun p => p.vc = vc.val) with
    | none => s
    | some p =>
      if !fabricUp s then s else
      let x := packetTake l vc.val p.pkt s
      if x.2 then vcFreed l.val vc.val p.frees (modLink l.val (fun k => { k with inPkts := k.inPkts.eraseP (fun q => q.vc = vc.val) }) x.1) else x.1)

end Sys2Proof.Machine
end

