-- ==== Sys2Proof/Machine/Dispatch.lean ====
section
/-!
DEFINITION. The meaning of every command: one direct call per row of the opcode table.
-/
namespace Sys2Proof.Machine

/-- A command's effect on everything but the queue. -/
def exec (i : Instr) (s : State) : Host.Outcome State Fault Refusal :=
  match i with
  | .registerWrite path off size value hw => Sys2Proof.Machine.execRegisterWrite path off size value hw s
  | .readLowWordLatch off size viaIde => Sys2Proof.Machine.execReadLowWordLatch off size viaIde s
  | .bar0UnimplementedAccess write off size viaIde => Sys2Proof.Machine.execBar0UnimplementedAccess write off size viaIde s
  | .strideBoundary b => Sys2Proof.Machine.execStrideBoundary b s
  | .issueSpanStart => Sys2Proof.Machine.execIssueSpanStart s
  | .stepBegin c => Sys2Proof.Machine.execStepBegin c s
  | .strideWatchdog => Sys2Proof.Machine.execStrideWatchdog s
  | .boundaryTimer elapsed => Sys2Proof.Machine.execBoundaryTimer elapsed s
  | .markerSend => Sys2Proof.Machine.execMarkerSend s
  | .markerReceive body phase => Sys2Proof.Machine.execMarkerReceive body phase s
  | .markerLoss => Sys2Proof.Machine.execMarkerLoss s
  | .lenReqReceive chip body => Sys2Proof.Machine.execLenReqReceive chip body s
  | .strideEventReceive chip body => Sys2Proof.Machine.execStrideEventReceive chip body s
  | .strideInEdge sinceLast => Sys2Proof.Machine.execStrideInEdge sinceLast s
  | .strideInTimeout sinceLast => Sys2Proof.Machine.execStrideInTimeout sinceLast s
  | .sync0Event time => Sys2Proof.Machine.execSync0Event time s
  | .throttleNChange low => Sys2Proof.Machine.execThrottleNChange low s
  | .powerFailNFall dcTime => Sys2Proof.Machine.execPowerFailNFall dcTime s
  | .powerFailNRise => Sys2Proof.Machine.execPowerFailNRise s
  | .odOvfClear index sub value saturates => Sys2Proof.Machine.execOdOvfClear index sub value saturates s
  | .tmac c t f => Sys2Proof.Machine.execTmac c t f s
  | .tout c t f => Sys2Proof.Machine.execTout c t f s
  | .resload c t f => Sys2Proof.Machine.execResload c t f s
  | .tileInstructionComplete e => Sys2Proof.Machine.execTileInstructionComplete e s
  | .li c t f => Sys2Proof.Machine.execLi c t f s
  | .lui c t f => Sys2Proof.Machine.execLui c t f s
  | .add c t f => Sys2Proof.Machine.execAdd c t f s
  | .sub c t f => Sys2Proof.Machine.execSub c t f s
  | .mul c t f => Sys2Proof.Machine.execMul c t f s
  | .shl c t f => Sys2Proof.Machine.execShl c t f s
  | .shr c t f => Sys2Proof.Machine.execShr c t f s
  | .sar c t f => Sys2Proof.Machine.execSar c t f s
  | .and c t f => Sys2Proof.Machine.execAnd c t f s
  | .or c t f => Sys2Proof.Machine.execOr c t f s
  | .xor c t f => Sys2Proof.Machine.execXor c t f s
  | .min c t f => Sys2Proof.Machine.execMin c t f s
  | .max c t f => Sys2Proof.Machine.execMax c t f s
  | .ld c t f => Sys2Proof.Machine.execLd c t f s
  | .st c t f => Sys2Proof.Machine.execSt c t f s
  | .beq c t f => Sys2Proof.Machine.execBeq c t f s
  | .bne c t f => Sys2Proof.Machine.execBne c t f s
  | .blt c t f => Sys2Proof.Machine.execBlt c t f s
  | .jmp c t f => Sys2Proof.Machine.execJmp c t f s
  | .twait c t f => Sys2Proof.Machine.execTwait c t f s
  | .stepEnd c t f => Sys2Proof.Machine.execStepEnd c t f s
  | .scalarLoadReturn c t => Sys2Proof.Machine.execScalarLoadReturn c t s
  | .gaitFire e => Sys2Proof.Machine.execGaitFire e s
  | .gaitSwitch e => Sys2Proof.Machine.execGaitSwitch e s
  | .creditReturnSend e q => Sys2Proof.Machine.execCreditReturnSend e q s
  | .creditReturn e o count epoch => Sys2Proof.Machine.execCreditReturn e o count epoch s
  | .tokenArrive m => Sys2Proof.Machine.execTokenArrive m s
  | .earlyTokenExpire e => Sys2Proof.Machine.execEarlyTokenExpire e s
  | .drainBegin => Sys2Proof.Machine.execDrainBegin s
  | .drainComplete => Sys2Proof.Machine.execDrainComplete s
  | .drainTimeout => Sys2Proof.Machine.execDrainTimeout s
  | .hardStop => Sys2Proof.Machine.execHardStop s
  | .creditWriteOff => Sys2Proof.Machine.execCreditWriteOff s
  | .hingeFlitFailed retries elapsed recovered => Sys2Proof.Machine.execHingeFlitFailed retries elapsed recovered s
  | .vecAdd e v => Sys2Proof.Machine.execVecAdd e v s
  | .vecSub e v => Sys2Proof.Machine.execVecSub e v s
  | .vecMul e v => Sys2Proof.Machine.execVecMul e v s
  | .mulsh e v => Sys2Proof.Machine.execMulsh e v s
  | .mulrs e v => Sys2Proof.Machine.execMulrs e v s
  | .vecMin e v => Sys2Proof.Machine.execVecMin e v s
  | .vecMax e v => Sys2Proof.Machine.execVecMax e v s
  | .abs e v => Sys2Proof.Machine.execAbs e v s
  | .vecAnd e v => Sys2Proof.Machine.execVecAnd e v s
  | .vecOr e v => Sys2Proof.Machine.execVecOr e v s
  | .vecXor e v => Sys2Proof.Machine.execVecXor e v s
  | .vecShl e v => Sys2Proof.Machine.execVecShl e v s
  | .vecSar e v => Sys2Proof.Machine.execVecSar e v s
  | .srhe e v => Sys2Proof.Machine.execSrhe e v s
  | .cvt e v => Sys2Proof.Machine.execCvt e v s
  | .emask e v => Sys2Proof.Machine.execEmask e v s
  | .rsum e v => Sys2Proof.Machine.execRsum e v s
  | .rmax e v => Sys2Proof.Machine.execRmax e v s
  | .rmin e v => Sys2Proof.Machine.execRmin e v s
  | .csum e v => Sys2Proof.Machine.execCsum e v s
  | .cmax e v => Sys2Proof.Machine.execCmax e v s
  | .cmin e v => Sys2Proof.Machine.execCmin e v s
  | .sfn e v => Sys2Proof.Machine.execSfn e v s
  | .sfnmul e v => Sys2Proof.Machine.execSfnmul e v s
  | .expsub e v => Sys2Proof.Machine.execExpsub e v s
  | .vecVend e v => Sys2Proof.Machine.execVecVend e v s
  | .adc e v => Sys2Proof.Machine.execAdc e v s
  | .sbb e v => Sys2Proof.Machine.execSbb e v s
  | .mulw e v => Sys2Proof.Machine.execMulw e v s
  | .sftLoad => Sys2Proof.Machine.execSftLoad s
  | .sftLoadDone => Sys2Proof.Machine.execSftLoadDone s
  | .sftCancel => Sys2Proof.Machine.execSftCancel s
  | .sftCommit => Sys2Proof.Machine.execSftCommit s
  | .seta e ag post f => Sys2Proof.Machine.execSeta e ag post f s
  | .adda e ag post f => Sys2Proof.Machine.execAdda e ag post f s
  | .loop e ag post f => Sys2Proof.Machine.execLoop e ag post f s
  | .endl e ag post f => Sys2Proof.Machine.execEndl e ag post f s
  | .streamLoad e ag f => Sys2Proof.Machine.execStreamLoad e ag f s
  | .store e ag f => Sys2Proof.Machine.execStore e ag f s
  | .recv e ag f => Sys2Proof.Machine.execRecv e ag f s
  | .send e ag f => Sys2Proof.Machine.execSend e ag f s
  | .streamSync e ag f => Sys2Proof.Machine.execStreamSync e ag f s
  | .fin e ag post f => Sys2Proof.Machine.execFin e ag post f s
  | .curbAdmit p k => Sys2Proof.Machine.execCurbAdmit p k s
  | .curbArbitrate p => Sys2Proof.Machine.execCurbArbitrate p s
  | .tierReadReturn r addr how overwritten => Sys2Proof.Machine.execTierReadReturn r addr how overwritten s
  | .runCommit e ag => Sys2Proof.Machine.execRunCommit e ag s
  | .readDeadline e ag addr elapsed => Sys2Proof.Machine.execReadDeadline e ag addr elapsed s
  | .agResume e ag => Sys2Proof.Machine.execAgResume e ag s
  | .runResume e ag => Sys2Proof.Machine.execRunResume e ag s
  | .pageIn addr => Sys2Proof.Machine.execPageIn addr s
  | .pageInComplete addr failed => Sys2Proof.Machine.execPageInComplete addr failed s
  | .pageEvict addr => Sys2Proof.Machine.execPageEvict addr s
  | .evictWriteBack addr => Sys2Proof.Machine.execEvictWriteBack addr s
  | .portRetrain p attempts regained => Sys2Proof.Machine.execPortRetrain p attempts regained s
  | .portRestore p => Sys2Proof.Machine.execPortRestore p s
  | .portRestoreDone p trained => Sys2Proof.Machine.execPortRestoreDone p trained s
  | .aliasWrite w x => Sys2Proof.Machine.execAliasWrite w x s
  | .farrierRegionTest u corrected o => Sys2Proof.Machine.execFarrierRegionTest u corrected o s
  | .patrolScrub p errs => Sys2Proof.Machine.execPatrolScrub p errs s
  | .counterSet r data => Sys2Proof.Machine.execCounterSet r data s
  | .counterFetchIncrement r => Sys2Proof.Machine.execCounterFetchIncrement r s
  | .counterAdd r data => Sys2Proof.Machine.execCounterAdd r data s
  | .counterWait r bound => Sys2Proof.Machine.execCounterWait r bound s
  | .barrierArriveWait r => Sys2Proof.Machine.execBarrierArriveWait r s
  | .barrierArrive r => Sys2Proof.Machine.execBarrierArrive r s
  | .workctrClaim r seq => Sys2Proof.Machine.execWorkctrClaim r seq s
  | .syncWaitTimeout o => Sys2Proof.Machine.execSyncWaitTimeout o s
  | .syncResponse c t result => Sys2Proof.Machine.execSyncResponse c t result s
  | .syncReissue c t reason elapsed => Sys2Proof.Machine.execSyncReissue c t reason elapsed s
  | .launchOpen h n => Sys2Proof.Machine.execLaunchOpen h n s
  | .hitchDispatchArrive h m tag slots row => Sys2Proof.Machine.execHitchDispatchArrive h m tag slots row s
  | .hitchEndMarker h m => Sys2Proof.Machine.execHitchEndMarker h m s
  | .expertReturnSend h n expert => Sys2Proof.Machine.execExpertReturnSend h n expert s
  | .hitchReturnArrive h m expert tag row => Sys2Proof.Machine.execHitchReturnArrive h m expert tag row s
  | .hitchCreditReturn h chip peer credits => Sys2Proof.Machine.execHitchCreditReturn h chip peer credits s
  | .launchTimeout h n => Sys2Proof.Machine.execLaunchTimeout h n s
  | .sessOpen r => Sys2Proof.Machine.execSessOpen r s
  | .sessAppend r => Sys2Proof.Machine.execSessAppend r s
  | .sessVerify r => Sys2Proof.Machine.execSessVerify r s
  | .sessCancel r => Sys2Proof.Machine.execSessCancel r s
  | .sessClose r => Sys2Proof.Machine.execSessClose r s
  | .closeComplete n => Sys2Proof.Machine.execCloseComplete n s
  | .prefillWaveStart => Sys2Proof.Machine.execPrefillWaveStart s
  | .decodeWaveStart => Sys2Proof.Machine.execDecodeWaveStart s
  | .stepCommit n => Sys2Proof.Machine.execStepCommit n s
  | .prefillCommit n => Sys2Proof.Machine.execPrefillCommit n s
  | .requestFaultEnd => Sys2Proof.Machine.execRequestFaultEnd s
  | .slotRelease addr => Sys2Proof.Machine.execSlotRelease addr s
  | .completionPost r => Sys2Proof.Machine.execCompletionPost r s
  | .weightLoad w readOk data => Sys2Proof.Machine.execWeightLoad w readOk data s
  | .weightRelay w readOk hops => Sys2Proof.Machine.execWeightRelay w readOk hops s
  | .weightDrop w => Sys2Proof.Machine.execWeightDrop w s
  | .weightStage w readOk t image => Sys2Proof.Machine.execWeightStage w readOk t image s
  | .weightBind w => Sys2Proof.Machine.execWeightBind w s
  | .weightList w => Sys2Proof.Machine.execWeightList w s
  | .objectStateUpdate => Sys2Proof.Machine.execObjectStateUpdate s
  | .relayChunkReceive slot intro chunk crc data => Sys2Proof.Machine.execRelayChunkReceive slot intro chunk crc data s
  | .relayAck slot chip chunk => Sys2Proof.Machine.execRelayAck slot chip chunk s
  | .relayHopUnreachable slot hop => Sys2Proof.Machine.execRelayHopUnreachable slot hop s
  | .relayResumeQuery slot chip => Sys2Proof.Machine.execRelayResumeQuery slot chip s
  | .relayComplete slot results => Sys2Proof.Machine.execRelayComplete slot results s
  | .tackInstall g => Sys2Proof.Machine.execTackInstall g s
  | .installPhaseAdvance => Sys2Proof.Machine.execInstallPhaseAdvance s
  | .installComplete => Sys2Proof.Machine.execInstallComplete s
  | .switchOverrun bytes => Sys2Proof.Machine.execSwitchOverrun bytes s
  | .jobSubmit j => Sys2Proof.Machine.execJobSubmit j s
  | .jobEnd j => Sys2Proof.Machine.execJobEnd j s
  | .jobTenant j => Sys2Proof.Machine.execJobTenant j s
  | .tenantReq value => Sys2Proof.Machine.execTenantReq value s
  | .termExpiry => Sys2Proof.Machine.execTermExpiry s
  | .jobSelection => Sys2Proof.Machine.execJobSelection s
  | .changeoverOpen keyOk => Sys2Proof.Machine.execChangeoverOpen keyOk s
  | .changeoverZero writeOk => Sys2Proof.Machine.execChangeoverZero writeOk s
  | .changeoverClose => Sys2Proof.Machine.execChangeoverClose s
  | .linkTrain l t => Sys2Proof.Machine.execLinkTrain l t s
  | .linkRetrain l => Sys2Proof.Machine.execLinkRetrain l s
  | .linkRecal l => Sys2Proof.Machine.execLinkRecal l s
  | .laneRecal l lane => Sys2Proof.Machine.execLaneRecal l lane s
  | .laneRestore l ok => Sys2Proof.Machine.execLaneRestore l ok s
  | .flitReceive l raw fixed => Sys2Proof.Machine.execFlitReceive l raw fixed s
  | .replayTimeout l elapsed => Sys2Proof.Machine.execReplayTimeout l elapsed s
  | .packetReceive l vc => Sys2Proof.Machine.execPacketReceive l vc s
  | .linkGoesDown l why => Sys2Proof.Machine.execLinkGoesDown l why s
  | .unreachReceive header reason => Sys2Proof.Machine.execUnreachReceive header reason s
  | .linkDown => Sys2Proof.Machine.execLinkDown s
  | .linkUp l t => Sys2Proof.Machine.execLinkUp l t s
  | .bar2Read off size errs viaIde => Sys2Proof.Machine.execBar2Read off size errs viaIde s
  | .bar2Write off bytes errs viaIde urOn => Sys2Proof.Machine.execBar2Write off bytes errs viaIde urOn s
  | .perstNAssert => Sys2Proof.Machine.execPerstNAssert s
  | .ringSnapshot views => Sys2Proof.Machine.execRingSnapshot views s
  | .ringEnable r en viaIde => Sys2Proof.Machine.execRingEnable r en viaIde s
  | .pcieLinkDown => Sys2Proof.Machine.execPcieLinkDown s
  | .pcieLinkUp width rate => Sys2Proof.Machine.execPcieLinkUp width rate s
  | .ideIntegrityFailure => Sys2Proof.Machine.execIdeIntegrityFailure s
  | .supplyLost rail => Sys2Proof.Machine.execSupplyLost rail s
  | .thermalThrottle sensor tempDC => Sys2Proof.Machine.execThermalThrottle sensor tempDC s
  | .thermalTrip sensor tempDC => Sys2Proof.Machine.execThermalTrip sensor tempDC s
  | .mgmtClockLost mc => Sys2Proof.Machine.execMgmtClockLost mc s
  | .outputImageAccept o => Sys2Proof.Machine.execOutputImageAccept o s
  | .alStateRequest a sm2 sm3 => Sys2Proof.Machine.execAlStateRequest a sm2 sm3 s
  | .sdoRead index sub => Sys2Proof.Machine.execSdoRead index sub s
  | .sdoWrite index sub value => Sys2Proof.Machine.execSdoWrite index sub value s
  | .masterLost elapsedMs accepted => Sys2Proof.Machine.execMasterLost elapsedMs accepted s
  | .wardWrite w value => Sys2Proof.Machine.execWardWrite w value s
  | .wardBitBurn ok => Sys2Proof.Machine.execWardBitBurn ok s
  | .wardAuth bytes => Sys2Proof.Machine.execWardAuth bytes s
  | .tallyHandover => Sys2Proof.Machine.execTallyHandover s
  | .tallyRelease => Sys2Proof.Machine.execTallyRelease s
  | .tallyNextPop => Sys2Proof.Machine.execTallyNextPop s
  | .tallyReaderWrite value => Sys2Proof.Machine.execTallyReaderWrite value s
  | .getVersion => Sys2Proof.Machine.execGetVersion s
  | .getCapabilities => Sys2Proof.Machine.execGetCapabilities s
  | .negotiateAlgorithms supported => Sys2Proof.Machine.execNegotiateAlgorithms supported s
  | .getDigests => Sys2Proof.Machine.execGetDigests s
  | .getCertificate slot => Sys2Proof.Machine.execGetCertificate slot s
  | .challenge slot => Sys2Proof.Machine.execChallenge slot s
  | .getMeasurements index signed => Sys2Proof.Machine.execGetMeasurements index signed s
  | .keyExchange slot => Sys2Proof.Machine.execKeyExchange slot s
  | .finish session macOk => Sys2Proof.Machine.execFinish session macOk s
  | .heartbeat session => Sys2Proof.Machine.execHeartbeat session s
  | .keyUpdate session => Sys2Proof.Machine.execKeyUpdate session s
  | .endSession session => Sys2Proof.Machine.execEndSession session s
  | .vendorDefinedRequest session stream go => Sys2Proof.Machine.execVendorDefinedRequest session stream go s
  | .entropyFailed test => Sys2Proof.Machine.execEntropyFailed test s
  | .dbgOpen path level => Sys2Proof.Machine.execDbgOpen path level s
  | .dbgClose path => Sys2Proof.Machine.execDbgClose path s
  | .dbgHalt => Sys2Proof.Machine.execDbgHalt s
  | .dbgStep => Sys2Proof.Machine.execDbgStep s
  | .dbgResume => Sys2Proof.Machine.execDbgResume s
  | .dbgDataRead => Sys2Proof.Machine.execDbgDataRead s
  | .dbgDataWrite value => Sys2Proof.Machine.execDbgDataWrite value s
  | .tapReset trstN => Sys2Proof.Machine.execTapReset trstN s
  | .dumpDataRead => Sys2Proof.Machine.execDumpDataRead s
  | .coldReset => Sys2Proof.Machine.execColdReset s
  | .warmReset => Sys2Proof.Machine.execWarmReset s
  | .startUp n => Sys2Proof.Machine.execStartUp n s
  | .chipFault f => Sys2Proof.Machine.execChipFault f s
  | .dumpFCopy => Sys2Proof.Machine.execDumpFCopy s
  | .reducedDump => Sys2Proof.Machine.execReducedDump s
  | .droopTrip c => Sys2Proof.Machine.execDroopTrip c s
  | .coreStateLost => Sys2Proof.Machine.execCoreStateLost s
  | .ostlerLeaveService o => Sys2Proof.Machine.execOstlerLeaveService o s
  | .ostlerReadmit o => Sys2Proof.Machine.execOstlerReadmit o s
  | .imgData bytes programmed => Sys2Proof.Machine.execImgData bytes programmed s
  | .imgBegin => Sys2Proof.Machine.execImgBegin s
  | .imgVerify signed lpRate nandRate => Sys2Proof.Machine.execImgVerify signed lpRate nandRate s
  | .activate => Sys2Proof.Machine.execActivate s
  | .imgAbort => Sys2Proof.Machine.execImgAbort s
  | .rollingUpdateStep => Sys2Proof.Machine.execRollingUpdateStep s
  | .tumblerRestart => Sys2Proof.Machine.execTumblerRestart s
  | .tumblerRestartTimeout => Sys2Proof.Machine.execTumblerRestartTimeout s
  | .thermalThrottleEnd temps => Sys2Proof.Machine.execThermalThrottleEnd temps s
  | .tumblerRestartEnd nonce => Sys2Proof.Machine.execTumblerRestartEnd nonce s
  | .perstNRelease => Sys2Proof.Machine.execPerstNRelease s
  | .ethercatPortLinkChange portB up => Sys2Proof.Machine.execEthercatPortLinkChange portB up s
  | .distributedClockFailure => Sys2Proof.Machine.execDistributedClockFailure s
  | .slotStagedReport chip tackId => Sys2Proof.Machine.execSlotStagedReport chip tackId s

end Sys2Proof.Machine
end

