-- ==== Sys2Proof/Safety.lean ====
section
/-!
DEFINITION. The terms claims use: safe runs, what a command leaves alone, and the invariants of the stores a claim reads through.
-/
namespace Sys2Proof

open Sys2Proof.Machine

/-- Every one of the first `n` steps from `s` answers a next state. -/
def runsOn : Nat → State → Prop
  | 0, _ => True
  | n + 1, s => ∃ t, step s = .next t ∧ runsOn n t

/-- The part awaits reset after a chip fault (R608). -/
def stopped (s : State) : Prop := s.chipFault.isSome = true

/-- Every byte of memory reads as before. -/
def memSame (s t : State) : Prop := ∀ a, readByte t a = readByte s a

/-- Every byte of memory but the `n` from `a` reads as before. -/
def memSameBut (a n : Nat) (s t : State) : Prop := ∀ i, i < a ∨ a + n ≤ i → readByte t i = readByte s i

/-- Nothing but the cores differs. -/
def onlyCores (s t : State) : Prop := t = { s with cores := t.cores }

/-- A core's scalar registers and threads are stored in canonical form. -/
def coreOk (k : Core) : Bool := scanon 0#64 none k.sreg && scanon {} none k.threads

/-- The cores are stored in canonical form, and each core's registers and threads are. -/
def coresOk (s : State) : Bool := scanon {} none s.cores && s.cores.all (fun p => coreOk p.2)

/-- Thread `t` of core `c` may issue the scalar instruction `f` at its PC: it is ready (R173), the 8 bytes at the PC and those after
them lie in backed scratchpad, the PC is aligned, and no reserved field is 1 (R176, R177). -/
def scalarClear (s : State) (c : CoreId) (t : ThreadId) (f : ScalarF) : Prop :=
  groomReady s c.val t.val = true ∧ (threadOf s c.val t.val).pc % 8 = 0 ∧
  spadBacked s c.val (threadOf s c.val t.val).pc 8 = true ∧ spadBacked s c.val ((threadOf s c.val t.val).pc + 8) 8 = true ∧
  f.rsvd = 0

/-- S[DST] = `v`, and the thread goes on at PC + 8. -/
def wrote (s : State) (c : CoreId) (t : ThreadId) (dst : RegNo) (v : Word) : State :=
  threadMove c.val t.val ((threadOf s c.val t.val).pc + 8) (setSreg c.val dst v s)

/-- A request for a synchronisation object that the chip serves (R346, R461). -/
def served (s : State) (r : SyncReq) (type : Nat) : Prop :=
  fabricUp s = true ∧ s.job.chgOpen = false ∧ r.epoch = s.job.epoch ∧ (objOf s r.obj.val).type = type

/-- The instruction `v` of operation `op` is the next of the vector program `k` in progress on engine `e`, and passes every check of
R207 to R216 and R235. -/
def vecClear (s : State) (e : EngId) (op : VecOp) (v : VecF) (k : VecAt) : Prop :=
  vecAt s e.val = some k ∧ spadBacked s (coreOfEng k.e) (k.g.vec.off + 32 * k.x.vecIdx) 32 = true ∧ k.x.vecIdx < 256 ∧
  vecInvalid k (runCompat s) op v = false ∧ vecAddr s k op v = none

/-- The state in which a vector instruction of operation `op` has written `o`: its cycles charged, the program at the next
instruction (R203, R216). -/
def vecWrote (k : VecAt) (op : VecOp) (v : VecF) (o : VecOut) (s : State) : State :=
  modEng k.e (fun g => { g with firing := some { k.x with vecIdx := k.x.vecIdx + 1 } })
    (writeOutAll k v o (measAdd k.x.step .issueFc k.e (vecFc op v) s))

/-- `f` of the elements of A and B at every enabled row and every column, in row order (R207, R215). -/
def elementwise (s : State) (k : VecAt) (v : VecF) (f : Int → Int → Int) : VecOut :=
  { els := (rowsOn s k v).flatMap (fun r => (List.range (vCols v)).map (fun c =>
      (r, c, f (elemAt s k v.a v.fa.toNat r c) (elemAt s k v.b v.fb.toNat r c)))) }

/-- The Hitch serves a message of epoch `ep` (R368, R461). -/
def hitchServes (s : State) (h : HitchId) (ep : BitVec 3) : Prop :=
  fabricUp s = true ∧ s.job.chgOpen = false ∧ (hitchOf s h.val).halted = false ∧ ep = s.job.epoch

/-- Every command but the resets, which start the part over. -/
def notReset (c : Instr) : Prop := c ≠ .coldReset ∧ c ≠ .warmReset

end Sys2Proof
end

