-- ==== Sys2Proof/WellFormed.lean ====
section
/-!
DEFINITION. Well-formed commands: every operand fits the field that it is read from. An operand whose type has the width of its
field needs no check; a field value that the spec reserves is well-formed, and what the part does with it is its meaning.
-/
namespace Sys2Proof

/-- `v` fits `w` bits. -/
def fits (w v : Nat) : Bool := decide (v < 2 ^ w)

/-- A size of a register or window access: 1, 2, 4 or 8 bytes; what R20 does with sizes 1 and 2 is the meaning of the access. -/
def sizeOk (n : Nat) : Bool := n = 1 || n = 2 || n = 4 || n = 8

/-- The fields of a Hitch header (R366). -/
def HitchHdr.wf (m : HitchHdr) : Bool := fits 8 m.src && fits 16 m.token

/-- The fields of a serving request (R394). -/
def ServeReq.wf (r : ServeReq) : Bool :=
  fits 64 r.reqTag && fits 32 r.session && fits 12 r.client && fits 1 r.kvTier && fits 64 r.src && fits 24 r.count &&
  fits 64 r.parentsAt && fits 64 r.out && fits 32 r.maxNew && fits 32 r.endToken && fits 64 r.target &&
  r.tokens.all (fits 32) && r.parents.all (fits 32)

/-- The fields of a weight command (R419). -/
def WeightCmd.wf (w : WeightCmd) : Bool :=
  fits 64 w.cmdTag && fits 32 w.objId && fits 2 w.tier && fits 1 w.die && fits 32 w.modelId &&
  fits 64 w.src && fits 64 w.bytes && fits 32 w.session && fits 64 w.status && fits 64 w.desc && fits 13 w.hops

/-- The fields of a job command (R444). -/
def JobCmd.wf (j : JobCmd) : Bool := fits 64 j.cmdTag && fits 64 j.tackId && fits 12 j.client && fits 21 j.term && fits 64 j.target

/-- Units of a read in ascending order of address (R301). -/
def errsOk (l : List (BitVec 48 × UnitErr)) : Bool := (l.zip (l.drop 1)).all (fun p => p.1.1.toNat < p.2.1.toNat)

/-- What a read brings (R301). -/
def ReadEnd.wf : ReadEnd → Bool
  | .data errs => errsOk errs
  | .portFailed => true

/-- The output image (R542). -/
def OutImage.wf (o : OutImage) : Bool := fits 16 o.budget

/-- An object-dictionary address (R537). -/
def odOk (index sub : Nat) : Bool := fits 16 index && fits 8 sub

/-- What start-up finds: four images are checked (R597), ports are numbered 0 to 39 (R271). -/
def StartIn.wf (i : StartIn) : Bool :=
  decide (i.imageOk.length = 4) && i.failed.all (fun p => decide (p < 40)) && i.absent.all (fun p => decide (p < 40))

/-- Every operand of the command fits its field. -/
def Instr.wf : Instr → Bool
  | .registerWrite _ off size _ _ => fits 26 off && sizeOk size
  | .readLowWordLatch off size _ => fits 26 off && sizeOk size
  | .bar0UnimplementedAccess _ off size _ => fits 26 off && sizeOk size
  | .strideBoundary b => fits 16 b.pMeasW && fits 16 b.tailW
  | .issueSpanStart => true
  | .stepBegin _ => true
  | .strideWatchdog => true
  | .boundaryTimer _ => true
  | .markerSend => true
  | .markerReceive _ _ => true
  | .markerLoss => true
  | .lenReqReceive _ _ => true
  | .strideEventReceive _ _ => true
  | .strideInEdge _ => true
  | .strideInTimeout _ => true
  | .sync0Event _ => true
  | .throttleNChange _ => true
  | .powerFailNFall _ => true
  | .powerFailNRise => true
  | .odOvfClear index sb _ _ => odOk index sb
  | .tmac _ _ _ => true
  | .tout _ _ _ => true
  | .resload _ _ _ => true
  | .tileInstructionComplete _ => true
  | .li _ _ _ => true
  | .lui _ _ _ => true
  | .add _ _ _ => true
  | .sub _ _ _ => true
  | .mul _ _ _ => true
  | .shl _ _ _ => true
  | .shr _ _ _ => true
  | .sar _ _ _ => true
  | .and _ _ _ => true
  | .or _ _ _ => true
  | .xor _ _ _ => true
  | .min _ _ _ => true
  | .max _ _ _ => true
  | .ld _ _ _ => true
  | .st _ _ _ => true
  | .beq _ _ _ => true
  | .bne _ _ _ => true
  | .blt _ _ _ => true
  | .jmp _ _ _ => true
  | .twait _ _ _ => true
  | .stepEnd _ _ _ => true
  | .scalarLoadReturn _ _ => true
  | .gaitFire _ => true
  | .gaitSwitch _ => true
  | .creditReturnSend _ _ => true
  | .creditReturn _ _ _ _ => true
  | .tokenArrive _ => true
  | .earlyTokenExpire _ => true
  | .drainBegin => true
  | .drainComplete => true
  | .drainTimeout => true
  | .hardStop => true
  | .creditWriteOff => true
  | .hingeFlitFailed _ _ _ => true
  | .vecAdd _ _ => true
  | .vecSub _ _ => true
  | .vecMul _ _ => true
  | .mulsh _ _ => true
  | .mulrs _ _ => true
  | .vecMin _ _ => true
  | .vecMax _ _ => true
  | .abs _ _ => true
  | .vecAnd _ _ => true
  | .vecOr _ _ => true
  | .vecXor _ _ => true
  | .vecShl _ _ => true
  | .vecSar _ _ => true
  | .srhe _ _ => true
  | .cvt _ _ => true
  | .emask _ _ => true
  | .rsum _ _ => true
  | .rmax _ _ => true
  | .rmin _ _ => true
  | .csum _ _ => true
  | .cmax _ _ => true
  | .cmin _ _ => true
  | .sfn _ _ => true
  | .sfnmul _ _ => true
  | .expsub _ _ => true
  | .vecVend _ _ => true
  | .adc _ _ => true
  | .sbb _ _ => true
  | .mulw _ _ => true
  | .sftLoad => true
  | .sftLoadDone => true
  | .sftCancel => true
  | .sftCommit => true
  | .seta _ _ _ _ => true
  | .adda _ _ _ _ => true
  | .loop _ _ _ _ => true
  | .endl _ _ _ _ => true
  | .streamLoad _ _ _ => true
  | .store _ _ _ => true
  | .recv _ _ _ => true
  | .send _ _ _ => true
  | .streamSync _ _ _ => true
  | .fin _ _ _ _ => true
  | .curbAdmit _ _ => true
  | .curbArbitrate _ => true
  | .tierReadReturn _ _ how _ => how.wf
  | .runCommit _ _ => true
  | .readDeadline _ _ _ _ => true
  | .agResume _ _ => true
  | .runResume _ _ => true
  | .pageIn _ => true
  | .pageInComplete _ _ => true
  | .pageEvict _ => true
  | .evictWriteBack _ => true
  | .portRetrain _ _ _ => true
  | .portRestore _ => true
  | .portRestoreDone _ _ => true
  | .aliasWrite _ _ => true
  | .farrierRegionTest _ _ _ => true
  | .patrolScrub _ errs => decide (errs.length = 4)
  | .counterSet _ _ => true
  | .counterFetchIncrement _ => true
  | .counterAdd _ _ => true
  | .counterWait _ _ => true
  | .barrierArriveWait _ => true
  | .barrierArrive _ => true
  | .workctrClaim _ _ => true
  | .syncWaitTimeout _ => true
  | .syncResponse _ _ _ => true
  | .syncReissue _ _ _ _ => true
  | .launchOpen _ _ => true
  | .hitchDispatchArrive _ m _ _ _ => m.wf
  | .hitchEndMarker _ m => m.wf
  | .expertReturnSend _ _ n => fits 16 n
  | .hitchReturnArrive _ m n _ _ => m.wf && fits 16 n
  | .hitchCreditReturn _ _ _ _ => true
  | .launchTimeout _ _ => true
  | .sessOpen r => r.wf
  | .sessAppend r => r.wf
  | .sessVerify r => r.wf
  | .sessCancel r => r.wf
  | .sessClose r => r.wf
  | .closeComplete _ => true
  | .prefillWaveStart => true
  | .decodeWaveStart => true
  | .stepCommit _ => true
  | .prefillCommit _ => true
  | .requestFaultEnd => true
  | .slotRelease _ => true
  | .completionPost _ => true
  | .weightLoad w _ _ => w.wf
  | .weightRelay w _ _ => w.wf
  | .weightDrop w => w.wf
  | .weightStage w _ _ _ => w.wf
  | .weightBind w => w.wf
  | .weightList w => w.wf
  | .objectStateUpdate => true
  | .relayChunkReceive _ _ _ _ _ => true
  | .relayAck _ _ _ => true
  | .relayHopUnreachable _ _ => true
  | .relayResumeQuery _ _ => true
  | .relayComplete _ _ => true
  | .tackInstall g => fits 32 g.rootStrides
  | .installPhaseAdvance => true
  | .installComplete => true
  | .switchOverrun _ => true
  | .jobSubmit j => j.wf
  | .jobEnd j => j.wf
  | .jobTenant j => j.wf
  | .tenantReq _ => true
  | .termExpiry => true
  | .jobSelection => true
  | .changeoverOpen _ => true
  | .changeoverZero _ => true
  | .changeoverClose => true
  | .linkTrain _ _ => true
  | .linkRetrain _ => true
  | .linkRecal _ => true
  | .laneRecal _ _ => true
  | .laneRestore _ _ => true
  | .flitReceive _ _ _ => true
  | .replayTimeout _ _ => true
  | .packetReceive _ _ => true
  | .linkGoesDown _ _ => true
  | .unreachReceive _ reason => fits 8 reason
  | .linkDown => true
  | .linkUp _ _ => true
  | .bar2Read off size errs _ => fits 36 off && decide (1 ≤ size ∧ size ≤ 4096) && errsOk errs
  | .bar2Write off bytes errs _ _ => fits 36 off && decide (1 ≤ bytes.length ∧ bytes.length ≤ 512) && errsOk errs
  | .perstNAssert => true
  | .ringSnapshot _ => true
  | .ringEnable _ _ _ => true
  | .pcieLinkDown => true
  | .pcieLinkUp _ _ => true
  | .ideIntegrityFailure => true
  | .supplyLost _ => true
  | .thermalThrottle _ _ => true
  | .thermalTrip _ _ => true
  | .mgmtClockLost _ => true
  | .outputImageAccept o => o.wf
  | .alStateRequest _ _ _ => true
  | .sdoRead index sb => odOk index sb
  | .sdoWrite index sb _ => odOk index sb
  | .masterLost _ _ => true
  | .wardWrite _ _ => true
  | .wardBitBurn _ => true
  | .wardAuth _ => true
  | .tallyHandover => true
  | .tallyRelease => true
  | .tallyNextPop => true
  | .tallyReaderWrite _ => true
  | .getVersion => true
  | .getCapabilities => true
  | .negotiateAlgorithms _ => true
  | .getDigests => true
  | .getCertificate _ => true
  | .challenge _ => true
  | .getMeasurements _ _ => true
  | .keyExchange _ => true
  | .finish _ _ => true
  | .heartbeat _ => true
  | .keyUpdate _ => true
  | .endSession _ => true
  | .vendorDefinedRequest _ _ _ => true
  | .entropyFailed _ => true
  | .dbgOpen _ _ => true
  | .dbgClose _ => true
  | .dbgHalt => true
  | .dbgStep => true
  | .dbgResume => true
  | .dbgDataRead => true
  | .dbgDataWrite _ => true
  | .tapReset _ => true
  | .dumpDataRead => true
  | .coldReset => true
  | .warmReset => true
  | .startUp i => i.wf
  | .chipFault f => fits 16 f.code
  | .dumpFCopy => true
  | .reducedDump => true
  | .droopTrip _ => true
  | .coreStateLost => true
  | .ostlerLeaveService _ => true
  | .ostlerReadmit _ => true
  | .imgData _ _ => true
  | .imgBegin => true
  | .imgVerify _ _ _ => true
  | .activate => true
  | .imgAbort => true
  | .rollingUpdateStep => true
  | .tumblerRestart => true
  | .tumblerRestartTimeout => true
  | .thermalThrottleEnd _ => true
  | .tumblerRestartEnd _ => true
  | .perstNRelease => true
  | .ethercatPortLinkChange _ _ => true
  | .distributedClockFailure => true
  | .slotStagedReport _ n => fits 64 n

end Sys2Proof
end

