-- ==== Sys2Proof/Certificates/Slice0/Obligations.lean ====
section
/-!
DEFINITION. The statements about the model that are to be proved.
-/

open Sys2Proof Sys2Proof.Machine

/-- The command at the front of the queue takes effect on the rest; on an empty queue the part idles, the model's choice (log 1). -/
def Obligations.StepRunsFront : Prop :=
  (∀ (c : Instr) (rest : List Instr) (s : State), s.pending = c :: rest → step s = exec c { s with pending := rest }) ∧
  (∀ s : State, s.pending = [] → step s = .next s)

/-- What the stores of the part look like after every step: the queue has lost its front, memory and cores keep their canonical form.
The model's choices in it: log 4. -/
def Obligations.StepKeepsForm : Prop :=
  ∀ s t : State, step s = .next t → Memory.wf s.mem = true → coresOk s = true →
    t.pending = s.pending.tail ∧ Memory.wf t.mem = true ∧ coresOk t = true

/-- The form that StepKeepsForm keeps holds right after reset, and the queue is empty.
The model's choices in it: log 4. -/
def Obligations.ResetHasForm : Prop :=
  Memory.wf State.reset.mem = true ∧ coresOk State.reset = true ∧ State.reset.pending = []

/-- Fuses burn one way (R552): no command lowers a ward's count. -/
def Obligations.WardsOnlyRise : Prop :=
  ∀ (c : Instr) (s t : State), exec c s = .next t →
    s.fuses.protCount ≤ t.fuses.protCount ∧ s.fuses.tumblerFloor ≤ t.fuses.tumblerFloor ∧ s.fuses.etxiaFloor ≤ t.fuses.etxiaFloor

/-- A chip fault stands, with its code, until a reset (R608, R613): every other command leaves it. -/
def Obligations.ChipFaultStands : Prop :=
  ∀ (c : Instr) (s t : State) (code : Nat), exec c s = .next t → s.chipFault = some code → c ≠ .coldReset → c ≠ .warmReset →
    t.chipFault = some code

/-- TENANT changes at the end of a changeover alone (R458); a reset aside, no other command touches it. -/
def Obligations.TenantStands : Prop :=
  ∀ (c : Instr) (s t : State), exec c s = .next t → c ≠ .coldReset → c ≠ .warmReset → c ≠ .changeoverClose →
    t.job.tenant = s.job.tenant

/-- The register file (R171): S0 reads 0 and a write to it is discarded; a register written reads as written; every other register
reads as before. -/
def Obligations.RegisterFile : Prop :=
  ∀ (s : State) (c : CoreId) (r q : RegNo) (v : Word), coresOk s = true →
    sreg (setSreg c.val r v s) c.val q = if q = 0 then 0 else if q = r then v else sreg s c.val q

/-- The scalar instructions that compute (R176, R177): each value, wrapping modulo 2^64. -/
def Obligations.ScalarResults : Prop :=
  ∀ (c : CoreId) (t : ThreadId) (f : ScalarF) (s : State), scalarClear s c t f →
    let a := sreg s c.val f.src1
    let b := sreg s c.val f.src2
    let n := f.imm.toNat % 64
    exec (.li c t f) s = .next (wrote s c t f.dst (f.imm.signExtend 64)) ∧
    exec (.lui c t f) s = .next (wrote s c t f.dst (f.imm ++ (sreg s c.val f.dst).extractLsb' 0 32)) ∧
    exec (.add c t f) s = .next (wrote s c t f.dst (a + b + f.imm.signExtend 64)) ∧
    exec (.sub c t f) s = .next (wrote s c t f.dst (a - b)) ∧
    exec (.mul c t f) s = .next (wrote s c t f.dst (a * b)) ∧
    exec (.shl c t f) s = .next (wrote s c t f.dst (a <<< n)) ∧
    exec (.shr c t f) s = .next (wrote s c t f.dst (a >>> n)) ∧
    exec (.sar c t f) s = .next (wrote s c t f.dst (a.sshiftRight n)) ∧
    exec (.and c t f) s = .next (wrote s c t f.dst (a &&& b)) ∧
    exec (.or c t f) s = .next (wrote s c t f.dst (a ||| b)) ∧
    exec (.xor c t f) s = .next (wrote s c t f.dst (a ^^^ b)) ∧
    exec (.min c t f) s = .next (wrote s c t f.dst (if a.toInt < b.toInt then a else b)) ∧
    exec (.max c t f) s = .next (wrote s c t f.dst (if a.toInt < b.toInt then b else a))

/-- What an instruction that writes a register leaves alone: everything but its core; in its core every register but DST, every
thread but its own; of its own thread the step it is in. The PC goes to PC + 8. -/
def Obligations.ScalarFrame : Prop :=
  ∀ (c : CoreId) (t : ThreadId) (f : ScalarF) (s : State) (v : Word), coresOk s = true → scalarClear s c t f →
    let u := wrote s c t f.dst v
    onlyCores s u ∧ memSame s u ∧ (∀ k, k ≠ c.val → coreOf u k = coreOf s k) ∧
    sreg u c.val f.dst = (if f.dst = 0 then 0 else v) ∧ (∀ q, q ≠ f.dst → sreg u c.val q = sreg s c.val q) ∧
    (∀ k, k ≠ t.val → threadOf u c.val k = threadOf s c.val k) ∧
    threadOf u c.val t.val =
      { threadOf s c.val t.val with pc := (threadOf s c.val t.val).pc + 8, wait := .none, full := none }

/-- The branches (R176): to PC + IMM × 8 where the condition holds, signed for BLT, else to PC + 8; a branch that is taken to a target
outside backed scratchpad is refused with SCALAR_ALIGN (R177). TWAIT goes on once no tile instruction of the thread is open, and holds the
thread until then; STEP_END (R172) ends the thread's work for the step.
The model's choices in it: log 2, 15 and 71. -/
def Obligations.BranchTargets : Prop :=
  ∀ (c : CoreId) (t : ThreadId) (f : ScalarF) (s : State), scalarClear s c t f →
    let pc := (threadOf s c.val t.val).pc
    let a := sreg s c.val f.src1
    let b := sreg s c.val f.src2
    let dest : Int := pc + f.imm.toInt * 8
    let past : State := threadMove c.val t.val (pc + 8) s
    let taken : State := if pcBacked s c.val dest = true then threadMove c.val t.val dest.toNat s
      else groomRefuse c.val t.val 0 0x0315 (item 6 (ofSigned 48 dest)) 0 0 s
    exec (.beq c t f) s = .next (if a = b then taken else past) ∧
    exec (.bne c t f) s = .next (if a = b then past else taken) ∧
    exec (.blt c t f) s = .next (if a.toInt < b.toInt then taken else past) ∧
    exec (.jmp c t f) s = .next taken ∧
    exec (.twait c t f) s = .next (if tilesOpen s c.val t.val = true then s else past) ∧
    exec (.stepEnd c t f) s = .next (threadAdvance c.val t.val (modThread c.val t.val (fun h => { h with done := true })
      (snapRegs c.val t.val (threadMove c.val t.val (pc + 8) s))))

/-- Through the bit-set alias w becomes w OR v, through the bit-clear alias w AND NOT v, and no other byte changes (R321). An ST to an alias
sends v to its bank, its thread waiting; ALIAS_WRITE is the bank's work on it, for the thread or for a stream's STORE. Where the bank's read
fails nothing is written and the writer is refused (R322).
The model's choices in it: log 24 and 85. -/
def Obligations.AliasWrites : Prop :=
  (∀ (c : CoreId) (t : ThreadId) (f : ScalarF) (s : State) (k off : Nat), coresOk s = true → Memory.wf s.mem = true →
    scalarClear s c t f →
    let a := sreg s c.val f.src1 + f.imm.signExtend 64
    let v := sreg s c.val f.src2
    a.toNat % 8 = 0 → a.toNat < 2 ^ 48 →
    (regionOf s a.toNat = .setAlias k off ∨ regionOf s a.toNat = .clrAlias k off →
      exec (.st c t f) s = .next (modThread c.val t.val (fun h => { h with wait := .bank a.toNat v })
        (threadMove c.val t.val ((threadOf s c.val t.val).pc + 8) s)))) ∧
  (∀ (w : AtomicWriter) (a : Nat) (v : Word) (c o : Nat) (s : State), fabricUp s = true → aliasNext s w = some (a, v) →
    Memory.wf s.mem = true →
    (aliasTarget s a = some (true, c, o) → ∃ t, exec (.aliasWrite w {}) s = .next t ∧
      readWord t (spadAddr c o) = (readWord s (spadAddr c o) ||| v) ∧ memSameBut (spadAddr c o) 8 s t) ∧
    (aliasTarget s a = some (false, c, o) → ∃ t, exec (.aliasWrite w {}) s = .next t ∧
      readWord t (spadAddr c o) = (readWord s (spadAddr c o) &&& ~~~v) ∧ memSameBut (spadAddr c o) 8 s t) ∧
    (∀ b x, aliasTarget s a = some (b, c, o) → eccBad (unitEcc s (spadAddr c o) x) = true →
      exec (.aliasWrite w x) s = .next (aliasRefuse w c o (unitFound x (spadAddr c o) s)) ∧
      memSame s (aliasRefuse w c o (unitFound x (spadAddr c o) s))))

/-- LD of memory (R173, R176): its thread waits, and SCALAR_LOAD_RETURN puts the 8 bytes at the address into S[DST] and lets it go on. ST
to scratchpad (R176): the 8 bytes at the address take S[SRC2], least significant byte first, and every other byte reads as before; the
registers are as before.
The model's choices in it: log 71. -/
def Obligations.LoadsAndStores : Prop :=
  (∀ (c : CoreId) (t : ThreadId) (f : ScalarF) (s : State) (k off : Nat), coresOk s = true → scalarClear s c t f →
    let a := sreg s c.val f.src1 + f.imm.signExtend 64
    a.toNat % 8 = 0 → a.toNat < 2 ^ 48 → regionOf s a.toNat = .spad k off →
    ∃ u v, exec (.ld c t f) s = .next u ∧
      threadOf u c.val t.val = { threadOf s c.val t.val with
        pc := (threadOf s c.val t.val).pc + 8, wait := .mem f.dst a.toNat, full := none } ∧
      onlyCores s u ∧
      exec (.scalarLoadReturn c t) u = .next v ∧ onlyCores u v ∧
      sreg v c.val f.dst = (if f.dst = 0 then 0 else readWord s a.toNat) ∧
      (threadOf v c.val t.val).wait = .none ∧ (∀ q, q ≠ f.dst → sreg v c.val q = sreg s c.val q)) ∧
  (∀ (c : CoreId) (t : ThreadId) (f : ScalarF) (s : State) (k off : Nat), coresOk s = true → Memory.wf s.mem = true →
    scalarClear s c t f →
    let a := sreg s c.val f.src1 + f.imm.signExtend 64
    a.toNat % 8 = 0 → a.toNat < 2 ^ 48 → regionOf s a.toNat = .spad k off →
    ∃ u, exec (.st c t f) s = .next u ∧ readWord u a.toNat = sreg s c.val f.src2 ∧ memSameBut a.toNat 8 s u ∧
      u = { s with mem := u.mem, cores := u.cores } ∧ (∀ q, sreg u c.val q = sreg s c.val q) ∧
      (threadOf u c.val t.val).pc = (threadOf s c.val t.val).pc + 8)

/-- The operations of a COUNTER (R337): what each does to VALUE, and what its requester receives. A wait whose bound is not met joins
the waiters. -/
def Obligations.CounterOperations : Prop :=
  ∀ (r : SyncReq) (d : Word) (s : State), served s r 1 →
    let n := r.obj.val
    let v := (objOf s n).value
    exec (.counterSet r d) s = .next (counterPut n d.toInt true s) ∧
    exec (.counterAdd r d) s = .next (counterPut n (v + d.toInt) false s) ∧
    exec (.counterFetchIncrement r) s =
      .next (sendSyncRsp r.chip.toNat r.core.val r.thread.val r.info (BitVec.ofInt 64 v) (counterPut n (v + 1) false s)) ∧
    (d.toInt ≤ v →
      exec (.counterWait r d) s = .next (sendSyncRsp r.chip.toNat r.core.val r.thread.val r.info (BitVec.ofInt 64 v) s)) ∧
    (v < d.toInt → exec (.counterWait r d) s = .next (modObj n (fun o => { o with
      waiters := o.waiters ++ [{ chip := r.chip.toNat, core := r.core, thread := r.thread, bound := d.toInt, info := r.info }] }) s))

/-- VALUE clamps to the range of a signed 64-bit value and OVF then reads 1 until a ST to VALUE (R341); the waits whose bound is met
end, the others stay; no other object changes. -/
def Obligations.CounterClamps : Prop :=
  ∀ (n : Nat) (x : Int) (clear : Bool) (s : State),
    let v := if x < -(2 ^ 63) then -(2 ^ 63) else if (2 ^ 63 : Int) - 1 < x then 2 ^ 63 - 1 else x
    (counterPut n x clear s).sync = { s.sync with objs := smod {} s.sync.objs n (fun o => { o with
      value := v, ovf := (o.ovf && !clear) || decide (v ≠ x), waiters := o.waiters.filter (fun w => decide (v < w.bound)) }) }

/-- Arrivals at a BARRIER (R342): the arrival that makes COUNT equal PARTIES sets COUNT to 0, raises GEN and hands the new GEN to
every waiting thread; any other raises COUNT and, for an LD, waits. -/
def Obligations.BarrierOperations : Prop :=
  ∀ (r : SyncReq) (s : State), served s r 2 →
    let n := r.obj.val
    let o := objOf s n
    let g : Word := BitVec.ofNat 64 (o.gen + 1).toNat
    let freed := forEach o.waiters (fun w u => deliver w g u)
      (modObj n (fun k => { k with count := 0, gen := o.gen + 1, waiters := [] }) s)
    (o.param = o.count + 1 →
      exec (.barrierArrive r) s = .next freed ∧
      exec (.barrierArriveWait r) s = .next (sendSyncRsp r.chip.toNat r.core.val r.thread.val r.info g freed)) ∧
    (o.count + 1 < o.param →
      exec (.barrierArrive r) s = .next (modObj n (fun k => { k with count := k.count + 1 }) s) ∧
      exec (.barrierArriveWait r) s = .next (modObj n (fun k => { k with
        count := k.count + 1
        waiters := k.waiters ++ [{ chip := r.chip.toNat, core := r.core, thread := r.thread, bound := 0, info := r.info }] }) s))

/-- A claim on a WORKCTR (R344): by a core that is not listed refused, and else replayed, refused, granted or told that none is left. -/
def Obligations.WorkctrClaims : Prop :=
  ∀ (r : SyncReq) (seq : BitVec 16) (s : State), served s r 3 →
    let n := r.obj.val
    let o := objOf s n
    (claimSlot o.claims r.chip.toNat r.core.val = none →
      ∃ detail, exec (.workctrClaim r seq) s = .next (syncRefuse r 0x0223 detail s)) ∧
    ∀ (k : Nat) (j : Claim), claimSlot o.claims r.chip.toNat r.core.val = some k → o.claims[k]? = some j →
    let rsp := fun (v : Word) (u : State) => sendSyncRsp r.chip.toNat r.core.val r.thread.val r.info v u
    let took := fun (v : Word) (next : Nat) => modObj n (fun q => { q with
      next := next, claims := q.claims.set k { j with valid := true, seq := seq, result := v } }) s
    (j.valid = true → seq = j.seq → exec (.workctrClaim r seq) s =
      .next (rsp j.result (modSync (fun y => { y with replays := statInc 24 y.replays }) s))) ∧
    ((j.valid = false ∨ (seq = j.seq + 1 ∧ seq ≠ j.seq)) →
      (o.next < o.limit →
        exec (.workctrClaim r seq) s = .next (rsp (BitVec.ofNat 64 o.next) (took (BitVec.ofNat 64 o.next) (o.next + o.param)))) ∧
      (o.limit ≤ o.next →
        exec (.workctrClaim r seq) s = .next (rsp 0xFFFFFFFFFFFFFFFF (took 0xFFFFFFFFFFFFFFFF o.next)))) ∧
    (j.valid = true → seq ≠ j.seq → seq ≠ j.seq + 1 →
      ∃ detail, exec (.workctrClaim r seq) s = .next (syncRefuse r 0x0224 detail s))

/-- What a waiting thread meets (R343, R498): a response ends its wait with the result in its register; an eligible request of which
nothing has come for 65,536 fc, or whose packet could not be delivered, goes again at most three times and then the job takes
LINK_UNREACHABLE; one that is not eligible takes it at once where it could not be delivered, and goes on waiting where nothing has come; a
wait that has spanned WAIT_LIMIT boundaries is declared at boundary action 1.
The model's choices in it: log 5 and 15. -/
def Obligations.SyncWaitsEnd : Prop :=
  ∀ (c : CoreId) (t : ThreadId) (v : Word) (u x : Nat) (o : Fin 8192) (s : State) (dst : RegNo) (obj n : Nat) (seq : BitVec 16) (el : Bool),
    fabricUp s = true →
    ((threadOf s c.val t.val).wait = .remote dst obj seq el n → coreStale s c.val = false →
      exec (.syncResponse c t v) s = .next (modCore c.val
        (fun k => { k with claim := if el = true ∧ obj % 4 = 2 then false else k.claim }) (modThread c.val t.val (fun h => { h with wait := .none })
        (setSreg c.val dst v s)))) ∧
    (u ≠ 0 ∨ 65536 ≤ x →
      ((threadOf s c.val t.val).wait = .remote dst obj seq true n → n < 3 →
        exec (.syncReissue c t u x) s = .next
          (sendSyncReq (threadOf s c.val t.val).step (obj / 2 ^ 16) (obj % 2 ^ 16 / 4) (obj % 4) false c.val t.val (seq.setWidth 64) true
            (syncAgain 3 c.val t.val) (modSync (fun y => { y with reissues := statInc 32 y.reissues })
              (modThread c.val t.val (fun h => { h with wait := .remote dst obj seq true (n + 1) }) s)))) ∧
      ((threadOf s c.val t.val).wait = .remote dst obj seq el n → (if el = true then 3 ≤ n else u ≠ 0) →
        exec (.syncReissue c t u x) s =
          .next (jobFault 0x0802 (headerBytes (waitPacket s c.val t.val obj seq n) ++ item 1 u) s)) ∧
      ((threadOf s c.val t.val).wait = .remote dst obj seq false n → u = 0 → exec (.syncReissue c t u x) s = .next s)) ∧
    (∀ w l, (objOf s o.val).waiters = w :: l → (∃ x ∈ w :: l, (objOf s o.val).waitLimit ≤ x.spans) → mayAct s 1 = true →
      exec (.syncWaitTimeout o) s = .next (jobFault 0x0222 (item 2 o.val ++ item 8 (syncState (objOf s o.val)).toNat ++
        item 2 w.core.val ++ item 1 w.thread.val) s))

/-- Rounding half to even (R115): the function rhe for every shift of 1 or more, its result a nearest integer to x ÷ 2^d, and the even one
of two equally near; requantisation uses it; a term shifted by 40 or more is 0. -/
def Obligations.RoundsHalfToEven : Prop :=
  ∀ (x : Int) (d desc : Nat), 1 ≤ d →
    let q := x / 2 ^ d
    let r := x - q * 2 ^ d
    let h : Int := 2 ^ (d - 1)
    rhe x d = (if h < r then q + 1 else if r = h ∧ q % 2 = 1 then q + 1 else q) ∧
    (requant x desc).1 = satInt (outBits (desc % 8)) (rhe (x * (desc / 65536 : Nat)) (desc / 256 % 64)) ∧
    2 * (rhe x d * 2 ^ d - x) ≤ 2 ^ d ∧ 2 * (x - rhe x d * 2 ^ d) ≤ 2 ^ d ∧
    (2 * (rhe x d * 2 ^ d - x) = 2 ^ d ∨ 2 * (x - rhe x d * 2 ^ d) = 2 ^ d → rhe x d % 2 = 0) ∧
    (40 ≤ d → -(2 ^ 39) < x → x < 2 ^ 39 → rhe x d = 0)

/-- TMAC, TOUT and RESLOAD that pass their checks (R175, R177, R184, R188) go to their engine's hold, the thread to PC + 32 and
TILES counts 1; while the hold has four the thread waits; a refused one halts its core (R194). -/
def Obligations.TileIssue : Prop :=
  ∀ (c : CoreId) (t : ThreadId) (f : TileF) (g : ResloadF) (s : State), groomReady s c.val t.val = true →
    let pc := (threadOf s c.val t.val).pc
    pc % 32 = 0 → spadBacked s c.val pc 32 = true →
    let issued := fun (e : Nat) (h : HeldTile) => threadMove c.val t.val (pc + 32)
      (modEng e (fun k => { k with held := k.held ++ [h] }) (measAdd h.step .tiles c.val 1 s))
    (spadBacked s c.val (pc + 32) 8 = true →
      (∀ h, holdCount s (c.val * 8 + f.eng.val) < 4 → tileAccept s c.val t.val false f = .ok h →
        exec (.tmac c t f) s = .next (issued (c.val * 8 + f.eng.val) h)) ∧
      (∀ h, holdCount s (c.val * 8 + f.eng.val) < 4 → tileAccept s c.val t.val true f = .ok h →
        exec (.tout c t f) s = .next (issued (c.val * 8 + f.eng.val) h)) ∧
      (∀ h, holdCount s (c.val * 8 + g.eng.val) < 4 → resloadAccept s c.val t.val g = .ok h →
        exec (.resload c t g) s = .next (issued (c.val * 8 + g.eng.val) h))) ∧
    (4 ≤ holdCount s (c.val * 8 + f.eng.val) →
      exec (.tmac c t f) s = .next (modThread c.val t.val (fun k => { k with full := some f.eng }) s) ∧
      exec (.tout c t f) s = .next (modThread c.val t.val (fun k => { k with full := some f.eng }) s)) ∧
    (4 ≤ holdCount s (c.val * 8 + g.eng.val) →
      exec (.resload c t g) s = .next (modThread c.val t.val (fun k => { k with full := some g.eng }) s)) ∧
    (∀ code d n a, holdCount s (c.val * 8 + f.eng.val) < 4 → tileAccept s c.val t.val false f = .refuse code d n a → code / 16 = 0x031 →
      exec (.tmac c t f) s = .next (groomRefuse c.val t.val f.eng.val code d n a s))

/-- A token of the chip's epoch (R144, R158): it takes the next slot of its queue and RECV_SEQ counts it; one from another source is
REIN_UNBOUND, one without a free slot QUEUE_OVERRUN. A token two epochs or more away is stale (R160).
The model's choices in it: log 15, 21, 43 and 80. -/
def Obligations.TokensArrive : Prop :=
  ∀ (m : TokenMsg) (s : State), fabricUp s = true → s.job.chgOpen = false →
    let e := m.dstEngine.val
    let r := rinOf s e m.dstQueue.val
    let bound : Prop := r.cfg.en = true ∧ r.cfg.srcChip = m.srcChip.toNat ∧ r.cfg.srcEngine = m.srcEngine.val ∧
      r.cfg.srcPort = m.srcPort.val
    (tagEpoch m.tag ≠ s.job.epoch → tagEpoch m.tag ≠ s.job.epoch + 1 → exec (.tokenArrive m) s = .next (staleToken m s)) ∧
    (tagEpoch m.tag = s.job.epoch → (coreOf s (coreOfEng e)).halted = false → coreStale s (coreOfEng e) = false →
      (bound → r.tokens.length < r.cfg.credits → r.tokens.length + 1 ≤ r.bound →
        exec (.tokenArrive m) s = .next (modRin e m.dstQueue.val (fun k => { k with
            tokens := k.tokens ++ [m], recvSeq := k.recvSeq + 1, occMax := Nat.max k.occMax (r.tokens.length + 1)
            exceeded := k.exceeded || decide (k.bound < r.tokens.length + 1) })
          (writeSpad (coreOfEng e) (r.cfg.tagBase * 64 + r.recvSeq.toNat % r.cfg.credits * 2) (bytesLE 2 m.tag.toNat)
            (writeSpad (coreOfEng e) (r.cfg.slotBase * 64 + r.recvSeq.toNat % r.cfg.credits * 64) (bytesLE 64 m.payload.toNat) s)))) ∧
      (¬ bound → exec (.tokenArrive m) s = .next (jobFault 0x0203 (item 2 e ++ item 1 m.dstQueue.val ++
        item 2 m.srcChip.toNat ++ item 2 m.srcEngine.val ++ item 1 m.srcPort.val) s)) ∧
      (bound → r.cfg.credits ≤ r.tokens.length → exec (.tokenArrive m) s = .next (jobFault 0x0202 (item 2 e ++
        item 1 m.dstQueue.val ++ item 2 m.srcChip.toNat ++ item 2 m.srcEngine.val ++ item 4 r.recvSeq.toNat) s)))

/-- Credits go back and come back (R141, R143, R160): a return of the chip's epoch raises AVAIL, up to CREDITS; beyond, it is
CREDIT_EXCESS. Tokens kept early for two boundaries are stale. On the hinge each retry of a flit counts, and one not delivered within 16
retries and 2,048 fabric cycles is the chip fault HINGE_FAILED (R168).
The model's choices in it: log 15 and 21. -/
def Obligations.CreditsReturn : Prop :=
  (∀ (e : EngId) (o q : ReinNo) (n : BitVec 5) (s : State), fabricUp s = true →
    (s.job.chgOpen = false →
      ((routOf s e.val o.val).avail + n.toNat ≤ (routOf s e.val o.val).cfg.credits →
        exec (.creditReturn e o n s.job.epoch) s =
          .next (modRout e.val o.val (fun r => { r with avail := r.avail + n.toNat }) (progress s))) ∧
      ((routOf s e.val o.val).cfg.credits < (routOf s e.val o.val).avail + n.toNat →
        exec (.creditReturn e o n s.job.epoch) s = .next (jobFault 0x0201 (item 2 e.val ++ item 1 o.val ++
          item 2 (routOf s e.val o.val).avail ++ item 1 n.toNat)
          (modRout e.val o.val (fun r => { r with avail := r.cfg.credits }) (progress s))))) ∧
    (∀ ep k l, (rinOf s e.val q.val).freed = (ep, k) :: l → k ≤ 16 → coreStale s (coreOfEng e.val) = false →
      exec (.creditReturnSend e q) s = .next (sendCredit (rinOf s e.val q.val).freedStep (rinOf s e.val q.val).cfg.srcChip (rinOf s e.val q.val).cfg.srcEngine
        (rinOf s e.val q.val).cfg.srcPort k ep (modRin e.val q.val (fun r => { r with freed := l }) s))) ∧
    exec (.earlyTokenExpire e) s = .next (forEach (((engOf s e.val).early).filter (fun p => 2 ≤ p.2)) (fun p t => staleToken p.1 t)
      (modEng e.val (fun g => { g with early := g.early.filter (fun p => p.2 < 2) }) s))) ∧
  (∀ (n cycles : Nat) (s : State),
    let u := modMgmt (fun m => { m with hingeRetries := statAdd 32 (Nat.min n 16) m.hingeRetries }) s
    (n ≤ 16 → cycles ≤ 2048 → exec (.hingeFlitFailed n cycles true) s = .next u) ∧
    (16 < n ∨ 2048 < cycles → exec (.hingeFlitFailed n cycles true) s = .next (chipStop 0x0209 (item 1 (Nat.min n 16) ++ item 4 u.mgmt.hingeRetries.n) true u)) ∧
    (s.chipFault = none → ∃ t, exec (.hingeFlitFailed n cycles false) s = .next t ∧ t.chipFault = some 0x0209))

/-- The end of a job (R163 to R166, R457): the drain begins, and no SOURCE gait fires again; it completes, or times out after
DRAIN_DEPTH + 64 strides, and hard-stops at the boundary after; credits owed to cores are written off 64 strides later.
The model's choices in it: log 2, 5, 15 and 20. -/
def Obligations.JobDrains : Prop :=
  (∀ (r : Running) (s : State), s.job.run = some r →
    (mayAct s 9 = true → r.started = true → r.draining = false → r.reason.isSome = true → r.drainStart ≤ s.stride.count →
      let u := modRun (fun k => { k with draining := true, drainAge := 0, unchecked := k.unchecked ++ k.openSteps }) (openNine s)
      exec .drainBegin s = .next { u with engines := smap {} (dropSources u) u.engines } ∧
      ∀ e q, (engOf u e).firing = none → q ∈ (dropSources u e (engOf u e)).entries →
        (gaitOf u e q.slot.val).source = false ∧ q ∈ (engOf u e).entries) ∧
    (mayAct s 6 = true → r.draining = true → r.hardStop = false → drainDone s = true →
      let l := staleEngines (setAct 6 s)
      let f := if l = [] then setAct 6 s else jobFault 0x0206 ((l.map (fun x => item 2 x.1 ++ item 4 x.2)).flatten) (setAct 6 s)
      exec .drainComplete s = .next (jobOver (forEach (List.range 4) closeLaunches
        (let u := linkWriteOff f
         { u with engines := smap {} (fun _ g => { g with
            ags := smap {} (fun _ a => { a with runs := a.runs.filter (fun r => r.fired && !r.ended) }) g.ags }) u.engines })))) ∧
    (mayAct s 9 = true → r.draining = true → r.hardStop = false → drainDone s = false → r.tack.ledger.drainDepth + 64 ≤ r.drainAge →
      exec .drainTimeout s = .next (modRun (fun r => { r with hardStop := true, stop := 0x0207, drainStart := s.stride.count + 1 })
        (jobFault 0x0207 (item 4 r.tack.ledger.drainDepth ++ item 4 r.drainAge) s))) ∧
    (mayAct s 7 = true → r.hardStop = true → r.drainStart ≤ s.stride.count → stopNamed s = true →
      exec .hardStop s = .next (modJob (fun j => { j with hardAge := some 0 }) (jobOver (epochAdvance
        (modSync (fun y => { y with objs := smap {} (fun _ o => { o with waiters := [] }) y.objs })
          (forEach (List.range 4) closeLaunches (forEach (jobEngines s) stopEngine (setAct 7 s))))))))) ∧
  (∀ (n : Nat) (s : State), s.job.hardAge = some n → mayAct s 7 = true → 64 ≤ n →
    let l := s.cores.filter (fun c => c.2.retCount ≠ 0)
    let u := modJob (fun j => { j with hardAge := none }) s
    (l = [] → exec .creditWriteOff s = .next u) ∧
    (l ≠ [] → exec .creditWriteOff s = .next (event 0x0282 ((l.map (fun c => item 2 c.1 ++ item 3 c.2.retCount)).flatten)
      { u with cores := smap {} (fun _ k => { k with retCount := 0 }) u.cores })))

/-- A firing starts, and a gait switches, when nothing its rule names is short (R134, R140). The work of its tile instruction comes once its
runs are committed (R184, R203): tiles in loop order, or a RESLOAD's bytes; then TILE_DONE counts 1 and the firing goes on.
The model's choices in it: log 19 and 69. -/
def Obligations.FiringsRun : Prop :=
  (∀ (e : EngId) (q : SchedEntry) (s : State), headEntry s e.val = some q →
    (canFire s e.val = true → exec (.gaitFire e) s = .next (startFiring e.val q s)) ∧
    (canSwitch s e.val = true → exec (.gaitSwitch e) s = .next
      (measAdd (engOf s e.val).step .gaitSwitches e.val 1 (modEng e.val (fun g => { g with active := q.slot }) s)))) ∧
  (∀ (e : EngId) (x : Firing) (h : HeldTile) (s : State), fabricUp s = true → coreStale s (coreOfEng e.val) = false →
    (engOf s e.val).firing = some x → x.tile = some h → runsCommitted s e.val x = true →
    (h.kind ≠ .resload → tileEmpty h = false →
      exec (.tileInstructionComplete e) s = .next (tileDone e.val x (tileRunList e.val h x.step (tileList h) none true s))) ∧
    (h.kind ≠ .resload → tileEmpty h = true → exec (.tileInstructionComplete e) s = .next (tileDone e.val x s)) ∧
    (h.kind = .resload → exec (.tileInstructionComplete e) s = .next (resloadRun e.val h s)))

/-- The vector instructions that compute element by element (R210, R211): each result exact, then saturated once to FD as it is
written; SHL, SAR and SRHE shift by B clamped to 0 to 63, EMASK keeps A where the mask is 1.
The model's choices in it: log 23. -/
def Obligations.VectorElements : Prop :=
  ∀ (e : EngId) (v : VecF) (s : State) (k : VecAt),
    let sh := v.sh.toNat
    let w := elemBits v.fd.toNat
    let by_ := fun (b : Int) => (max 0 (min b 63)).toNat
    let bits := fun (f : Nat → Nat → Nat) (a b : Int) => toSigned w (f (ofSigned w a) (ofSigned w b))
    let done := fun (op : VecOp) (f : Int → Int → Int) => vecWrote k op v (elementwise s k v f) s
    (vecClear s e .add v k → exec (.vecAdd e v) s = .next (done .add (fun a b => a + b))) ∧
    (vecClear s e .sub v k → exec (.vecSub e v) s = .next (done .sub (fun a b => a - b))) ∧
    (vecClear s e .mul v k → exec (.vecMul e v) s = .next (done .mul (fun a b => a * b))) ∧
    (vecClear s e .mulsh v k → exec (.mulsh e v) s = .next (done .mulsh (fun a b => rhe (a * b) sh))) ∧
    (vecClear s e .mulrs v k → exec (.mulrs e v) s = .next (done .mulrs (fun a b =>
      if 1 ≤ b / 2 ^ 32 - sh then rhe (a * (b % 2 ^ 32)) (b / 2 ^ 32 - sh).toNat
      else a * (b % 2 ^ 32) * 2 ^ (-(b / 2 ^ 32 - sh)).toNat))) ∧
    (vecClear s e .min v k → exec (.vecMin e v) s = .next (done .min (fun a b => min a b))) ∧
    (vecClear s e .max v k → exec (.vecMax e v) s = .next (done .max (fun a b => max a b))) ∧
    (vecClear s e .abs v k → exec (.abs e v) s = .next (done .abs (fun a _ => if a < 0 then -a else a))) ∧
    (vecClear s e .and v k → exec (.vecAnd e v) s = .next (done .and (bits (fun x y => x &&& y)))) ∧
    (vecClear s e .or v k → exec (.vecOr e v) s = .next (done .or (bits (fun x y => x ||| y)))) ∧
    (vecClear s e .xor v k → exec (.vecXor e v) s = .next (done .xor (bits (fun x y => x ^^^ y)))) ∧
    (vecClear s e .shl v k → exec (.vecShl e v) s = .next (done .shl (fun a b => a * 2 ^ by_ b))) ∧
    (vecClear s e .sar v k → exec (.vecSar e v) s = .next (done .sar (fun a b => a / 2 ^ by_ b))) ∧
    (vecClear s e .srhe v k → exec (.srhe e v) s = .next (done .srhe (fun a b => rhe a (by_ b)))) ∧
    (vecClear s e .cvt v k → exec (.cvt e v) s = .next (done .cvt (fun a _ => a))) ∧
    (vecClear s e .emask v k → exec (.emask e v) s = .next (done .emask (fun a b => if b = 1 then a else elemMin v.fd.toNat)))

/-- The reductions (R211, R213, R215): over a row or over the enabled rows of a column, D's old element among them under DACC; the
sum is exact, the maximum and minimum those of the elements, or of the format where no element takes part.
The model's choices in it: log 23. -/
def Obligations.VectorReductions : Prop :=
  ∀ (e : EngId) (v : VecF) (s : State) (k : VecAt),
    let a := fun r c => elemAt s k v.a v.fa.toNat r c
    let old := fun r c => if v.dacc then [elemAt s k v.d v.fd.toNat r c] else []
    let row := fun (f : List Int → Int) => ({ els := (rowsOn s k v).map (fun r =>
      (r, 0, f ((List.range (vCols v)).map (fun c => a r c) ++ old r 0))) } : VecOut)
    let col := fun (f : List Int → Int) => ({ els := (List.range (vCols v)).map (fun c =>
      (0, c, f ((rowsOn s k v).map (fun r => a r c) ++ old 0 c))) } : VecOut)
    let most := fun (l : List Int) => match l with | [] => elemMin v.fd.toNat | x :: m => m.foldl max x
    let least := fun (l : List Int) => match l with | [] => elemMax v.fd.toNat | x :: m => m.foldl min x
    let done := fun (op : VecOp) (o : VecOut) => vecWrote k op v o s
    (vecClear s e .rsum v k → exec (.rsum e v) s = .next (done .rsum (row (fun l => l.sum)))) ∧
    (vecClear s e .rmax v k → exec (.rmax e v) s = .next (done .rmax (row most))) ∧
    (vecClear s e .rmin v k → exec (.rmin e v) s = .next (done .rmin (row least))) ∧
    (vecClear s e .csum v k → exec (.csum e v) s = .next (done .csum (col (fun l => l.sum)))) ∧
    (vecClear s e .cmax v k → exec (.cmax e v) s = .next (done .cmax (col most))) ∧
    (vecClear s e .cmin v k → exec (.cmin e v) s = .next (done .cmin (col least)))

/-- The special functions over the elements of A (R218 to R221), the operations on limbs (R127, R128) and the end of the program, which
completes the firing (R202, R203). One limb of ADC and of SBB: the low 64 bits of the sum or difference of the unsigned limbs and the
carry, and the carry out; of MULW the two halves of the product.
The model's choices in it: log 23. -/
def Obligations.VectorFunctionsAndLimbs : Prop :=
  (∀ (e : EngId) (v : VecF) (s : State) (k : VecAt),
    let on := (rowsOn s k v).flatMap (fun r => (List.range (vCols v)).map (fun c =>
      (r, c, elemAt s k v.a v.fa.toNat r c, elemAt s k v.b v.fb.toNat r c)))
    let fn := fun (n : Nat) (a : Int) => sfnEval s.sft.active v.skv3 n a
    let each := fun (f : Int → Int → Int × Bool) => ({
      els := on.map (fun x => (x.1, x.2.1, (f x.2.2.1 x.2.2.2).1))
      doms := (on.filter (fun x => (f x.2.2.1 x.2.2.2).2)).length } : VecOut)
    let done := fun (op : VecOp) (o : VecOut) => vecWrote k op v o s
    (vecClear s e .sfn v k → exec (.sfn e v) s = .next (done .sfn (each (fun a _ => fn v.sfn.toNat a)))) ∧
    (vecClear s e .sfnmul v k → exec (.sfnmul e v) s = .next (done .sfnmul (each (fun a b =>
      (rhe ((fn v.sfn.toNat a).1 * b) v.sh.toNat, (fn v.sfn.toNat a).2))))) ∧
    (vecClear s e .expsub v k → exec (.expsub e v) s = .next (done .expsub (each (fun a b =>
      if a = elemMin v.fa.toNat then (0, false) else fn 0 (a - b))))) ∧
    (vecClear s e .adc v k → exec (.adc e v) s = .next (done .adc (limbOut s k .adc v))) ∧
    (vecClear s e .sbb v k → exec (.sbb e v) s = .next (done .sbb (limbOut s k .sbb v))) ∧
    (vecClear s e .mulw v k → exec (.mulw e v) s = .next (done .mulw (limbOut s k .mulw v))) ∧
    (vecClear s e .vend v k →
      exec (.vecVend e v) s = .next (firingComplete k.e (measAdd k.x.step .issueFc k.e 1 s)))) ∧
  (∀ (s : State) (k : VecAt) (v : VecF), vRows v = 1 → vCols v = 1 → rowsOn s k v = [0] →
    let u := fun (x : Int) => ofSigned 64 x
    let x := u (elemAt s k v.a 4 0 0)
    let y := u (elemAt s k v.b 4 0 0)
    let p := spadAddr (coreOfEng k.e) (pargOff k v)
    let cin := if v.cin then (readByte s p).toNat else 0
    cin ≤ 1 →
    (∃ z carry, limbOut s k .adc v = { els := [(0, 0, z)], raw := [(p, [BitVec.ofNat 8 carry])] } ∧
      u z + 2 ^ 64 * carry = x + y + cin ∧ carry ≤ 1) ∧
    (∃ z borrow, limbOut s k .sbb v = { els := [(0, 0, z)], raw := [(p, [BitVec.ofNat 8 borrow])] } ∧
      u z + y + cin = x + 2 ^ 64 * borrow ∧ borrow ≤ 1) ∧
    (∃ z hi, limbOut s k .mulw v = { els := [(0, 0, z)], raw := [(p, bytesLE 8 hi)] } ∧ u z + 2 ^ 64 * hi = x * y))

/-- A vector instruction writes in its D operand alone (R207, R210): outside it, every byte of memory reads as before. -/
def Obligations.VectorWritesInD : Prop :=
  ∀ (e : EngId) (op : VecOp) (v : VecF) (s : State) (k : VecAt), vecClear s e op v k → op ≠ .vend → op.limb = false →
    (v.d.space = 1 → memSame s (vecStep e op v s)) ∧
    (v.d.space = 0 → memSameBut (spadAddr (coreOfEng k.e) (origin k v.d)) (operandSpan v.d v.fd.toNat v) s (vecStep e op v s))

/-- The life of a special-function image (R225 to R228): loaded, checked, committed at boundary action 5 by swapping the banks, put off
while the running job names another, or cancelled, unless the window of its commit has opened. -/
def Obligations.SftImageLife : Prop :=
  ∀ s : State,
    (s.sft.busy = false → s.sft.pending = false →
      exec .sftLoad s = .next { s with sft := { s.sft with err := 0, errSlot := 0, errSeam := 0, busy := true } }) ∧
    (s.sft.busy = true ∨ s.sft.pending = true →
      exec .sftLoad s = .next { s with sft := { s.sft with err := 5, errSlot := 0, errSeam := 0 } }) ∧
    (s.sft.busy = true → (sftCheck s.sft.stage s.sft.hdrCrc s.sft.hdrId).1 = 0 →
      exec .sftLoadDone s = .next { s with sft := { s.sft with
        busy := false, pending := true, shadow := s.sft.stage, shadowId := s.sft.hdrId } }) ∧
    (s.sft.busy = true ∨ (s.sft.pending = true ∧ sftCommits s = false) →
      exec .sftCancel s = .next { s with sft := { s.sft with
        busy := false, pending := false, deferred := false, err := 6, shadow := [], shadowId := 0 } }) ∧
    (s.sft.busy = false → s.sft.pending = false ∨ sftCommits s = true → exec .sftCancel s = .next s) ∧
    (mayAct s 5 = true → s.sft.pending = true → sftHeld s = true →
      ∃ t, exec .sftCommit s = .next t ∧ t.sft = { s.sft with deferred := true }) ∧
    (mayAct s 5 = true → s.sft.pending = true → sftHeld s = false →
      ∃ t, exec .sftCommit s = .next t ∧ memSame s t ∧ t.sft = { s.sft with
        active := s.sft.shadow, shadow := s.sft.active, activeId := s.sft.shadowId, shadowId := s.sft.activeId
        pending := false, deferred := false, commits := s.sft.commits + 1 })

/-- The stream instructions that compute (R249, R252), on the run that may take one: SETA, ADDA, and the loops.
The model's choices in it: log 15. -/
def Obligations.StreamRegistersAndLoops : Prop :=
  ∀ (e : EngId) (a : AgNo) (post : Bool) (f : StreamF) (s t : State) (i : Nat), streamRun e.val a post s = some (t, i) →
    let r := runAt t e.val a.val i
    let put := fun (v : Word) => (runNext e.val a.val i (modRunAt e.val a.val i (fun q => { q with regs := sset 0 q.regs f.da.toNat v }) t))
    let n := if f.creg then (runScalar t e.val a.val i f.src).toNat else f.imm.toNat
    let left := sget 0 r.loops f.lvl.toNat - 1
    exec (.seta e a post f) s = .next (put ((if f.sreg then runScalar t e.val a.val i f.src else 0) + f.imm.signExtend 64 +
      BitVec.ofNat 64 (r.f * f.len.toNat))) ∧
    exec (.adda e a post f) s = .next (put (runReg t e.val a.val i f.da + f.imm.signExtend 64)) ∧
    (1 ≤ n → n ≤ 65535 → exec (.loop e a post f) s = .next (runNext e.val a.val i (modRunAt e.val a.val i (fun q => { q with
      loops := sset 0 q.loops f.lvl.toNat n, backs := sset 0 q.backs f.lvl.toNat r.pcIdx }) t))) ∧
    (65535 < n → exec (.loop e a post f) s =
      .next (streamRefuse e.val a i 0x0405 (item 1 f.lvl.toNat ++ item 2 65535 ++ item 8 n) t)) ∧
    (left = 0 → exec (.endl e a post f) s = .next (runNext e.val a.val i
      (modRunAt e.val a.val i (fun q => { q with loops := sset 0 q.loops f.lvl.toNat 0 }) t))) ∧
    (left ≠ 0 → exec (.endl e a post f) s = .next (modRunAt e.val a.val i (fun q => { q with
        pcIdx := sget 0 q.backs f.lvl.toNat + 1 })
      (modRunAt e.val a.val i (fun q => { q with loops := sset 0 q.loops f.lvl.toNat left }) t)))

/-- The stream instructions that move data (R251, R254 to R257): a LOAD and a STORE issue their requests from the run's position on, a RECV
takes the tokens that follow those claimed, a SEND sends LEN tokens; an address that breaks its rule is refused.
The model's choices in it: log 15 and 70. -/
def Obligations.StreamTransfers : Prop :=
  ∀ (e : EngId) (a : AgNo) (f : StreamF) (s t : State) (i : Nat),
    (streamRun e.val a false s = some (t, i) →
      (loadBad t e.val a.val i f = none → exec (.streamLoad e a f) s = .next (loadIssue e.val a f (f.len.toNat / 64 + 1) i t)) ∧
      (∀ x, loadBad t e.val a.val i f = some x →
        exec (.streamLoad e a f) s = .next (streamRefuse e.val a i 0x0404 (item 6 (x % 2 ^ 48)) t)) ∧
      (tokenBad t e.val a.val i f.da f = none →
        exec (.recv e a f) s = .next (recvTake e.val a f (Nat.min f.len.toNat 4096 + 1) i t))) ∧
    (streamRun e.val a true s = some (t, i) →
      (storeBad t e.val a.val i f = none → exec (.store e a f) s = .next (storeIssue e.val a f (f.len.toNat / 64 + 1) i t)) ∧
      (∀ x, storeBad t e.val a.val i f = some x →
        exec (.store e a f) s = .next (streamRefuse e.val a i 0x0404 (item 6 (x % 2 ^ 48)) t)) ∧
      (tokenBad t e.val a.val i f.sa f = none → exec (.send e a f) s = .next (sendTake e.val a f (f.len.toNat + 1) i t) ∧
        ((runAt t e.val a.val i).done < f.len.toNat → (routOf t e.val f.port.val).avail = 0 → exec (.send e a f) s = .next t)))

/-- The ends of a run's phases and its commit (R238, R243, R252): SYNC ends a PRE phase that a POST phase follows, FIN one that none
follows, or the run; RUN_COMMIT puts what the run read into scratchpad.
The model's choices in it: log 2 and 70. -/
def Obligations.StreamPhasesEnd : Prop :=
  ∀ (e : EngId) (a : AgNo) (f : StreamF) (s t : State) (i : Nat),
    (streamRun e.val a false s = some (t, i) → recvCountBad t e.val a i = none →
      exec (.streamSync e a f) s = .next (preEnd e.val a i true t) ∧
      exec (.fin e a false f) s = .next (preEnd e.val a i false t)) ∧
    (streamRun e.val a true s = some (t, i) → sendCountBad t e.val a i = none →
      exec (.fin e a true f) s = .next (lostRecords (runAt t e.val a.val i) <| modAg e.val a.val (fun g => { g with
        runsDone := g.runsDone + 1
        runs := (g.runs.modify i (fun r => { r with ended := true })).filter (fun r => !runOver r) }) t)) ∧
    (∀ x, streamRun e.val a false s = some (t, i) → recvCountBad t e.val a i = some x →
      exec (.streamSync e a f) s = .next (countRefuse e.val a i x t)) ∧
    (∀ j, fabricUp s = true → coreStale s (coreOfEng e.val) = false →
      (agOf s e.val a.val).runs.findIdx? (mayCommit s e.val) = some j →
      exec (.runCommit e a) s = .next (firingReady e.val (modRunAt e.val a.val j (fun r => { r with
          committed := true, reqs := r.reqs.filter (fun q => q.stage = .dead), taken := [] })
        (agCommit e.val a.val (runBytes (runAt s e.val a.val j)) (commitData (runAt s e.val a.val j) s))))) ∧
    (fabricUp s = true → agMissed s e.val a.val = true →
      exec (.agResume e a) s = .next (modMisses e.val a.val
        (fun r => if r.miss.isSome && r.resume = 0 then { r with resume := 1 } else r)
        (fun x => if x.miss.isSome && x.resume = 0 then { x with resume := 1 } else x) s)) ∧
    (fabricUp s = true → s.stride.window = false →
      exec (.runResume e a) s = .next (modMisses e.val a.val (fun r => if r.resume = 2 then { r with miss := none, resume := 0 } else r)
        (fun x => if x.resume = 2 then { x with miss := none, resume := 0 } else x) s))

/-- The Curb (R266, R267): while its class is open the oldest waiting request is admitted and charged in full; the port then serves the
admitted request whose turn it is.
The model's choices in it: log 2, 44 and 59. -/
def Obligations.CurbServes : Prop :=
  ∀ (p : PortId) (k : Fin 8) (j n : Nat) (q : CurbReq) (l : List CurbReq) (s : State), fabricUp s = true →
    (curbOpen s p.val k.val = true → (curbOf s p.val k.val).waiting = q :: l →
      exec (.curbAdmit p k) s = .next (reqStage q .waiting .admitted (curbAdmit p.val k.val q
        (modCurb p.val k.val (fun c => { c with waiting := l }) s)))) ∧
    (curbOpen s p.val k.val = false → exec (.curbAdmit p k) s = .next s) ∧
    (classServed s p.val = some j → j < 3 → turnCore (curbOf s p.val j) = some n →
      (curbOf s p.val j).admitted.find? (fun x => x.engine / 8 = n) = some q → pageReadMay s q.addr = true →
      exec (.curbArbitrate p) s = .next (portServe q (pageReadStart q.addr (modCurb p.val j (fun c => { c with
        admitted := c.admitted.erase q, rrCore := n
        rrTurns := if n = c.rrCore && c.rrTurns < coreTurns n then c.rrTurns + 1 else 1 }) s)))) ∧
    (classServed s p.val = some j → 3 ≤ j → (curbOf s p.val j).admitted = q :: l → pageReadMay s q.addr = true →
      exec (.curbArbitrate p) s = .next (portServe q (pageReadStart q.addr (modCurb p.val j (fun c => { c with
        admitted := c.admitted.erase q, rrCore := q.engine / 8
        rrTurns := if q.engine / 8 = c.rrCore && c.rrTurns < coreTurns (q.engine / 8) then c.rrTurns + 1 else 1 }) s))))

/-- What a served LOAD request brings (R261, R301, R305, R306): each unit found with wrong symbols is counted where it lies; where none
fails its check the bytes of the store, else zeros, the failing unit's code with them; a request past its deadline zeros and
STREAM_READ_LATE.
The model's choices in it: log 9, 15 and 96. -/
def Obligations.StreamReadsReturn : Prop :=
  ∀ (e : EngId) (a : AgNo) (addr : BitVec 48) (errs : List (BitVec 48 × UnitErr)) (elapsed n : Nat) (w : Bool) (i : Nat) (q : Req)
    (s : State), fabricUp s = true →
    (let t := portTouch addr.toNat (readSize (.streamLoad e a) addr.toNat s) s
     let units := unitsIn t (plainAddr t addr.toNat) (readSize (.streamLoad e a) addr.toNat t) errs
     let u := forEach units (fun x v => unitFound x.2 x.1 v) t
     reqOut u e.val a.val addr.toNat = some (i, q) → q.stage = .served →
      (badUnit t units = none → exec (.tierReadReturn (.streamLoad e a) addr (.data errs) w) s = .next
        (reqEnd e.val a.val i q .returned (readBytes u (plainAddr u addr.toNat) q.bytes) u)) ∧
      (∀ b x retries, badUnit t units = some (b, x, retries) → exec (.tierReadReturn (.streamLoad e a) addr (.data errs) w) s = .next
        (reqEnd e.val a.val i q .returned (List.replicate q.bytes 0#8) (loadLost e.val a.val i q (memCode u x b)
          (memDetail u (memCode u x b) b retries) u)))) ∧
    (reqOut s e.val a.val addr.toNat = some (i, q) → deadlineOf s addr.toNat = some n → elapsed < n →
      exec (.readDeadline e a addr elapsed) s = .next s) ∧
    (reqOut s e.val a.val addr.toNat = some (i, q) → deadlineOf s addr.toNat = some n → n ≤ elapsed →
      exec (.readDeadline e a addr elapsed) s = .next (reqEnd e.val a.val i q .dead (List.replicate q.bytes 0#8)
        (loadLost e.val a.val i q 0x0401 (item 2 e.val ++ item 1 a.val ++ item 2 (runAt s e.val a.val i).f ++ item 6 addr.toNat) s)))

/-- Placement pages (R294, R295): a page-in starts once for a page, and ends with the page PRESENT and holding its backing's bytes, or
with PAGE_IN_REFUSED; an eviction makes the page ABSENT at boundary action 6, and a quiet page of a writable object goes back to its
backing.
The model's choices in it: log 5, 15 and 45. -/
def Obligations.PagesMove : Prop :=
  ∀ (addr b x : BitVec 48) (o : Placed) (s : State),
    let p := pageOf s addr.toNat
    (fabricUp s = true → pageState s p = .absent b.toNat →
      (s.tiers.pagingIn.contains p = false → s.tiers.evicting.contains p = false → pageOpen s 4 p = true → pageOpen s 4 b.toNat = true →
        pageReadMay s b.toNat = true → exec (.pageIn addr) s = .next (pageReadStart b.toNat (chargePage 4 p (pageSize s p)
          (chargePage 4 b.toNat (pageSize s p) (modTiers (fun t => { t with pagingIn := t.pagingIn ++ [p] }) s))))) ∧
      (s.tiers.pagingIn.contains p = true → mayAct s 6 = true → pagePaid s 4 p = true → pagePaid s 4 b.toNat = true →
        ∃ t, exec (.pageInComplete addr none) s = .next (setAct 6 t) ∧ pageState t p = .present b.toNat ∧
          (Memory.wf s.mem = true → readBytes t p (pageSize s p) = readBytes s b.toNat (pageSize s p) ∧
            ∀ i, i < p ∨ p + pageSize s p ≤ i → readByte t i = readByte s i) ∧
          (∀ q, q ≠ p → pageState t q = pageState s q)) ∧
      (s.tiers.pagingIn.contains p = true → exec (.pageInComplete addr (some x)) s = .next
        (jobFault 0x0423 (item 6 p ++ item 6 b.toNat ++ item 6 x.toNat)
          (pageReadDrop b.toNat (modTiers (fun t => { t with pagingIn := t.pagingIn.erase p }) s))))) ∧
    (mayAct s 6 = true → pageState s p = .present b.toNat → objectAt s p = some o →
      o.entry.evict = true → o.entry.backing ≠ 0 → o.entry.pin = false →
      ∃ t, exec (.pageEvict addr) s = .next (setAct 6 t) ∧ t.mem = s.mem ∧ pageState t p = .absent b.toNat ∧
        t.tiers.evicting = s.tiers.evicting ++ [p]) ∧
    (fabricUp s = true → s.tiers.evicting.contains p = true → pageQuiet s p = true → pageState s p = .absent b.toNat →
      objectAt s p = some o →
      let u := modTiers (fun t => { t with evicting := t.evicting.erase p }) s
      (o.entry.writable = true → pageOpen s 4 p = true → pageOpen s 4 b.toNat = true → mayProgram s b.toNat (pageSize s p) = true →
        exec (.evictWriteBack addr) s = .next (chargePage 4 b.toNat (pageSize u p)
        (chargePage 4 p (pageSize u p) (copyBytes p b.toNat (pageSize u p) u)))) ∧
      (o.entry.writable = false → exec (.evictWriteBack addr) s = .next u))

/-- The training of tier ports (R277, R278, R312): a port that loses its training shows STATE 3; one that trains again within three
attempts goes on; one that does not fails, a chip fault for tier H and a job fault for the others; a failed port of the others may be
restored, and shows the capacity and rate it trained with.
The model's choices in it: log 15. -/
def Obligations.PortsTrain : Prop :=
  ∀ (p : PortId) (n : Nat) (s : State),
    ((portOf s p.val).state = 2 → ∀ b, exec (.portRetrain p n b) s =
      .next (modPort p.val (fun k => { k with state := 3, retrains := statInc 32 k.retrains }) s)) ∧
    ((portOf s p.val).state = 3 →
      (n ≤ 3 → exec (.portRetrain p n true) s = .next (modPort p.val (fun k => { k with state := 2 }) s)) ∧
      (∀ b, (b = false ∨ 3 < n) → p.val < 8 → exec (.portRetrain p n b) s = .next (chipStop 0x0425 (item 1 p.val) true
        (modPort p.val (fun k => { k with state := 4 }) s))) ∧
      (∀ b, (b = false ∨ 3 < n) → 8 ≤ p.val → exec (.portRetrain p n b) s = .next (jobFault 0x0424 (item 1 p.val)
        (modPort p.val (fun k => { k with state := 4 }) s)))) ∧
    (8 ≤ p.val → (portOf s p.val).state = 4 → exec (.portRestore p.val) s = .next
      (modMgmt (fun m => { m with sdoAbort := 0 }) (modPort p.val (fun k => { k with state := 1, restoring := true }) s))) ∧
    (n < 8 ∨ (portOf s n).state ≠ 4 → exec (.portRestore n) s = .next (modMgmt (fun m => { m with sdoAbort := 0x06090030 }) s)) ∧
    (fabricUp s = true → (portOf s p.val).restoring = true →
      (exec (.portRestoreDone p false) s = .next (event 0x05C0 (item 1 p.val ++ item 1 0)
        (modPort p.val (fun k => { k with state := 4, restoring := false }) s))) ∧
      (24 ≤ p.val → s.stride.window = true → exec (.portRestoreDone p true) s = .next (event 0x05C0 (item 1 p.val ++ item 1 1)
        (modPort p.val (fun k => { k with state := 2, restoring := false, cap := portCap s p.val, rate := portRate s p.val }) s))))

/-- The Farrier and the scrub (R324 to R331): a region that passes moves its unit's walk on, the last region completing a pass; a failing
row takes a spare; a scrub request is charged to class 6 and moves its port's position.
The model's choices in it: log 15. -/
def Obligations.FarrierWalks : Prop :=
  ∀ (c : CoreId) (n : Fin 8) (p : PortId) (b : Nat) (s : State),
    (coresOk s = true → testMay (.core c) s = true →
      let f := (coreOf s c.val).far
      let moved := { f with tested := s.stride.count, region := (farNext (coreRegions c.val) f.region f.passes).1
                            passes := (farNext (coreRegions c.val) f.region f.passes).2 }
      (∃ t, exec (.farrierRegionTest (.core c) [] .pass) s = .next t ∧ t.mem = s.mem ∧ (coreOf t c.val).far = moved) ∧
      (spareFree f.spares (b % 32) = true → ∃ t, exec (.farrierRegionTest (.core c) [] (.mismatch [b])) s = .next t ∧ t.mem = s.mem ∧
        (coreOf t c.val).far.spares = f.spares ++ [(b % 32, f.region)] ∧ (coreOf t c.val).far.retire = false ∧
        (coreOf t c.val).far.region = moved.region) ∧
      (spareFree f.spares (b % 32) = false → ∃ t, exec (.farrierRegionTest (.core c) [] (.mismatch [b])) s = .next t ∧ t.mem = s.mem ∧
        (coreOf t c.val).far.retire = true ∧ (coreOf t c.val).far.hold = true ∧ (coreOf t c.val).far.region = f.region)) ∧
    (testMay (.core c) s = false → ∀ l o, exec (.farrierRegionTest (.core c) l o) s = .next s) ∧
    (testMay (.ostler n) s = true →
      let k := ostlerOf s n.val
      exec (.farrierRegionTest (.ostler n) [] .pass) s = .next (farPass 256 k.region (modOstler n.val (fun x => { x with
        region := (farNext 256 k.region k.passes).1, passes := (farNext 256 k.region k.passes).2
        regions := if x.online then 0 else x.regions + 1 }) (modOstler n.val (fun x => { x with tested := s.stride.count }) s)))) ∧
    ((if p.val < 8 then s.sync.farEnNow / 2 % 2 = 1 else p.val < 24 ∧ s.sync.farEnNow / 4 % 2 = 1) → s.sync.farPaused = false →
      fabricUp s = true → curbOpen s p.val 6 = true →
      let a := scrubAddr p.val (sget 0 s.sync.scrubAt p.val)
      let u := portTouch a 256 (scrubMove p.val (curbCharge p.val 6 4 s))
      readsMay s a 256 = true →
      exec (.patrolScrub p [{}, {}, {}, {}]) s = .next u ∧
      (∀ w, 0 < w → w ≤ eccPower u a → exec (.patrolScrub p [{ wrong := w }, {}, {}, {}]) s = .next (noteEcc .corrected a u)) ∧
      (∀ w, eccPower u a < w → exec (.patrolScrub p [{ wrong := w }, {}, {}, {}]) s = .next (event 0x0580 (item 1 p.val ++ item 6 a)
        (modSync (fun y => { y with scrubUncorr := statInc 32 y.scrubUncorr }) (noteEcc .code a u)))))

/-- A launch opens when its READY count has come and the one before has closed (R358, R359), and one that has waited RET_WAIT boundaries
combines without what is missing (R373).
The model's choices in it: log 5, 15 and 47. -/
def Obligations.HitchLaunches : Prop :=
  ∀ (h : HitchId) (i : Fin 64) (s : State),
    let d := hldOf s h.val i.val
    let t := hstOf s h.val i.val
    (fabricUp s = true → (hitchOf s h.val).halted = false → hldLive s d = true → t.isOpen = false →
      (((t.launch + 1) * d.readyArr : Nat) : Int) ≤ (objOf s d.readyObj).value →
      exec (.launchOpen h i) s = .next (launchOpen h.val i.val s)) ∧
    ((objOf s d.readyObj).value < (((t.launch + 1) * d.readyArr : Nat) : Int) →
      exec (.launchOpen h i) s = .next s) ∧
    (mayAct s 4 = true → stopDue s = true → exec (.launchTimeout h i) s = .next (setAct 4 s)) ∧
    (mayAct s 4 = true → stopDue s = false → t.isOpen = true → d.retWait ≤ t.waited → retPending t ≠ 0 → s.stride.act = 4 →
      exec (.launchTimeout h i) s = .next (gatherDone h.val i.val (modHst h.val i.val (fun t => { t with late := true })
        (forEach (missing t) (fun p u => rowsFault 0x0602 [tagRow p.2.1.tag]
          (requestFault 0x0602 (item 1 h.val ++ item 1 i.val ++ item 1 (batchOf t) ++ item 2 p.1 ++ item 1 p.2.2) u)) s))))

/-- A Hitch's messages (R360, R367 to R371): a dispatched row fills its slots, an end marker counts, a return goes into the gather area,
and the message's credits go back; a second return of one expert is a job fault. An expert whose output object has reached its launch count
returns its slots once the gather area of its own chip's rows is reached: without any of its own nothing but its count of launches changes.
The model's choices in it: log 15, 25 and 87. -/
def Obligations.HitchMessages : Prop :=
  (∀ (h p : HitchId) (m : HitchHdr) (x n : Nat) (tag chip : BitVec 16) (slots : List (Nat × Nat)) (row : List Byte) (s : State),
    (hitchServes s h m.epoch →
      exec (.hitchDispatchArrive h m tag slots row) s =
        .next (hitchFree h.val (.dispatch m tag slots row) (dispatchTake h.val m tag slots row s)) ∧
      exec (.hitchEndMarker h m) s = .next (hitchFree h.val (.fin m) (markerTake h.val m s)) ∧
      (∀ r c k, let d := hldOf s h.val m.hld.val
        let t := hstOf s h.val m.hld.val
        t.isOpen = true → t.late = false → m.batch.toNat = batchOf t → t.rows[m.token]? = some r → r.cancelled = false →
        r.accepted.findIdx? (fun c => c.expert = x) = some c → r.accepted[c]? = some k →
        let a := d.gatherBase + (m.token * topK d + c) * retBytes d
        let u := hitchConsult h.val [(true, a, retBytes d)] s
        (k.ret = none → hitchStop u [(true, a, retBytes d)] = none → transferOpen u 3 a (retBytes d) = true →
          readsMay u a (retBytes d) = true → exec (.hitchReturnArrive h m x tag row) s = .next (gatherDone h.val m.hld.val (hitchFree h.val (.ret m x tag row)
            (returnLand h.val m.hld.val m.token c tag row (modHst h.val m.hld.val (fun t => { t with miss := none }) u))))) ∧
        (k.ret.isSome = true → exec (.hitchReturnArrive h m x tag row) s = .next (hitchFree h.val (.ret m x tag row)
          (jobFault 0x0604 (item 1 h.val ++ item 2 m.chip.toNat ++ item 1 0 ++ item 2 m.token ++ item 1 x) s))))) ∧
    (fabricUp s = true → s.job.chgOpen = false → (hitchOf s h.val).halted = false → m.epoch ≠ s.job.epoch →
      exec (.hitchEndMarker h m) s = .next (hitchStale h.val (.fin m) s)) ∧
    (fabricUp s = true → s.job.chgOpen = false → jobLoaded s = true →
      let key := chip.toNat * 4 + p.val
      (n ≤ sget 0 (hitchOf s h.val).owed key → exec (.hitchCreditReturn h chip p n) s =
        .next (hitchFlush h.val (modHitch h.val (fun k => { k with owed := smod 0 k.owed key (· - n) }) s))) ∧
      (sget 0 (hitchOf s h.val).owed key < n → exec (.hitchCreditReturn h chip p n) s =
        .next (jobFault 0x0604 (item 1 h.val ++ item 2 chip.toNat ++ item 1 1 ++ item 2 n)
          (modHitch h.val (fun k => { k with owed := sset 0 k.owed key 0 }) s))))) ∧
  (∀ (h : HitchId) (i : Fin 64) (x : Nat) (s : State),
    let d := hldOf s h.val i.val
    let n := sget 0 (expOf s h.val i.val).served x
    let l := ownGather s i.val x (filledSlots d (expOf s h.val i.val) x n)
    let u := hitchConsult h.val l s
    fabricUp s = true → (hitchOf s h.val).halted = false → hldLive s d = true → (localExperts s h.val d).contains x = true →
    n < (expOf s h.val i.val).ready → ((n + 1 : Nat) : Int) ≤ (objOf s (mapOf s h.val d x).outObj).value →
    hitchStop u l = none → (∀ y ∈ l, transferOpen u 3 y.2.1 y.2.2 = true ∧ readsMay u y.2.1 y.2.2 = true) →
    (exec (.expertReturnSend h i x) s =
      .next (returnsSend h.val i d x n (modHst h.val i.val (fun t => { t with miss := none }) u))) ∧
    ((∀ f ∈ (expOf s h.val i.val).filled, ¬ (f.batch = n % 256 ∧ f.expert = x)) →
      ∃ t, exec (.expertReturnSend h i x) s = .next t ∧ t = { s with hitches := t.hitches } ∧
        t = modExp h.val i.val (fun k => { k with served := sset 0 k.served x (n + 1) })
          (modHst h.val i.val (fun t => { t with miss := none }) s)))

/-- The serving requests that pass every check of R395: each is admitted at boundary action 9 and queued or started (R396); CANCEL and
CLOSE wait for action 3 of the next boundary.
The model's choices in it: log 15 and 68. -/
def Obligations.ServingAdmits : Prop :=
  ∀ (r : ServeReq) (n : Nat) (v : Serving) (s : State),
    let u := admitEntry r.ring s
    serving u = some v →
    (admitsServe s 1 r = true → checkFields 1 r (some v.vocab) = none →
      (freeEntry u v = some n → r.count ≤ v.maxCtx → r.count ≠ 0 → exec (.sessOpen r) s = .next (enqueue n
        { kind := .opn, req := r, handle := handleOf (sessOf (openEntry n v r u) n) n } (openEntry n v r u))) ∧
      (freeEntry u v = none → exec (.sessOpen r) s = .next (rejectReq { r with session := 0 } ((0x0702, item 2 v.sessions), false) u))) ∧
    (admitsServe s 2 r = true → checkFields 2 r (some v.vocab) = none →
      (checkSession u r true = .ok n → r.count ≠ 0 → exec (.sessAppend r) s =
        .next (enqueue n { kind := .append, req := r, handle := r.session } u)) ∧
      (∀ x, checkSession u r true = .error x → exec (.sessAppend r) s = .next (rejectReq r x u))) ∧
    (admitsServe s 3 r = true → checkFields 3 r (some v.vocab) = none → checkSession u r true = .ok n →
      (sessOf u n).pendValid = true → r.count + 1 ≤ v.maxNodes → badParent r = none → (sessOf u n).len + r.count + 1 ≤ v.maxCtx →
      exec (.sessVerify r) s = .next (enqueue n { kind := .verify, req := r, handle := r.session } u)) ∧
    (admitsServe s 4 r = true → checkFields 4 r none = none → checkSession u r false = .ok n →
      exec (.sessCancel r) s = .next (modServe (fun k => { k with cancels := k.cancels ++ [(false, r, u.stride.count)] }) u)) ∧
    (admitsServe s 5 r = true → checkFields 5 r none = none → checkSession u r false = .ok n →
      exec (.sessClose r) s = .next (modServe (fun k => { k with cancels := k.cancels ++ [(true, r, u.stride.count)] }) u))

/-- The path that a step accepts (R405): from node 0 on, each draft's parent is the one before it and each draft is what the model answered
there; no more tokens than the request has left. -/
def Obligations.AcceptedPath : Prop :=
  ∀ (toks parents ys : List Nat) (endTok remain fuel : Nat),
    let path := acceptPath toks parents ys endTok remain fuel [0] 0
    path.head? = some 0 ∧ (1 ≤ remain → path.length ≤ remain) ∧
    ∀ j k i, path[j]? = some k → path[j + 1]? = some i →
      1 ≤ i ∧ parents[i - 1]? = some k ∧ toks.getD i 0 = ys.getD k 0

/-- Waves (R397 to R400): when its cadence is due a wave starts at boundary action 9 with its rows cleared and filled in wave order. Commits
and ends (R405 to R412): a clean step or chunk whose wave is complete commits at action 2; action 3 applies the cancels and closes that are
due; a closed session whose slots are free completes; a slot of the pool is free once its waves are done.
The model's choices in it: log 5. -/
def Obligations.ServingRuns : Prop :=
  (∀ (v : Serving) (s : State), serving s = some v →
    (waveDue s v.prefillCadence s.serve.prefillAt = true →
      let u := modServe (fun k => { k with prefillWaves := k.prefillWaves + 1, prefillAt := some (jobStride s) }) (openNine s)
      exec .prefillWaveStart s = .next (fillAll (fillPrefill v u.serve.prefillWaves) (waveOrder u (fun q => !q.left.isEmpty))
        (clearRows v 0 v.prefillRows u))) ∧
    (waveDue s v.decodeCadence s.serve.decodeAt = true →
      let u := modServe (fun k => { k with decodeWaves := k.decodeWaves + 1, decodeAt := some (jobStride s) }) (openNine s)
      exec .decodeWaveStart s = .next (stuckNow (decodeOrder u) (fillAll (fillDecode v u.serve.decodeWaves) (decodeOrder u)
        (clearRows v v.prefillRows v.decodeRows u))))) ∧
  (∀ (n : Fin 16384) (v : Serving) (q : Request) (a : BitVec 48) (f : Freeing) (s : State),
    (mayAct s 2 = true → stepReady s n.val = some (v, q) → stepLame s v q = false →
      ((sessOf s n.val).state = 3 → badResult s v q = none → exec (.stepCommit n) s =
        .next (commitStep n.val v q (forEach (stepRows q) (chargeResult v) (setAct 2 s)))) ∧
      ((sessOf s n.val).state = 2 → exec (.prefillCommit n) s =
        .next (commitChunk n.val v q (forEach (stepRows q) (chargeResult v) (setAct 2 s))))) ∧
    (mayAct s 3 = true → s.serve.order = [] → (∀ c ∈ s.serve.cancels, c.2.2 < s.stride.count) →
      exec .requestFaultEnd s = .next (forEach s.serve.cancels (fun c t => if c.1 then applyClose c.2.1 t else applyCancel c.2.1 t)
        (modServe (fun v => { v with cancels := [] }) (setAct 3 s)))) ∧
    (mayAct s 3 = true → (sessOf s n.val).state = 4 → (∀ f ∈ s.serve.freeing, ¬ (f.sess = n.val ∧ f.byClose = true)) →
      sget [] s.serve.closing n.val = [] →
      exec (.closeComplete n) s = .next (modServe (fun v => { v with closing := sset [] v.closing n.val [] })
        (freeSession n.val (setAct 3 s)))) ∧
    (s.serve.freeing.find? (fun f => f.addr = a.toNat) = some f → slotDue s f = true →
      exec (.slotRelease a) s = .next (modServe (fun v => { v with freeing := v.freeing.erase f, used := v.used.erase f.addr }) s)))

/-- The weight commands that pass their checks (R419 to R422, R429, R432, R436): LOAD places its object and stores its bytes as class 4
allows, DROP marks an object, BIND names one for a session or by default, LIST writes the directory, STAGE fills a cache slot as class 4
allows and its tack is checked once its bytes have come; each completes with code 0. An object that cannot be placed is RESIDENT_FULL.
The model's choices in it: log 11, 15, 45, 88 and 95. -/
def Obligations.WeightCommands : Prop :=
  ∀ (w : WeightCmd) (d : DirEntry) (t : Tack) (ok : Bool) (data : List Byte) (s : State),
    let u := admitEntry w.ring s
    (admitsWeight s 1 w = true → weightFieldsOk 1 w = true →
      w.objId ≠ 0 → w.tier < 3 → w.bytes % 64 = 0 → 64 ≤ w.bytes →
      (placeFails u w.objId w.tier w.die w.bytes = none →
        let x := dirAdd w.objId w.tier w.die (bit01 w.adapter) w.bytes w.modelId false u
        let m := moveUnits (unitsOver (pagePorts w.tier w.die) w.bytes) x
        dirFind x w.objId = some d → mayProgram x d.base d.bytes = true →
        (m.1 = [] → exec (.weightLoad w true data) s = .next (weightDone w 0 0 d.bytes (dirStored d.objId
          (portTouch d.base d.bytes (writeBytes d.base (data.take d.bytes) m.2))))) ∧
        (m.1 ≠ [] → exec (.weightLoad w true data) s = .next (modWeights (fun k => { k with
          loads := k.loads ++ [{ cmd := w, data := data, left := m.1 }] }) m.2))) ∧
      (∀ l, placeFails u w.objId w.tier w.die w.bytes = some l →
        exec (.weightLoad w ok data) s = .next (weightFault w 0x0242 l u))) ∧
    (admitsWeight s 3 w = true → weightFieldsOk 3 w = true → dirFind u w.objId = some d → d.state ≠ 2 → d.byJob = false → d.kind ≠ 1 →
      exec (.weightDrop w) s = .next (weightDone w 0 0 0 (dirSet w.objId (fun d => { d with dropReq := true }) u))) ∧
    (admitsWeight s 5 w = true → weightFieldsOk 5 w = true → w.session = 0 → w.objId = 0 →
      exec (.weightBind w) s = .next (weightDone w 0 0 0 (modWeights (fun k => { k with deflt := 0 }) u))) ∧
    (admitsWeight s 5 w = true → weightFieldsOk 5 w = true → w.session ≠ 0 → (sessOf u (w.session % 16384)).state ≠ 0 →
      handleOf (sessOf u (w.session % 16384)) (w.session % 16384) = w.session →
      dirFind u w.objId = some d → d.kind = 1 → d.state = 1 ∨ d.state = 2 → baseBound u d.modelId = true →
      exec (.weightBind w) s = .next (weightDone w 0 0 0
        (modWeights (fun k => { k with bindings := sset 0 k.bindings (w.session % 16384) w.objId }) u))) ∧
    (admitsWeight s 6 w = true → weightFieldsOk 6 w = true →
      exec (.weightList w) s = .next (weightDone w 0 0 0 (emit (.hostWrite w.status (u.weights.dir.map dirWords).flatten) u))) ∧
    (admitsWeight s 4 w = true → weightFieldsOk 4 w = true → w.bytes % 64 = 0 → 64 ≤ w.bytes →
      (cacheSlot u w.slot).state ≠ 1 → (cacheSlot u w.slot).state ≠ 3 →
      exec (.weightStage w ok t data) s = .next (setSlot w.slot {
        state := 1, tack := some t, digest := Config.digest 256 (data.map (fun b => b.toNat)), bytes := w.bytes
        cmd := some w, readOk := ok, image := data.take w.bytes, left := stageUnits w.bytes } u)) ∧
    (let c := cacheSlot s w.slot
     let m := moveUnits c.left s
     c.cmd = some w → c.tack = some t → c.state = 1 →
      (m.1 ≠ [] → stageGo w.slot s = setSlot w.slot { c with left := m.1 } m.2) ∧
      (m.1 = [] → c.readOk = false → stageGo w.slot s = weightFault w 0x0244 (item 8 w.src) (setSlot w.slot {} m.2)) ∧
      (m.1 = [] → c.readOk = true → stageCheck m.2 t c.bytes = none → stageGo w.slot s = tellStaged t
        (weightDone w 0 0 c.bytes (setSlot w.slot { c with state := 2, cmd := none, left := [] } m.2))) ∧
      (∀ k, m.1 = [] → c.readOk = true → stageCheck m.2 t c.bytes = some k → stageGo w.slot s =
        weightFault w 0x0240 (item 1 w.slot.val ++ item 1 k) (setSlot w.slot {} m.2)))

/-- Relays and the directory (R415, R416, R423 to R428): a relay begins in a free slot; a good chunk is stored, the hop before is told
that it is here, and it is passed on or acknowledged; a chunk without a good copy is asked for again up to four times; an acknowledged
chunk is dropped and lets the next go; behind a lost hop the hops beyond are asked in turn; a query is answered with the lowest chunk not
received; a relay that has nothing left to do ends. At boundary action 6 objects whose bytes are stored become READY, those the job takes
BOUND, those it leaves READY, and those dropped RELEASING.
The model's choices in it: log 5, 28, 45 and 88. -/
def Obligations.RelaysMove : Prop :=
  ∀ (w : WeightCmd) (list : List (BitVec 256)) (k : Fin 2) (r : Relay) (n : Nat) (chip : BitVec 16) (crc : Option (BitVec 32))
    (data : List Byte) (s : State),
    (admitsWeight s 2 w = true → weightFieldsOk 2 w = true → w.bytes % 64 = 0 → 64 ≤ w.bytes → w.hops ≠ 0 → w.hops ≤ 4096 →
      let u := admitEntry w.ring s
      let hops := list.map hopDecode
      hops.length = w.hops → hopsOk hops w.bytes = true →
      relayOf u 0 = none → exec (.weightRelay w true list) s = .next (relayBegin 0
        { cmd := some w, hops := hops, adapter := w.adapter, modelId := w.modelId, bytes := w.bytes } u)) ∧
    (fabricUp s = true → relayOf s k = some r →
      let before := (hopAt r (r.me - 1)).chip
      (r.failed = false → chunkComes r n = true → chunkHere r n = false →
        (let r' := takeChunk n r
         let q := { r' with owe := r'.owe ++ [n], waiting := if laterNeeds r n then r'.waiting ++ [(n, data)] else r'.waiting }
         let u := setRelay k (some q) (relayStored q (relayStore r n data s))
         let good := exec (.relayChunkReceive k none n (some (crc32c data)) data) s
         (relayWaits r n s = false → r.me ≠ 0 → data.length = chunkLen r n →
            (laterNeeds r n = true → good = .next (relayForward k (relayNote before k .received n u))) ∧
            (laterNeeds r n = false → good = .next (relayAckBack k n (relayNote before k .received n u)))) ∧
         (relayWaits r n s = false → r.me = 0 → n = r.got →
            (laterNeeds r n = true → good = .next (relayForward k u)) ∧ (laterNeeds r n = false → good = .next (relayAckBack k n u))) ∧
         (relayWaits r n s = true → r.me ≠ 0 → data.length = chunkLen r n → good = .next s)) ∧
        (r.me ≠ 0 → crc ≠ some (crc32c data) →
          (sget 0 r.tries n < 4 → exec (.relayChunkReceive k none n crc data) s = .next (relayNote before k .again n
            (setRelay k (some { r with tries := sset 0 r.tries n (sget 0 r.tries n + 1) }) s))) ∧
          (4 ≤ sget 0 r.tries n → exec (.relayChunkReceive k none n crc data) s = .next (relayNote before k .noCopy n (relayFail k r s))))) ∧
      (r.asking = none → r.next < r.hops.length →
        (chip.toNat = (hopAt r r.next).chip → r.kept.any (fun x => x.1 = n) = true → exec (.relayAck k chip n) s =
          .next (relayForward k (relayAckBack k n (setRelay k (some { r with
            kept := r.kept.filter (fun x => x.1 ≠ n), there := r.there.erase n }) s)))) ∧
        exec (.relayHopUnreachable k r.next) s = .next (relayAskFrom k (hopsAfter r r.next)
          (setRelay k (some (relayMark r.next 1 (chunksOf r r.next) r)) s))) ∧
      exec (.relayResumeQuery k chip) s = .next (relayNote chip.toNat k .lowest r.got s) ∧
      (relayOver r = true → r.cmd = none → exec (.relayComplete k []) s = .next (setRelay k none s))) ∧
    (mayAct s 6 = true →
      let u := setAct 6 s
      (∀ d ∈ u.weights.dir, d.state ≠ 3) →
      exec .objectStateUpdate s = .next (modWeights (fun w => { w with dir := w.dir.map (fun d =>
        if d.state = 0 && d.stored && d.since < s.stride.count && pagePaid u 4 d.base then { d with state := 1 }
        else if d.state = 1 && d.byJob then { d with state := 2 }
        else if d.state = 2 && !d.byJob then { d with state := 1 }
        else if d.state = 1 && d.dropReq then { d with state := 3, since := s.stride.count } else d) }) u))

/-- The switch-in (R437 to R443): at boundary action 7 the chosen tack is installed where nothing refuses it, its phases begin at their
strides, and after its last stride the job starts, at stride 0; bytes left over end it with SWITCH_OVERRUN.
The model's choices in it: log 5, 11, 15, 30, 55 and 56. -/
def Obligations.SwitchIn : Prop :=
  ∀ (j : JobCmd) (n : Fin 2) (k : Tack) (v : GroupView) (i : Install) (b : Nat) (s : State),
    (s.job.chosen = some j → mayAct s 7 = true → s.job.run = none → retHome s = true → s.job.chgOpen = false →
      slotWith s j.tackId false = some n → (cacheSlot s n).tack = some k → k.groupChips = 1 ∨ s.stride.markerAdvance = true →
      let u := learnGroup v k (setAct 7 s)
      (installRefusal v u k = none → exec (.tackInstall v) s = .next (installBegin j k n u)) ∧
      (∀ x, installRefusal v u k = some x →
        exec (.tackInstall v) s = .next (installRefused j x (takeFree u).2))) ∧
    (s.job.install = some i → mayAct s 7 = true → i.phase < 3 → phaseStart s i (i.phase + 1) ≤ i.strides →
      exec .installPhaseAdvance s = .next (modJob (fun j => { j with install := some { i with phase := i.phase + 1 } })
        (phaseWork (i.phase + 1) i.tack (setAct 7 s)))) ∧
    (installDue s = some i →
      (i.phase = 3 → ∃ t, exec .installComplete s = .next t ∧ t.job.install = none ∧ t.tiers.uncapped4 = false ∧
        memSame (setAct 7 s) t ∧ t.stride.base = i.tack.ledger.lBase ∧ ∀ r, (setAct 7 s).job.run = some r → ∃ q, t.job.run = some q ∧
          q.started = true ∧ q.stride = 0 ∧ q.tack = r.tack) ∧
      (1 ≤ b → exec (.switchOverrun b) s = .next (jobOver (modTiers (fun t => { t with uncapped4 := false })
        (jobFault 0x0247 (item 1 i.phase ++ item 8 b) (setAct 7 s))))))

/-- Jobs (R444 to R456): SUBMIT queues a job whose fields hold and is turned away with JOB_QUEUE_FULL at 64; END ends the running job, or
one that waits, at once with JOB_ENDED; TENANT and TENANT_REQ ask for a changeover; the term's end and the arrival of a choice select.
The model's choices in it: log 5, 15 and 68. -/
def Obligations.JobCommands : Prop :=
  ∀ (j p : JobCmd) (r : Running) (v : BitVec 16) (s : State),
    (let u := admitEntry j.ring s
     (admitsJob s 1 j = true →
        (submitField u j = none → (pendingJobs u).length < 64 →
          exec (.jobSubmit j) s = .next (modJob (fun k => { k with pending := k.pending ++ [j] }) u)) ∧
        (submitField u j = none → 64 ≤ (pendingJobs u).length → exec (.jobSubmit j) s = .next (jobRefuse j 0x0261 [] u)) ∧
        (∀ n, submitField u j = some n → exec (.jobSubmit j) s = .next (jobRefuse j 0x0262 (item 1 n) u))) ∧
      (j.rsvd = false → j.cmdTag ≠ 0 → admitsJob s 2 j = true → jobUnused 2 j = false →
        (u.job.run = some r → r.endBy = false → j.target = 0 ∨ r.cmd.cmdTag = j.target →
          exec (.jobEnd j) s = .next (jobCompletion j 0 0 0 0 0 (modRun (fun r => { r with
            endBy := true, drainStart := Nat.max r.drainStart (u.stride.count + 1) }) u))) ∧
        (u.job.run = none → j.target ≠ 0 → (pendingJobs u).find? (fun q => q.cmdTag = j.target) = some p →
          exec (.jobEnd j) s = .next (jobCompletion j 0 0 0 0 0 (jobRefuse p 0x0260 (item 8 p.cmdTag) (modJob (fun k => { k with
            pending := k.pending.erase p, chosen := if k.chosen = some p then none else k.chosen }) u))))) ∧
      (j.rsvd = false → j.cmdTag ≠ 0 → admitsJob s 3 j = true → jobUnused 3 j = false →
        exec (.jobTenant j) s = .next (requestChangeover j.tenant (jobCompletion j 0 0 0 0 0
          (countAdmit j.ring.val (openNine s)))))) ∧
    (fabricUp s = true →
      (changeoverPending s = false →
        exec (.tenantReq v) s = .next (modMgmt (fun m => { m with sdoAbort := 0 }) (requestChangeover v s))) ∧
      (changeoverPending s = true →
        exec (.tenantReq v) s = .next (modMgmt (fun m => { m with sdoAbort := 0x08000022 }) (requestFault 0x0263 (item 2 v.toNat) s)))) ∧
    (mayAct s 9 = true → exec .jobSelection s = .next (selectJob (markerChoice s)) ∧
      (s.job.run = some r → r.termLeft = 0 → exec .termExpiry s = .next (selectJob s)) ∧
      (s.job.run = some r → r.termLeft ≠ 0 → exec .termExpiry s = .next s))

/-- The changeover (R456 to R462): it opens with its journal, new keys and the tenant's records cleared; a stride later tier H, the
scratchpads and the stores of the engines are 0; its phases last 3,842 strides and then TENANT takes the new tenant; a failing step is the
chip fault CHANGEOVER_FAILED.
The model's choices in it: log 5 and 8. -/
def Obligations.ChangeoverRuns : Prop :=
  ∀ (n : BitVec 16) (s : State), mayAct s 7 = true →
    (s.job.tenantReq = some n → s.job.chgOpen = false → s.job.run = none → retHome s = true →
      let u := chgPhase 1 (modSync (fun y => { y with farPaused := true }) (modTiers (fun t => { t with uncapped4 := true })
        (debugShut (modJob (fun j => { j with
          chgOpen := true, chgStrides := 0
          chg := { newTenant := n, oldTenant := j.tenant, phase := j.chg.phase
                   attempts := if j.chg.phase = 0 then 1 else Nat.min 15 (j.chg.attempts + 1) } }) (setAct 7 s)))))
      exec (.changeoverOpen true) s = .next (clearTenant (replaceKeys u)) ∧
      exec (.changeoverOpen false) s = .next (changeoverFailed 1 u)) ∧
    (s.job.chgOpen = true → s.job.chg.phase = 1 → 1 ≤ s.job.chgStrides → Memory.wf s.mem = true →
      (∃ t, exec (.changeoverZero true) s = .next t ∧ t.job.chg.phase = 2 ∧ (∀ a, a < 0x006000000000 → readByte t a = 0) ∧
        (∀ c o, c < 288 → o < 0x800000 → readByte t (spadAddr c o) = 0) ∧ t.reinIn = [] ∧ t.reinOut = [] ∧ t.sync.objs = [] ∧
        (∀ c ∈ t.cores, c.2.sreg = [] ∧ c.2.threads = []) ∧ (∀ e ∈ t.engines, e.2.firing = none ∧ e.2.held = [] ∧ e.2.entries = [] ∧
          e.2.early = [] ∧ e.2.tiles = [] ∧ e.2.res = [] ∧ ∀ a ∈ e.2.ags, a.2.runs = [])) ∧
      exec (.changeoverZero false) s = .next (changeoverFailed 2 (chgPhase 2 (setAct 7 s)))) ∧
    (s.job.chgOpen = true → s.job.chg.phase = 2 → 3842 ≤ s.job.chgStrides →
      exec .changeoverClose s = .next (chgPhase 3 (setAct 7 s))) ∧
    (s.job.chgOpen = true → s.job.chg.phase = 3 → 3843 ≤ s.job.chgStrides →
      ∃ t, exec .changeoverClose s = .next t ∧ t.job.tenant = s.job.chg.newTenant ∧ t.job.chgOpen = false ∧ t.job.tenantReq = none)

/-- The links (R467 to R502): training sends this chip's numbers and raises a link with the lanes up at both ends and half its echo as
delay, where the neighbour is the one of the ring, and stands in state 5, wrong peer, where it is another; a link that was down comes up
the same way; lanes are taken out and back one at a time, and a link left with fewer than 4 lanes falls; a flit that decodes and passes
its CRC carries an acknowledgement; a data flit in order that has buffer is taken and one out of order is asked for again; 192 cycles
without an acknowledgement replay; a link that hears nothing for 4,096 cycles, or that loses lock on more than 4 lanes for 256, falls.
The model's choices in it: log 15, 32, 48, 49 and 92. -/
def Obligations.LinksRun : Prop :=
  ∀ (l : LinkId) (x : LinkTrain) (k : Fin 8) (raw : BitVec 2304) (fixed : Option (BitVec 2112)) (n : Nat) (w : DownCause) (s : State),
    fabricUp s = true →
    let y := linkOf s l.val
    let f := flitDecode x.ctl
    let heard : Prop := f.crcOk = true ∧ f.kind = 2 ∧ 4 ≤ laneCount (lanesBoth x y)
    (s.boot.stage ≥ 6 → coordsSet s = true → y.state < 2 → x.ok = true →
      let u := sendIdent l.val x f.ctl (modLink l.val (fun q => { q with state := 1 }) s)
      (heard → peerFits s l.val f.ctl = true → exec (.linkTrain l x) s = .next (linkComesUp l.val x f.ctl u)) ∧
      (heard → peerFits s l.val f.ctl = false → isZ l.val = false →
        exec (.linkTrain l x) s = .next (event 0x0880 (item 2 (ownChip s) ++ item 1 l.val ++ item 2 f.ctl.chip ++ item 1 f.ctl.link)
          (modLink l.val (fun q => { q with state := 5, peerChip := f.ctl.chip, peerLink := f.ctl.link }) u))) ∧
      (heard → peerFits s l.val f.ctl = false → isZ l.val = true → exec (.linkTrain l x) s = .next u) ∧
      (laneCount (lanesBoth x y) < 4 → exec (.linkTrain l x) s = .next (linkFalls l.val u))) ∧
    (coordsSet s = true → y.state = 5 → exec (.linkRetrain l) s = .next (modLink l.val (fun q => { q with state := 1 }) s)) ∧
    (coordsSet s = true → isDown s l.val = true → x.ok = true →
      let u := sendIdent l.val x f.ctl s
      (heard → peerFits s l.val f.ctl = true → exec (.linkUp l x) s = .next (linkComesUp l.val x f.ctl u)) ∧
      (laneCount (lanesBoth x y) < 4 → exec (.linkUp l x) s = .next u)) ∧
    (y.state = 2 →
      let u := modLink l.val (fun q => { q with nextLane := (k.val + 1) % 8, turnAge := 0 }) s
      (y.nextLane = k.val →
        exec (.linkRecal l) s = .next (laneRemove l.val k u) ∧
        (s.links.recalInterval ≤ y.turnAge → exec (.laneRecal l k) s = .next (laneRemove l.val k u))) ∧
      (y.nextLane ≠ k.val → lanePoor y k.val = true → exec (.laneRecal l k) s = .next (laneRemove l.val k s)) ∧
      (y.lanesUp.getLsbD k.val = true →
        (4 < laneCount y.lanesUp → laneRemove l.val k s = ctlOut l.val { laneOp := 1, lane := k.val } (laneOut l.val k s)) ∧
        (laneCount y.lanesUp ≤ 4 → laneRemove l.val k s = linkFalls l.val s))) ∧
    (y.state = 3 → y.lane = some k →
      exec (.laneRestore l true) s = .next (ctlOut l.val { laneOp := 2, lane := k.val } (modLink l.val (fun q => { q with
        state := 2, lane := none, lanesUp := q.lanesUp ||| (1#8 <<< k.val), fails := sset 0 q.fails k.val 0 }) s))) ∧
    (linkLive s l.val = true →
      (∀ b d, flitCorrect raw fixed = some (b, d) →
        let g := flitDecode b
        let v := modLink l.val (countFixed d) s
        let u := linkFlush l.val (modLink l.val (fun q => takeAck g.ack { q with flitAt := s.stride.count }) v)
        (g.crcOk = true → g.kind = 1 → flitFits (linkOf u l.val) g = true → exec (.flitReceive l raw fixed) s = .next (dataTake l.val g u)) ∧
        (g.crcOk = true → g.kind = 1 → flitFits (linkOf u l.val) g = false → exec (.flitReceive l raw fixed) s = .next (nakOut l.val u)) ∧
        (g.crcOk = true → g.kind = 2 → g.rsvd = false → exec (.flitReceive l raw fixed) s = .next (linkControl l.val g.ctl u)) ∧
        (g.crcOk = false → g.kind = 1 → exec (.flitReceive l raw fixed) s =
          .next (nakOut l.val (modLink l.val (fun q => { q with crcFail := statInc 12 q.crcFail }) v)))) ∧
      (192 ≤ n → exec (.replayTimeout l n) s = .next (linkReplay l.val s)) ∧
      (causeDown w = true → exec (.linkGoesDown l w) s = .next (linkFalls l.val s)))

/-- Packets (R478 to R500): the first of a queue of the receive buffer is delivered where it is for this chip, goes on by the route's link
with its queue's charge where it is for another, waits where that link has no room, and is lost without a route; a reserved field counts a
bad packet; once taken up it gives its buffer back; an UNREACH makes its sender act; links of the running job that have fallen end it at
boundary action 1 with LINK_DOWN.
The model's choices in it: log 5, 15, 32, 33 and 92. -/
def Obligations.PacketsMove : Prop :=
  ∀ (l : LinkId) (vc : Fin 10) (i : InPacket) (header : BitVec 128) (n k : Nat) (s : State), fabricUp s = true →
    ((linkOf s l.val).inPkts.find? (fun q => q.vc = vc.val) = some i →
      let p := { i.pkt with fromLink := l }
      let taken := fun (u : State) => vcFreed l.val vc.val i.frees
        (modLink l.val (fun q => { q with inPkts := q.inPkts.eraseP (fun q => q.vc = vc.val) }) u)
      (p.type < 11 → p.rsvd = false →
        (routeNext s p.dstChip.toNat p.dstDie (failsOver p.type) = .here →
          ((packetDeliver p s).2 = true → exec (.packetReceive l vc) s = .next (taken (packetDeliver p s).1)) ∧
          ((packetDeliver p s).2 = false → exec (.packetReceive l vc) s = .next (packetDeliver p s).1)) ∧
        (routeNext s p.dstChip.toNat p.dstDie (failsOver p.type) = .link k →
          let room := linkRoom s k (2 * packetClass p.type + dateline s (some l.val) (vc.val % 2) k)
          (room = true → exec (.packetReceive l vc) s = .next (taken (linkSend (jobStride s) k (some l.val) (vc.val % 2) p s))) ∧
          (room = false → exec (.packetReceive l vc) s = .next s)) ∧
        (routeNext s p.dstChip.toNat p.dstDie (failsOver p.type) = .nowhere n →
          exec (.packetReceive l vc) s = .next (taken (packetLost n p s)))) ∧
      (p.rsvd = true ∨ 11 ≤ p.type → exec (.packetReceive l vc) s =
        .next (taken (modMgmt (fun m => { m with badPackets := statInc 32 m.badPackets }) s)))) ∧
    (let p := packetDecode header []
     (p.type = 1 ∨ p.type = 2 ∨ p.type = 5 ∨ p.type = 6 → exec (.unreachReceive header n) s = .next (lostJob p n s)) ∧
      (p.type = 4 ∨ p.type = 9 → exec (.unreachReceive header n) s = .next (linkDiscard s))) ∧
    (∀ r,
      let u := setAct 1 s
      let t := jobFault 0x0801 (downDetail u l.val) u
      let v := modRun (fun r => { r with linkSet := r.linkSet.filter (fun x => x.1 ≠ ownChip t || !([l.val]).contains x.2), fell := [] }) t
      s.job.run = some r → mayAct s 1 = true → r.linkSet = [(ownChip s, l.val)] → isDown s l.val = true →
      (t.job.install = none → exec .linkDown s = .next v) ∧
      (t.job.install ≠ none → exec .linkDown s = .next (jobOver (modTiers (fun t => { t with uncapped4 := false }) v))))

/-- The host's side (R504 to R523): a snapshot takes entries ring by ring, 1,024 in all, from the ring whose turn it is; a ring is
enabled; PERST# resets every ring, the window and the interrupt table; the link's width and rate; a failed IDE stream. A decided
completion goes to its slot of the completion queue once none decided before it can be posted, and raises its interrupt where the ring
asks for one; a full completion queue holds it.
The model's choices in it: log 12 and 44. -/
def Obligations.HostLinkRuns : Prop :=
  ∀ (v : List (RingId × RingView)) (r : RingId) (en : Bool) (x y : BitVec 4) (c : Completion) (l : List Completion) (ide : Bool) (s : State),
    (s.stride.window = false → 7 ≤ s.boot.stage → hostUp s = true → admitOk s = true → changeoverPending s = false →
      s.host.polled = false → exec (.ringSnapshot v) s = .next (modHost (fun h => { h with polled := true })
        (((List.range 16).map (fun i => (s.host.rotate + i) % 16)).foldl (fun (x : State × Nat) n =>
          match v.find? (fun k => k.1.val = n) with
          | none => x
          | some k => ((snapRing n k.2 x.2 x.1).1, x.2 - (snapRing n k.2 x.2 x.1).2)) (s, 1024)).1)) ∧
    (s.pins.perstN = true → tlpHeard s ide = true → exec (.ringEnable r en ide) s = .next (setEn r.val en s)) ∧
    (∃ t, exec .perstNAssert s = .next t ∧ t.pins.perstN = false ∧ t.host.bar2En = false ∧ t.host.width = 0 ∧ t.host.msix = [] ∧
      t.host.pba = 0 ∧ t.mem = s.mem ∧
      (∀ n, (ringOf t n).en = false ∧ (ringOf t n).active = false)) ∧
    exec .perstNRelease s = .next { s with pins := { s.pins with perstN := true } } ∧
    exec .pcieLinkDown s = .next (modHost (fun h => { h with width := 0, rate := 0 }) s) ∧
    (s.pins.perstN = true → 4 ≤ s.boot.stage → 1 ≤ x.toNat → x.toNat ≤ 5 → 1 ≤ y.toNat → y.toNat ≤ 6 →
      ((List.range 16).all (fun n => !(ringOf s n).active || (ringOf s n).heldOut.isEmpty) = true) →
      exec (.pcieLinkUp x y) s = .next (modHost (fun h => { h with width := x.toNat, rate := y.toNat }) s)) ∧
    (s.host.ide = 2 →
      let u := measChange (modHost (fun h => { h with ide := 3 }) s)
      (jobLoaded s = true → exec .ideIntegrityFailure s = .next (jobFault 0x0904 [] u)) ∧
      (jobLoaded s = false → exec .ideIntegrityFailure s = .next u)) ∧
    (s.stride.window = false → fabricUp s = true → ringUp s r.val = true → (ringOf s r.val).heldOut = [] →
      (ringOf s r.val).decided = c :: l →
      let k := ringOf s r.val
      let u := emit (.hostWrite (k.idxAddr + 12) [(k.cqPi + 1).toNat]) (emit (.cq r.val (cqSlot k k.cqPi.toNat) (cqEntry c))
        (modRing r.val (fun q => { q with
          decided := l, cqPi := q.cqPi + 1, outstanding := q.outstanding - 1, held := q.held && !l.isEmpty }) s))
      (cqFull k = false → postsFirst s c.order = false → k.irqEn = true → exec (.completionPost r) s = .next (raiseMsix k.vector u)) ∧
      (cqFull k = false → postsFirst s c.order = false → k.irqEn = false → exec (.completionPost r) s = .next u) ∧
      (cqFull k = false → postsFirst s c.order = true → exec (.completionPost r) s = .next s) ∧
      (cqFull k = true → exec (.completionPost r) s = .next (modRing r.val (fun q => { q with held := true }) s)))

/-- The register windows (R11 to R20, R505 to R507): a write on either path goes to the register at its offset; a read of 8 bytes brings
the register, of its low word also latches the high word for the read that follows; an offset without a register is refused with its
record. Memory through BAR2: a read brings the bytes, a write stores them, and every other byte reads as before; a refused one is reported
as unsupported where the host has enabled it.
The model's choices in it: log 12. -/
def Obligations.WindowsAccess : Prop :=
  ∀ (off size : Nat) (r : Reg) (v hw : Word) (bytes : List Byte) (ide ur : Bool) (s : State),
    (bar0Heard s off size = true → tlpHeard s ide = true → 5 ≤ s.boot.stage →
      (hostReg s off size = some r →
        exec (.registerWrite (.host ide) off size v hw) s = .next (regWriteAt .bar0 r (accessOf off size v hw false) s) ∧
        (size = 8 → isDbgReg r = false →
          exec (.readLowWordLatch off size ide) s = .next (hostReturn (bytesLE 8 (regRead s r).toNat) 0 s)) ∧
        (size = 4 → off % 8 = 0 → isDbgReg r = false → regHalf r = false → exec (.readLowWordLatch off size ide) s = .next (hostReturn
          (bytesLE 4 ((regRead s r).toNat % 2 ^ 32)) 0 (setLatch (off / 8 * 8) (some ((regRead s r).toNat / 2 ^ 32)) s)))) ∧
      (hostReg s off size = none →
        exec (.bar0UnimplementedAccess true off size ide) s = .next (bar0Refuse off s) ∧
        exec (.bar0UnimplementedAccess false off size ide) s = .next (hostZero size (bar0Refuse off s)))) ∧
    (ostlerReach s = true → regFor off size = some r → isDbgReg r = false →
      exec (.registerWrite .ostler off size v hw) s = .next (regWrite r (accessOf off size v hw true) s)) ∧
    (tlpHeard s ide = true → s.host.bar2En = true →
      let a := bar2Addr s off
      (bar2Fits s 4096 off size = true → hostOpen s a size = true → readsMay s a size = true → bar2May s false a = true →
        bar2May s false (a + size - 1) = true →
        ∃ t, exec (.bar2Read off size [] ide) s = .next t ∧
          t.mem = s.mem ∧ t.host.status = 0 ∧ t.host.data = bar2Bytes (hostCharge a size s) a size) ∧
      (bar2Fits s 512 off bytes.length = true → hostOpen s a bytes.length = true → bar2May s true a = true →
        bar2May s true (a + bytes.length - 1) = true → aliasTarget s a = none → Memory.wf s.mem = true →
        ∃ t, exec (.bar2Write off bytes [] ide ur) s = .next t ∧ memSameBut a bytes.length s t ∧ readBytes t a bytes.length = bytes) ∧
      (bar2Fits s 512 off bytes.length = true → bar2May s true a = false → exec (.bar2Write off bytes [] ide ur) s =
        .next (if ur = true then emit (.urError a) (bar2Refuse a s) else bar2Refuse a s)) ∧
      (bar2Fits s 4096 off size = true → bar2May s false a = false →
        exec (.bar2Read off size [] ide) s = .next (hostReturn [] 1 (bar2Refuse a s))))

/-- The board's events (R80, R524 to R533, R546, R557, R613): the throttle is set at T_HOT and cleared below; a reading of 115 C trips
whichever event brings it; the trip, a lost rail and a lost management clock are chip faults; a fall of POWER_FAIL_N is counted, recorded
and written in the journal; the pins follow.
The model's choices in it: log 6 and 15. -/
def Obligations.BoardEvents : Prop :=
  ∀ (sensor : Fin 32) (t : Int) (temps : List Int) (n : Nat) (w : Word) (low : Bool) (s : State),
    (950 ≤ t →
      let u := noteChange { s with thermal := readSensors [(t, sensor.val)] s.thermal }
      exec (.thermalThrottle sensor t) s = .next (tripIfHot u) ∧ u.thermal.throttle = true ∧ sget 0 u.thermal.sensors sensor.val = t ∧
      (tempMax u < 1150 → tripIfHot u = u) ∧
      (1150 ≤ t → s.thermal.tripped = false → (tripIfHot u).thermal.tripped = true ∧ (tripIfHot u).pins.thermtripN = false)) ∧
    (temps.length = 32 → (∀ x ∈ temps, x ≤ 900) → scanon 0 none s.thermal.sensors = true →
      ∃ u, exec (.thermalThrottleEnd temps) s = .next (noteChange u) ∧ u = { s with thermal := u.thermal } ∧
        u.thermal.throttle = false) ∧
    (1150 ≤ t → s.thermal.tripped = false → ∃ u, exec (.thermalTrip sensor t) s = .next u ∧ u.thermal.tripped = true ∧
      u.pins.thermtripN = false ∧ (s.chipFault = none → u.chipFault = some 0x0905)) ∧
    (n < 13 → s.pins.porstN = true → s.pins.powerFailN = true →
      exec (.supplyLost n) s = .next (chipStop 0x0906 (item 1 n) true s)) ∧
    (s.thermal.tripped = false →
      exec (.mgmtClockLost n) s = .next (modMgmt (fun m => { m with clockLost := true }) (chipStop 0x0A02 (item 8 n) true s))) ∧
    (s.pins.powerFailN = true → exec (.powerFailNFall w) s = .next (journalWrite w.toNat (event 0x0A84 (item 1 0)
      (modMgmt (fun m => { m with powerFails := m.powerFails + 1 }) (noteChange { s with pins := { s.pins with powerFailN := false } }))))) ∧
    (s.pins.powerFailN = false → exec .powerFailNRise s =
      .next (event 0x0A84 (item 1 1) (noteChange { s with pins := { s.pins with powerFailN := true } }))) ∧
    exec (.throttleNChange low) s = .next (noteChange { s with pins := { s.pins with throttleN := !low } })

/-- EtherCAT (R534 to R551): the AL states and their refusals, the output image's budget and rack state, the loss of the master with its
record, the distributed clock, and the mailbox: what it reads, writes and refuses.
The model's choices in it: log 36 and 40. -/
def Obligations.EthercatRuns : Prop :=
  ∀ (a : AlState) (o : OutImage) (i n v ms : Nat) (w : Word) (s : State),
    (s.boot.stopped = false → 5 ≤ s.boot.stage → s.mgmt.clockLost = false → a ≠ .boot →
      (alStep s.mgmt.al a = true → a ≠ .op → exec (.alStateRequest a 5 27) s = .next (modMgmt (fun m => { m with al := a, alCode := 0 }) s)) ∧
      (s.mgmt.al = .safeOp → exec (.alStateRequest .op 5 27) s = .next (modMgmt (fun m => { m with
        al := .op, alCode := 0, watchdogNow := m.watchdogMs, backInOp := m.masterLost }) s)) ∧
      (alStep s.mgmt.al a = false → exec (.alStateRequest a 5 27) s =
        .next (modMgmt (fun m => { m with al := s.mgmt.al, alCode := 0x0011 }) s))) ∧
    (s.mgmt.al = .op → s.mgmt.clockLost = false → s.mgmt.masterLost = false → o.budget ≤ 1150 → o.rack = s.mgmt.rack →
      let u := modMgmt (fun m => { m with rmCycle := o.cycle, rmImage := o.cycle }) s
      (s.boot.restart = false → exec (.outputImageAccept o) s = .next (noteChange (modMgmt (fun m => { m with budget := o.budget }) u))) ∧
      (s.boot.restart = true → exec (.outputImageAccept o) s = .next (modMgmt (fun m => { m with heldBudget := some o.budget }) u))) ∧
    (s.mgmt.al = .op → s.mgmt.watchdogNow ≤ ms → exec (.masterLost ms false) s = .next (event 0x0A80 [] (modMgmt (fun m => { m with
      al := .safeOp, alCode := 0x001B, masterLost := true, frozen := true, backInOp := false, losses := m.losses + 1 }) s))) ∧
    (ms < s.mgmt.watchdogNow → exec (.masterLost ms false) s = .next s) ∧
    (exec (.masterLost ms true) s = .next s) ∧
    (s.mgmt.al = .op → s.mgmt.portA = false → exec (.ethercatPortLinkChange true false) s = .next (event 0x0A80 [] (modMgmt (fun m => { m with
      al := .safeOp, alCode := 0x001B, masterLost := true, frozen := true, backInOp := false, losses := m.losses + 1 })
        (modMgmt (fun m => { m with portB := false }) s)))) ∧
    (s.mgmt.al ≠ .op → exec (.ethercatPortLinkChange true true) s = .next (modMgmt (fun m => { m with portB := true }) s)) ∧
    (s.stride.sourceNow = 2 → s.stride.fallback = false → exec .distributedClockFailure s = .next (event 0x0181 []
      (modStride (fun t => { t with freeRun := true, fallback := true, aligned := false }) s))) ∧
    exec (.sync0Event w) s = .next (rebuildImage (modMgmt (fun m => { m with dcTime := w.toNat }) s)) ∧
    (mailboxUp s = true →
      (odMissing s i n = 0 →
        (odAccess i n ≠ .wo → (i, n) ≠ (0x2700, 0x0F) → (i, n) ≠ (0x2F00, 5) → (i, n) ≠ (0x2F00, 9) →
          exec (.sdoRead i n) s = .next (modMgmt (fun m => { m with sdoAbort := 0, sdoData := odValue s i n }) s)) ∧
        (odAccess i n = .rw ∨ odAccess i n = .wo → exec (.sdoWrite i n v) s = .next (odWrite i n v s)) ∧
        (odAccess i n = .ro → exec (.sdoWrite i n v) s = .next (sdoAnswer 0x06010002 s))) ∧
      (odMissing s i n ≠ 0 → exec (.sdoRead i n) s = .next (sdoAnswer (odMissing s i n) s)) ∧
      (odMissing s i n = 0 → isOvf i n = true → exec (.odOvfClear i n 0 0) s = .next (sdoAnswer 0 (ovfClear i n 0 s))))

/-- Wards and the Tally's readers (R552 to R562, R581): a ward's write with the owner's authorisation burns bit by bit and answers; a bit
that does not hold is WARD_WRITE_FAILED; an authorisation that fails is counted. The reader in turn frees the bank it has read and pops
its records.
The model's choices in it: log 6, 10, 12 and 39. -/
def Obligations.WardsAndTally : Prop :=
  ∀ (w : Ward) (old v : Nat) (b : BitVec 1024) (s : State), mailboxUp s = true → s.boot.stopped = false →
    (s.fuses.ownerHash ≠ 0 →
      let u := newNonce (modSec (fun k => { k with auth := none }) s)
      (authorised w v s = true → wardShut s = false → v ≠ wardValue s.fuses w → wardBeyond s.fuses w v = false →
        exec (.wardWrite w v) s = .next (modMgmt (fun m => { m with burn := some (w, wardValue s.fuses w, v) }) u)) ∧
      (authorised w v s = true → wardShut s = true → exec (.wardWrite w v) s = .next (sdoAnswer 0x08000022 u)) ∧
      (s.sec.auth = none → exec (.wardWrite w v) s = .next (authRefuse u))) ∧
    (s.mgmt.burn = some (w, old, v) →
      let u := modMgmt (fun m => { m with wardPending := m.wardPending ||| wardPends w }) { s with fuses := burnBit w v s.fuses }
      (wardValue (burnBit w v s.fuses) w = v → exec (.wardBitBurn true) s = .next (burnEnd w old 0 u)) ∧
      (wardValue (burnBit w v s.fuses) w ≠ v → s.pins.powerFailN = true → exec (.wardBitBurn true) s = .next u) ∧
      (s.chipFault = none → ∃ t, exec (.wardBitBurn false) s = .next t ∧ t.chipFault = some 0x0A01 ∧ t.fuses = s.fuses)) ∧
    (s.fuses.ownerHash ≠ 0 → authHash b = s.fuses.ownerHash → exec (.wardAuth b) s =
      .next (sdoAnswer 0 (modSec (fun k => { k with auth := some (b, s.sec.nonce), authAge := 0 }) (newNonce s)))) ∧
    (authHash b ≠ s.fuses.ownerHash → exec (.wardAuth b) s =
      .next (authRefuse (modSec (fun k => { k with auth := none }) (newNonce s)))) ∧
    (authorised w v s = true → ∃ x, s.sec.auth = some x ∧ s.sec.authAge ≤ authLife ∧
      Config.verify (authKey x.1) (wardMessage w v s.fuses.serial x.2.toNat) (x.1.extractLsb' 512 512) = true) ∧
    (s.stride.window = true ∨ 127 ≤ (bankOf s.tally s.tally.writer).recs.length → exec .tallyHandover s = .next (tallyHand s)) ∧
    (s.tally.reader = 0 → exec .tallyRelease s = .next (tallyFree s)) ∧
    (nextRecord s = none → exec .tallyNextPop s = .next (modMgmt (fun m => { m with sdoAbort := 0, sdoData := 0 }) s)) ∧
    (∀ r, nextRecord s = some r → s.tally.popped + 1 < (bankOf s.tally s.tally.next).recs.length →
      exec .tallyNextPop s = .next (modTally (fun t => { t with popped := t.popped + 1 })
        (modMgmt (fun m => { m with sdoAbort := 0, sdoData := numLE (recBytes r) }) s))) ∧
    (v < 2 → exec (.tallyReaderWrite v) s = .next (sdoAnswer 0 (modTally (fun t =>
      if t.reader = v then t else { t with reader := v, popped := 0 }) s))) ∧
    (2 ≤ v → exec (.tallyReaderWrite v) s = .next (sdoAnswer 0x06090030 s))

/-- SPDM (R571 to R579): each request's answer where the responder is up, its signatures over a fresh nonce, its two sessions and the
commands that need one, the IDE stream; without Tumbler's secrets the responder answers an error; failed entropy is a chip fault.
The model's choices in it: log 10, 35 and 91. -/
def Obligations.SpdmAnswers : Prop :=
  ∀ (n : Fin 2) (i : Nat) (s : State), spdmUp s = true →
    (s.chipFault ≠ some 0x0B01 →
      let q := (takeFree s).1
      let u := (takeFree s).2
      exec .getVersion s = .next (reply [0x04, 0x12] (modSec (fun k => { k with version := true, algos := false }) s)) ∧
      exec .getCapabilities s = .next (reply [0x61] s) ∧
      exec (.negotiateAlgorithms true) s = .next (reply [0x63] (modSec (fun k => { k with algos := true }) s)) ∧
      exec .getDigests s = .next (reply [0x01, Config.digest 256 [certChain s]] s) ∧
      exec (.getCertificate 0) s = .next (reply [0x02, certChain s] s) ∧
      exec (.challenge 0) s = .next (reply [0x03, q, measSummary s, Config.sign (aliasKey s) [q, certChain s, measSummary s]] u) ∧
      (1 ≤ i → i ≤ 10 → exec (.getMeasurements i false) s = .next (reply (0x60 :: measBlock s i) s) ∧
        exec (.getMeasurements i true) s =
          .next (reply ([0x60, q] ++ measBlock s i ++ [Config.sign (aliasKey s) (q :: measBlock s i)]) u)) ∧
      ((spdmSess s 0).up = false → exec (.keyExchange 0) s =
        .next (reply [0x64, 0, q, Config.sign (aliasKey s) [q, 0]] (modSpdm 0 (fun _ => { up := true }) u))) ∧
      ((spdmSess s n.val).up = true → (spdmSess s n.val).fin = false →
        exec (.finish n true) s = .next (reply [0x65] (modSpdm n.val (fun k => { k with fin := true }) s))) ∧
      ((spdmSess s n.val).fin = true →
        exec (.heartbeat n) s = .next (reply [0x68] s) ∧
        exec (.keyUpdate n) s = .next (reply [0x69] (modSpdm n.val (fun k => { k with keys := k.keys + 1 }) s)) ∧
        exec (.endSession n) s = .next (reply [0x6C] (modSpdm n.val (fun _ => {}) s)) ∧
        (s.host.ide = 1 → exec (.vendorDefinedRequest n 0 true) s =
          .next (reply [0x7E] (measChange (modHost (fun h => { h with ide := 2 }) s))))) ∧
      ((spdmSess s n.val).fin = false → exec (.heartbeat n) s = .next (spdmError 0x04 s))) ∧
    (s.chipFault = some 0x0B01 → exec .getDigests s = .next (spdmError 0x05 s)) ∧
    (s.thermal.tripped = false → s.job.chgOpen = false → exec (.entropyFailed i) s = .next (chipStop 0x0B02 (item 1 i) true s))

/-- Debug access (R582 to R588): an opened session is counted, measured and recorded and ends with its path's close or a TAP reset; at
level 3 the core named halts, steps and goes on; an access within the level reads or writes 8 bytes and moves the address on by 8; a dump
is read in units of 64 bytes.
The model's choices in it: log 37 and 54. -/
def Obligations.DebugAccess : Prop :=
  ∀ (p : DbgPath) (l : BitVec 2) (v : Word) (s : State),
    (pathUp s p = true → l ≠ 0 → s.sec.dbgOpen = false → s.job.chgOpen = false →
      ∃ t, exec (.dbgOpen p l) s = .next t ∧ t.sec.dbgOpen = true ∧ t.sec.level = l.toNat ∧ t.sec.path = pathNo p ∧
        t.sec.count = acctAdd 1 s.sec.count ∧ memSame s t) ∧
    (pathUp s p = true → s.sec.dbgOpen = true → s.sec.path = pathNo p → exec (.dbgClose p) s = .next (debugShut s)) ∧
    (∀ high, exec (.tapReset high) s = .next (debugShut { s with pins := { s.pins with trstN := high } })) ∧
    (s.pins.trstN = false → pathUp s .jtag = false) ∧
    (dbgControl s = true → (jobCores s).contains s.sec.core = false →
      exec .dbgHalt s = .next (modCore s.sec.core (fun k => { k with dbgHalt := true }) s) ∧
      exec .dbgResume s = .next (modCore s.sec.core (fun k => { k with dbgHalt := false }) s)) ∧
    (∀ t, s.sec.core < 288 → dbgControl s = true → (coreOf s s.sec.core).dbgHalt = true → nextThread s s.sec.core = some t →
      (jobCores s).contains s.sec.core = false →
      exec .dbgStep s = .next (modCore s.sec.core (fun k => { k with dbgHalt := true })
        (groomExec (coreIdOf s.sec.core) (threadIdOf t) (modCore s.sec.core (fun k => { k with dbgHalt := false }) s)))) ∧
    (debugMay s false = true → ∃ t, exec .dbgDataRead s = .next t ∧ t.sec.data = debugWord s s.sec.addr ∧
      t.sec.addr = (s.sec.addr + 8) % 2 ^ 48 ∧ t.mem = s.mem) ∧
    (∀ k o, debugMay s true = true → regionOf s s.sec.addr = .spad k o → Memory.wf s.mem = true →
      ∃ t, exec (.dbgDataWrite v) s = .next t ∧ readWord t s.sec.addr = v ∧ memSameBut s.sec.addr 8 s t ∧
        t.sec.addr = (s.sec.addr + 8) % 2 ^ 48) ∧
    (dumpOffsetOk s.dumps.source s.dumps.offset = true → exec .dumpDataRead s = .next (modMgmt (fun m => { m with
        sdoAbort := 0, sdoData := numLE ((List.range 64).map (fun i => dumpSourceByte s (s.dumps.offset + i))) })
      (modDumps (fun d => { d with offset := (d.offset + 64) % 2 ^ 30 }) s)))

/-- Resets and start-up (R592 to R603): a cold reset leaves memory, fuses and the board and puts the rest at its reset values, WARM_RESET
keeps also TENANT, the counts and what R602 names; start-up stops with its fault where a secret, a fuse, an image or tier H fails, and
otherwise reaches stage 6, and stage 7 at boundary action 9.
The model's choices in it: log 8 and 10. -/
def Obligations.ResetsAndStartUp : Prop :=
  ∀ (i : StartIn) (s : State),
    (∃ t, exec .coldReset s = .next t ∧ t.mem = s.mem ∧ t.fuses = s.fuses ∧ t.board = s.board ∧ t.pending = s.pending ∧
      t.chipFault = none ∧ t.boot.stage = 0 ∧ t.boot.cause = 1 ∧ t.cores = [] ∧ t.engines = [] ∧ t.job = {} ∧ t.stride.count = 0 ∧
      t.tally = {} ∧ t.sec = {} ∧ t.scr = (if s.tiers.tio then { s.scr with gen := s.scr.gen + 1 } else s.scr)) ∧
    (5 ≤ s.boot.stage → ∃ t, exec .warmReset s = .next t ∧ t.mem = s.mem ∧ t.fuses = s.fuses ∧ t.scr = s.scr ∧ t.chipFault = none ∧
      t.boot.stage = 0 ∧ t.boot.cause = 2 ∧ (∀ e, (engOf t e).firing = none ∧ (engOf t e).entries = []) ∧
      t.job.run = none ∧ t.job.tenant = s.job.tenant ∧ t.stride.count = s.stride.count ∧ t.sec.count = s.sec.count ∧
      t.sec.maxLevel = s.sec.maxLevel ∧ t.tally.seq = s.tally.seq) ∧
    (s.boot.stopped = false → s.boot.stage = 0 →
      (i.secretOk = false → exec (.startUp i) s = .next (startStop 0 0x0B01 [] s)) ∧
      (i.secretOk = true → i.fuseOk = false → exec (.startUp i) s = .next (startStop 0 0x0C02 [] s)) ∧
      (i.secretOk = true → i.fuseOk = true → pickDir (stageFuses s).boot i.dirOk = none →
        exec (.startUp i) s = .next (startStop 1 0x0C03 (bothSlots 1) (stageFuses s))) ∧
      (i.secretOk = true → i.fuseOk = true → ∀ d, pickDir (stageFuses s).boot i.dirOk = some d →
        let u := modBoot (fun b => { b with dirCur := d }) (stageFuses s)
        pickImage u 1 i.imageOk = none → exec (.startUp i) s = .next (startStop 2 0x0C03 (bothSlots 1) u)) ∧
      (i.secretOk = true → i.fuseOk = true → ∀ d a b, pickDir (stageFuses s).boot i.dirOk = some d →
        let t := modBoot (fun b => { b with dirCur := d }) (stageFuses s)
        pickImage t 1 i.imageOk = some a → pickImage (stageTumbler a t) 2 i.imageOk = some b →
        let u := stageMemory i (stageConfig b (stageTumbler a t))
        (∀ p, p < 8 → (portOf u p).state = 2) →
        exec (.startUp i) s = .next (stageEtxia i (stageRelease i (modBoot (fun k => { k with stage := 5 }) u))))) ∧
    (s.boot.stopped = false → mayAct s 9 = true → s.boot.stage = 6 → s.job.chg.phase = 0 → changeoverPending s = false →
      s.sft.pending = false → s.sft.busy = false → s.sft.activeId.toNat = i.sftId →
      exec (.startUp i) s = .next (event 0x0C80 (item 1 s.boot.cause) (modBoot (fun b => { b with stage := 7 }) (setAct 9 s))))

/-- Chip faults, dumps and cores that leave (R604 to R627): the first chip fault stops the part with its code; Tumbler's dump, the copy to
tier F; a core that trips leaves service with its registers, and the job that had it ends with CORE_STATE_LOST at boundary action 1; an
Ostler core leaves service with its record and comes back at action 7 once all 256 regions of its store have passed.
The model's choices in it: log 5, 15 and 86. -/
def Obligations.PartsLeaveService : Prop :=
  ∀ (f : ChipFaultIn) (c : CoreId) (o : OstlerId) (s : State),
    (s.chipFault = none → isChipFault f.code = true → ∃ t, exec (.chipFault f) s = .next t ∧ t.chipFault = some f.code) ∧
    (isChipFault f.code = false → exec (.chipFault f) s = .next s) ∧
    (5 ≤ s.boot.stage → exec .dumpFCopy s = .next (copyDump s)) ∧
    (s.chipFault.isSome = true → s.dumps.tumblerOwns = true → s.dumps.writing = true → s.boot.restart = false →
      exec .reducedDump s = .next (reducedDump s)) ∧
    (5 ≤ s.boot.stage → (bindingOf s c.val).unbacked = false → exec (.droopTrip c) s = .next (coreLeaves c.val (coreClear c.val s))) ∧
    (∀ r, s.job.run = some r → mayAct s 1 = true → s.stride.act = 1 →
      (tackCores r.tack).filter (fun k => coreStale s k && !r.coresLost.contains k) = [c.val] →
      exec .coreStateLost s = .next (jobFault 0x0C05 (item 2 c.val ++ item 1 (coreOf s c.val).svc.toNat)
        (coreWriteOff c.val (modRun (fun r => { r with coresLost := r.coresLost ++ [c.val] }) (setAct 1 s))))) ∧
    (5 ≤ s.boot.stage → (ostlerOf s o.val).online = true → exec (.ostlerLeaveService o) s = .next (ostlerLeave o.val s)) ∧
    (mayAct s 7 = true → s.stride.act = 7 → 5 ≤ s.boot.stage → (ostlerOf s o.val).online = false → (ostlerOf s o.val).retire = false →
      256 ≤ (ostlerOf s o.val).regions → s.boot.rolling = none →
      ∃ t, exec (.ostlerReadmit o) s = .next t ∧ (ostlerOf t o.val).online = true ∧
        (ostlerOf t o.val).loaded = (ostlerOf s o.val).svc ∧ (ostlerOf t o.val).region = 0 ∧ t.mem = s.mem)

/-- The update of images (R614 to R622): BEGIN, the data in segments of 512 bytes, VERIFY, ACTIVATE and ABORT move the update's
state, each change recorded; the restart of Tumbler and the rolling update of the Ostlers carry it out; a restart that times out goes back.
The model's choices in it: log 64 and 91. -/
def Obligations.ImagesUpdate : Prop :=
  ∀ (sig : Bool) (lp : LpRate) (nand : NandRate) (l : List Byte) (w : Word) (n k : Nat) (s : State),
    (imgHeard s = true → imgBusy s = false →
      (s.boot.target ≠ 0 → exec .imgBegin s = .next (sdoFine (imgStep (fun b => setImage b.target (idleSlot b b.target) { valid := false }
        { b with imgState := 1, imgErr := 0, segments := 0 }) s))) ∧
      (s.boot.imgState = 1 → imgCheck s sig = 0 → exec (.imgVerify sig lp nand) s = .next (sdoFine (imgStep (fun b =>
        { setNew { newImage b with valid := true, lpRate := lp, nandRate := nand } b with imgState := 2 }) s))) ∧
      (s.boot.imgState = 1 → imgCheck s sig ≠ 0 → exec (.imgVerify sig lp nand) s =
        .next (sdoFine (imgStep (fun b => { b with imgState := 5, imgErr := imgCheck s sig }) s))) ∧
      (s.boot.imgState = 2 → s.boot.target = 1 → exec .activate s = .next (sdoFine (imgStep (fun b =>
        { dirWrite (fun d => { d with tumbler := 1 - d.tumbler }) b with imgState := 3, restartDue := true }) s))) ∧
      (s.boot.imgState ≠ 2 → exec .activate s = .next (imgRefuse s))) ∧
    (imgHeard s = true → s.boot.imgState = 1 → l.length = 512 →
      ((s.boot.segments + 1) * 512 ≤ slotSize s.boot → exec (.imgData l true) s = .next (sdoFine (modBoot (fun b =>
        { setNew { newImage b with bytes := (newImage b).bytes ++ l } b with segments := b.segments + 1 }) s))) ∧
      (slotSize s.boot < (s.boot.segments + 1) * 512 → exec (.imgData l true) s = .next (imgFail 1 s)) ∧
      ((s.boot.segments + 1) * 512 ≤ slotSize s.boot → exec (.imgData l false) s = .next (imgFail 5 s))) ∧
    (imgHeard s = true → s.boot.imgState = 1 ∨ s.boot.imgState = 2 → exec .imgAbort s =
      .next (sdoFine (imgStep (fun b => { b with imgState := 0, imgErr := 0, segments := 0 }) s))) ∧
    (s.boot.restartDue = true → s.stride.window = true →
      exec .tumblerRestart s = .next (modBoot (fun b => { b with restart := true, restartDue := false }) s)) ∧
    (s.boot.restart = true →
      (∃ t, exec (.tumblerRestartEnd w) s = .next t ∧ t.boot.restart = false ∧ t.boot.runTumbler = (dirNow s.boot).tumbler ∧
        t.boot.imgState = 4 ∧ t.sec.sessions = [] ∧ t.sec.nonce = w ∧ t.mem = s.mem) ∧
      (∃ t, exec .tumblerRestartTimeout s = .next t ∧ t.boot.restart = false ∧
        (dirNow t.boot).tumbler = 1 - (dirNow s.boot).tumbler ∧ (dirNow t.boot).seq = (dirNow s.boot).seq + 1 ∧ t.boot.imgState = 5 ∧
          t.boot.imgErr = 7)) ∧
    (s.boot.rolling = some (n, k) → fabricUp s = true → s.stride.window = true → k ≤ s.stride.count → 8 ≤ ostlersUp s →
      exec .rollingUpdateStep s = .next (ostlerLeave n s))

/-- Strides (R66 to R100, R138): a boundary that is due counts, opens the window at action 1 and sets STRIDE_OUT; the issue span closes
it, and the free threads and engines of a core begin the step; the watchdog, the markers of a domain, and the edges and limits of the
other sources.
The model's choices in it: log 5, 58 and 60. -/
def Obligations.StridesRun : Prop :=
  ∀ (b : BoundaryIn) (c : CoreId) (body : BitVec 256) (ph : Int) (n t : Nat) (ch : BitVec 16) (r : Running) (s : State),
    (boundaryDue s = true →
      let u := strideInForce (hostAges (openWindow (takeMeasures b s)))
      (u.chipFault.isSome = true → exec (.strideBoundary b) s = .next (dumpGo (curbLoad (rebuildImage (setLen u))))) ∧
      (u.chipFault = none → exec (.strideBoundary b) s = .next (boundaryWork u))) ∧
    (s.stride.window = true → fabricUp s = false → ∃ u, exec .issueSpanStart s = .next u ∧ u.stride.window = false ∧ u.stride.act = 0 ∧
      u.stride.count = s.stride.count ∧ u.pins.strideOut = 0 ∧ u.mem = s.mem) ∧
    (s.stride.window = true → fabricUp s = true →
      ∃ u, exec .issueSpanStart s = .next u ∧ u.stride.window = false ∧ u.stride.act = 0 ∧
      ((hitchResume (raiseUsed (openNine s))).job.run = some r → r.started = true → r.openSteps.contains r.stride = false →
        ∃ q, u.job.run = some q ∧ q.avail = r.stride + 1 ∧ q.openSteps = r.openSteps ++ [r.stride])) ∧
    (fabricUp s = true → s.stride.window = false → (coreOf s c.val).halted = false → coreStale s c.val = false →
      exec (.stepBegin c) s = .next (forEach (coreEngines c.val) (fun e => engineAdvance e)
        (forEach (List.range 8) (fun t => threadAdvance c.val t) s))) ∧
    (s.job.run = some r → mayAct s 1 = true → s.stride.act = 1 → 2 ≤ r.quiet → r.hardStop = false →
      ∃ u, exec .strideWatchdog s = .next u ∧
        (∃ q, u.job.run = some q ∧ q.quiet = 0 ∧ q.reason = some 4 ∧ q.hardStop = r.draining)) ∧
    (5 ≤ s.boot.stage → s.boot.restart = false → 2 * s.stride.len + s.stride.leadNow < n →
      exec (.boundaryTimer n) s = .next (chipStop 0x0105 [] false s)) ∧
    (fabricUp s = true → s.stride.window = false → multiChip s = true → s.stride.root = true → s.job.run = some r → s.stride.sendTack = 0 →
      s.job.chosen = none →
      let k : Marker := { stride := nextStride s, len := s.stride.requests.foldl (fun n r => Nat.max n r.2) s.stride.lenReq
                          delay := 0, advance := advanceNext s, code := s.stride.sendCode, tackId := 0 }
      exec .markerSend s = .next (modStride (fun t => { t with sendCode := 0, sendTack := 0, aligned := t.sourceNow ≤ 1 })
        (markerForward k (markerGroup s 0) (ownChip s) (markerSays k s)))) ∧
    (fabricUp s = true → bodyRsvd body = false → bodyKind body = 0 →
      let m := bodyMarker body
      let g := markerGroup s m.tackId
      (2 ≤ g.length → rootOf g ≠ ownChip s →
        exec (.markerReceive body ph) s = .next (markerForward m g (rootOf g) (markerAlign m ph (markerSays m s)))) ∧
      (g.length < 2 ∨ rootOf g = ownChip s → exec (.markerReceive body ph) s = .next s)) ∧
    (fabricUp s = true → bodyRsvd body = true →
      exec (.markerReceive body ph) s = .next (modMgmt (fun m => { m with badPackets := statInc 32 m.badPackets }) s)) ∧
    (fabricUp s = true → multiChip s = true → s.stride.root = false → s.stride.sourceNow < 2 →
      let u := modStride (fun t => { t with missing := t.missing + 1 }) s
      (s.stride.missing < 3 → exec .markerLoss s = .next u) ∧
      (3 ≤ s.stride.missing → s.stride.sourceNow = 0 → s.stride.fallback = false → exec .markerLoss s =
        .next (event 0x0181 [] (modStride (fun t => { t with fallback := true, aligned := false }) u))) ∧
      (3 ≤ s.stride.missing → s.stride.sourceNow = 1 → s.stride.freeRun = false → exec .markerLoss s =
        .next (sendStride s.stride.domainRoot 2 { stride := jobStride s, code := 0x0103 }
          (jobFault 0x0103 (item 8 (jobStride s)) (modStride (fun t => { t with freeRun := true, aligned := false }) u))))) ∧
    (fabricUp s = true → multiChip s = true → s.stride.root = true →
      bodyRsvd body = false →
      (bodyKind body = 1 → exec (.lenReqReceive ch body) s = .next (modStride (fun t => { t with
        requests := sset 0 t.requests ch.toNat (Nat.min (bodyMarker body).len 4194304) }) s)) ∧
      (bodyKind body = 2 → (bodyMarker body).code = 0x0801 ∨ (bodyMarker body).code = 0x0103 → ∃ u,
        exec (.strideEventReceive ch body) s = .next u ∧ (s.stride.sendCode = 0 → u.stride.sendCode = (bodyMarker body).code))) ∧
    (fabricUp s = true → s.job.groupReady.contains (ch.toNat, t) = false →
      exec (.slotStagedReport ch t) s = .next (modJob (fun j => { j with groupReady := j.groupReady ++ [(ch.toNat, t)] }) s)) ∧
    (s.stride.sourceNow = 3 → 5 ≤ s.boot.stage → s.thermal.tripped = false →
      (n < 2048 → exec (.strideInEdge n) s = .next (event 0x0182 [] s)) ∧
      (2048 ≤ n → exec (.strideInEdge n) s = .next (modStride (fun t => { t with edgeSeen := true, freeRun := false, aligned := true })
        { s with pins := { s.pins with strideOut := 64 } }))) ∧
    (s.stride.sourceNow = 3 → 4 * s.stride.len ≤ n →
      exec (.strideInTimeout n) s = .next (modStride (fun t => { t with freeRun := true, aligned := false }) s))

/-- Registers and entries right after reset, at the values the spec's tables give (R17, R95, R145, R271, R312, R520, R546). -/
def Obligations.ResetLeaves : Prop :=
  let s := State.reset
  s.pending = [] ∧ bitsOf (regRead s .gctlId) 31 16 = 0x0288 ∧
  (∀ r, r < 16 → bitsOf (regRead s (.ringSq r)) 3 0 = 4 ∧ bitsOf (regRead s (.ringCq r)) 3 0 = 4 ∧
    bitsOf (regRead s (.ringCfg r)) 10 8 = 7) ∧
  (∀ p k, p < 40 → k < 8 → bitsOf (regRead s (.curbBudget p k)) 31 0 = 0xFFFFFFFF) ∧
  bitsOf (regRead s .tierDeadline) 55 32 = 0x040000 ∧ bitsOf (regRead s .tierDeadline) 23 0 = 0x001000 ∧
  (∀ p, p < 40 → bitsOf (regRead s (.portStatus p)) 15 12 = 0xF ∧ bitsOf (regRead s (.portStatus p)) 11 8 = 0xF ∧
    bitsOf (regRead s (.portStatus p)) 2 0 = 1) ∧
  (∀ e, e < 2304 → bitsOf (regRead s (.engState e)) 3 0 = 4) ∧
  (∀ c r, c < 288 → r < 64 → regRead s (.sregAt c r) = 0) ∧
  odValue s 0x2100 1 = 1150 ∧ odValue s 0x2100 2 = 0 ∧ odValue s 0x2100 3 = 0 ∧ odValue s 0x2100 4 = 100 ∧
  odValue s 0x2200 1 = 16384 ∧ odValue s 0x2200 2 = 16384 ∧ odValue s 0x2200 3 = 0 ∧ odValue s 0x2200 7 = 1536 ∧
  odValue s 0x2200 14 = 400 ∧ odValue s 0x2200 15 = 4 ∧ odValue s 0x2300 4 = 16 ∧ odValue s 0x2300 5 = 32 ∧ odValue s 0x2300 8 = 4096 ∧
  odValue s 0x2300 9 = 262144 ∧ odValue s 0x2001 1 = 1 ∧ odValue s 0x2001 2 = 0
end

