-- ==== Sys2Proof/Laws/Sparse.lean ====
section
/-!
SUPPORT. Sparse stores: a read after a write gives the value written, every other key reads as before, and every operation
keeps the canonical form.
-/
namespace Sys2Proof.Machine

variable {α : Type}

/-- A key below every listed key is not listed. -/
theorem sget_lt [DecidableEq α] {d : α} {lo : Nat} {m : Sparse α} (h : scanon d (some lo) m = true) {k : Nat} (hk : k ≤ lo) :
    sget d m k = d := by
  cases m with
  | nil => rfl
  | cons p m =>
    obtain ⟨j, x⟩ := p
    simp only [scanon, Bool.and_eq_true, decide_eq_true_eq] at h
    simp only [sget]
    rw [if_neg (by omega), if_pos (by omega)]

/-- A canonical tail under a higher bound is one under a lower bound. -/
theorem scanon_weaken [DecidableEq α] {d : α} {a b : Nat} {m : Sparse α} (h : scanon d (some b) m = true) (hab : a ≤ b) :
    scanon d (some a) m = true := by
  cases m with
  | nil => rfl
  | cons p m =>
    obtain ⟨j, x⟩ := p
    simp only [scanon, Bool.and_eq_true, decide_eq_true_eq] at h ⊢
    exact ⟨⟨by omega, h.1.2⟩, h.2⟩

/-- Under no bound at all, too. -/
theorem scanon_none [DecidableEq α] {d : α} {b : Nat} {m : Sparse α} (h : scanon d (some b) m = true) :
    scanon d none m = true := by
  cases m with
  | nil => rfl
  | cons p m =>
    obtain ⟨j, x⟩ := p
    simp only [scanon, Bool.and_eq_true, decide_eq_true_eq] at h ⊢
    exact ⟨⟨trivial, h.1.2⟩, h.2⟩

/-- Read after write, the same key. -/
theorem sget_sins_same (d : α) (m : Sparse α) (k : Nat) (v : α) : sget d (sins m k v) k = v := by
  induction m with
  | nil => simp [sins, sget]
  | cons p m ih =>
    obtain ⟨j, x⟩ := p
    simp only [sins]
    split
    · subst_vars; simp [sget]
    · split
      · simp [sget]
      · simp only [sget]; rw [if_neg ‹_›, if_neg ‹_›, ih]

/-- Read after write, another key. -/
theorem sget_sins_other (d : α) (m : Sparse α) {k i : Nat} (v : α) (h : i ≠ k) : sget d (sins m k v) i = sget d m i := by
  induction m with
  | nil => simp [sins, sget, h]
  | cons p m ih =>
    obtain ⟨j, x⟩ := p
    simp only [sins]
    split
    · subst_vars; simp [sget, h]
    · split
      · simp only [sget]
        rw [if_neg h]
        split
        · rw [if_neg (by omega), if_pos (by omega)]
        · rfl
      · simp only [sget, ih]

/-- Read after removal, another key. -/
theorem sget_sdel_other [DecidableEq α] {d : α} {lo : Option Nat} {m : Sparse α} (hm : scanon d lo m = true) {k i : Nat}
    (h : i ≠ k) : sget d (sdel m k) i = sget d m i := by
  induction m generalizing lo with
  | nil => rfl
  | cons p m ih =>
    obtain ⟨j, x⟩ := p
    simp only [scanon, Bool.and_eq_true] at hm
    simp only [sdel]
    split
    · subst_vars
      simp only [sget]
      rw [if_neg h]
      split
      · exact sget_lt hm.2 (by omega)
      · rfl
    · split
      · rfl
      · simp only [sget, ih hm.2]

/-- Read after removal, the same key. -/
theorem sget_sdel_same [DecidableEq α] {d : α} {lo : Option Nat} {m : Sparse α} (hm : scanon d lo m = true) (k : Nat) :
    sget d (sdel m k) k = d := by
  induction m generalizing lo with
  | nil => rfl
  | cons p m ih =>
    obtain ⟨j, x⟩ := p
    simp only [scanon, Bool.and_eq_true] at hm
    simp only [sdel]
    split
    · subst_vars; exact sget_lt hm.2 (by omega)
    · split
      · simp only [sget]; rw [if_neg ‹_›, if_pos ‹_›]
      · simp only [sget]; rw [if_neg ‹_›, if_neg ‹_›, ih hm.2]

/-- A write is read back. -/
theorem sget_sset_same [DecidableEq α] {d : α} {lo : Option Nat} {m : Sparse α} (hm : scanon d lo m = true) (k : Nat) (v : α) :
    sget d (sset d m k v) k = v := by
  unfold sset
  split
  · subst_vars; exact sget_sdel_same hm k
  · exact sget_sins_same d m k v

/-- A write leaves every other key alone. -/
theorem sget_sset_other [DecidableEq α] {d : α} {lo : Option Nat} {m : Sparse α} (hm : scanon d lo m = true) {k i : Nat} (v : α)
    (h : i ≠ k) : sget d (sset d m k v) i = sget d m i := by
  unfold sset
  split
  · exact sget_sdel_other hm h
  · exact sget_sins_other d m v h

/-- A changed unit reads as its image. -/
theorem sget_smod_same [DecidableEq α] {d : α} {lo : Option Nat} {m : Sparse α} (hm : scanon d lo m = true) (k : Nat) (f : α → α) :
    sget d (smod d m k f) k = f (sget d m k) := sget_sset_same hm k _

/-- A change leaves every other unit alone. -/
theorem sget_smod_other [DecidableEq α] {d : α} {lo : Option Nat} {m : Sparse α} (hm : scanon d lo m = true) {k i : Nat}
    (f : α → α) (h : i ≠ k) : sget d (smod d m k f) i = sget d m i := sget_sset_other hm _ h

/-- Insertion keeps the form. -/
theorem scanon_sins [DecidableEq α] {d : α} {lo : Option Nat} {m : Sparse α} (hm : scanon d lo m = true) {k : Nat} {v : α}
    (hv : v ≠ d) (hk : ∀ l, lo = some l → l < k) : scanon d lo (sins m k v) = true := by
  induction m generalizing lo with
  | nil => cases lo <;> simp_all [sins, scanon]
  | cons p m ih =>
    obtain ⟨j, x⟩ := p
    simp only [scanon, Bool.and_eq_true, decide_eq_true_eq] at hm
    simp only [sins]
    split
    · subst_vars
      simp only [scanon, Bool.and_eq_true, decide_eq_true_eq]
      exact ⟨⟨hm.1.1, hv⟩, hm.2⟩
    · split
      · simp only [scanon, Bool.and_eq_true, decide_eq_true_eq]
        refine ⟨⟨?_, hv⟩, ⟨by omega, hm.1.2⟩, hm.2⟩
        cases lo with
        | none => rfl
        | some l => simpa using hk l rfl
      · simp only [scanon, Bool.and_eq_true, decide_eq_true_eq]
        exact ⟨⟨hm.1.1, hm.1.2⟩, ih hm.2 (fun l hl => by cases hl; omega)⟩

/-- Removal keeps the form. -/
theorem scanon_sdel [DecidableEq α] {d : α} {lo : Option Nat} {m : Sparse α} (hm : scanon d lo m = true) (k : Nat) :
    scanon d lo (sdel m k) = true := by
  induction m generalizing lo with
  | nil => rfl
  | cons p m ih =>
    obtain ⟨j, x⟩ := p
    have hm' := hm
    simp only [scanon, Bool.and_eq_true, decide_eq_true_eq] at hm
    simp only [sdel]
    split
    · cases lo with
      | none => exact scanon_none hm.2
      | some l => exact scanon_weaken hm.2 (by have := hm.1.1; simp only [decide_eq_true_eq] at this; omega)
    · split
      · exact hm'
      · simp only [scanon, Bool.and_eq_true, decide_eq_true_eq]
        exact ⟨hm.1, ih hm.2⟩

/-- Every write keeps the form. -/
theorem scanon_sset [DecidableEq α] {d : α} {m : Sparse α} (hm : scanon d none m = true) (k : Nat) (v : α) :
    scanon d none (sset d m k v) = true := by
  unfold sset
  split
  · exact scanon_sdel hm k
  · exact scanon_sins hm ‹_› (fun l hl => by cases hl)

/-- Every change keeps the form. -/
theorem scanon_smod [DecidableEq α] {d : α} {m : Sparse α} (hm : scanon d none m = true) (k : Nat) (f : α → α) :
    scanon d none (smod d m k f) = true := scanon_sset hm k _

/-- Leaving entries out keeps the form. -/
theorem scanon_filter [DecidableEq α] {d : α} {lo : Option Nat} {m : Sparse α} (hm : scanon d lo m = true) (q : Nat × α → Bool) :
    scanon d lo (m.filter q) = true := by
  induction m generalizing lo with
  | nil => rfl
  | cons p m ih =>
    obtain ⟨j, x⟩ := p
    simp only [scanon, Bool.and_eq_true, decide_eq_true_eq] at hm
    simp only [List.filter]
    split
    · simp only [scanon, Bool.and_eq_true, decide_eq_true_eq]
      exact ⟨hm.1, ih hm.2⟩
    · have := ih hm.2
      cases lo with
      | none => exact scanon_none this
      | some l => exact scanon_weaken this (by have := hm.1.1; simp only [decide_eq_true_eq] at this; omega)

/-- Clearing a range keeps the form. -/
theorem scanon_sclear [DecidableEq α] {d : α} {m : Sparse α} (hm : scanon d none m = true) (lo hi : Nat) :
    scanon d none (sclear m lo hi) = true := scanon_filter hm _

/-- An image of every entry, those that become the default left out, keeps the form. -/
theorem scanon_smap [DecidableEq α] {d : α} (f : Nat → α → α) {lo : Option Nat} {m : Sparse α} (hm : scanon d lo m = true) :
    scanon d lo (smap d f m) = true := by
  induction m generalizing lo with
  | nil => rfl
  | cons p m ih =>
    obtain ⟨j, x⟩ := p
    simp only [scanon, Bool.and_eq_true, decide_eq_true_eq] at hm
    have h := ih hm.2
    simp only [smap, List.map, List.filter] at h ⊢
    split
    · rename_i hd
      simp only [decide_eq_true_eq] at hd
      simp only [scanon, Bool.and_eq_true, decide_eq_true_eq]
      exact ⟨⟨hm.1.1, hd⟩, h⟩
    · cases lo with
      | none => exact scanon_none h
      | some l => exact scanon_weaken h (by have := hm.1.1; simp only [decide_eq_true_eq] at this; omega)

/-- A key a canonical store does not list reads as the default after a range with it is cleared, and every key outside the
range reads as before. -/
theorem sget_sclear [DecidableEq α] {d : α} {lo : Option Nat} {m : Sparse α} (hm : scanon d lo m = true) (a b i : Nat) :
    sget d (sclear m a b) i = if a ≤ i ∧ i < b then d else sget d m i := by
  induction m generalizing lo with
  | nil => simp [sclear, sget]
  | cons p m ih =>
    obtain ⟨j, x⟩ := p
    simp only [scanon, Bool.and_eq_true, decide_eq_true_eq] at hm
    have h := ih hm.2
    simp only [sclear, List.filter] at h ⊢
    by_cases hj : (j < a || b ≤ j) = true
    · simp only [hj]
      simp only [Bool.or_eq_true, decide_eq_true_eq] at hj
      simp only [sget, h]
      split
      · subst_vars; rw [if_neg (by omega)]
      · split
        · split <;> rfl
        · rfl
    · simp only [Bool.not_eq_true] at hj
      simp only [hj]
      rw [h]
      simp only [Bool.or_eq_false_iff, decide_eq_false_iff_not] at hj
      simp only [sget]
      split
      · rfl
      · rw [if_neg (by omega)]
        split
        · exact sget_lt hm.2 (by omega)
        · rfl

end Sys2Proof.Machine
end

