-- ==== Sys2Proof/Laws/State.lean ====
section
/-!
SUPPORT. One lemma per field of `State` and update: each update of one unit changes that unit's field and no other.
-/
namespace Sys2Proof.Machine

/-! ## modCore -/

@[simp] theorem modCore_pending (c : Nat) (f : Core → Core) (s : State) : (modCore c f s).pending = s.pending := rfl
@[simp] theorem modCore_mem (c : Nat) (f : Core → Core) (s : State) : (modCore c f s).mem = s.mem := rfl
@[simp] theorem modCore_scr (c : Nat) (f : Core → Core) (s : State) : (modCore c f s).scr = s.scr := rfl
@[simp] theorem modCore_free (c : Nat) (f : Core → Core) (s : State) : (modCore c f s).free = s.free := rfl
@[simp] theorem modCore_fuses (c : Nat) (f : Core → Core) (s : State) : (modCore c f s).fuses = s.fuses := rfl
@[simp] theorem modCore_board (c : Nat) (f : Core → Core) (s : State) : (modCore c f s).board = s.board := rfl
@[simp] theorem modCore_pins (c : Nat) (f : Core → Core) (s : State) : (modCore c f s).pins = s.pins := rfl
@[simp] theorem modCore_thermal (c : Nat) (f : Core → Core) (s : State) : (modCore c f s).thermal = s.thermal := rfl
@[simp] theorem modCore_boot (c : Nat) (f : Core → Core) (s : State) : (modCore c f s).boot = s.boot := rfl
@[simp] theorem modCore_dumps (c : Nat) (f : Core → Core) (s : State) : (modCore c f s).dumps = s.dumps := rfl
@[simp] theorem modCore_chipFault (c : Nat) (f : Core → Core) (s : State) : (modCore c f s).chipFault = s.chipFault := rfl
@[simp] theorem modCore_chipFaults (c : Nat) (f : Core → Core) (s : State) : (modCore c f s).chipFaults = s.chipFaults := rfl
@[simp] theorem modCore_bindings (c : Nat) (f : Core → Core) (s : State) : (modCore c f s).bindings = s.bindings := rfl
@[simp] theorem modCore_spares (c : Nat) (f : Core → Core) (s : State) : (modCore c f s).spares = s.spares := rfl
@[simp] theorem modCore_ostlers (c : Nat) (f : Core → Core) (s : State) : (modCore c f s).ostlers = s.ostlers := rfl
@[simp] theorem modCore_stride (c : Nat) (f : Core → Core) (s : State) : (modCore c f s).stride = s.stride := rfl
@[simp] theorem modCore_job (c : Nat) (f : Core → Core) (s : State) : (modCore c f s).job = s.job := rfl
@[simp] theorem modCore_cores (c : Nat) (f : Core → Core) (s : State) : (modCore c f s).cores = smod {} s.cores c f := rfl
@[simp] theorem modCore_engines (c : Nat) (f : Core → Core) (s : State) : (modCore c f s).engines = s.engines := rfl
@[simp] theorem modCore_reinIn (c : Nat) (f : Core → Core) (s : State) : (modCore c f s).reinIn = s.reinIn := rfl
@[simp] theorem modCore_reinOut (c : Nat) (f : Core → Core) (s : State) : (modCore c f s).reinOut = s.reinOut := rfl
@[simp] theorem modCore_sft (c : Nat) (f : Core → Core) (s : State) : (modCore c f s).sft = s.sft := rfl
@[simp] theorem modCore_tiers (c : Nat) (f : Core → Core) (s : State) : (modCore c f s).tiers = s.tiers := rfl
@[simp] theorem modCore_sync (c : Nat) (f : Core → Core) (s : State) : (modCore c f s).sync = s.sync := rfl
@[simp] theorem modCore_hitches (c : Nat) (f : Core → Core) (s : State) : (modCore c f s).hitches = s.hitches := rfl
@[simp] theorem modCore_serve (c : Nat) (f : Core → Core) (s : State) : (modCore c f s).serve = s.serve := rfl
@[simp] theorem modCore_weights (c : Nat) (f : Core → Core) (s : State) : (modCore c f s).weights = s.weights := rfl
@[simp] theorem modCore_links (c : Nat) (f : Core → Core) (s : State) : (modCore c f s).links = s.links := rfl
@[simp] theorem modCore_host (c : Nat) (f : Core → Core) (s : State) : (modCore c f s).host = s.host := rfl
@[simp] theorem modCore_mgmt (c : Nat) (f : Core → Core) (s : State) : (modCore c f s).mgmt = s.mgmt := rfl
@[simp] theorem modCore_tally (c : Nat) (f : Core → Core) (s : State) : (modCore c f s).tally = s.tally := rfl
@[simp] theorem modCore_sec (c : Nat) (f : Core → Core) (s : State) : (modCore c f s).sec = s.sec := rfl
@[simp] theorem modCore_out (c : Nat) (f : Core → Core) (s : State) : (modCore c f s).out = s.out := rfl

/-! ## modThread -/

@[simp] theorem modThread_pending (c t : Nat) (f : Thread → Thread) (s : State) : (modThread c t f s).pending = s.pending := rfl
@[simp] theorem modThread_mem (c t : Nat) (f : Thread → Thread) (s : State) : (modThread c t f s).mem = s.mem := rfl
@[simp] theorem modThread_scr (c t : Nat) (f : Thread → Thread) (s : State) : (modThread c t f s).scr = s.scr := rfl
@[simp] theorem modThread_free (c t : Nat) (f : Thread → Thread) (s : State) : (modThread c t f s).free = s.free := rfl
@[simp] theorem modThread_fuses (c t : Nat) (f : Thread → Thread) (s : State) : (modThread c t f s).fuses = s.fuses := rfl
@[simp] theorem modThread_board (c t : Nat) (f : Thread → Thread) (s : State) : (modThread c t f s).board = s.board := rfl
@[simp] theorem modThread_pins (c t : Nat) (f : Thread → Thread) (s : State) : (modThread c t f s).pins = s.pins := rfl
@[simp] theorem modThread_thermal (c t : Nat) (f : Thread → Thread) (s : State) : (modThread c t f s).thermal = s.thermal := rfl
@[simp] theorem modThread_boot (c t : Nat) (f : Thread → Thread) (s : State) : (modThread c t f s).boot = s.boot := rfl
@[simp] theorem modThread_dumps (c t : Nat) (f : Thread → Thread) (s : State) : (modThread c t f s).dumps = s.dumps := rfl
@[simp] theorem modThread_chipFault (c t : Nat) (f : Thread → Thread) (s : State) : (modThread c t f s).chipFault = s.chipFault := rfl
@[simp] theorem modThread_chipFaults (c t : Nat) (f : Thread → Thread) (s : State) : (modThread c t f s).chipFaults = s.chipFaults := rfl
@[simp] theorem modThread_bindings (c t : Nat) (f : Thread → Thread) (s : State) : (modThread c t f s).bindings = s.bindings := rfl
@[simp] theorem modThread_spares (c t : Nat) (f : Thread → Thread) (s : State) : (modThread c t f s).spares = s.spares := rfl
@[simp] theorem modThread_ostlers (c t : Nat) (f : Thread → Thread) (s : State) : (modThread c t f s).ostlers = s.ostlers := rfl
@[simp] theorem modThread_stride (c t : Nat) (f : Thread → Thread) (s : State) : (modThread c t f s).stride = s.stride := rfl
@[simp] theorem modThread_job (c t : Nat) (f : Thread → Thread) (s : State) : (modThread c t f s).job = s.job := rfl
@[simp] theorem modThread_engines (c t : Nat) (f : Thread → Thread) (s : State) : (modThread c t f s).engines = s.engines := rfl
@[simp] theorem modThread_reinIn (c t : Nat) (f : Thread → Thread) (s : State) : (modThread c t f s).reinIn = s.reinIn := rfl
@[simp] theorem modThread_reinOut (c t : Nat) (f : Thread → Thread) (s : State) : (modThread c t f s).reinOut = s.reinOut := rfl
@[simp] theorem modThread_sft (c t : Nat) (f : Thread → Thread) (s : State) : (modThread c t f s).sft = s.sft := rfl
@[simp] theorem modThread_tiers (c t : Nat) (f : Thread → Thread) (s : State) : (modThread c t f s).tiers = s.tiers := rfl
@[simp] theorem modThread_sync (c t : Nat) (f : Thread → Thread) (s : State) : (modThread c t f s).sync = s.sync := rfl
@[simp] theorem modThread_hitches (c t : Nat) (f : Thread → Thread) (s : State) : (modThread c t f s).hitches = s.hitches := rfl
@[simp] theorem modThread_serve (c t : Nat) (f : Thread → Thread) (s : State) : (modThread c t f s).serve = s.serve := rfl
@[simp] theorem modThread_weights (c t : Nat) (f : Thread → Thread) (s : State) : (modThread c t f s).weights = s.weights := rfl
@[simp] theorem modThread_links (c t : Nat) (f : Thread → Thread) (s : State) : (modThread c t f s).links = s.links := rfl
@[simp] theorem modThread_host (c t : Nat) (f : Thread → Thread) (s : State) : (modThread c t f s).host = s.host := rfl
@[simp] theorem modThread_mgmt (c t : Nat) (f : Thread → Thread) (s : State) : (modThread c t f s).mgmt = s.mgmt := rfl
@[simp] theorem modThread_tally (c t : Nat) (f : Thread → Thread) (s : State) : (modThread c t f s).tally = s.tally := rfl
@[simp] theorem modThread_sec (c t : Nat) (f : Thread → Thread) (s : State) : (modThread c t f s).sec = s.sec := rfl
@[simp] theorem modThread_out (c t : Nat) (f : Thread → Thread) (s : State) : (modThread c t f s).out = s.out := rfl

/-! ## modEng -/

@[simp] theorem modEng_pending (e : Nat) (f : Engine → Engine) (s : State) : (modEng e f s).pending = s.pending := rfl
@[simp] theorem modEng_mem (e : Nat) (f : Engine → Engine) (s : State) : (modEng e f s).mem = s.mem := rfl
@[simp] theorem modEng_scr (e : Nat) (f : Engine → Engine) (s : State) : (modEng e f s).scr = s.scr := rfl
@[simp] theorem modEng_free (e : Nat) (f : Engine → Engine) (s : State) : (modEng e f s).free = s.free := rfl
@[simp] theorem modEng_fuses (e : Nat) (f : Engine → Engine) (s : State) : (modEng e f s).fuses = s.fuses := rfl
@[simp] theorem modEng_board (e : Nat) (f : Engine → Engine) (s : State) : (modEng e f s).board = s.board := rfl
@[simp] theorem modEng_pins (e : Nat) (f : Engine → Engine) (s : State) : (modEng e f s).pins = s.pins := rfl
@[simp] theorem modEng_thermal (e : Nat) (f : Engine → Engine) (s : State) : (modEng e f s).thermal = s.thermal := rfl
@[simp] theorem modEng_boot (e : Nat) (f : Engine → Engine) (s : State) : (modEng e f s).boot = s.boot := rfl
@[simp] theorem modEng_dumps (e : Nat) (f : Engine → Engine) (s : State) : (modEng e f s).dumps = s.dumps := rfl
@[simp] theorem modEng_chipFault (e : Nat) (f : Engine → Engine) (s : State) : (modEng e f s).chipFault = s.chipFault := rfl
@[simp] theorem modEng_chipFaults (e : Nat) (f : Engine → Engine) (s : State) : (modEng e f s).chipFaults = s.chipFaults := rfl
@[simp] theorem modEng_bindings (e : Nat) (f : Engine → Engine) (s : State) : (modEng e f s).bindings = s.bindings := rfl
@[simp] theorem modEng_spares (e : Nat) (f : Engine → Engine) (s : State) : (modEng e f s).spares = s.spares := rfl
@[simp] theorem modEng_ostlers (e : Nat) (f : Engine → Engine) (s : State) : (modEng e f s).ostlers = s.ostlers := rfl
@[simp] theorem modEng_stride (e : Nat) (f : Engine → Engine) (s : State) : (modEng e f s).stride = s.stride := rfl
@[simp] theorem modEng_job (e : Nat) (f : Engine → Engine) (s : State) : (modEng e f s).job = s.job := rfl
@[simp] theorem modEng_cores (e : Nat) (f : Engine → Engine) (s : State) : (modEng e f s).cores = s.cores := rfl
@[simp] theorem modEng_engines (e : Nat) (f : Engine → Engine) (s : State) : (modEng e f s).engines = smod {} s.engines e f := rfl
@[simp] theorem modEng_reinIn (e : Nat) (f : Engine → Engine) (s : State) : (modEng e f s).reinIn = s.reinIn := rfl
@[simp] theorem modEng_reinOut (e : Nat) (f : Engine → Engine) (s : State) : (modEng e f s).reinOut = s.reinOut := rfl
@[simp] theorem modEng_sft (e : Nat) (f : Engine → Engine) (s : State) : (modEng e f s).sft = s.sft := rfl
@[simp] theorem modEng_tiers (e : Nat) (f : Engine → Engine) (s : State) : (modEng e f s).tiers = s.tiers := rfl
@[simp] theorem modEng_sync (e : Nat) (f : Engine → Engine) (s : State) : (modEng e f s).sync = s.sync := rfl
@[simp] theorem modEng_hitches (e : Nat) (f : Engine → Engine) (s : State) : (modEng e f s).hitches = s.hitches := rfl
@[simp] theorem modEng_serve (e : Nat) (f : Engine → Engine) (s : State) : (modEng e f s).serve = s.serve := rfl
@[simp] theorem modEng_weights (e : Nat) (f : Engine → Engine) (s : State) : (modEng e f s).weights = s.weights := rfl
@[simp] theorem modEng_links (e : Nat) (f : Engine → Engine) (s : State) : (modEng e f s).links = s.links := rfl
@[simp] theorem modEng_host (e : Nat) (f : Engine → Engine) (s : State) : (modEng e f s).host = s.host := rfl
@[simp] theorem modEng_mgmt (e : Nat) (f : Engine → Engine) (s : State) : (modEng e f s).mgmt = s.mgmt := rfl
@[simp] theorem modEng_tally (e : Nat) (f : Engine → Engine) (s : State) : (modEng e f s).tally = s.tally := rfl
@[simp] theorem modEng_sec (e : Nat) (f : Engine → Engine) (s : State) : (modEng e f s).sec = s.sec := rfl
@[simp] theorem modEng_out (e : Nat) (f : Engine → Engine) (s : State) : (modEng e f s).out = s.out := rfl

/-! ## modAg -/

@[simp] theorem modAg_pending (e a : Nat) (f : Ag → Ag) (s : State) : (modAg e a f s).pending = s.pending := rfl
@[simp] theorem modAg_mem (e a : Nat) (f : Ag → Ag) (s : State) : (modAg e a f s).mem = s.mem := rfl
@[simp] theorem modAg_scr (e a : Nat) (f : Ag → Ag) (s : State) : (modAg e a f s).scr = s.scr := rfl
@[simp] theorem modAg_free (e a : Nat) (f : Ag → Ag) (s : State) : (modAg e a f s).free = s.free := rfl
@[simp] theorem modAg_fuses (e a : Nat) (f : Ag → Ag) (s : State) : (modAg e a f s).fuses = s.fuses := rfl
@[simp] theorem modAg_board (e a : Nat) (f : Ag → Ag) (s : State) : (modAg e a f s).board = s.board := rfl
@[simp] theorem modAg_pins (e a : Nat) (f : Ag → Ag) (s : State) : (modAg e a f s).pins = s.pins := rfl
@[simp] theorem modAg_thermal (e a : Nat) (f : Ag → Ag) (s : State) : (modAg e a f s).thermal = s.thermal := rfl
@[simp] theorem modAg_boot (e a : Nat) (f : Ag → Ag) (s : State) : (modAg e a f s).boot = s.boot := rfl
@[simp] theorem modAg_dumps (e a : Nat) (f : Ag → Ag) (s : State) : (modAg e a f s).dumps = s.dumps := rfl
@[simp] theorem modAg_chipFault (e a : Nat) (f : Ag → Ag) (s : State) : (modAg e a f s).chipFault = s.chipFault := rfl
@[simp] theorem modAg_chipFaults (e a : Nat) (f : Ag → Ag) (s : State) : (modAg e a f s).chipFaults = s.chipFaults := rfl
@[simp] theorem modAg_bindings (e a : Nat) (f : Ag → Ag) (s : State) : (modAg e a f s).bindings = s.bindings := rfl
@[simp] theorem modAg_spares (e a : Nat) (f : Ag → Ag) (s : State) : (modAg e a f s).spares = s.spares := rfl
@[simp] theorem modAg_ostlers (e a : Nat) (f : Ag → Ag) (s : State) : (modAg e a f s).ostlers = s.ostlers := rfl
@[simp] theorem modAg_stride (e a : Nat) (f : Ag → Ag) (s : State) : (modAg e a f s).stride = s.stride := rfl
@[simp] theorem modAg_job (e a : Nat) (f : Ag → Ag) (s : State) : (modAg e a f s).job = s.job := rfl
@[simp] theorem modAg_cores (e a : Nat) (f : Ag → Ag) (s : State) : (modAg e a f s).cores = s.cores := rfl
@[simp] theorem modAg_reinIn (e a : Nat) (f : Ag → Ag) (s : State) : (modAg e a f s).reinIn = s.reinIn := rfl
@[simp] theorem modAg_reinOut (e a : Nat) (f : Ag → Ag) (s : State) : (modAg e a f s).reinOut = s.reinOut := rfl
@[simp] theorem modAg_sft (e a : Nat) (f : Ag → Ag) (s : State) : (modAg e a f s).sft = s.sft := rfl
@[simp] theorem modAg_tiers (e a : Nat) (f : Ag → Ag) (s : State) : (modAg e a f s).tiers = s.tiers := rfl
@[simp] theorem modAg_sync (e a : Nat) (f : Ag → Ag) (s : State) : (modAg e a f s).sync = s.sync := rfl
@[simp] theorem modAg_hitches (e a : Nat) (f : Ag → Ag) (s : State) : (modAg e a f s).hitches = s.hitches := rfl
@[simp] theorem modAg_serve (e a : Nat) (f : Ag → Ag) (s : State) : (modAg e a f s).serve = s.serve := rfl
@[simp] theorem modAg_weights (e a : Nat) (f : Ag → Ag) (s : State) : (modAg e a f s).weights = s.weights := rfl
@[simp] theorem modAg_links (e a : Nat) (f : Ag → Ag) (s : State) : (modAg e a f s).links = s.links := rfl
@[simp] theorem modAg_host (e a : Nat) (f : Ag → Ag) (s : State) : (modAg e a f s).host = s.host := rfl
@[simp] theorem modAg_mgmt (e a : Nat) (f : Ag → Ag) (s : State) : (modAg e a f s).mgmt = s.mgmt := rfl
@[simp] theorem modAg_tally (e a : Nat) (f : Ag → Ag) (s : State) : (modAg e a f s).tally = s.tally := rfl
@[simp] theorem modAg_sec (e a : Nat) (f : Ag → Ag) (s : State) : (modAg e a f s).sec = s.sec := rfl
@[simp] theorem modAg_out (e a : Nat) (f : Ag → Ag) (s : State) : (modAg e a f s).out = s.out := rfl

/-! ## modRin -/

@[simp] theorem modRin_pending (e q : Nat) (f : ReinIn → ReinIn) (s : State) : (modRin e q f s).pending = s.pending := rfl
@[simp] theorem modRin_mem (e q : Nat) (f : ReinIn → ReinIn) (s : State) : (modRin e q f s).mem = s.mem := rfl
@[simp] theorem modRin_scr (e q : Nat) (f : ReinIn → ReinIn) (s : State) : (modRin e q f s).scr = s.scr := rfl
@[simp] theorem modRin_free (e q : Nat) (f : ReinIn → ReinIn) (s : State) : (modRin e q f s).free = s.free := rfl
@[simp] theorem modRin_fuses (e q : Nat) (f : ReinIn → ReinIn) (s : State) : (modRin e q f s).fuses = s.fuses := rfl
@[simp] theorem modRin_board (e q : Nat) (f : ReinIn → ReinIn) (s : State) : (modRin e q f s).board = s.board := rfl
@[simp] theorem modRin_pins (e q : Nat) (f : ReinIn → ReinIn) (s : State) : (modRin e q f s).pins = s.pins := rfl
@[simp] theorem modRin_thermal (e q : Nat) (f : ReinIn → ReinIn) (s : State) : (modRin e q f s).thermal = s.thermal := rfl
@[simp] theorem modRin_boot (e q : Nat) (f : ReinIn → ReinIn) (s : State) : (modRin e q f s).boot = s.boot := rfl
@[simp] theorem modRin_dumps (e q : Nat) (f : ReinIn → ReinIn) (s : State) : (modRin e q f s).dumps = s.dumps := rfl
@[simp] theorem modRin_chipFault (e q : Nat) (f : ReinIn → ReinIn) (s : State) : (modRin e q f s).chipFault = s.chipFault := rfl
@[simp] theorem modRin_chipFaults (e q : Nat) (f : ReinIn → ReinIn) (s : State) : (modRin e q f s).chipFaults = s.chipFaults := rfl
@[simp] theorem modRin_bindings (e q : Nat) (f : ReinIn → ReinIn) (s : State) : (modRin e q f s).bindings = s.bindings := rfl
@[simp] theorem modRin_spares (e q : Nat) (f : ReinIn → ReinIn) (s : State) : (modRin e q f s).spares = s.spares := rfl
@[simp] theorem modRin_ostlers (e q : Nat) (f : ReinIn → ReinIn) (s : State) : (modRin e q f s).ostlers = s.ostlers := rfl
@[simp] theorem modRin_stride (e q : Nat) (f : ReinIn → ReinIn) (s : State) : (modRin e q f s).stride = s.stride := rfl
@[simp] theorem modRin_job (e q : Nat) (f : ReinIn → ReinIn) (s : State) : (modRin e q f s).job = s.job := rfl
@[simp] theorem modRin_cores (e q : Nat) (f : ReinIn → ReinIn) (s : State) : (modRin e q f s).cores = s.cores := rfl
@[simp] theorem modRin_engines (e q : Nat) (f : ReinIn → ReinIn) (s : State) : (modRin e q f s).engines = s.engines := rfl
@[simp] theorem modRin_reinIn (e q : Nat) (f : ReinIn → ReinIn) (s : State) : (modRin e q f s).reinIn = smod {} s.reinIn (e * 16 + q) f := rfl
@[simp] theorem modRin_reinOut (e q : Nat) (f : ReinIn → ReinIn) (s : State) : (modRin e q f s).reinOut = s.reinOut := rfl
@[simp] theorem modRin_sft (e q : Nat) (f : ReinIn → ReinIn) (s : State) : (modRin e q f s).sft = s.sft := rfl
@[simp] theorem modRin_tiers (e q : Nat) (f : ReinIn → ReinIn) (s : State) : (modRin e q f s).tiers = s.tiers := rfl
@[simp] theorem modRin_sync (e q : Nat) (f : ReinIn → ReinIn) (s : State) : (modRin e q f s).sync = s.sync := rfl
@[simp] theorem modRin_hitches (e q : Nat) (f : ReinIn → ReinIn) (s : State) : (modRin e q f s).hitches = s.hitches := rfl
@[simp] theorem modRin_serve (e q : Nat) (f : ReinIn → ReinIn) (s : State) : (modRin e q f s).serve = s.serve := rfl
@[simp] theorem modRin_weights (e q : Nat) (f : ReinIn → ReinIn) (s : State) : (modRin e q f s).weights = s.weights := rfl
@[simp] theorem modRin_links (e q : Nat) (f : ReinIn → ReinIn) (s : State) : (modRin e q f s).links = s.links := rfl
@[simp] theorem modRin_host (e q : Nat) (f : ReinIn → ReinIn) (s : State) : (modRin e q f s).host = s.host := rfl
@[simp] theorem modRin_mgmt (e q : Nat) (f : ReinIn → ReinIn) (s : State) : (modRin e q f s).mgmt = s.mgmt := rfl
@[simp] theorem modRin_tally (e q : Nat) (f : ReinIn → ReinIn) (s : State) : (modRin e q f s).tally = s.tally := rfl
@[simp] theorem modRin_sec (e q : Nat) (f : ReinIn → ReinIn) (s : State) : (modRin e q f s).sec = s.sec := rfl
@[simp] theorem modRin_out (e q : Nat) (f : ReinIn → ReinIn) (s : State) : (modRin e q f s).out = s.out := rfl

/-! ## modRout -/

@[simp] theorem modRout_pending (e o : Nat) (f : ReinOut → ReinOut) (s : State) : (modRout e o f s).pending = s.pending := rfl
@[simp] theorem modRout_mem (e o : Nat) (f : ReinOut → ReinOut) (s : State) : (modRout e o f s).mem = s.mem := rfl
@[simp] theorem modRout_scr (e o : Nat) (f : ReinOut → ReinOut) (s : State) : (modRout e o f s).scr = s.scr := rfl
@[simp] theorem modRout_free (e o : Nat) (f : ReinOut → ReinOut) (s : State) : (modRout e o f s).free = s.free := rfl
@[simp] theorem modRout_fuses (e o : Nat) (f : ReinOut → ReinOut) (s : State) : (modRout e o f s).fuses = s.fuses := rfl
@[simp] theorem modRout_board (e o : Nat) (f : ReinOut → ReinOut) (s : State) : (modRout e o f s).board = s.board := rfl
@[simp] theorem modRout_pins (e o : Nat) (f : ReinOut → ReinOut) (s : State) : (modRout e o f s).pins = s.pins := rfl
@[simp] theorem modRout_thermal (e o : Nat) (f : ReinOut → ReinOut) (s : State) : (modRout e o f s).thermal = s.thermal := rfl
@[simp] theorem modRout_boot (e o : Nat) (f : ReinOut → ReinOut) (s : State) : (modRout e o f s).boot = s.boot := rfl
@[simp] theorem modRout_dumps (e o : Nat) (f : ReinOut → ReinOut) (s : State) : (modRout e o f s).dumps = s.dumps := rfl
@[simp] theorem modRout_chipFault (e o : Nat) (f : ReinOut → ReinOut) (s : State) : (modRout e o f s).chipFault = s.chipFault := rfl
@[simp] theorem modRout_chipFaults (e o : Nat) (f : ReinOut → ReinOut) (s : State) : (modRout e o f s).chipFaults = s.chipFaults := rfl
@[simp] theorem modRout_bindings (e o : Nat) (f : ReinOut → ReinOut) (s : State) : (modRout e o f s).bindings = s.bindings := rfl
@[simp] theorem modRout_spares (e o : Nat) (f : ReinOut → ReinOut) (s : State) : (modRout e o f s).spares = s.spares := rfl
@[simp] theorem modRout_ostlers (e o : Nat) (f : ReinOut → ReinOut) (s : State) : (modRout e o f s).ostlers = s.ostlers := rfl
@[simp] theorem modRout_stride (e o : Nat) (f : ReinOut → ReinOut) (s : State) : (modRout e o f s).stride = s.stride := rfl
@[simp] theorem modRout_job (e o : Nat) (f : ReinOut → ReinOut) (s : State) : (modRout e o f s).job = s.job := rfl
@[simp] theorem modRout_cores (e o : Nat) (f : ReinOut → ReinOut) (s : State) : (modRout e o f s).cores = s.cores := rfl
@[simp] theorem modRout_engines (e o : Nat) (f : ReinOut → ReinOut) (s : State) : (modRout e o f s).engines = s.engines := rfl
@[simp] theorem modRout_reinIn (e o : Nat) (f : ReinOut → ReinOut) (s : State) : (modRout e o f s).reinIn = s.reinIn := rfl
@[simp] theorem modRout_reinOut (e o : Nat) (f : ReinOut → ReinOut) (s : State) : (modRout e o f s).reinOut = smod {} s.reinOut (e * 16 + o) f := rfl
@[simp] theorem modRout_sft (e o : Nat) (f : ReinOut → ReinOut) (s : State) : (modRout e o f s).sft = s.sft := rfl
@[simp] theorem modRout_tiers (e o : Nat) (f : ReinOut → ReinOut) (s : State) : (modRout e o f s).tiers = s.tiers := rfl
@[simp] theorem modRout_sync (e o : Nat) (f : ReinOut → ReinOut) (s : State) : (modRout e o f s).sync = s.sync := rfl
@[simp] theorem modRout_hitches (e o : Nat) (f : ReinOut → ReinOut) (s : State) : (modRout e o f s).hitches = s.hitches := rfl
@[simp] theorem modRout_serve (e o : Nat) (f : ReinOut → ReinOut) (s : State) : (modRout e o f s).serve = s.serve := rfl
@[simp] theorem modRout_weights (e o : Nat) (f : ReinOut → ReinOut) (s : State) : (modRout e o f s).weights = s.weights := rfl
@[simp] theorem modRout_links (e o : Nat) (f : ReinOut → ReinOut) (s : State) : (modRout e o f s).links = s.links := rfl
@[simp] theorem modRout_host (e o : Nat) (f : ReinOut → ReinOut) (s : State) : (modRout e o f s).host = s.host := rfl
@[simp] theorem modRout_mgmt (e o : Nat) (f : ReinOut → ReinOut) (s : State) : (modRout e o f s).mgmt = s.mgmt := rfl
@[simp] theorem modRout_tally (e o : Nat) (f : ReinOut → ReinOut) (s : State) : (modRout e o f s).tally = s.tally := rfl
@[simp] theorem modRout_sec (e o : Nat) (f : ReinOut → ReinOut) (s : State) : (modRout e o f s).sec = s.sec := rfl
@[simp] theorem modRout_out (e o : Nat) (f : ReinOut → ReinOut) (s : State) : (modRout e o f s).out = s.out := rfl

/-! ## modTiers -/

@[simp] theorem modTiers_pending (f : Tiers → Tiers) (s : State) : (modTiers f s).pending = s.pending := rfl
@[simp] theorem modTiers_mem (f : Tiers → Tiers) (s : State) : (modTiers f s).mem = s.mem := rfl
@[simp] theorem modTiers_scr (f : Tiers → Tiers) (s : State) : (modTiers f s).scr = s.scr := rfl
@[simp] theorem modTiers_free (f : Tiers → Tiers) (s : State) : (modTiers f s).free = s.free := rfl
@[simp] theorem modTiers_fuses (f : Tiers → Tiers) (s : State) : (modTiers f s).fuses = s.fuses := rfl
@[simp] theorem modTiers_board (f : Tiers → Tiers) (s : State) : (modTiers f s).board = s.board := rfl
@[simp] theorem modTiers_pins (f : Tiers → Tiers) (s : State) : (modTiers f s).pins = s.pins := rfl
@[simp] theorem modTiers_thermal (f : Tiers → Tiers) (s : State) : (modTiers f s).thermal = s.thermal := rfl
@[simp] theorem modTiers_boot (f : Tiers → Tiers) (s : State) : (modTiers f s).boot = s.boot := rfl
@[simp] theorem modTiers_dumps (f : Tiers → Tiers) (s : State) : (modTiers f s).dumps = s.dumps := rfl
@[simp] theorem modTiers_chipFault (f : Tiers → Tiers) (s : State) : (modTiers f s).chipFault = s.chipFault := rfl
@[simp] theorem modTiers_chipFaults (f : Tiers → Tiers) (s : State) : (modTiers f s).chipFaults = s.chipFaults := rfl
@[simp] theorem modTiers_bindings (f : Tiers → Tiers) (s : State) : (modTiers f s).bindings = s.bindings := rfl
@[simp] theorem modTiers_spares (f : Tiers → Tiers) (s : State) : (modTiers f s).spares = s.spares := rfl
@[simp] theorem modTiers_ostlers (f : Tiers → Tiers) (s : State) : (modTiers f s).ostlers = s.ostlers := rfl
@[simp] theorem modTiers_stride (f : Tiers → Tiers) (s : State) : (modTiers f s).stride = s.stride := rfl
@[simp] theorem modTiers_job (f : Tiers → Tiers) (s : State) : (modTiers f s).job = s.job := rfl
@[simp] theorem modTiers_cores (f : Tiers → Tiers) (s : State) : (modTiers f s).cores = s.cores := rfl
@[simp] theorem modTiers_engines (f : Tiers → Tiers) (s : State) : (modTiers f s).engines = s.engines := rfl
@[simp] theorem modTiers_reinIn (f : Tiers → Tiers) (s : State) : (modTiers f s).reinIn = s.reinIn := rfl
@[simp] theorem modTiers_reinOut (f : Tiers → Tiers) (s : State) : (modTiers f s).reinOut = s.reinOut := rfl
@[simp] theorem modTiers_sft (f : Tiers → Tiers) (s : State) : (modTiers f s).sft = s.sft := rfl
@[simp] theorem modTiers_tiers (f : Tiers → Tiers) (s : State) : (modTiers f s).tiers = f s.tiers := rfl
@[simp] theorem modTiers_sync (f : Tiers → Tiers) (s : State) : (modTiers f s).sync = s.sync := rfl
@[simp] theorem modTiers_hitches (f : Tiers → Tiers) (s : State) : (modTiers f s).hitches = s.hitches := rfl
@[simp] theorem modTiers_serve (f : Tiers → Tiers) (s : State) : (modTiers f s).serve = s.serve := rfl
@[simp] theorem modTiers_weights (f : Tiers → Tiers) (s : State) : (modTiers f s).weights = s.weights := rfl
@[simp] theorem modTiers_links (f : Tiers → Tiers) (s : State) : (modTiers f s).links = s.links := rfl
@[simp] theorem modTiers_host (f : Tiers → Tiers) (s : State) : (modTiers f s).host = s.host := rfl
@[simp] theorem modTiers_mgmt (f : Tiers → Tiers) (s : State) : (modTiers f s).mgmt = s.mgmt := rfl
@[simp] theorem modTiers_tally (f : Tiers → Tiers) (s : State) : (modTiers f s).tally = s.tally := rfl
@[simp] theorem modTiers_sec (f : Tiers → Tiers) (s : State) : (modTiers f s).sec = s.sec := rfl
@[simp] theorem modTiers_out (f : Tiers → Tiers) (s : State) : (modTiers f s).out = s.out := rfl

/-! ## modPort -/

@[simp] theorem modPort_pending (p : Nat) (f : Port → Port) (s : State) : (modPort p f s).pending = s.pending := rfl
@[simp] theorem modPort_mem (p : Nat) (f : Port → Port) (s : State) : (modPort p f s).mem = s.mem := rfl
@[simp] theorem modPort_scr (p : Nat) (f : Port → Port) (s : State) : (modPort p f s).scr = s.scr := rfl
@[simp] theorem modPort_free (p : Nat) (f : Port → Port) (s : State) : (modPort p f s).free = s.free := rfl
@[simp] theorem modPort_fuses (p : Nat) (f : Port → Port) (s : State) : (modPort p f s).fuses = s.fuses := rfl
@[simp] theorem modPort_board (p : Nat) (f : Port → Port) (s : State) : (modPort p f s).board = s.board := rfl
@[simp] theorem modPort_pins (p : Nat) (f : Port → Port) (s : State) : (modPort p f s).pins = s.pins := rfl
@[simp] theorem modPort_thermal (p : Nat) (f : Port → Port) (s : State) : (modPort p f s).thermal = s.thermal := rfl
@[simp] theorem modPort_boot (p : Nat) (f : Port → Port) (s : State) : (modPort p f s).boot = s.boot := rfl
@[simp] theorem modPort_dumps (p : Nat) (f : Port → Port) (s : State) : (modPort p f s).dumps = s.dumps := rfl
@[simp] theorem modPort_chipFault (p : Nat) (f : Port → Port) (s : State) : (modPort p f s).chipFault = s.chipFault := rfl
@[simp] theorem modPort_chipFaults (p : Nat) (f : Port → Port) (s : State) : (modPort p f s).chipFaults = s.chipFaults := rfl
@[simp] theorem modPort_bindings (p : Nat) (f : Port → Port) (s : State) : (modPort p f s).bindings = s.bindings := rfl
@[simp] theorem modPort_spares (p : Nat) (f : Port → Port) (s : State) : (modPort p f s).spares = s.spares := rfl
@[simp] theorem modPort_ostlers (p : Nat) (f : Port → Port) (s : State) : (modPort p f s).ostlers = s.ostlers := rfl
@[simp] theorem modPort_stride (p : Nat) (f : Port → Port) (s : State) : (modPort p f s).stride = s.stride := rfl
@[simp] theorem modPort_job (p : Nat) (f : Port → Port) (s : State) : (modPort p f s).job = s.job := rfl
@[simp] theorem modPort_cores (p : Nat) (f : Port → Port) (s : State) : (modPort p f s).cores = s.cores := rfl
@[simp] theorem modPort_engines (p : Nat) (f : Port → Port) (s : State) : (modPort p f s).engines = s.engines := rfl
@[simp] theorem modPort_reinIn (p : Nat) (f : Port → Port) (s : State) : (modPort p f s).reinIn = s.reinIn := rfl
@[simp] theorem modPort_reinOut (p : Nat) (f : Port → Port) (s : State) : (modPort p f s).reinOut = s.reinOut := rfl
@[simp] theorem modPort_sft (p : Nat) (f : Port → Port) (s : State) : (modPort p f s).sft = s.sft := rfl
@[simp] theorem modPort_sync (p : Nat) (f : Port → Port) (s : State) : (modPort p f s).sync = s.sync := rfl
@[simp] theorem modPort_hitches (p : Nat) (f : Port → Port) (s : State) : (modPort p f s).hitches = s.hitches := rfl
@[simp] theorem modPort_serve (p : Nat) (f : Port → Port) (s : State) : (modPort p f s).serve = s.serve := rfl
@[simp] theorem modPort_weights (p : Nat) (f : Port → Port) (s : State) : (modPort p f s).weights = s.weights := rfl
@[simp] theorem modPort_links (p : Nat) (f : Port → Port) (s : State) : (modPort p f s).links = s.links := rfl
@[simp] theorem modPort_host (p : Nat) (f : Port → Port) (s : State) : (modPort p f s).host = s.host := rfl
@[simp] theorem modPort_mgmt (p : Nat) (f : Port → Port) (s : State) : (modPort p f s).mgmt = s.mgmt := rfl
@[simp] theorem modPort_tally (p : Nat) (f : Port → Port) (s : State) : (modPort p f s).tally = s.tally := rfl
@[simp] theorem modPort_sec (p : Nat) (f : Port → Port) (s : State) : (modPort p f s).sec = s.sec := rfl
@[simp] theorem modPort_out (p : Nat) (f : Port → Port) (s : State) : (modPort p f s).out = s.out := rfl

/-! ## modCurb -/

@[simp] theorem modCurb_pending (p k : Nat) (f : Curb → Curb) (s : State) : (modCurb p k f s).pending = s.pending := rfl
@[simp] theorem modCurb_mem (p k : Nat) (f : Curb → Curb) (s : State) : (modCurb p k f s).mem = s.mem := rfl
@[simp] theorem modCurb_scr (p k : Nat) (f : Curb → Curb) (s : State) : (modCurb p k f s).scr = s.scr := rfl
@[simp] theorem modCurb_free (p k : Nat) (f : Curb → Curb) (s : State) : (modCurb p k f s).free = s.free := rfl
@[simp] theorem modCurb_fuses (p k : Nat) (f : Curb → Curb) (s : State) : (modCurb p k f s).fuses = s.fuses := rfl
@[simp] theorem modCurb_board (p k : Nat) (f : Curb → Curb) (s : State) : (modCurb p k f s).board = s.board := rfl
@[simp] theorem modCurb_pins (p k : Nat) (f : Curb → Curb) (s : State) : (modCurb p k f s).pins = s.pins := rfl
@[simp] theorem modCurb_thermal (p k : Nat) (f : Curb → Curb) (s : State) : (modCurb p k f s).thermal = s.thermal := rfl
@[simp] theorem modCurb_boot (p k : Nat) (f : Curb → Curb) (s : State) : (modCurb p k f s).boot = s.boot := rfl
@[simp] theorem modCurb_dumps (p k : Nat) (f : Curb → Curb) (s : State) : (modCurb p k f s).dumps = s.dumps := rfl
@[simp] theorem modCurb_chipFault (p k : Nat) (f : Curb → Curb) (s : State) : (modCurb p k f s).chipFault = s.chipFault := rfl
@[simp] theorem modCurb_chipFaults (p k : Nat) (f : Curb → Curb) (s : State) : (modCurb p k f s).chipFaults = s.chipFaults := rfl
@[simp] theorem modCurb_bindings (p k : Nat) (f : Curb → Curb) (s : State) : (modCurb p k f s).bindings = s.bindings := rfl
@[simp] theorem modCurb_spares (p k : Nat) (f : Curb → Curb) (s : State) : (modCurb p k f s).spares = s.spares := rfl
@[simp] theorem modCurb_ostlers (p k : Nat) (f : Curb → Curb) (s : State) : (modCurb p k f s).ostlers = s.ostlers := rfl
@[simp] theorem modCurb_stride (p k : Nat) (f : Curb → Curb) (s : State) : (modCurb p k f s).stride = s.stride := rfl
@[simp] theorem modCurb_job (p k : Nat) (f : Curb → Curb) (s : State) : (modCurb p k f s).job = s.job := rfl
@[simp] theorem modCurb_cores (p k : Nat) (f : Curb → Curb) (s : State) : (modCurb p k f s).cores = s.cores := rfl
@[simp] theorem modCurb_engines (p k : Nat) (f : Curb → Curb) (s : State) : (modCurb p k f s).engines = s.engines := rfl
@[simp] theorem modCurb_reinIn (p k : Nat) (f : Curb → Curb) (s : State) : (modCurb p k f s).reinIn = s.reinIn := rfl
@[simp] theorem modCurb_reinOut (p k : Nat) (f : Curb → Curb) (s : State) : (modCurb p k f s).reinOut = s.reinOut := rfl
@[simp] theorem modCurb_sft (p k : Nat) (f : Curb → Curb) (s : State) : (modCurb p k f s).sft = s.sft := rfl
@[simp] theorem modCurb_sync (p k : Nat) (f : Curb → Curb) (s : State) : (modCurb p k f s).sync = s.sync := rfl
@[simp] theorem modCurb_hitches (p k : Nat) (f : Curb → Curb) (s : State) : (modCurb p k f s).hitches = s.hitches := rfl
@[simp] theorem modCurb_serve (p k : Nat) (f : Curb → Curb) (s : State) : (modCurb p k f s).serve = s.serve := rfl
@[simp] theorem modCurb_weights (p k : Nat) (f : Curb → Curb) (s : State) : (modCurb p k f s).weights = s.weights := rfl
@[simp] theorem modCurb_links (p k : Nat) (f : Curb → Curb) (s : State) : (modCurb p k f s).links = s.links := rfl
@[simp] theorem modCurb_host (p k : Nat) (f : Curb → Curb) (s : State) : (modCurb p k f s).host = s.host := rfl
@[simp] theorem modCurb_mgmt (p k : Nat) (f : Curb → Curb) (s : State) : (modCurb p k f s).mgmt = s.mgmt := rfl
@[simp] theorem modCurb_tally (p k : Nat) (f : Curb → Curb) (s : State) : (modCurb p k f s).tally = s.tally := rfl
@[simp] theorem modCurb_sec (p k : Nat) (f : Curb → Curb) (s : State) : (modCurb p k f s).sec = s.sec := rfl
@[simp] theorem modCurb_out (p k : Nat) (f : Curb → Curb) (s : State) : (modCurb p k f s).out = s.out := rfl

/-! ## modSync -/

@[simp] theorem modSync_pending (f : Sync → Sync) (s : State) : (modSync f s).pending = s.pending := rfl
@[simp] theorem modSync_mem (f : Sync → Sync) (s : State) : (modSync f s).mem = s.mem := rfl
@[simp] theorem modSync_scr (f : Sync → Sync) (s : State) : (modSync f s).scr = s.scr := rfl
@[simp] theorem modSync_free (f : Sync → Sync) (s : State) : (modSync f s).free = s.free := rfl
@[simp] theorem modSync_fuses (f : Sync → Sync) (s : State) : (modSync f s).fuses = s.fuses := rfl
@[simp] theorem modSync_board (f : Sync → Sync) (s : State) : (modSync f s).board = s.board := rfl
@[simp] theorem modSync_pins (f : Sync → Sync) (s : State) : (modSync f s).pins = s.pins := rfl
@[simp] theorem modSync_thermal (f : Sync → Sync) (s : State) : (modSync f s).thermal = s.thermal := rfl
@[simp] theorem modSync_boot (f : Sync → Sync) (s : State) : (modSync f s).boot = s.boot := rfl
@[simp] theorem modSync_dumps (f : Sync → Sync) (s : State) : (modSync f s).dumps = s.dumps := rfl
@[simp] theorem modSync_chipFault (f : Sync → Sync) (s : State) : (modSync f s).chipFault = s.chipFault := rfl
@[simp] theorem modSync_chipFaults (f : Sync → Sync) (s : State) : (modSync f s).chipFaults = s.chipFaults := rfl
@[simp] theorem modSync_bindings (f : Sync → Sync) (s : State) : (modSync f s).bindings = s.bindings := rfl
@[simp] theorem modSync_spares (f : Sync → Sync) (s : State) : (modSync f s).spares = s.spares := rfl
@[simp] theorem modSync_ostlers (f : Sync → Sync) (s : State) : (modSync f s).ostlers = s.ostlers := rfl
@[simp] theorem modSync_stride (f : Sync → Sync) (s : State) : (modSync f s).stride = s.stride := rfl
@[simp] theorem modSync_job (f : Sync → Sync) (s : State) : (modSync f s).job = s.job := rfl
@[simp] theorem modSync_cores (f : Sync → Sync) (s : State) : (modSync f s).cores = s.cores := rfl
@[simp] theorem modSync_engines (f : Sync → Sync) (s : State) : (modSync f s).engines = s.engines := rfl
@[simp] theorem modSync_reinIn (f : Sync → Sync) (s : State) : (modSync f s).reinIn = s.reinIn := rfl
@[simp] theorem modSync_reinOut (f : Sync → Sync) (s : State) : (modSync f s).reinOut = s.reinOut := rfl
@[simp] theorem modSync_sft (f : Sync → Sync) (s : State) : (modSync f s).sft = s.sft := rfl
@[simp] theorem modSync_tiers (f : Sync → Sync) (s : State) : (modSync f s).tiers = s.tiers := rfl
@[simp] theorem modSync_sync (f : Sync → Sync) (s : State) : (modSync f s).sync = f s.sync := rfl
@[simp] theorem modSync_hitches (f : Sync → Sync) (s : State) : (modSync f s).hitches = s.hitches := rfl
@[simp] theorem modSync_serve (f : Sync → Sync) (s : State) : (modSync f s).serve = s.serve := rfl
@[simp] theorem modSync_weights (f : Sync → Sync) (s : State) : (modSync f s).weights = s.weights := rfl
@[simp] theorem modSync_links (f : Sync → Sync) (s : State) : (modSync f s).links = s.links := rfl
@[simp] theorem modSync_host (f : Sync → Sync) (s : State) : (modSync f s).host = s.host := rfl
@[simp] theorem modSync_mgmt (f : Sync → Sync) (s : State) : (modSync f s).mgmt = s.mgmt := rfl
@[simp] theorem modSync_tally (f : Sync → Sync) (s : State) : (modSync f s).tally = s.tally := rfl
@[simp] theorem modSync_sec (f : Sync → Sync) (s : State) : (modSync f s).sec = s.sec := rfl
@[simp] theorem modSync_out (f : Sync → Sync) (s : State) : (modSync f s).out = s.out := rfl

/-! ## modObj -/

@[simp] theorem modObj_pending (n : Nat) (f : SyncObj → SyncObj) (s : State) : (modObj n f s).pending = s.pending := rfl
@[simp] theorem modObj_mem (n : Nat) (f : SyncObj → SyncObj) (s : State) : (modObj n f s).mem = s.mem := rfl
@[simp] theorem modObj_scr (n : Nat) (f : SyncObj → SyncObj) (s : State) : (modObj n f s).scr = s.scr := rfl
@[simp] theorem modObj_free (n : Nat) (f : SyncObj → SyncObj) (s : State) : (modObj n f s).free = s.free := rfl
@[simp] theorem modObj_fuses (n : Nat) (f : SyncObj → SyncObj) (s : State) : (modObj n f s).fuses = s.fuses := rfl
@[simp] theorem modObj_board (n : Nat) (f : SyncObj → SyncObj) (s : State) : (modObj n f s).board = s.board := rfl
@[simp] theorem modObj_pins (n : Nat) (f : SyncObj → SyncObj) (s : State) : (modObj n f s).pins = s.pins := rfl
@[simp] theorem modObj_thermal (n : Nat) (f : SyncObj → SyncObj) (s : State) : (modObj n f s).thermal = s.thermal := rfl
@[simp] theorem modObj_boot (n : Nat) (f : SyncObj → SyncObj) (s : State) : (modObj n f s).boot = s.boot := rfl
@[simp] theorem modObj_dumps (n : Nat) (f : SyncObj → SyncObj) (s : State) : (modObj n f s).dumps = s.dumps := rfl
@[simp] theorem modObj_chipFault (n : Nat) (f : SyncObj → SyncObj) (s : State) : (modObj n f s).chipFault = s.chipFault := rfl
@[simp] theorem modObj_chipFaults (n : Nat) (f : SyncObj → SyncObj) (s : State) : (modObj n f s).chipFaults = s.chipFaults := rfl
@[simp] theorem modObj_bindings (n : Nat) (f : SyncObj → SyncObj) (s : State) : (modObj n f s).bindings = s.bindings := rfl
@[simp] theorem modObj_spares (n : Nat) (f : SyncObj → SyncObj) (s : State) : (modObj n f s).spares = s.spares := rfl
@[simp] theorem modObj_ostlers (n : Nat) (f : SyncObj → SyncObj) (s : State) : (modObj n f s).ostlers = s.ostlers := rfl
@[simp] theorem modObj_stride (n : Nat) (f : SyncObj → SyncObj) (s : State) : (modObj n f s).stride = s.stride := rfl
@[simp] theorem modObj_job (n : Nat) (f : SyncObj → SyncObj) (s : State) : (modObj n f s).job = s.job := rfl
@[simp] theorem modObj_cores (n : Nat) (f : SyncObj → SyncObj) (s : State) : (modObj n f s).cores = s.cores := rfl
@[simp] theorem modObj_engines (n : Nat) (f : SyncObj → SyncObj) (s : State) : (modObj n f s).engines = s.engines := rfl
@[simp] theorem modObj_reinIn (n : Nat) (f : SyncObj → SyncObj) (s : State) : (modObj n f s).reinIn = s.reinIn := rfl
@[simp] theorem modObj_reinOut (n : Nat) (f : SyncObj → SyncObj) (s : State) : (modObj n f s).reinOut = s.reinOut := rfl
@[simp] theorem modObj_sft (n : Nat) (f : SyncObj → SyncObj) (s : State) : (modObj n f s).sft = s.sft := rfl
@[simp] theorem modObj_tiers (n : Nat) (f : SyncObj → SyncObj) (s : State) : (modObj n f s).tiers = s.tiers := rfl
@[simp] theorem modObj_hitches (n : Nat) (f : SyncObj → SyncObj) (s : State) : (modObj n f s).hitches = s.hitches := rfl
@[simp] theorem modObj_serve (n : Nat) (f : SyncObj → SyncObj) (s : State) : (modObj n f s).serve = s.serve := rfl
@[simp] theorem modObj_weights (n : Nat) (f : SyncObj → SyncObj) (s : State) : (modObj n f s).weights = s.weights := rfl
@[simp] theorem modObj_links (n : Nat) (f : SyncObj → SyncObj) (s : State) : (modObj n f s).links = s.links := rfl
@[simp] theorem modObj_host (n : Nat) (f : SyncObj → SyncObj) (s : State) : (modObj n f s).host = s.host := rfl
@[simp] theorem modObj_mgmt (n : Nat) (f : SyncObj → SyncObj) (s : State) : (modObj n f s).mgmt = s.mgmt := rfl
@[simp] theorem modObj_tally (n : Nat) (f : SyncObj → SyncObj) (s : State) : (modObj n f s).tally = s.tally := rfl
@[simp] theorem modObj_sec (n : Nat) (f : SyncObj → SyncObj) (s : State) : (modObj n f s).sec = s.sec := rfl
@[simp] theorem modObj_out (n : Nat) (f : SyncObj → SyncObj) (s : State) : (modObj n f s).out = s.out := rfl

/-! ## modHitch -/

@[simp] theorem modHitch_pending (h : Nat) (f : Hitch → Hitch) (s : State) : (modHitch h f s).pending = s.pending := rfl
@[simp] theorem modHitch_mem (h : Nat) (f : Hitch → Hitch) (s : State) : (modHitch h f s).mem = s.mem := rfl
@[simp] theorem modHitch_scr (h : Nat) (f : Hitch → Hitch) (s : State) : (modHitch h f s).scr = s.scr := rfl
@[simp] theorem modHitch_free (h : Nat) (f : Hitch → Hitch) (s : State) : (modHitch h f s).free = s.free := rfl
@[simp] theorem modHitch_fuses (h : Nat) (f : Hitch → Hitch) (s : State) : (modHitch h f s).fuses = s.fuses := rfl
@[simp] theorem modHitch_board (h : Nat) (f : Hitch → Hitch) (s : State) : (modHitch h f s).board = s.board := rfl
@[simp] theorem modHitch_pins (h : Nat) (f : Hitch → Hitch) (s : State) : (modHitch h f s).pins = s.pins := rfl
@[simp] theorem modHitch_thermal (h : Nat) (f : Hitch → Hitch) (s : State) : (modHitch h f s).thermal = s.thermal := rfl
@[simp] theorem modHitch_boot (h : Nat) (f : Hitch → Hitch) (s : State) : (modHitch h f s).boot = s.boot := rfl
@[simp] theorem modHitch_dumps (h : Nat) (f : Hitch → Hitch) (s : State) : (modHitch h f s).dumps = s.dumps := rfl
@[simp] theorem modHitch_chipFault (h : Nat) (f : Hitch → Hitch) (s : State) : (modHitch h f s).chipFault = s.chipFault := rfl
@[simp] theorem modHitch_chipFaults (h : Nat) (f : Hitch → Hitch) (s : State) : (modHitch h f s).chipFaults = s.chipFaults := rfl
@[simp] theorem modHitch_bindings (h : Nat) (f : Hitch → Hitch) (s : State) : (modHitch h f s).bindings = s.bindings := rfl
@[simp] theorem modHitch_spares (h : Nat) (f : Hitch → Hitch) (s : State) : (modHitch h f s).spares = s.spares := rfl
@[simp] theorem modHitch_ostlers (h : Nat) (f : Hitch → Hitch) (s : State) : (modHitch h f s).ostlers = s.ostlers := rfl
@[simp] theorem modHitch_stride (h : Nat) (f : Hitch → Hitch) (s : State) : (modHitch h f s).stride = s.stride := rfl
@[simp] theorem modHitch_job (h : Nat) (f : Hitch → Hitch) (s : State) : (modHitch h f s).job = s.job := rfl
@[simp] theorem modHitch_cores (h : Nat) (f : Hitch → Hitch) (s : State) : (modHitch h f s).cores = s.cores := rfl
@[simp] theorem modHitch_engines (h : Nat) (f : Hitch → Hitch) (s : State) : (modHitch h f s).engines = s.engines := rfl
@[simp] theorem modHitch_reinIn (h : Nat) (f : Hitch → Hitch) (s : State) : (modHitch h f s).reinIn = s.reinIn := rfl
@[simp] theorem modHitch_reinOut (h : Nat) (f : Hitch → Hitch) (s : State) : (modHitch h f s).reinOut = s.reinOut := rfl
@[simp] theorem modHitch_sft (h : Nat) (f : Hitch → Hitch) (s : State) : (modHitch h f s).sft = s.sft := rfl
@[simp] theorem modHitch_tiers (h : Nat) (f : Hitch → Hitch) (s : State) : (modHitch h f s).tiers = s.tiers := rfl
@[simp] theorem modHitch_sync (h : Nat) (f : Hitch → Hitch) (s : State) : (modHitch h f s).sync = s.sync := rfl
@[simp] theorem modHitch_hitches (h : Nat) (f : Hitch → Hitch) (s : State) : (modHitch h f s).hitches = smod {} s.hitches h f := rfl
@[simp] theorem modHitch_serve (h : Nat) (f : Hitch → Hitch) (s : State) : (modHitch h f s).serve = s.serve := rfl
@[simp] theorem modHitch_weights (h : Nat) (f : Hitch → Hitch) (s : State) : (modHitch h f s).weights = s.weights := rfl
@[simp] theorem modHitch_links (h : Nat) (f : Hitch → Hitch) (s : State) : (modHitch h f s).links = s.links := rfl
@[simp] theorem modHitch_host (h : Nat) (f : Hitch → Hitch) (s : State) : (modHitch h f s).host = s.host := rfl
@[simp] theorem modHitch_mgmt (h : Nat) (f : Hitch → Hitch) (s : State) : (modHitch h f s).mgmt = s.mgmt := rfl
@[simp] theorem modHitch_tally (h : Nat) (f : Hitch → Hitch) (s : State) : (modHitch h f s).tally = s.tally := rfl
@[simp] theorem modHitch_sec (h : Nat) (f : Hitch → Hitch) (s : State) : (modHitch h f s).sec = s.sec := rfl
@[simp] theorem modHitch_out (h : Nat) (f : Hitch → Hitch) (s : State) : (modHitch h f s).out = s.out := rfl

/-! ## modServe -/

@[simp] theorem modServe_pending (f : Serve → Serve) (s : State) : (modServe f s).pending = s.pending := rfl
@[simp] theorem modServe_mem (f : Serve → Serve) (s : State) : (modServe f s).mem = s.mem := rfl
@[simp] theorem modServe_scr (f : Serve → Serve) (s : State) : (modServe f s).scr = s.scr := rfl
@[simp] theorem modServe_free (f : Serve → Serve) (s : State) : (modServe f s).free = s.free := rfl
@[simp] theorem modServe_fuses (f : Serve → Serve) (s : State) : (modServe f s).fuses = s.fuses := rfl
@[simp] theorem modServe_board (f : Serve → Serve) (s : State) : (modServe f s).board = s.board := rfl
@[simp] theorem modServe_pins (f : Serve → Serve) (s : State) : (modServe f s).pins = s.pins := rfl
@[simp] theorem modServe_thermal (f : Serve → Serve) (s : State) : (modServe f s).thermal = s.thermal := rfl
@[simp] theorem modServe_boot (f : Serve → Serve) (s : State) : (modServe f s).boot = s.boot := rfl
@[simp] theorem modServe_dumps (f : Serve → Serve) (s : State) : (modServe f s).dumps = s.dumps := rfl
@[simp] theorem modServe_chipFault (f : Serve → Serve) (s : State) : (modServe f s).chipFault = s.chipFault := rfl
@[simp] theorem modServe_chipFaults (f : Serve → Serve) (s : State) : (modServe f s).chipFaults = s.chipFaults := rfl
@[simp] theorem modServe_bindings (f : Serve → Serve) (s : State) : (modServe f s).bindings = s.bindings := rfl
@[simp] theorem modServe_spares (f : Serve → Serve) (s : State) : (modServe f s).spares = s.spares := rfl
@[simp] theorem modServe_ostlers (f : Serve → Serve) (s : State) : (modServe f s).ostlers = s.ostlers := rfl
@[simp] theorem modServe_stride (f : Serve → Serve) (s : State) : (modServe f s).stride = s.stride := rfl
@[simp] theorem modServe_job (f : Serve → Serve) (s : State) : (modServe f s).job = s.job := rfl
@[simp] theorem modServe_cores (f : Serve → Serve) (s : State) : (modServe f s).cores = s.cores := rfl
@[simp] theorem modServe_engines (f : Serve → Serve) (s : State) : (modServe f s).engines = s.engines := rfl
@[simp] theorem modServe_reinIn (f : Serve → Serve) (s : State) : (modServe f s).reinIn = s.reinIn := rfl
@[simp] theorem modServe_reinOut (f : Serve → Serve) (s : State) : (modServe f s).reinOut = s.reinOut := rfl
@[simp] theorem modServe_sft (f : Serve → Serve) (s : State) : (modServe f s).sft = s.sft := rfl
@[simp] theorem modServe_tiers (f : Serve → Serve) (s : State) : (modServe f s).tiers = s.tiers := rfl
@[simp] theorem modServe_sync (f : Serve → Serve) (s : State) : (modServe f s).sync = s.sync := rfl
@[simp] theorem modServe_hitches (f : Serve → Serve) (s : State) : (modServe f s).hitches = s.hitches := rfl
@[simp] theorem modServe_serve (f : Serve → Serve) (s : State) : (modServe f s).serve = f s.serve := rfl
@[simp] theorem modServe_weights (f : Serve → Serve) (s : State) : (modServe f s).weights = s.weights := rfl
@[simp] theorem modServe_links (f : Serve → Serve) (s : State) : (modServe f s).links = s.links := rfl
@[simp] theorem modServe_host (f : Serve → Serve) (s : State) : (modServe f s).host = s.host := rfl
@[simp] theorem modServe_mgmt (f : Serve → Serve) (s : State) : (modServe f s).mgmt = s.mgmt := rfl
@[simp] theorem modServe_tally (f : Serve → Serve) (s : State) : (modServe f s).tally = s.tally := rfl
@[simp] theorem modServe_sec (f : Serve → Serve) (s : State) : (modServe f s).sec = s.sec := rfl
@[simp] theorem modServe_out (f : Serve → Serve) (s : State) : (modServe f s).out = s.out := rfl

/-! ## modSess -/

@[simp] theorem modSess_pending (n : Nat) (f : Session → Session) (s : State) : (modSess n f s).pending = s.pending := rfl
@[simp] theorem modSess_mem (n : Nat) (f : Session → Session) (s : State) : (modSess n f s).mem = s.mem := rfl
@[simp] theorem modSess_scr (n : Nat) (f : Session → Session) (s : State) : (modSess n f s).scr = s.scr := rfl
@[simp] theorem modSess_free (n : Nat) (f : Session → Session) (s : State) : (modSess n f s).free = s.free := rfl
@[simp] theorem modSess_fuses (n : Nat) (f : Session → Session) (s : State) : (modSess n f s).fuses = s.fuses := rfl
@[simp] theorem modSess_board (n : Nat) (f : Session → Session) (s : State) : (modSess n f s).board = s.board := rfl
@[simp] theorem modSess_pins (n : Nat) (f : Session → Session) (s : State) : (modSess n f s).pins = s.pins := rfl
@[simp] theorem modSess_thermal (n : Nat) (f : Session → Session) (s : State) : (modSess n f s).thermal = s.thermal := rfl
@[simp] theorem modSess_boot (n : Nat) (f : Session → Session) (s : State) : (modSess n f s).boot = s.boot := rfl
@[simp] theorem modSess_dumps (n : Nat) (f : Session → Session) (s : State) : (modSess n f s).dumps = s.dumps := rfl
@[simp] theorem modSess_chipFault (n : Nat) (f : Session → Session) (s : State) : (modSess n f s).chipFault = s.chipFault := rfl
@[simp] theorem modSess_chipFaults (n : Nat) (f : Session → Session) (s : State) : (modSess n f s).chipFaults = s.chipFaults := rfl
@[simp] theorem modSess_bindings (n : Nat) (f : Session → Session) (s : State) : (modSess n f s).bindings = s.bindings := rfl
@[simp] theorem modSess_spares (n : Nat) (f : Session → Session) (s : State) : (modSess n f s).spares = s.spares := rfl
@[simp] theorem modSess_ostlers (n : Nat) (f : Session → Session) (s : State) : (modSess n f s).ostlers = s.ostlers := rfl
@[simp] theorem modSess_stride (n : Nat) (f : Session → Session) (s : State) : (modSess n f s).stride = s.stride := rfl
@[simp] theorem modSess_job (n : Nat) (f : Session → Session) (s : State) : (modSess n f s).job = s.job := rfl
@[simp] theorem modSess_cores (n : Nat) (f : Session → Session) (s : State) : (modSess n f s).cores = s.cores := rfl
@[simp] theorem modSess_engines (n : Nat) (f : Session → Session) (s : State) : (modSess n f s).engines = s.engines := rfl
@[simp] theorem modSess_reinIn (n : Nat) (f : Session → Session) (s : State) : (modSess n f s).reinIn = s.reinIn := rfl
@[simp] theorem modSess_reinOut (n : Nat) (f : Session → Session) (s : State) : (modSess n f s).reinOut = s.reinOut := rfl
@[simp] theorem modSess_sft (n : Nat) (f : Session → Session) (s : State) : (modSess n f s).sft = s.sft := rfl
@[simp] theorem modSess_tiers (n : Nat) (f : Session → Session) (s : State) : (modSess n f s).tiers = s.tiers := rfl
@[simp] theorem modSess_sync (n : Nat) (f : Session → Session) (s : State) : (modSess n f s).sync = s.sync := rfl
@[simp] theorem modSess_hitches (n : Nat) (f : Session → Session) (s : State) : (modSess n f s).hitches = s.hitches := rfl
@[simp] theorem modSess_weights (n : Nat) (f : Session → Session) (s : State) : (modSess n f s).weights = s.weights := rfl
@[simp] theorem modSess_links (n : Nat) (f : Session → Session) (s : State) : (modSess n f s).links = s.links := rfl
@[simp] theorem modSess_host (n : Nat) (f : Session → Session) (s : State) : (modSess n f s).host = s.host := rfl
@[simp] theorem modSess_mgmt (n : Nat) (f : Session → Session) (s : State) : (modSess n f s).mgmt = s.mgmt := rfl
@[simp] theorem modSess_tally (n : Nat) (f : Session → Session) (s : State) : (modSess n f s).tally = s.tally := rfl
@[simp] theorem modSess_sec (n : Nat) (f : Session → Session) (s : State) : (modSess n f s).sec = s.sec := rfl
@[simp] theorem modSess_out (n : Nat) (f : Session → Session) (s : State) : (modSess n f s).out = s.out := rfl

/-! ## modReq -/

@[simp] theorem modReq_pending (n : Nat) (f : Request → Request) (s : State) : (modReq n f s).pending = s.pending := rfl
@[simp] theorem modReq_mem (n : Nat) (f : Request → Request) (s : State) : (modReq n f s).mem = s.mem := rfl
@[simp] theorem modReq_scr (n : Nat) (f : Request → Request) (s : State) : (modReq n f s).scr = s.scr := rfl
@[simp] theorem modReq_free (n : Nat) (f : Request → Request) (s : State) : (modReq n f s).free = s.free := rfl
@[simp] theorem modReq_fuses (n : Nat) (f : Request → Request) (s : State) : (modReq n f s).fuses = s.fuses := rfl
@[simp] theorem modReq_board (n : Nat) (f : Request → Request) (s : State) : (modReq n f s).board = s.board := rfl
@[simp] theorem modReq_pins (n : Nat) (f : Request → Request) (s : State) : (modReq n f s).pins = s.pins := rfl
@[simp] theorem modReq_thermal (n : Nat) (f : Request → Request) (s : State) : (modReq n f s).thermal = s.thermal := rfl
@[simp] theorem modReq_boot (n : Nat) (f : Request → Request) (s : State) : (modReq n f s).boot = s.boot := rfl
@[simp] theorem modReq_dumps (n : Nat) (f : Request → Request) (s : State) : (modReq n f s).dumps = s.dumps := rfl
@[simp] theorem modReq_chipFault (n : Nat) (f : Request → Request) (s : State) : (modReq n f s).chipFault = s.chipFault := rfl
@[simp] theorem modReq_chipFaults (n : Nat) (f : Request → Request) (s : State) : (modReq n f s).chipFaults = s.chipFaults := rfl
@[simp] theorem modReq_bindings (n : Nat) (f : Request → Request) (s : State) : (modReq n f s).bindings = s.bindings := rfl
@[simp] theorem modReq_spares (n : Nat) (f : Request → Request) (s : State) : (modReq n f s).spares = s.spares := rfl
@[simp] theorem modReq_ostlers (n : Nat) (f : Request → Request) (s : State) : (modReq n f s).ostlers = s.ostlers := rfl
@[simp] theorem modReq_stride (n : Nat) (f : Request → Request) (s : State) : (modReq n f s).stride = s.stride := rfl
@[simp] theorem modReq_job (n : Nat) (f : Request → Request) (s : State) : (modReq n f s).job = s.job := rfl
@[simp] theorem modReq_cores (n : Nat) (f : Request → Request) (s : State) : (modReq n f s).cores = s.cores := rfl
@[simp] theorem modReq_engines (n : Nat) (f : Request → Request) (s : State) : (modReq n f s).engines = s.engines := rfl
@[simp] theorem modReq_reinIn (n : Nat) (f : Request → Request) (s : State) : (modReq n f s).reinIn = s.reinIn := rfl
@[simp] theorem modReq_reinOut (n : Nat) (f : Request → Request) (s : State) : (modReq n f s).reinOut = s.reinOut := rfl
@[simp] theorem modReq_sft (n : Nat) (f : Request → Request) (s : State) : (modReq n f s).sft = s.sft := rfl
@[simp] theorem modReq_tiers (n : Nat) (f : Request → Request) (s : State) : (modReq n f s).tiers = s.tiers := rfl
@[simp] theorem modReq_sync (n : Nat) (f : Request → Request) (s : State) : (modReq n f s).sync = s.sync := rfl
@[simp] theorem modReq_hitches (n : Nat) (f : Request → Request) (s : State) : (modReq n f s).hitches = s.hitches := rfl
@[simp] theorem modReq_weights (n : Nat) (f : Request → Request) (s : State) : (modReq n f s).weights = s.weights := rfl
@[simp] theorem modReq_links (n : Nat) (f : Request → Request) (s : State) : (modReq n f s).links = s.links := rfl
@[simp] theorem modReq_host (n : Nat) (f : Request → Request) (s : State) : (modReq n f s).host = s.host := rfl
@[simp] theorem modReq_mgmt (n : Nat) (f : Request → Request) (s : State) : (modReq n f s).mgmt = s.mgmt := rfl
@[simp] theorem modReq_tally (n : Nat) (f : Request → Request) (s : State) : (modReq n f s).tally = s.tally := rfl
@[simp] theorem modReq_sec (n : Nat) (f : Request → Request) (s : State) : (modReq n f s).sec = s.sec := rfl
@[simp] theorem modReq_out (n : Nat) (f : Request → Request) (s : State) : (modReq n f s).out = s.out := rfl

/-! ## modWeights -/

@[simp] theorem modWeights_pending (f : Weights → Weights) (s : State) : (modWeights f s).pending = s.pending := rfl
@[simp] theorem modWeights_mem (f : Weights → Weights) (s : State) : (modWeights f s).mem = s.mem := rfl
@[simp] theorem modWeights_scr (f : Weights → Weights) (s : State) : (modWeights f s).scr = s.scr := rfl
@[simp] theorem modWeights_free (f : Weights → Weights) (s : State) : (modWeights f s).free = s.free := rfl
@[simp] theorem modWeights_fuses (f : Weights → Weights) (s : State) : (modWeights f s).fuses = s.fuses := rfl
@[simp] theorem modWeights_board (f : Weights → Weights) (s : State) : (modWeights f s).board = s.board := rfl
@[simp] theorem modWeights_pins (f : Weights → Weights) (s : State) : (modWeights f s).pins = s.pins := rfl
@[simp] theorem modWeights_thermal (f : Weights → Weights) (s : State) : (modWeights f s).thermal = s.thermal := rfl
@[simp] theorem modWeights_boot (f : Weights → Weights) (s : State) : (modWeights f s).boot = s.boot := rfl
@[simp] theorem modWeights_dumps (f : Weights → Weights) (s : State) : (modWeights f s).dumps = s.dumps := rfl
@[simp] theorem modWeights_chipFault (f : Weights → Weights) (s : State) : (modWeights f s).chipFault = s.chipFault := rfl
@[simp] theorem modWeights_chipFaults (f : Weights → Weights) (s : State) : (modWeights f s).chipFaults = s.chipFaults := rfl
@[simp] theorem modWeights_bindings (f : Weights → Weights) (s : State) : (modWeights f s).bindings = s.bindings := rfl
@[simp] theorem modWeights_spares (f : Weights → Weights) (s : State) : (modWeights f s).spares = s.spares := rfl
@[simp] theorem modWeights_ostlers (f : Weights → Weights) (s : State) : (modWeights f s).ostlers = s.ostlers := rfl
@[simp] theorem modWeights_stride (f : Weights → Weights) (s : State) : (modWeights f s).stride = s.stride := rfl
@[simp] theorem modWeights_job (f : Weights → Weights) (s : State) : (modWeights f s).job = s.job := rfl
@[simp] theorem modWeights_cores (f : Weights → Weights) (s : State) : (modWeights f s).cores = s.cores := rfl
@[simp] theorem modWeights_engines (f : Weights → Weights) (s : State) : (modWeights f s).engines = s.engines := rfl
@[simp] theorem modWeights_reinIn (f : Weights → Weights) (s : State) : (modWeights f s).reinIn = s.reinIn := rfl
@[simp] theorem modWeights_reinOut (f : Weights → Weights) (s : State) : (modWeights f s).reinOut = s.reinOut := rfl
@[simp] theorem modWeights_sft (f : Weights → Weights) (s : State) : (modWeights f s).sft = s.sft := rfl
@[simp] theorem modWeights_tiers (f : Weights → Weights) (s : State) : (modWeights f s).tiers = s.tiers := rfl
@[simp] theorem modWeights_sync (f : Weights → Weights) (s : State) : (modWeights f s).sync = s.sync := rfl
@[simp] theorem modWeights_hitches (f : Weights → Weights) (s : State) : (modWeights f s).hitches = s.hitches := rfl
@[simp] theorem modWeights_serve (f : Weights → Weights) (s : State) : (modWeights f s).serve = s.serve := rfl
@[simp] theorem modWeights_weights (f : Weights → Weights) (s : State) : (modWeights f s).weights = f s.weights := rfl
@[simp] theorem modWeights_links (f : Weights → Weights) (s : State) : (modWeights f s).links = s.links := rfl
@[simp] theorem modWeights_host (f : Weights → Weights) (s : State) : (modWeights f s).host = s.host := rfl
@[simp] theorem modWeights_mgmt (f : Weights → Weights) (s : State) : (modWeights f s).mgmt = s.mgmt := rfl
@[simp] theorem modWeights_tally (f : Weights → Weights) (s : State) : (modWeights f s).tally = s.tally := rfl
@[simp] theorem modWeights_sec (f : Weights → Weights) (s : State) : (modWeights f s).sec = s.sec := rfl
@[simp] theorem modWeights_out (f : Weights → Weights) (s : State) : (modWeights f s).out = s.out := rfl

/-! ## modLinks -/

@[simp] theorem modLinks_pending (f : Links → Links) (s : State) : (modLinks f s).pending = s.pending := rfl
@[simp] theorem modLinks_mem (f : Links → Links) (s : State) : (modLinks f s).mem = s.mem := rfl
@[simp] theorem modLinks_scr (f : Links → Links) (s : State) : (modLinks f s).scr = s.scr := rfl
@[simp] theorem modLinks_free (f : Links → Links) (s : State) : (modLinks f s).free = s.free := rfl
@[simp] theorem modLinks_fuses (f : Links → Links) (s : State) : (modLinks f s).fuses = s.fuses := rfl
@[simp] theorem modLinks_board (f : Links → Links) (s : State) : (modLinks f s).board = s.board := rfl
@[simp] theorem modLinks_pins (f : Links → Links) (s : State) : (modLinks f s).pins = s.pins := rfl
@[simp] theorem modLinks_thermal (f : Links → Links) (s : State) : (modLinks f s).thermal = s.thermal := rfl
@[simp] theorem modLinks_boot (f : Links → Links) (s : State) : (modLinks f s).boot = s.boot := rfl
@[simp] theorem modLinks_dumps (f : Links → Links) (s : State) : (modLinks f s).dumps = s.dumps := rfl
@[simp] theorem modLinks_chipFault (f : Links → Links) (s : State) : (modLinks f s).chipFault = s.chipFault := rfl
@[simp] theorem modLinks_chipFaults (f : Links → Links) (s : State) : (modLinks f s).chipFaults = s.chipFaults := rfl
@[simp] theorem modLinks_bindings (f : Links → Links) (s : State) : (modLinks f s).bindings = s.bindings := rfl
@[simp] theorem modLinks_spares (f : Links → Links) (s : State) : (modLinks f s).spares = s.spares := rfl
@[simp] theorem modLinks_ostlers (f : Links → Links) (s : State) : (modLinks f s).ostlers = s.ostlers := rfl
@[simp] theorem modLinks_stride (f : Links → Links) (s : State) : (modLinks f s).stride = s.stride := rfl
@[simp] theorem modLinks_job (f : Links → Links) (s : State) : (modLinks f s).job = s.job := rfl
@[simp] theorem modLinks_cores (f : Links → Links) (s : State) : (modLinks f s).cores = s.cores := rfl
@[simp] theorem modLinks_engines (f : Links → Links) (s : State) : (modLinks f s).engines = s.engines := rfl
@[simp] theorem modLinks_reinIn (f : Links → Links) (s : State) : (modLinks f s).reinIn = s.reinIn := rfl
@[simp] theorem modLinks_reinOut (f : Links → Links) (s : State) : (modLinks f s).reinOut = s.reinOut := rfl
@[simp] theorem modLinks_sft (f : Links → Links) (s : State) : (modLinks f s).sft = s.sft := rfl
@[simp] theorem modLinks_tiers (f : Links → Links) (s : State) : (modLinks f s).tiers = s.tiers := rfl
@[simp] theorem modLinks_sync (f : Links → Links) (s : State) : (modLinks f s).sync = s.sync := rfl
@[simp] theorem modLinks_hitches (f : Links → Links) (s : State) : (modLinks f s).hitches = s.hitches := rfl
@[simp] theorem modLinks_serve (f : Links → Links) (s : State) : (modLinks f s).serve = s.serve := rfl
@[simp] theorem modLinks_weights (f : Links → Links) (s : State) : (modLinks f s).weights = s.weights := rfl
@[simp] theorem modLinks_links (f : Links → Links) (s : State) : (modLinks f s).links = f s.links := rfl
@[simp] theorem modLinks_host (f : Links → Links) (s : State) : (modLinks f s).host = s.host := rfl
@[simp] theorem modLinks_mgmt (f : Links → Links) (s : State) : (modLinks f s).mgmt = s.mgmt := rfl
@[simp] theorem modLinks_tally (f : Links → Links) (s : State) : (modLinks f s).tally = s.tally := rfl
@[simp] theorem modLinks_sec (f : Links → Links) (s : State) : (modLinks f s).sec = s.sec := rfl
@[simp] theorem modLinks_out (f : Links → Links) (s : State) : (modLinks f s).out = s.out := rfl

/-! ## modLink -/

@[simp] theorem modLink_pending (l : Nat) (f : Link → Link) (s : State) : (modLink l f s).pending = s.pending := rfl
@[simp] theorem modLink_mem (l : Nat) (f : Link → Link) (s : State) : (modLink l f s).mem = s.mem := rfl
@[simp] theorem modLink_scr (l : Nat) (f : Link → Link) (s : State) : (modLink l f s).scr = s.scr := rfl
@[simp] theorem modLink_free (l : Nat) (f : Link → Link) (s : State) : (modLink l f s).free = s.free := rfl
@[simp] theorem modLink_fuses (l : Nat) (f : Link → Link) (s : State) : (modLink l f s).fuses = s.fuses := rfl
@[simp] theorem modLink_board (l : Nat) (f : Link → Link) (s : State) : (modLink l f s).board = s.board := rfl
@[simp] theorem modLink_pins (l : Nat) (f : Link → Link) (s : State) : (modLink l f s).pins = s.pins := rfl
@[simp] theorem modLink_thermal (l : Nat) (f : Link → Link) (s : State) : (modLink l f s).thermal = s.thermal := rfl
@[simp] theorem modLink_boot (l : Nat) (f : Link → Link) (s : State) : (modLink l f s).boot = s.boot := rfl
@[simp] theorem modLink_dumps (l : Nat) (f : Link → Link) (s : State) : (modLink l f s).dumps = s.dumps := rfl
@[simp] theorem modLink_chipFault (l : Nat) (f : Link → Link) (s : State) : (modLink l f s).chipFault = s.chipFault := rfl
@[simp] theorem modLink_chipFaults (l : Nat) (f : Link → Link) (s : State) : (modLink l f s).chipFaults = s.chipFaults := rfl
@[simp] theorem modLink_bindings (l : Nat) (f : Link → Link) (s : State) : (modLink l f s).bindings = s.bindings := rfl
@[simp] theorem modLink_spares (l : Nat) (f : Link → Link) (s : State) : (modLink l f s).spares = s.spares := rfl
@[simp] theorem modLink_ostlers (l : Nat) (f : Link → Link) (s : State) : (modLink l f s).ostlers = s.ostlers := rfl
@[simp] theorem modLink_stride (l : Nat) (f : Link → Link) (s : State) : (modLink l f s).stride = s.stride := rfl
@[simp] theorem modLink_job (l : Nat) (f : Link → Link) (s : State) : (modLink l f s).job = s.job := rfl
@[simp] theorem modLink_cores (l : Nat) (f : Link → Link) (s : State) : (modLink l f s).cores = s.cores := rfl
@[simp] theorem modLink_engines (l : Nat) (f : Link → Link) (s : State) : (modLink l f s).engines = s.engines := rfl
@[simp] theorem modLink_reinIn (l : Nat) (f : Link → Link) (s : State) : (modLink l f s).reinIn = s.reinIn := rfl
@[simp] theorem modLink_reinOut (l : Nat) (f : Link → Link) (s : State) : (modLink l f s).reinOut = s.reinOut := rfl
@[simp] theorem modLink_sft (l : Nat) (f : Link → Link) (s : State) : (modLink l f s).sft = s.sft := rfl
@[simp] theorem modLink_tiers (l : Nat) (f : Link → Link) (s : State) : (modLink l f s).tiers = s.tiers := rfl
@[simp] theorem modLink_sync (l : Nat) (f : Link → Link) (s : State) : (modLink l f s).sync = s.sync := rfl
@[simp] theorem modLink_hitches (l : Nat) (f : Link → Link) (s : State) : (modLink l f s).hitches = s.hitches := rfl
@[simp] theorem modLink_serve (l : Nat) (f : Link → Link) (s : State) : (modLink l f s).serve = s.serve := rfl
@[simp] theorem modLink_weights (l : Nat) (f : Link → Link) (s : State) : (modLink l f s).weights = s.weights := rfl
@[simp] theorem modLink_host (l : Nat) (f : Link → Link) (s : State) : (modLink l f s).host = s.host := rfl
@[simp] theorem modLink_mgmt (l : Nat) (f : Link → Link) (s : State) : (modLink l f s).mgmt = s.mgmt := rfl
@[simp] theorem modLink_tally (l : Nat) (f : Link → Link) (s : State) : (modLink l f s).tally = s.tally := rfl
@[simp] theorem modLink_sec (l : Nat) (f : Link → Link) (s : State) : (modLink l f s).sec = s.sec := rfl
@[simp] theorem modLink_out (l : Nat) (f : Link → Link) (s : State) : (modLink l f s).out = s.out := rfl

/-! ## modHost -/

@[simp] theorem modHost_pending (f : HostIf → HostIf) (s : State) : (modHost f s).pending = s.pending := rfl
@[simp] theorem modHost_mem (f : HostIf → HostIf) (s : State) : (modHost f s).mem = s.mem := rfl
@[simp] theorem modHost_scr (f : HostIf → HostIf) (s : State) : (modHost f s).scr = s.scr := rfl
@[simp] theorem modHost_free (f : HostIf → HostIf) (s : State) : (modHost f s).free = s.free := rfl
@[simp] theorem modHost_fuses (f : HostIf → HostIf) (s : State) : (modHost f s).fuses = s.fuses := rfl
@[simp] theorem modHost_board (f : HostIf → HostIf) (s : State) : (modHost f s).board = s.board := rfl
@[simp] theorem modHost_pins (f : HostIf → HostIf) (s : State) : (modHost f s).pins = s.pins := rfl
@[simp] theorem modHost_thermal (f : HostIf → HostIf) (s : State) : (modHost f s).thermal = s.thermal := rfl
@[simp] theorem modHost_boot (f : HostIf → HostIf) (s : State) : (modHost f s).boot = s.boot := rfl
@[simp] theorem modHost_dumps (f : HostIf → HostIf) (s : State) : (modHost f s).dumps = s.dumps := rfl
@[simp] theorem modHost_chipFault (f : HostIf → HostIf) (s : State) : (modHost f s).chipFault = s.chipFault := rfl
@[simp] theorem modHost_chipFaults (f : HostIf → HostIf) (s : State) : (modHost f s).chipFaults = s.chipFaults := rfl
@[simp] theorem modHost_bindings (f : HostIf → HostIf) (s : State) : (modHost f s).bindings = s.bindings := rfl
@[simp] theorem modHost_spares (f : HostIf → HostIf) (s : State) : (modHost f s).spares = s.spares := rfl
@[simp] theorem modHost_ostlers (f : HostIf → HostIf) (s : State) : (modHost f s).ostlers = s.ostlers := rfl
@[simp] theorem modHost_stride (f : HostIf → HostIf) (s : State) : (modHost f s).stride = s.stride := rfl
@[simp] theorem modHost_job (f : HostIf → HostIf) (s : State) : (modHost f s).job = s.job := rfl
@[simp] theorem modHost_cores (f : HostIf → HostIf) (s : State) : (modHost f s).cores = s.cores := rfl
@[simp] theorem modHost_engines (f : HostIf → HostIf) (s : State) : (modHost f s).engines = s.engines := rfl
@[simp] theorem modHost_reinIn (f : HostIf → HostIf) (s : State) : (modHost f s).reinIn = s.reinIn := rfl
@[simp] theorem modHost_reinOut (f : HostIf → HostIf) (s : State) : (modHost f s).reinOut = s.reinOut := rfl
@[simp] theorem modHost_sft (f : HostIf → HostIf) (s : State) : (modHost f s).sft = s.sft := rfl
@[simp] theorem modHost_tiers (f : HostIf → HostIf) (s : State) : (modHost f s).tiers = s.tiers := rfl
@[simp] theorem modHost_sync (f : HostIf → HostIf) (s : State) : (modHost f s).sync = s.sync := rfl
@[simp] theorem modHost_hitches (f : HostIf → HostIf) (s : State) : (modHost f s).hitches = s.hitches := rfl
@[simp] theorem modHost_serve (f : HostIf → HostIf) (s : State) : (modHost f s).serve = s.serve := rfl
@[simp] theorem modHost_weights (f : HostIf → HostIf) (s : State) : (modHost f s).weights = s.weights := rfl
@[simp] theorem modHost_links (f : HostIf → HostIf) (s : State) : (modHost f s).links = s.links := rfl
@[simp] theorem modHost_host (f : HostIf → HostIf) (s : State) : (modHost f s).host = f s.host := rfl
@[simp] theorem modHost_mgmt (f : HostIf → HostIf) (s : State) : (modHost f s).mgmt = s.mgmt := rfl
@[simp] theorem modHost_tally (f : HostIf → HostIf) (s : State) : (modHost f s).tally = s.tally := rfl
@[simp] theorem modHost_sec (f : HostIf → HostIf) (s : State) : (modHost f s).sec = s.sec := rfl
@[simp] theorem modHost_out (f : HostIf → HostIf) (s : State) : (modHost f s).out = s.out := rfl

/-! ## modRing -/

@[simp] theorem modRing_pending (r : Nat) (f : Ring → Ring) (s : State) : (modRing r f s).pending = s.pending := rfl
@[simp] theorem modRing_mem (r : Nat) (f : Ring → Ring) (s : State) : (modRing r f s).mem = s.mem := rfl
@[simp] theorem modRing_scr (r : Nat) (f : Ring → Ring) (s : State) : (modRing r f s).scr = s.scr := rfl
@[simp] theorem modRing_free (r : Nat) (f : Ring → Ring) (s : State) : (modRing r f s).free = s.free := rfl
@[simp] theorem modRing_fuses (r : Nat) (f : Ring → Ring) (s : State) : (modRing r f s).fuses = s.fuses := rfl
@[simp] theorem modRing_board (r : Nat) (f : Ring → Ring) (s : State) : (modRing r f s).board = s.board := rfl
@[simp] theorem modRing_pins (r : Nat) (f : Ring → Ring) (s : State) : (modRing r f s).pins = s.pins := rfl
@[simp] theorem modRing_thermal (r : Nat) (f : Ring → Ring) (s : State) : (modRing r f s).thermal = s.thermal := rfl
@[simp] theorem modRing_boot (r : Nat) (f : Ring → Ring) (s : State) : (modRing r f s).boot = s.boot := rfl
@[simp] theorem modRing_dumps (r : Nat) (f : Ring → Ring) (s : State) : (modRing r f s).dumps = s.dumps := rfl
@[simp] theorem modRing_chipFault (r : Nat) (f : Ring → Ring) (s : State) : (modRing r f s).chipFault = s.chipFault := rfl
@[simp] theorem modRing_chipFaults (r : Nat) (f : Ring → Ring) (s : State) : (modRing r f s).chipFaults = s.chipFaults := rfl
@[simp] theorem modRing_bindings (r : Nat) (f : Ring → Ring) (s : State) : (modRing r f s).bindings = s.bindings := rfl
@[simp] theorem modRing_spares (r : Nat) (f : Ring → Ring) (s : State) : (modRing r f s).spares = s.spares := rfl
@[simp] theorem modRing_ostlers (r : Nat) (f : Ring → Ring) (s : State) : (modRing r f s).ostlers = s.ostlers := rfl
@[simp] theorem modRing_stride (r : Nat) (f : Ring → Ring) (s : State) : (modRing r f s).stride = s.stride := rfl
@[simp] theorem modRing_job (r : Nat) (f : Ring → Ring) (s : State) : (modRing r f s).job = s.job := rfl
@[simp] theorem modRing_cores (r : Nat) (f : Ring → Ring) (s : State) : (modRing r f s).cores = s.cores := rfl
@[simp] theorem modRing_engines (r : Nat) (f : Ring → Ring) (s : State) : (modRing r f s).engines = s.engines := rfl
@[simp] theorem modRing_reinIn (r : Nat) (f : Ring → Ring) (s : State) : (modRing r f s).reinIn = s.reinIn := rfl
@[simp] theorem modRing_reinOut (r : Nat) (f : Ring → Ring) (s : State) : (modRing r f s).reinOut = s.reinOut := rfl
@[simp] theorem modRing_sft (r : Nat) (f : Ring → Ring) (s : State) : (modRing r f s).sft = s.sft := rfl
@[simp] theorem modRing_tiers (r : Nat) (f : Ring → Ring) (s : State) : (modRing r f s).tiers = s.tiers := rfl
@[simp] theorem modRing_sync (r : Nat) (f : Ring → Ring) (s : State) : (modRing r f s).sync = s.sync := rfl
@[simp] theorem modRing_hitches (r : Nat) (f : Ring → Ring) (s : State) : (modRing r f s).hitches = s.hitches := rfl
@[simp] theorem modRing_serve (r : Nat) (f : Ring → Ring) (s : State) : (modRing r f s).serve = s.serve := rfl
@[simp] theorem modRing_weights (r : Nat) (f : Ring → Ring) (s : State) : (modRing r f s).weights = s.weights := rfl
@[simp] theorem modRing_links (r : Nat) (f : Ring → Ring) (s : State) : (modRing r f s).links = s.links := rfl
@[simp] theorem modRing_mgmt (r : Nat) (f : Ring → Ring) (s : State) : (modRing r f s).mgmt = s.mgmt := rfl
@[simp] theorem modRing_tally (r : Nat) (f : Ring → Ring) (s : State) : (modRing r f s).tally = s.tally := rfl
@[simp] theorem modRing_sec (r : Nat) (f : Ring → Ring) (s : State) : (modRing r f s).sec = s.sec := rfl
@[simp] theorem modRing_out (r : Nat) (f : Ring → Ring) (s : State) : (modRing r f s).out = s.out := rfl

/-! ## modOstler -/

@[simp] theorem modOstler_pending (n : Nat) (f : Ostler → Ostler) (s : State) : (modOstler n f s).pending = s.pending := rfl
@[simp] theorem modOstler_mem (n : Nat) (f : Ostler → Ostler) (s : State) : (modOstler n f s).mem = s.mem := rfl
@[simp] theorem modOstler_scr (n : Nat) (f : Ostler → Ostler) (s : State) : (modOstler n f s).scr = s.scr := rfl
@[simp] theorem modOstler_free (n : Nat) (f : Ostler → Ostler) (s : State) : (modOstler n f s).free = s.free := rfl
@[simp] theorem modOstler_fuses (n : Nat) (f : Ostler → Ostler) (s : State) : (modOstler n f s).fuses = s.fuses := rfl
@[simp] theorem modOstler_board (n : Nat) (f : Ostler → Ostler) (s : State) : (modOstler n f s).board = s.board := rfl
@[simp] theorem modOstler_pins (n : Nat) (f : Ostler → Ostler) (s : State) : (modOstler n f s).pins = s.pins := rfl
@[simp] theorem modOstler_thermal (n : Nat) (f : Ostler → Ostler) (s : State) : (modOstler n f s).thermal = s.thermal := rfl
@[simp] theorem modOstler_boot (n : Nat) (f : Ostler → Ostler) (s : State) : (modOstler n f s).boot = s.boot := rfl
@[simp] theorem modOstler_dumps (n : Nat) (f : Ostler → Ostler) (s : State) : (modOstler n f s).dumps = s.dumps := rfl
@[simp] theorem modOstler_chipFault (n : Nat) (f : Ostler → Ostler) (s : State) : (modOstler n f s).chipFault = s.chipFault := rfl
@[simp] theorem modOstler_chipFaults (n : Nat) (f : Ostler → Ostler) (s : State) : (modOstler n f s).chipFaults = s.chipFaults := rfl
@[simp] theorem modOstler_bindings (n : Nat) (f : Ostler → Ostler) (s : State) : (modOstler n f s).bindings = s.bindings := rfl
@[simp] theorem modOstler_spares (n : Nat) (f : Ostler → Ostler) (s : State) : (modOstler n f s).spares = s.spares := rfl
@[simp] theorem modOstler_ostlers (n : Nat) (f : Ostler → Ostler) (s : State) : (modOstler n f s).ostlers = smod {} s.ostlers n f := rfl
@[simp] theorem modOstler_stride (n : Nat) (f : Ostler → Ostler) (s : State) : (modOstler n f s).stride = s.stride := rfl
@[simp] theorem modOstler_job (n : Nat) (f : Ostler → Ostler) (s : State) : (modOstler n f s).job = s.job := rfl
@[simp] theorem modOstler_cores (n : Nat) (f : Ostler → Ostler) (s : State) : (modOstler n f s).cores = s.cores := rfl
@[simp] theorem modOstler_engines (n : Nat) (f : Ostler → Ostler) (s : State) : (modOstler n f s).engines = s.engines := rfl
@[simp] theorem modOstler_reinIn (n : Nat) (f : Ostler → Ostler) (s : State) : (modOstler n f s).reinIn = s.reinIn := rfl
@[simp] theorem modOstler_reinOut (n : Nat) (f : Ostler → Ostler) (s : State) : (modOstler n f s).reinOut = s.reinOut := rfl
@[simp] theorem modOstler_sft (n : Nat) (f : Ostler → Ostler) (s : State) : (modOstler n f s).sft = s.sft := rfl
@[simp] theorem modOstler_tiers (n : Nat) (f : Ostler → Ostler) (s : State) : (modOstler n f s).tiers = s.tiers := rfl
@[simp] theorem modOstler_sync (n : Nat) (f : Ostler → Ostler) (s : State) : (modOstler n f s).sync = s.sync := rfl
@[simp] theorem modOstler_hitches (n : Nat) (f : Ostler → Ostler) (s : State) : (modOstler n f s).hitches = s.hitches := rfl
@[simp] theorem modOstler_serve (n : Nat) (f : Ostler → Ostler) (s : State) : (modOstler n f s).serve = s.serve := rfl
@[simp] theorem modOstler_weights (n : Nat) (f : Ostler → Ostler) (s : State) : (modOstler n f s).weights = s.weights := rfl
@[simp] theorem modOstler_links (n : Nat) (f : Ostler → Ostler) (s : State) : (modOstler n f s).links = s.links := rfl
@[simp] theorem modOstler_host (n : Nat) (f : Ostler → Ostler) (s : State) : (modOstler n f s).host = s.host := rfl
@[simp] theorem modOstler_mgmt (n : Nat) (f : Ostler → Ostler) (s : State) : (modOstler n f s).mgmt = s.mgmt := rfl
@[simp] theorem modOstler_tally (n : Nat) (f : Ostler → Ostler) (s : State) : (modOstler n f s).tally = s.tally := rfl
@[simp] theorem modOstler_sec (n : Nat) (f : Ostler → Ostler) (s : State) : (modOstler n f s).sec = s.sec := rfl
@[simp] theorem modOstler_out (n : Nat) (f : Ostler → Ostler) (s : State) : (modOstler n f s).out = s.out := rfl

/-! ## modStride -/

@[simp] theorem modStride_pending (f : Stride → Stride) (s : State) : (modStride f s).pending = s.pending := rfl
@[simp] theorem modStride_mem (f : Stride → Stride) (s : State) : (modStride f s).mem = s.mem := rfl
@[simp] theorem modStride_scr (f : Stride → Stride) (s : State) : (modStride f s).scr = s.scr := rfl
@[simp] theorem modStride_free (f : Stride → Stride) (s : State) : (modStride f s).free = s.free := rfl
@[simp] theorem modStride_fuses (f : Stride → Stride) (s : State) : (modStride f s).fuses = s.fuses := rfl
@[simp] theorem modStride_board (f : Stride → Stride) (s : State) : (modStride f s).board = s.board := rfl
@[simp] theorem modStride_pins (f : Stride → Stride) (s : State) : (modStride f s).pins = s.pins := rfl
@[simp] theorem modStride_thermal (f : Stride → Stride) (s : State) : (modStride f s).thermal = s.thermal := rfl
@[simp] theorem modStride_boot (f : Stride → Stride) (s : State) : (modStride f s).boot = s.boot := rfl
@[simp] theorem modStride_dumps (f : Stride → Stride) (s : State) : (modStride f s).dumps = s.dumps := rfl
@[simp] theorem modStride_chipFault (f : Stride → Stride) (s : State) : (modStride f s).chipFault = s.chipFault := rfl
@[simp] theorem modStride_chipFaults (f : Stride → Stride) (s : State) : (modStride f s).chipFaults = s.chipFaults := rfl
@[simp] theorem modStride_bindings (f : Stride → Stride) (s : State) : (modStride f s).bindings = s.bindings := rfl
@[simp] theorem modStride_spares (f : Stride → Stride) (s : State) : (modStride f s).spares = s.spares := rfl
@[simp] theorem modStride_ostlers (f : Stride → Stride) (s : State) : (modStride f s).ostlers = s.ostlers := rfl
@[simp] theorem modStride_stride (f : Stride → Stride) (s : State) : (modStride f s).stride = f s.stride := rfl
@[simp] theorem modStride_job (f : Stride → Stride) (s : State) : (modStride f s).job = s.job := rfl
@[simp] theorem modStride_cores (f : Stride → Stride) (s : State) : (modStride f s).cores = s.cores := rfl
@[simp] theorem modStride_engines (f : Stride → Stride) (s : State) : (modStride f s).engines = s.engines := rfl
@[simp] theorem modStride_reinIn (f : Stride → Stride) (s : State) : (modStride f s).reinIn = s.reinIn := rfl
@[simp] theorem modStride_reinOut (f : Stride → Stride) (s : State) : (modStride f s).reinOut = s.reinOut := rfl
@[simp] theorem modStride_sft (f : Stride → Stride) (s : State) : (modStride f s).sft = s.sft := rfl
@[simp] theorem modStride_tiers (f : Stride → Stride) (s : State) : (modStride f s).tiers = s.tiers := rfl
@[simp] theorem modStride_sync (f : Stride → Stride) (s : State) : (modStride f s).sync = s.sync := rfl
@[simp] theorem modStride_hitches (f : Stride → Stride) (s : State) : (modStride f s).hitches = s.hitches := rfl
@[simp] theorem modStride_serve (f : Stride → Stride) (s : State) : (modStride f s).serve = s.serve := rfl
@[simp] theorem modStride_weights (f : Stride → Stride) (s : State) : (modStride f s).weights = s.weights := rfl
@[simp] theorem modStride_links (f : Stride → Stride) (s : State) : (modStride f s).links = s.links := rfl
@[simp] theorem modStride_host (f : Stride → Stride) (s : State) : (modStride f s).host = s.host := rfl
@[simp] theorem modStride_mgmt (f : Stride → Stride) (s : State) : (modStride f s).mgmt = s.mgmt := rfl
@[simp] theorem modStride_tally (f : Stride → Stride) (s : State) : (modStride f s).tally = s.tally := rfl
@[simp] theorem modStride_sec (f : Stride → Stride) (s : State) : (modStride f s).sec = s.sec := rfl
@[simp] theorem modStride_out (f : Stride → Stride) (s : State) : (modStride f s).out = s.out := rfl

/-! ## modJob -/

@[simp] theorem modJob_pending (f : Job → Job) (s : State) : (modJob f s).pending = s.pending := rfl
@[simp] theorem modJob_mem (f : Job → Job) (s : State) : (modJob f s).mem = s.mem := rfl
@[simp] theorem modJob_scr (f : Job → Job) (s : State) : (modJob f s).scr = s.scr := rfl
@[simp] theorem modJob_free (f : Job → Job) (s : State) : (modJob f s).free = s.free := rfl
@[simp] theorem modJob_fuses (f : Job → Job) (s : State) : (modJob f s).fuses = s.fuses := rfl
@[simp] theorem modJob_board (f : Job → Job) (s : State) : (modJob f s).board = s.board := rfl
@[simp] theorem modJob_pins (f : Job → Job) (s : State) : (modJob f s).pins = s.pins := rfl
@[simp] theorem modJob_thermal (f : Job → Job) (s : State) : (modJob f s).thermal = s.thermal := rfl
@[simp] theorem modJob_boot (f : Job → Job) (s : State) : (modJob f s).boot = s.boot := rfl
@[simp] theorem modJob_dumps (f : Job → Job) (s : State) : (modJob f s).dumps = s.dumps := rfl
@[simp] theorem modJob_chipFault (f : Job → Job) (s : State) : (modJob f s).chipFault = s.chipFault := rfl
@[simp] theorem modJob_chipFaults (f : Job → Job) (s : State) : (modJob f s).chipFaults = s.chipFaults := rfl
@[simp] theorem modJob_bindings (f : Job → Job) (s : State) : (modJob f s).bindings = s.bindings := rfl
@[simp] theorem modJob_spares (f : Job → Job) (s : State) : (modJob f s).spares = s.spares := rfl
@[simp] theorem modJob_ostlers (f : Job → Job) (s : State) : (modJob f s).ostlers = s.ostlers := rfl
@[simp] theorem modJob_stride (f : Job → Job) (s : State) : (modJob f s).stride = s.stride := rfl
@[simp] theorem modJob_job (f : Job → Job) (s : State) : (modJob f s).job = f s.job := rfl
@[simp] theorem modJob_cores (f : Job → Job) (s : State) : (modJob f s).cores = s.cores := rfl
@[simp] theorem modJob_engines (f : Job → Job) (s : State) : (modJob f s).engines = s.engines := rfl
@[simp] theorem modJob_reinIn (f : Job → Job) (s : State) : (modJob f s).reinIn = s.reinIn := rfl
@[simp] theorem modJob_reinOut (f : Job → Job) (s : State) : (modJob f s).reinOut = s.reinOut := rfl
@[simp] theorem modJob_sft (f : Job → Job) (s : State) : (modJob f s).sft = s.sft := rfl
@[simp] theorem modJob_tiers (f : Job → Job) (s : State) : (modJob f s).tiers = s.tiers := rfl
@[simp] theorem modJob_sync (f : Job → Job) (s : State) : (modJob f s).sync = s.sync := rfl
@[simp] theorem modJob_hitches (f : Job → Job) (s : State) : (modJob f s).hitches = s.hitches := rfl
@[simp] theorem modJob_serve (f : Job → Job) (s : State) : (modJob f s).serve = s.serve := rfl
@[simp] theorem modJob_weights (f : Job → Job) (s : State) : (modJob f s).weights = s.weights := rfl
@[simp] theorem modJob_links (f : Job → Job) (s : State) : (modJob f s).links = s.links := rfl
@[simp] theorem modJob_host (f : Job → Job) (s : State) : (modJob f s).host = s.host := rfl
@[simp] theorem modJob_mgmt (f : Job → Job) (s : State) : (modJob f s).mgmt = s.mgmt := rfl
@[simp] theorem modJob_tally (f : Job → Job) (s : State) : (modJob f s).tally = s.tally := rfl
@[simp] theorem modJob_sec (f : Job → Job) (s : State) : (modJob f s).sec = s.sec := rfl
@[simp] theorem modJob_out (f : Job → Job) (s : State) : (modJob f s).out = s.out := rfl

/-! ## modRun -/

@[simp] theorem modRun_pending (f : Running → Running) (s : State) : (modRun f s).pending = s.pending := rfl
@[simp] theorem modRun_mem (f : Running → Running) (s : State) : (modRun f s).mem = s.mem := rfl
@[simp] theorem modRun_scr (f : Running → Running) (s : State) : (modRun f s).scr = s.scr := rfl
@[simp] theorem modRun_free (f : Running → Running) (s : State) : (modRun f s).free = s.free := rfl
@[simp] theorem modRun_fuses (f : Running → Running) (s : State) : (modRun f s).fuses = s.fuses := rfl
@[simp] theorem modRun_board (f : Running → Running) (s : State) : (modRun f s).board = s.board := rfl
@[simp] theorem modRun_pins (f : Running → Running) (s : State) : (modRun f s).pins = s.pins := rfl
@[simp] theorem modRun_thermal (f : Running → Running) (s : State) : (modRun f s).thermal = s.thermal := rfl
@[simp] theorem modRun_boot (f : Running → Running) (s : State) : (modRun f s).boot = s.boot := rfl
@[simp] theorem modRun_dumps (f : Running → Running) (s : State) : (modRun f s).dumps = s.dumps := rfl
@[simp] theorem modRun_chipFault (f : Running → Running) (s : State) : (modRun f s).chipFault = s.chipFault := rfl
@[simp] theorem modRun_chipFaults (f : Running → Running) (s : State) : (modRun f s).chipFaults = s.chipFaults := rfl
@[simp] theorem modRun_bindings (f : Running → Running) (s : State) : (modRun f s).bindings = s.bindings := rfl
@[simp] theorem modRun_spares (f : Running → Running) (s : State) : (modRun f s).spares = s.spares := rfl
@[simp] theorem modRun_ostlers (f : Running → Running) (s : State) : (modRun f s).ostlers = s.ostlers := rfl
@[simp] theorem modRun_stride (f : Running → Running) (s : State) : (modRun f s).stride = s.stride := rfl
@[simp] theorem modRun_cores (f : Running → Running) (s : State) : (modRun f s).cores = s.cores := rfl
@[simp] theorem modRun_engines (f : Running → Running) (s : State) : (modRun f s).engines = s.engines := rfl
@[simp] theorem modRun_reinIn (f : Running → Running) (s : State) : (modRun f s).reinIn = s.reinIn := rfl
@[simp] theorem modRun_reinOut (f : Running → Running) (s : State) : (modRun f s).reinOut = s.reinOut := rfl
@[simp] theorem modRun_sft (f : Running → Running) (s : State) : (modRun f s).sft = s.sft := rfl
@[simp] theorem modRun_tiers (f : Running → Running) (s : State) : (modRun f s).tiers = s.tiers := rfl
@[simp] theorem modRun_sync (f : Running → Running) (s : State) : (modRun f s).sync = s.sync := rfl
@[simp] theorem modRun_hitches (f : Running → Running) (s : State) : (modRun f s).hitches = s.hitches := rfl
@[simp] theorem modRun_serve (f : Running → Running) (s : State) : (modRun f s).serve = s.serve := rfl
@[simp] theorem modRun_weights (f : Running → Running) (s : State) : (modRun f s).weights = s.weights := rfl
@[simp] theorem modRun_links (f : Running → Running) (s : State) : (modRun f s).links = s.links := rfl
@[simp] theorem modRun_host (f : Running → Running) (s : State) : (modRun f s).host = s.host := rfl
@[simp] theorem modRun_mgmt (f : Running → Running) (s : State) : (modRun f s).mgmt = s.mgmt := rfl
@[simp] theorem modRun_tally (f : Running → Running) (s : State) : (modRun f s).tally = s.tally := rfl
@[simp] theorem modRun_sec (f : Running → Running) (s : State) : (modRun f s).sec = s.sec := rfl
@[simp] theorem modRun_out (f : Running → Running) (s : State) : (modRun f s).out = s.out := rfl

/-! ## modMgmt -/

@[simp] theorem modMgmt_pending (f : Mgmt → Mgmt) (s : State) : (modMgmt f s).pending = s.pending := rfl
@[simp] theorem modMgmt_mem (f : Mgmt → Mgmt) (s : State) : (modMgmt f s).mem = s.mem := rfl
@[simp] theorem modMgmt_scr (f : Mgmt → Mgmt) (s : State) : (modMgmt f s).scr = s.scr := rfl
@[simp] theorem modMgmt_free (f : Mgmt → Mgmt) (s : State) : (modMgmt f s).free = s.free := rfl
@[simp] theorem modMgmt_fuses (f : Mgmt → Mgmt) (s : State) : (modMgmt f s).fuses = s.fuses := rfl
@[simp] theorem modMgmt_board (f : Mgmt → Mgmt) (s : State) : (modMgmt f s).board = s.board := rfl
@[simp] theorem modMgmt_pins (f : Mgmt → Mgmt) (s : State) : (modMgmt f s).pins = s.pins := rfl
@[simp] theorem modMgmt_thermal (f : Mgmt → Mgmt) (s : State) : (modMgmt f s).thermal = s.thermal := rfl
@[simp] theorem modMgmt_boot (f : Mgmt → Mgmt) (s : State) : (modMgmt f s).boot = s.boot := rfl
@[simp] theorem modMgmt_dumps (f : Mgmt → Mgmt) (s : State) : (modMgmt f s).dumps = s.dumps := rfl
@[simp] theorem modMgmt_chipFault (f : Mgmt → Mgmt) (s : State) : (modMgmt f s).chipFault = s.chipFault := rfl
@[simp] theorem modMgmt_chipFaults (f : Mgmt → Mgmt) (s : State) : (modMgmt f s).chipFaults = s.chipFaults := rfl
@[simp] theorem modMgmt_bindings (f : Mgmt → Mgmt) (s : State) : (modMgmt f s).bindings = s.bindings := rfl
@[simp] theorem modMgmt_spares (f : Mgmt → Mgmt) (s : State) : (modMgmt f s).spares = s.spares := rfl
@[simp] theorem modMgmt_ostlers (f : Mgmt → Mgmt) (s : State) : (modMgmt f s).ostlers = s.ostlers := rfl
@[simp] theorem modMgmt_stride (f : Mgmt → Mgmt) (s : State) : (modMgmt f s).stride = s.stride := rfl
@[simp] theorem modMgmt_job (f : Mgmt → Mgmt) (s : State) : (modMgmt f s).job = s.job := rfl
@[simp] theorem modMgmt_cores (f : Mgmt → Mgmt) (s : State) : (modMgmt f s).cores = s.cores := rfl
@[simp] theorem modMgmt_engines (f : Mgmt → Mgmt) (s : State) : (modMgmt f s).engines = s.engines := rfl
@[simp] theorem modMgmt_reinIn (f : Mgmt → Mgmt) (s : State) : (modMgmt f s).reinIn = s.reinIn := rfl
@[simp] theorem modMgmt_reinOut (f : Mgmt → Mgmt) (s : State) : (modMgmt f s).reinOut = s.reinOut := rfl
@[simp] theorem modMgmt_sft (f : Mgmt → Mgmt) (s : State) : (modMgmt f s).sft = s.sft := rfl
@[simp] theorem modMgmt_tiers (f : Mgmt → Mgmt) (s : State) : (modMgmt f s).tiers = s.tiers := rfl
@[simp] theorem modMgmt_sync (f : Mgmt → Mgmt) (s : State) : (modMgmt f s).sync = s.sync := rfl
@[simp] theorem modMgmt_hitches (f : Mgmt → Mgmt) (s : State) : (modMgmt f s).hitches = s.hitches := rfl
@[simp] theorem modMgmt_serve (f : Mgmt → Mgmt) (s : State) : (modMgmt f s).serve = s.serve := rfl
@[simp] theorem modMgmt_weights (f : Mgmt → Mgmt) (s : State) : (modMgmt f s).weights = s.weights := rfl
@[simp] theorem modMgmt_links (f : Mgmt → Mgmt) (s : State) : (modMgmt f s).links = s.links := rfl
@[simp] theorem modMgmt_host (f : Mgmt → Mgmt) (s : State) : (modMgmt f s).host = s.host := rfl
@[simp] theorem modMgmt_mgmt (f : Mgmt → Mgmt) (s : State) : (modMgmt f s).mgmt = f s.mgmt := rfl
@[simp] theorem modMgmt_tally (f : Mgmt → Mgmt) (s : State) : (modMgmt f s).tally = s.tally := rfl
@[simp] theorem modMgmt_sec (f : Mgmt → Mgmt) (s : State) : (modMgmt f s).sec = s.sec := rfl
@[simp] theorem modMgmt_out (f : Mgmt → Mgmt) (s : State) : (modMgmt f s).out = s.out := rfl

/-! ## modTally -/

@[simp] theorem modTally_pending (f : Tally → Tally) (s : State) : (modTally f s).pending = s.pending := rfl
@[simp] theorem modTally_mem (f : Tally → Tally) (s : State) : (modTally f s).mem = s.mem := rfl
@[simp] theorem modTally_scr (f : Tally → Tally) (s : State) : (modTally f s).scr = s.scr := rfl
@[simp] theorem modTally_free (f : Tally → Tally) (s : State) : (modTally f s).free = s.free := rfl
@[simp] theorem modTally_fuses (f : Tally → Tally) (s : State) : (modTally f s).fuses = s.fuses := rfl
@[simp] theorem modTally_board (f : Tally → Tally) (s : State) : (modTally f s).board = s.board := rfl
@[simp] theorem modTally_pins (f : Tally → Tally) (s : State) : (modTally f s).pins = s.pins := rfl
@[simp] theorem modTally_thermal (f : Tally → Tally) (s : State) : (modTally f s).thermal = s.thermal := rfl
@[simp] theorem modTally_boot (f : Tally → Tally) (s : State) : (modTally f s).boot = s.boot := rfl
@[simp] theorem modTally_dumps (f : Tally → Tally) (s : State) : (modTally f s).dumps = s.dumps := rfl
@[simp] theorem modTally_chipFault (f : Tally → Tally) (s : State) : (modTally f s).chipFault = s.chipFault := rfl
@[simp] theorem modTally_chipFaults (f : Tally → Tally) (s : State) : (modTally f s).chipFaults = s.chipFaults := rfl
@[simp] theorem modTally_bindings (f : Tally → Tally) (s : State) : (modTally f s).bindings = s.bindings := rfl
@[simp] theorem modTally_spares (f : Tally → Tally) (s : State) : (modTally f s).spares = s.spares := rfl
@[simp] theorem modTally_ostlers (f : Tally → Tally) (s : State) : (modTally f s).ostlers = s.ostlers := rfl
@[simp] theorem modTally_stride (f : Tally → Tally) (s : State) : (modTally f s).stride = s.stride := rfl
@[simp] theorem modTally_job (f : Tally → Tally) (s : State) : (modTally f s).job = s.job := rfl
@[simp] theorem modTally_cores (f : Tally → Tally) (s : State) : (modTally f s).cores = s.cores := rfl
@[simp] theorem modTally_engines (f : Tally → Tally) (s : State) : (modTally f s).engines = s.engines := rfl
@[simp] theorem modTally_reinIn (f : Tally → Tally) (s : State) : (modTally f s).reinIn = s.reinIn := rfl
@[simp] theorem modTally_reinOut (f : Tally → Tally) (s : State) : (modTally f s).reinOut = s.reinOut := rfl
@[simp] theorem modTally_sft (f : Tally → Tally) (s : State) : (modTally f s).sft = s.sft := rfl
@[simp] theorem modTally_tiers (f : Tally → Tally) (s : State) : (modTally f s).tiers = s.tiers := rfl
@[simp] theorem modTally_sync (f : Tally → Tally) (s : State) : (modTally f s).sync = s.sync := rfl
@[simp] theorem modTally_hitches (f : Tally → Tally) (s : State) : (modTally f s).hitches = s.hitches := rfl
@[simp] theorem modTally_serve (f : Tally → Tally) (s : State) : (modTally f s).serve = s.serve := rfl
@[simp] theorem modTally_weights (f : Tally → Tally) (s : State) : (modTally f s).weights = s.weights := rfl
@[simp] theorem modTally_links (f : Tally → Tally) (s : State) : (modTally f s).links = s.links := rfl
@[simp] theorem modTally_host (f : Tally → Tally) (s : State) : (modTally f s).host = s.host := rfl
@[simp] theorem modTally_mgmt (f : Tally → Tally) (s : State) : (modTally f s).mgmt = s.mgmt := rfl
@[simp] theorem modTally_tally (f : Tally → Tally) (s : State) : (modTally f s).tally = f s.tally := rfl
@[simp] theorem modTally_sec (f : Tally → Tally) (s : State) : (modTally f s).sec = s.sec := rfl
@[simp] theorem modTally_out (f : Tally → Tally) (s : State) : (modTally f s).out = s.out := rfl

/-! ## modSec -/

@[simp] theorem modSec_pending (f : Sec → Sec) (s : State) : (modSec f s).pending = s.pending := rfl
@[simp] theorem modSec_mem (f : Sec → Sec) (s : State) : (modSec f s).mem = s.mem := rfl
@[simp] theorem modSec_scr (f : Sec → Sec) (s : State) : (modSec f s).scr = s.scr := rfl
@[simp] theorem modSec_free (f : Sec → Sec) (s : State) : (modSec f s).free = s.free := rfl
@[simp] theorem modSec_fuses (f : Sec → Sec) (s : State) : (modSec f s).fuses = s.fuses := rfl
@[simp] theorem modSec_board (f : Sec → Sec) (s : State) : (modSec f s).board = s.board := rfl
@[simp] theorem modSec_pins (f : Sec → Sec) (s : State) : (modSec f s).pins = s.pins := rfl
@[simp] theorem modSec_thermal (f : Sec → Sec) (s : State) : (modSec f s).thermal = s.thermal := rfl
@[simp] theorem modSec_boot (f : Sec → Sec) (s : State) : (modSec f s).boot = s.boot := rfl
@[simp] theorem modSec_dumps (f : Sec → Sec) (s : State) : (modSec f s).dumps = s.dumps := rfl
@[simp] theorem modSec_chipFault (f : Sec → Sec) (s : State) : (modSec f s).chipFault = s.chipFault := rfl
@[simp] theorem modSec_chipFaults (f : Sec → Sec) (s : State) : (modSec f s).chipFaults = s.chipFaults := rfl
@[simp] theorem modSec_bindings (f : Sec → Sec) (s : State) : (modSec f s).bindings = s.bindings := rfl
@[simp] theorem modSec_spares (f : Sec → Sec) (s : State) : (modSec f s).spares = s.spares := rfl
@[simp] theorem modSec_ostlers (f : Sec → Sec) (s : State) : (modSec f s).ostlers = s.ostlers := rfl
@[simp] theorem modSec_stride (f : Sec → Sec) (s : State) : (modSec f s).stride = s.stride := rfl
@[simp] theorem modSec_job (f : Sec → Sec) (s : State) : (modSec f s).job = s.job := rfl
@[simp] theorem modSec_cores (f : Sec → Sec) (s : State) : (modSec f s).cores = s.cores := rfl
@[simp] theorem modSec_engines (f : Sec → Sec) (s : State) : (modSec f s).engines = s.engines := rfl
@[simp] theorem modSec_reinIn (f : Sec → Sec) (s : State) : (modSec f s).reinIn = s.reinIn := rfl
@[simp] theorem modSec_reinOut (f : Sec → Sec) (s : State) : (modSec f s).reinOut = s.reinOut := rfl
@[simp] theorem modSec_sft (f : Sec → Sec) (s : State) : (modSec f s).sft = s.sft := rfl
@[simp] theorem modSec_tiers (f : Sec → Sec) (s : State) : (modSec f s).tiers = s.tiers := rfl
@[simp] theorem modSec_sync (f : Sec → Sec) (s : State) : (modSec f s).sync = s.sync := rfl
@[simp] theorem modSec_hitches (f : Sec → Sec) (s : State) : (modSec f s).hitches = s.hitches := rfl
@[simp] theorem modSec_serve (f : Sec → Sec) (s : State) : (modSec f s).serve = s.serve := rfl
@[simp] theorem modSec_weights (f : Sec → Sec) (s : State) : (modSec f s).weights = s.weights := rfl
@[simp] theorem modSec_links (f : Sec → Sec) (s : State) : (modSec f s).links = s.links := rfl
@[simp] theorem modSec_host (f : Sec → Sec) (s : State) : (modSec f s).host = s.host := rfl
@[simp] theorem modSec_mgmt (f : Sec → Sec) (s : State) : (modSec f s).mgmt = s.mgmt := rfl
@[simp] theorem modSec_tally (f : Sec → Sec) (s : State) : (modSec f s).tally = s.tally := rfl
@[simp] theorem modSec_sec (f : Sec → Sec) (s : State) : (modSec f s).sec = f s.sec := rfl
@[simp] theorem modSec_out (f : Sec → Sec) (s : State) : (modSec f s).out = s.out := rfl

/-! ## modBoot -/

@[simp] theorem modBoot_pending (f : Boot → Boot) (s : State) : (modBoot f s).pending = s.pending := rfl
@[simp] theorem modBoot_mem (f : Boot → Boot) (s : State) : (modBoot f s).mem = s.mem := rfl
@[simp] theorem modBoot_scr (f : Boot → Boot) (s : State) : (modBoot f s).scr = s.scr := rfl
@[simp] theorem modBoot_free (f : Boot → Boot) (s : State) : (modBoot f s).free = s.free := rfl
@[simp] theorem modBoot_fuses (f : Boot → Boot) (s : State) : (modBoot f s).fuses = s.fuses := rfl
@[simp] theorem modBoot_board (f : Boot → Boot) (s : State) : (modBoot f s).board = s.board := rfl
@[simp] theorem modBoot_pins (f : Boot → Boot) (s : State) : (modBoot f s).pins = s.pins := rfl
@[simp] theorem modBoot_thermal (f : Boot → Boot) (s : State) : (modBoot f s).thermal = s.thermal := rfl
@[simp] theorem modBoot_boot (f : Boot → Boot) (s : State) : (modBoot f s).boot = f s.boot := rfl
@[simp] theorem modBoot_dumps (f : Boot → Boot) (s : State) : (modBoot f s).dumps = s.dumps := rfl
@[simp] theorem modBoot_chipFault (f : Boot → Boot) (s : State) : (modBoot f s).chipFault = s.chipFault := rfl
@[simp] theorem modBoot_chipFaults (f : Boot → Boot) (s : State) : (modBoot f s).chipFaults = s.chipFaults := rfl
@[simp] theorem modBoot_bindings (f : Boot → Boot) (s : State) : (modBoot f s).bindings = s.bindings := rfl
@[simp] theorem modBoot_spares (f : Boot → Boot) (s : State) : (modBoot f s).spares = s.spares := rfl
@[simp] theorem modBoot_ostlers (f : Boot → Boot) (s : State) : (modBoot f s).ostlers = s.ostlers := rfl
@[simp] theorem modBoot_stride (f : Boot → Boot) (s : State) : (modBoot f s).stride = s.stride := rfl
@[simp] theorem modBoot_job (f : Boot → Boot) (s : State) : (modBoot f s).job = s.job := rfl
@[simp] theorem modBoot_cores (f : Boot → Boot) (s : State) : (modBoot f s).cores = s.cores := rfl
@[simp] theorem modBoot_engines (f : Boot → Boot) (s : State) : (modBoot f s).engines = s.engines := rfl
@[simp] theorem modBoot_reinIn (f : Boot → Boot) (s : State) : (modBoot f s).reinIn = s.reinIn := rfl
@[simp] theorem modBoot_reinOut (f : Boot → Boot) (s : State) : (modBoot f s).reinOut = s.reinOut := rfl
@[simp] theorem modBoot_sft (f : Boot → Boot) (s : State) : (modBoot f s).sft = s.sft := rfl
@[simp] theorem modBoot_tiers (f : Boot → Boot) (s : State) : (modBoot f s).tiers = s.tiers := rfl
@[simp] theorem modBoot_sync (f : Boot → Boot) (s : State) : (modBoot f s).sync = s.sync := rfl
@[simp] theorem modBoot_hitches (f : Boot → Boot) (s : State) : (modBoot f s).hitches = s.hitches := rfl
@[simp] theorem modBoot_serve (f : Boot → Boot) (s : State) : (modBoot f s).serve = s.serve := rfl
@[simp] theorem modBoot_weights (f : Boot → Boot) (s : State) : (modBoot f s).weights = s.weights := rfl
@[simp] theorem modBoot_links (f : Boot → Boot) (s : State) : (modBoot f s).links = s.links := rfl
@[simp] theorem modBoot_host (f : Boot → Boot) (s : State) : (modBoot f s).host = s.host := rfl
@[simp] theorem modBoot_mgmt (f : Boot → Boot) (s : State) : (modBoot f s).mgmt = s.mgmt := rfl
@[simp] theorem modBoot_tally (f : Boot → Boot) (s : State) : (modBoot f s).tally = s.tally := rfl
@[simp] theorem modBoot_sec (f : Boot → Boot) (s : State) : (modBoot f s).sec = s.sec := rfl
@[simp] theorem modBoot_out (f : Boot → Boot) (s : State) : (modBoot f s).out = s.out := rfl

/-! ## modDumps -/

@[simp] theorem modDumps_pending (f : Dumps → Dumps) (s : State) : (modDumps f s).pending = s.pending := rfl
@[simp] theorem modDumps_mem (f : Dumps → Dumps) (s : State) : (modDumps f s).mem = s.mem := rfl
@[simp] theorem modDumps_scr (f : Dumps → Dumps) (s : State) : (modDumps f s).scr = s.scr := rfl
@[simp] theorem modDumps_free (f : Dumps → Dumps) (s : State) : (modDumps f s).free = s.free := rfl
@[simp] theorem modDumps_fuses (f : Dumps → Dumps) (s : State) : (modDumps f s).fuses = s.fuses := rfl
@[simp] theorem modDumps_board (f : Dumps → Dumps) (s : State) : (modDumps f s).board = s.board := rfl
@[simp] theorem modDumps_pins (f : Dumps → Dumps) (s : State) : (modDumps f s).pins = s.pins := rfl
@[simp] theorem modDumps_thermal (f : Dumps → Dumps) (s : State) : (modDumps f s).thermal = s.thermal := rfl
@[simp] theorem modDumps_boot (f : Dumps → Dumps) (s : State) : (modDumps f s).boot = s.boot := rfl
@[simp] theorem modDumps_dumps (f : Dumps → Dumps) (s : State) : (modDumps f s).dumps = f s.dumps := rfl
@[simp] theorem modDumps_chipFault (f : Dumps → Dumps) (s : State) : (modDumps f s).chipFault = s.chipFault := rfl
@[simp] theorem modDumps_chipFaults (f : Dumps → Dumps) (s : State) : (modDumps f s).chipFaults = s.chipFaults := rfl
@[simp] theorem modDumps_bindings (f : Dumps → Dumps) (s : State) : (modDumps f s).bindings = s.bindings := rfl
@[simp] theorem modDumps_spares (f : Dumps → Dumps) (s : State) : (modDumps f s).spares = s.spares := rfl
@[simp] theorem modDumps_ostlers (f : Dumps → Dumps) (s : State) : (modDumps f s).ostlers = s.ostlers := rfl
@[simp] theorem modDumps_stride (f : Dumps → Dumps) (s : State) : (modDumps f s).stride = s.stride := rfl
@[simp] theorem modDumps_job (f : Dumps → Dumps) (s : State) : (modDumps f s).job = s.job := rfl
@[simp] theorem modDumps_cores (f : Dumps → Dumps) (s : State) : (modDumps f s).cores = s.cores := rfl
@[simp] theorem modDumps_engines (f : Dumps → Dumps) (s : State) : (modDumps f s).engines = s.engines := rfl
@[simp] theorem modDumps_reinIn (f : Dumps → Dumps) (s : State) : (modDumps f s).reinIn = s.reinIn := rfl
@[simp] theorem modDumps_reinOut (f : Dumps → Dumps) (s : State) : (modDumps f s).reinOut = s.reinOut := rfl
@[simp] theorem modDumps_sft (f : Dumps → Dumps) (s : State) : (modDumps f s).sft = s.sft := rfl
@[simp] theorem modDumps_tiers (f : Dumps → Dumps) (s : State) : (modDumps f s).tiers = s.tiers := rfl
@[simp] theorem modDumps_sync (f : Dumps → Dumps) (s : State) : (modDumps f s).sync = s.sync := rfl
@[simp] theorem modDumps_hitches (f : Dumps → Dumps) (s : State) : (modDumps f s).hitches = s.hitches := rfl
@[simp] theorem modDumps_serve (f : Dumps → Dumps) (s : State) : (modDumps f s).serve = s.serve := rfl
@[simp] theorem modDumps_weights (f : Dumps → Dumps) (s : State) : (modDumps f s).weights = s.weights := rfl
@[simp] theorem modDumps_links (f : Dumps → Dumps) (s : State) : (modDumps f s).links = s.links := rfl
@[simp] theorem modDumps_host (f : Dumps → Dumps) (s : State) : (modDumps f s).host = s.host := rfl
@[simp] theorem modDumps_mgmt (f : Dumps → Dumps) (s : State) : (modDumps f s).mgmt = s.mgmt := rfl
@[simp] theorem modDumps_tally (f : Dumps → Dumps) (s : State) : (modDumps f s).tally = s.tally := rfl
@[simp] theorem modDumps_sec (f : Dumps → Dumps) (s : State) : (modDumps f s).sec = s.sec := rfl
@[simp] theorem modDumps_out (f : Dumps → Dumps) (s : State) : (modDumps f s).out = s.out := rfl

/-! ## modSft -/

@[simp] theorem modSft_pending (f : Sft → Sft) (s : State) : (modSft f s).pending = s.pending := rfl
@[simp] theorem modSft_mem (f : Sft → Sft) (s : State) : (modSft f s).mem = s.mem := rfl
@[simp] theorem modSft_scr (f : Sft → Sft) (s : State) : (modSft f s).scr = s.scr := rfl
@[simp] theorem modSft_free (f : Sft → Sft) (s : State) : (modSft f s).free = s.free := rfl
@[simp] theorem modSft_fuses (f : Sft → Sft) (s : State) : (modSft f s).fuses = s.fuses := rfl
@[simp] theorem modSft_board (f : Sft → Sft) (s : State) : (modSft f s).board = s.board := rfl
@[simp] theorem modSft_pins (f : Sft → Sft) (s : State) : (modSft f s).pins = s.pins := rfl
@[simp] theorem modSft_thermal (f : Sft → Sft) (s : State) : (modSft f s).thermal = s.thermal := rfl
@[simp] theorem modSft_boot (f : Sft → Sft) (s : State) : (modSft f s).boot = s.boot := rfl
@[simp] theorem modSft_dumps (f : Sft → Sft) (s : State) : (modSft f s).dumps = s.dumps := rfl
@[simp] theorem modSft_chipFault (f : Sft → Sft) (s : State) : (modSft f s).chipFault = s.chipFault := rfl
@[simp] theorem modSft_chipFaults (f : Sft → Sft) (s : State) : (modSft f s).chipFaults = s.chipFaults := rfl
@[simp] theorem modSft_bindings (f : Sft → Sft) (s : State) : (modSft f s).bindings = s.bindings := rfl
@[simp] theorem modSft_spares (f : Sft → Sft) (s : State) : (modSft f s).spares = s.spares := rfl
@[simp] theorem modSft_ostlers (f : Sft → Sft) (s : State) : (modSft f s).ostlers = s.ostlers := rfl
@[simp] theorem modSft_stride (f : Sft → Sft) (s : State) : (modSft f s).stride = s.stride := rfl
@[simp] theorem modSft_job (f : Sft → Sft) (s : State) : (modSft f s).job = s.job := rfl
@[simp] theorem modSft_cores (f : Sft → Sft) (s : State) : (modSft f s).cores = s.cores := rfl
@[simp] theorem modSft_engines (f : Sft → Sft) (s : State) : (modSft f s).engines = s.engines := rfl
@[simp] theorem modSft_reinIn (f : Sft → Sft) (s : State) : (modSft f s).reinIn = s.reinIn := rfl
@[simp] theorem modSft_reinOut (f : Sft → Sft) (s : State) : (modSft f s).reinOut = s.reinOut := rfl
@[simp] theorem modSft_sft (f : Sft → Sft) (s : State) : (modSft f s).sft = f s.sft := rfl
@[simp] theorem modSft_tiers (f : Sft → Sft) (s : State) : (modSft f s).tiers = s.tiers := rfl
@[simp] theorem modSft_sync (f : Sft → Sft) (s : State) : (modSft f s).sync = s.sync := rfl
@[simp] theorem modSft_hitches (f : Sft → Sft) (s : State) : (modSft f s).hitches = s.hitches := rfl
@[simp] theorem modSft_serve (f : Sft → Sft) (s : State) : (modSft f s).serve = s.serve := rfl
@[simp] theorem modSft_weights (f : Sft → Sft) (s : State) : (modSft f s).weights = s.weights := rfl
@[simp] theorem modSft_links (f : Sft → Sft) (s : State) : (modSft f s).links = s.links := rfl
@[simp] theorem modSft_host (f : Sft → Sft) (s : State) : (modSft f s).host = s.host := rfl
@[simp] theorem modSft_mgmt (f : Sft → Sft) (s : State) : (modSft f s).mgmt = s.mgmt := rfl
@[simp] theorem modSft_tally (f : Sft → Sft) (s : State) : (modSft f s).tally = s.tally := rfl
@[simp] theorem modSft_sec (f : Sft → Sft) (s : State) : (modSft f s).sec = s.sec := rfl
@[simp] theorem modSft_out (f : Sft → Sft) (s : State) : (modSft f s).out = s.out := rfl

/-! ## emit -/

@[simp] theorem emit_pending (e : Effect) (s : State) : (emit e s).pending = s.pending := rfl
@[simp] theorem emit_mem (e : Effect) (s : State) : (emit e s).mem = s.mem := rfl
@[simp] theorem emit_scr (e : Effect) (s : State) : (emit e s).scr = s.scr := rfl
@[simp] theorem emit_free (e : Effect) (s : State) : (emit e s).free = s.free := rfl
@[simp] theorem emit_fuses (e : Effect) (s : State) : (emit e s).fuses = s.fuses := rfl
@[simp] theorem emit_board (e : Effect) (s : State) : (emit e s).board = s.board := rfl
@[simp] theorem emit_pins (e : Effect) (s : State) : (emit e s).pins = s.pins := rfl
@[simp] theorem emit_thermal (e : Effect) (s : State) : (emit e s).thermal = s.thermal := rfl
@[simp] theorem emit_boot (e : Effect) (s : State) : (emit e s).boot = s.boot := rfl
@[simp] theorem emit_dumps (e : Effect) (s : State) : (emit e s).dumps = s.dumps := rfl
@[simp] theorem emit_chipFault (e : Effect) (s : State) : (emit e s).chipFault = s.chipFault := rfl
@[simp] theorem emit_chipFaults (e : Effect) (s : State) : (emit e s).chipFaults = s.chipFaults := rfl
@[simp] theorem emit_bindings (e : Effect) (s : State) : (emit e s).bindings = s.bindings := rfl
@[simp] theorem emit_spares (e : Effect) (s : State) : (emit e s).spares = s.spares := rfl
@[simp] theorem emit_ostlers (e : Effect) (s : State) : (emit e s).ostlers = s.ostlers := rfl
@[simp] theorem emit_stride (e : Effect) (s : State) : (emit e s).stride = s.stride := rfl
@[simp] theorem emit_job (e : Effect) (s : State) : (emit e s).job = s.job := rfl
@[simp] theorem emit_cores (e : Effect) (s : State) : (emit e s).cores = s.cores := rfl
@[simp] theorem emit_engines (e : Effect) (s : State) : (emit e s).engines = s.engines := rfl
@[simp] theorem emit_reinIn (e : Effect) (s : State) : (emit e s).reinIn = s.reinIn := rfl
@[simp] theorem emit_reinOut (e : Effect) (s : State) : (emit e s).reinOut = s.reinOut := rfl
@[simp] theorem emit_sft (e : Effect) (s : State) : (emit e s).sft = s.sft := rfl
@[simp] theorem emit_tiers (e : Effect) (s : State) : (emit e s).tiers = s.tiers := rfl
@[simp] theorem emit_sync (e : Effect) (s : State) : (emit e s).sync = s.sync := rfl
@[simp] theorem emit_hitches (e : Effect) (s : State) : (emit e s).hitches = s.hitches := rfl
@[simp] theorem emit_serve (e : Effect) (s : State) : (emit e s).serve = s.serve := rfl
@[simp] theorem emit_weights (e : Effect) (s : State) : (emit e s).weights = s.weights := rfl
@[simp] theorem emit_links (e : Effect) (s : State) : (emit e s).links = s.links := rfl
@[simp] theorem emit_host (e : Effect) (s : State) : (emit e s).host = s.host := rfl
@[simp] theorem emit_mgmt (e : Effect) (s : State) : (emit e s).mgmt = s.mgmt := rfl
@[simp] theorem emit_tally (e : Effect) (s : State) : (emit e s).tally = s.tally := rfl
@[simp] theorem emit_sec (e : Effect) (s : State) : (emit e s).sec = s.sec := rfl
@[simp] theorem emit_out (e : Effect) (s : State) : (emit e s).out = s.out ++ [e] := rfl

end Sys2Proof.Machine
end

