-- ==== Sys2Proof/Laws/Memory.lean ====
section
/-!
SUPPORT. Memory: every operation that writes bytes keeps the canonical form; a byte reads back as written; every other byte
reads as before.
-/
namespace Sys2Proof.Machine

/-! ## What a write of bytes leaves alone -/

/-- A byte written changes memory and the record of keys alone. -/
theorem writeByte_eq (a : Nat) (b : Byte) (s : State) :
    writeByte a b s = { s with mem := (writeByte a b s).mem, scr := (writeByte a b s).scr } := by
  unfold writeByte
  split <;> rfl

/-- Bytes written change memory and the record of keys alone. -/
theorem writeBytes_eq (bs : List Byte) (a : Nat) (s : State) :
    writeBytes a bs s = { s with mem := (writeBytes a bs s).mem, scr := (writeBytes a bs s).scr } := by
  induction bs generalizing a s with
  | nil => rfl
  | cons b bs ih => simp only [writeBytes]; rw [ih, writeByte_eq]

theorem writeBytes_pending (bs : List Byte) (a : Nat) (s : State) : (writeBytes a bs s).pending = s.pending := by
  rw [writeBytes_eq]

theorem writeBytes_board (bs : List Byte) (a : Nat) (s : State) : (writeBytes a bs s).board = s.board := by
  rw [writeBytes_eq]

/-- A byte written leaves the generation of the keys alone. -/
theorem writeByte_gen (a : Nat) (b : Byte) (s : State) : (writeByte a b s).scr.gen = s.scr.gen := by
  unfold writeByte
  split <;> rfl

/-- Which addresses are under the key depends on the board alone. -/
theorem underKey_congr {s t : State} (h : t.board = s.board) (a : Nat) : underKey t a = underKey s a := by
  unfold underKey lHalf fHalf
  rw [h]

/-- Whether a sector's key is stale depends on the record of keys and the board alone. -/
theorem keyStale_congr {s t : State} (h1 : t.scr = s.scr) (h2 : t.board = s.board) (a : Nat) : keyStale t a = keyStale s a := by
  unfold keyStale
  rw [h1, underKey_congr h2]

/-- Reading depends on memory, the record of keys and the board alone. -/
theorem readByte_congr {s t : State} (h0 : t.mem = s.mem) (h1 : t.scr = s.scr) (h2 : t.board = s.board) (a : Nat) :
    readByte t a = readByte s a := by
  unfold readByte staleSector
  rw [keyStale_congr h1 h2, h0, h1]

/-! ## The canonical form -/

/-- The first `k` bytes of a sector set to those of a value. -/
theorem sget_putRange {m : Sparse Byte} (h : Memory.wf m = true) (n : Nat) (v : BitVec 512) (k : Nat) :
    Memory.wf ((List.range k).foldl (fun m i => sset 0#8 m (64 * n + i) (v.extractLsb' (8 * i) 8)) m) = true ∧
    ∀ i, sget 0#8 ((List.range k).foldl (fun m i => sset 0#8 m (64 * n + i) (v.extractLsb' (8 * i) 8)) m) i =
      if 64 * n ≤ i ∧ i < 64 * n + k then v.extractLsb' (8 * (i - 64 * n)) 8 else sget 0#8 m i := by
  induction k with
  | zero => exact ⟨h, fun i => by rw [if_neg (by omega)]; rfl⟩
  | succ k ih =>
    simp only [List.range_succ, List.foldl_append, List.foldl_cons, List.foldl_nil]
    refine ⟨scanon_sset ih.1 _ _, fun i => ?_⟩
    by_cases hi : i = 64 * n + k
    · subst hi
      rw [sget_sset_same ih.1, if_pos (by omega)]
      congr 2; omega
    · rw [sget_sset_other ih.1 _ hi, ih.2]
      by_cases hk : 64 * n ≤ i ∧ i < 64 * n + k
      · rw [if_pos hk, if_pos (by omega)]
      · rw [if_neg hk, if_neg (by omega)]

theorem wf_putSector {m : Sparse Byte} (h : Memory.wf m = true) (n : Nat) (v : BitVec 512) : Memory.wf (putSector m n v) = true :=
  (sget_putRange h n v 64).1

/-- A sector set to a value holds its bytes; every other byte is as before. -/
theorem sget_putSector {m : Sparse Byte} (h : Memory.wf m = true) (n : Nat) (v : BitVec 512) (i : Nat) :
    sget 0#8 (putSector m n v) i = if i / 64 = n then v.extractLsb' (8 * (i % 64)) 8 else sget 0#8 m i := by
  refine ((sget_putRange h n v 64).2 i).trans ?_
  by_cases hi : i / 64 = n
  · rw [if_pos hi, if_pos (by omega), show i - 64 * n = i % 64 from by omega]
  · rw [if_neg hi, if_neg (by omega)]

theorem wf_writeByte {s : State} (h : Memory.wf s.mem = true) (a : Nat) (b : Byte) : Memory.wf (writeByte a b s).mem = true := by
  unfold writeByte
  split
  · exact scanon_sset (wf_putSector h _ _) a b
  · exact scanon_sset h a b

theorem wf_writeBytes {s : State} (h : Memory.wf s.mem = true) (a : Nat) (bs : List Byte) :
    Memory.wf (writeBytes a bs s).mem = true := by
  induction bs generalizing a s with
  | nil => exact h
  | cons b bs ih => exact ih (wf_writeByte h a b) (a + 1)

theorem wf_writeWord {s : State} (h : Memory.wf s.mem = true) (a : Nat) (w : Word) : Memory.wf (writeWord a w s).mem = true :=
  wf_writeBytes h a _

theorem wf_writeSpad {s : State} (h : Memory.wf s.mem = true) (c off : Nat) (bs : List Byte) :
    Memory.wf (writeSpad c off bs s).mem = true := wf_writeBytes h _ bs

theorem wf_atomicWrite {s : State} (h : Memory.wf s.mem = true) (b : Bool) (a : Nat) (v : Word) :
    Memory.wf (atomicWrite b a v s).mem = true := wf_writeWord h a _

theorem wf_zeroBytes {s : State} (h : Memory.wf s.mem = true) (a n : Nat) : Memory.wf (zeroBytes a n s).mem = true :=
  scanon_sclear h a (a + n)

theorem wf_zeroFill {s : State} (h : Memory.wf s.mem = true) (a n : Nat) : Memory.wf (zeroFill a n s).mem = true := by
  unfold zeroFill
  split
  · exact wf_zeroBytes h a n
  · exact wf_writeBytes h a _

/-- Memory right after reset has the form. -/
theorem wf_reset : Memory.wf State.reset.mem = true := rfl

/-! ## Read after write -/

/-- The bytes that a sector's value is made of. -/
theorem sectorBits_congr {m m' : Sparse Byte} {n : Nat} (h : ∀ i, i / 64 = n → sget 0#8 m' i = sget 0#8 m i) :
    sectorBits m' n = sectorBits m n := by
  unfold sectorBits
  have : (List.range 64).map (fun i => sget 0#8 m' (64 * n + i)) = (List.range 64).map (fun i => sget 0#8 m (64 * n + i)) :=
    List.map_congr_left (fun i hi => h _ (by have := List.mem_range.1 hi; omega))
  rw [this]

/-- A sector under a stale key whose generation is recorded anew: its own entry and the others. -/
theorem sectors_renew {s : State} {a : Nat} (h : keyStale s a = true) (i : Nat) :
    sget 0 (sset 0 s.scr.sectors (a / 64) s.scr.gen) i = if i = a / 64 then s.scr.gen else sget 0 s.scr.sectors i := by
  have hg : s.scr.gen ≠ 0 := by
    unfold keyStale at h
    simp only [Bool.and_eq_true, decide_eq_true_eq] at h
    exact h.1.1
  unfold sset
  rw [if_neg hg]
  by_cases hi : i = a / 64
  · rw [if_pos hi, hi, sget_sins_same]
  · rw [if_neg hi, sget_sins_other _ _ _ hi]

/-- A byte written is read back. -/
theorem readByte_writeByte_same {s : State} (h : Memory.wf s.mem = true) (a : Nat) (b : Byte) :
    readByte (writeByte a b s) a = b := by
  by_cases hk : keyStale s a = true
  · have hn : keyStale (writeByte a b s) a = false := by
      unfold writeByte
      rw [if_pos hk]
      unfold keyStale
      simp only [sectors_renew hk, if_true, ne_eq, not_true_eq_false, decide_false, Bool.and_false]
    unfold readByte
    rw [if_neg (by rw [hn]; exact Bool.false_ne_true)]
    unfold writeByte
    rw [if_pos hk]
    exact sget_sset_same (wf_putSector h _ _) a b
  · have hn : keyStale (writeByte a b s) a = keyStale s a :=
      keyStale_congr (by unfold writeByte; rw [if_neg hk]) (by rw [writeByte_eq]) a
    unfold readByte
    rw [hn, if_neg hk]
    unfold writeByte
    rw [if_neg hk]
    exact sget_sset_same h a b

/-- The keys of a sector alone say whether one of its bytes is stale. -/
theorem keyStale_sector (s : State) {a i : Nat} (h : i / 64 = a / 64) : keyStale s i = keyStale s a := by
  unfold keyStale
  rw [h]

/-- Every other byte reads as before. -/
theorem readByte_writeByte_other {s : State} (h : Memory.wf s.mem = true) {a i : Nat} (b : Byte) (hi : i ≠ a) :
    readByte (writeByte a b s) i = readByte s i := by
  by_cases hk : keyStale s a = true
  · have hm := wf_putSector h (a / 64) (staleSector s (a / 64))
    have hw : writeByte a b s = { s with
        mem := sset 0#8 (putSector s.mem (a / 64) (staleSector s (a / 64))) a b
        scr := { s.scr with sectors := sset 0 s.scr.sectors (a / 64) s.scr.gen } } := by unfold writeByte; rw [if_pos hk]
    have hv : ∀ j, j ≠ a → sget 0#8 (writeByte a b s).mem j =
        if j / 64 = a / 64 then (staleSector s (a / 64)).extractLsb' (8 * (j % 64)) 8 else sget 0#8 s.mem j := fun j hj => by
      rw [hw, sget_sset_other hm _ hj, sget_putSector h]
    by_cases hs : i / 64 = a / 64
    · have hn : keyStale (writeByte a b s) i = false := by
        rw [hw]
        unfold keyStale
        simp only [sectors_renew hk, hs, if_true, ne_eq, not_true_eq_false, decide_false, Bool.and_false]
      have ho : keyStale s i = true := by rw [keyStale_sector s hs, hk]
      unfold readByte
      rw [if_neg (by rw [hn]; exact Bool.false_ne_true), if_pos ho, hv i hi, if_pos hs, hs]
    · have hn : keyStale (writeByte a b s) i = keyStale s i := by
        rw [hw]
        unfold keyStale
        simp only [sectors_renew hk, if_neg hs]
        rfl
      have hb : sectorBits (writeByte a b s).mem (i / 64) = sectorBits s.mem (i / 64) :=
        sectorBits_congr (fun j hj => by rw [hv j (by rintro rfl; omega), if_neg (by omega)])
      have hg : sget 0 (writeByte a b s).scr.sectors (i / 64) = sget 0 s.scr.sectors (i / 64) := by
        rw [hw]
        simp only [sectors_renew hk, if_neg hs]
      unfold readByte staleSector
      rw [hn, hb, hg, writeByte_gen, hv i hi, if_neg hs]
  · have hw : writeByte a b s = { s with mem := sset 0#8 s.mem a b } := by unfold writeByte; rw [if_neg hk]
    have hn : keyStale (writeByte a b s) i = keyStale s i := keyStale_congr (by rw [hw]) (by rw [hw]) i
    have hv : ∀ j, j ≠ a → sget 0#8 (writeByte a b s).mem j = sget 0#8 s.mem j := fun j hj => by rw [hw, sget_sset_other h _ hj]
    unfold readByte
    rw [hn]
    split
    · rename_i ho
      have hs : i / 64 ≠ a / 64 := fun hs => hk (by rw [← keyStale_sector s hs, ho])
      have hb : sectorBits (writeByte a b s).mem (i / 64) = sectorBits s.mem (i / 64) :=
        sectorBits_congr (fun j hj => hv j (by rintro rfl; omega))
      unfold staleSector
      rw [hb]
      rw [hw]
    · exact hv i hi

/-- Bytes outside the written range read as before. -/
theorem readByte_writeBytes_outside {s : State} (h : Memory.wf s.mem = true) (a : Nat) (bs : List Byte) {i : Nat}
    (hi : i < a ∨ a + bs.length ≤ i) : readByte (writeBytes a bs s) i = readByte s i := by
  induction bs generalizing a s with
  | nil => rfl
  | cons b bs ih =>
    simp only [writeBytes]
    rw [ih (wf_writeByte h a b) (a + 1) (by simp only [List.length_cons] at hi; omega)]
    exact readByte_writeByte_other h b (by simp only [List.length_cons] at hi; omega)

/-- Bytes written are read back. -/
theorem readBytes_writeBytes {s : State} (h : Memory.wf s.mem = true) (a : Nat) (bs : List Byte) :
    readBytes (writeBytes a bs s) a bs.length = bs := by
  induction bs generalizing a s with
  | nil => rfl
  | cons b bs ih =>
    simp only [writeBytes, List.length_cons, readBytes]
    rw [ih (wf_writeByte h a b) (a + 1), readByte_writeBytes_outside (wf_writeByte h a b) (a + 1) bs (Or.inl (by omega)),
      readByte_writeByte_same h]

/-! ## Byte order (R10) -/

theorem length_bytesLE (n v : Nat) : (bytesLE n v).length = n := by
  induction n generalizing v with
  | zero => rfl
  | succ n ih => simp [bytesLE, ih]

/-- The number that the bytes of `v` spell is `v` in that many bytes. -/
theorem numLE_bytesLE (n v : Nat) : numLE (bytesLE n v) = v % 256 ^ n := by
  induction n generalizing v with
  | zero => simp [bytesLE, numLE, Nat.mod_one]
  | succ n ih =>
    simp only [bytesLE, numLE, ih, BitVec.toNat_ofNat]
    rw [show (256 : Nat) ^ (n + 1) = 256 * 256 ^ n from by ring, Nat.mod_mul]

/-- A word written is read back. -/
theorem readWord_writeWord {s : State} (h : Memory.wf s.mem = true) (a : Nat) (w : Word) : readWord (writeWord a w s) a = w := by
  have h8 := readBytes_writeBytes h a (bytesLE 8 w.toNat)
  rw [length_bytesLE] at h8
  simp only [readWord, readNum, writeWord, h8, numLE_bytesLE]
  apply BitVec.eq_of_toNat_eq
  have := w.isLt
  simp only [BitVec.toNat_ofNat]
  omega

end Sys2Proof.Machine
end

