-- ==== Sys2Proof/Laws/Cores.lean ====
section
/-!
SUPPORT. The register file and the threads: what is written is read back, everything else reads as before, and every change of one
core keeps the canonical form.
-/
namespace Sys2Proof.Machine

/-- Every unit of a canonical store of good units is good. -/
theorem all_sget {α : Type} {d : α} {p : α → Bool} (hd : p d = true) {m : Sparse α} (h : m.all (fun x => p x.2) = true) (k : Nat) :
    p (sget d m k) = true := by
  induction m with
  | nil => exact hd
  | cons x m ih =>
    obtain ⟨j, y⟩ := x
    simp only [List.all_cons, Bool.and_eq_true] at h
    simp only [sget]
    split
    · exact h.1
    · split
      · exact hd
      · exact ih h.2

theorem all_sins {α : Type} {p : α → Bool} {m : Sparse α} (h : m.all (fun x => p x.2) = true) (k : Nat) {v : α} (hv : p v = true) :
    (sins m k v).all (fun x => p x.2) = true := by
  induction m with
  | nil => simp [sins, hv]
  | cons x m ih =>
    obtain ⟨j, y⟩ := x
    simp only [List.all_cons, Bool.and_eq_true] at h
    simp only [sins]
    split
    · simp only [List.all_cons, Bool.and_eq_true]
      exact ⟨hv, h.2⟩
    · split
      · simp only [List.all_cons, Bool.and_eq_true]
        exact ⟨hv, h.1, h.2⟩
      · simp only [List.all_cons, Bool.and_eq_true]
        exact ⟨h.1, ih h.2⟩

theorem all_sdel {α : Type} {p : α → Bool} {m : Sparse α} (h : m.all (fun x => p x.2) = true) (k : Nat) :
    (sdel m k).all (fun x => p x.2) = true := by
  induction m with
  | nil => rfl
  | cons x m ih =>
    obtain ⟨j, y⟩ := x
    have h' := h
    simp only [List.all_cons, Bool.and_eq_true] at h
    simp only [sdel]
    split
    · exact h.2
    · split
      · exact h'
      · simp only [List.all_cons, Bool.and_eq_true]
        exact ⟨h.1, ih h.2⟩

/-- A change of one unit that makes a good one of a good one keeps all good. -/
theorem all_smod {α : Type} [DecidableEq α] {d : α} {p : α → Bool} (hd : p d = true) {m : Sparse α}
    (h : m.all (fun x => p x.2) = true) (k : Nat) {f : α → α} (hf : ∀ x, p x = true → p (f x) = true) :
    (smod d m k f).all (fun x => p x.2) = true := by
  unfold smod sset
  split
  · exact all_sdel h k
  · exact all_sins h k (hf _ (all_sget hd h k))

theorem coreOk_default : coreOk {} = true := by decide

/-- A core of a good state is good. -/
theorem coreOk_coreOf {s : State} (h : coresOk s = true) (c : Nat) : coreOk (coreOf s c) = true := by
  simp only [coresOk, Bool.and_eq_true] at h
  exact all_sget coreOk_default h.2 c

/-- A change of one core that makes a good one of a good one keeps all good. -/
theorem coresOk_modCore {s : State} (h : coresOk s = true) (c : Nat) {f : Core → Core}
    (hf : ∀ k, coreOk k = true → coreOk (f k) = true) : coresOk (modCore c f s) = true := by
  simp only [coresOk, Bool.and_eq_true, modCore_cores] at h ⊢
  exact ⟨scanon_smod h.1 c f, all_smod coreOk_default h.2 c hf⟩

/-- The changed core is its image. -/
theorem coreOf_modCore_same {s : State} (h : coresOk s = true) (c : Nat) (f : Core → Core) :
    coreOf (modCore c f s) c = f (coreOf s c) := by
  simp only [coresOk, Bool.and_eq_true] at h
  exact sget_smod_same h.1 c f

/-- Every other core is as before. -/
theorem coreOf_modCore_other {s : State} (h : coresOk s = true) {c k : Nat} (f : Core → Core) (hk : k ≠ c) :
    coreOf (modCore c f s) k = coreOf s k := by
  simp only [coresOk, Bool.and_eq_true] at h
  exact sget_smod_other h.1 f hk

theorem coresOk_setSreg {s : State} (h : coresOk s = true) (c : Nat) (r : RegNo) (v : Word) : coresOk (setSreg c r v s) = true := by
  unfold setSreg
  split
  · exact h
  · refine coresOk_modCore h c (fun k hk => ?_)
    simp only [coreOk, Bool.and_eq_true] at hk ⊢
    exact ⟨scanon_sset hk.1 _ _, hk.2⟩

theorem coresOk_modThread {s : State} (h : coresOk s = true) (c t : Nat) (f : Thread → Thread) :
    coresOk (modThread c t f s) = true := by
  unfold modThread
  refine coresOk_modCore h c (fun k hk => ?_)
  simp only [coreOk, Bool.and_eq_true] at hk ⊢
  exact ⟨hk.1, scanon_smod hk.2 _ _⟩

theorem coresOk_threadMove {s : State} (h : coresOk s = true) (c t n : Nat) : coresOk (threadMove c t n s) = true := by
  unfold threadMove
  refine coresOk_modCore (coresOk_modThread h c t _) c (fun k hk => ?_)
  exact hk

/-- S0 reads 0; the register written reads as written; every other register of the core reads as before (R171). -/
theorem sreg_setSreg {s : State} (h : coresOk s = true) (c : Nat) (r q : RegNo) (v : Word) :
    sreg (setSreg c r v s) c q = if q = 0 then 0 else if q = r then v else sreg s c q := by
  unfold sreg
  split
  · rfl
  · rename_i hq
    unfold setSreg
    split
    · rename_i hr
      subst hr
      rw [if_neg hq]
    · rw [coreOf_modCore_same h]
      have hc := coreOk_coreOf h c
      simp only [coreOk, Bool.and_eq_true] at hc
      dsimp only
      split
      · rename_i he
        subst he
        exact sget_sset_same hc.1 _ _
      · rename_i he
        exact sget_sset_other hc.1 _ (fun hn => he (BitVec.eq_of_toNat_eq hn))

/-- The thread that moves has the new PC, no wait, and is the last that issued; its other fields are as before. -/
theorem threadOf_threadMove_same {s : State} (h : coresOk s = true) (c t n : Nat) :
    threadOf (threadMove c t n s) c t = { threadOf s c t with pc := n, wait := .none, full := none } := by
  unfold threadMove threadOf
  rw [coreOf_modCore_same (coresOk_modThread h c t _)]
  unfold modThread
  rw [coreOf_modCore_same h]
  have hc := coreOk_coreOf h c
  simp only [coreOk, Bool.and_eq_true] at hc
  exact sget_smod_same hc.2 t (fun h => { h with pc := n, wait := .none, full := none })

theorem threadOf_threadMove_other {s : State} (h : coresOk s = true) {c t u : Nat} (n : Nat) (hu : u ≠ t) :
    threadOf (threadMove c t n s) c u = threadOf s c u := by
  unfold threadMove threadOf
  rw [coreOf_modCore_same (coresOk_modThread h c t _)]
  unfold modThread
  rw [coreOf_modCore_same h]
  have hc := coreOk_coreOf h c
  simp only [coreOk, Bool.and_eq_true] at hc
  exact sget_smod_other hc.2 (fun h => { h with pc := n, wait := .none, full := none }) hu

/-- A thread's move leaves every other core alone. -/
theorem coreOf_threadMove_other {s : State} (h : coresOk s = true) {c k : Nat} (t n : Nat) (hk : k ≠ c) :
    coreOf (threadMove c t n s) k = coreOf s k := by
  have hm := coresOk_modThread h c t (fun h => { h with pc := n, wait := .none, full := none })
  unfold threadMove
  rw [coreOf_modCore_other hm _ hk]
  unfold modThread
  rw [coreOf_modCore_other h _ hk]

/-- So does a write of a register. -/
theorem coreOf_setSreg_other {s : State} (h : coresOk s = true) {c k : Nat} (r : RegNo) (v : Word) (hk : k ≠ c) :
    coreOf (setSreg c r v s) k = coreOf s k := by
  unfold setSreg
  split
  · rfl
  · exact coreOf_modCore_other h _ hk

/-- A thread's move leaves the scalar registers alone. -/
theorem sreg_threadMove {s : State} (h : coresOk s = true) (c t n k : Nat) (q : RegNo) : sreg (threadMove c t n s) k q = sreg s k q := by
  have hs : (coreOf (threadMove c t n s) k).sreg = (coreOf s k).sreg := by
    have hm := coresOk_modThread h c t (fun h => { h with pc := n, wait := .none, full := none })
    unfold threadMove
    by_cases hk : k = c
    · subst hk
      rw [coreOf_modCore_same hm]
      unfold modThread
      rw [coreOf_modCore_same h]
    · rw [coreOf_modCore_other hm _ hk]
      unfold modThread
      rw [coreOf_modCore_other h _ hk]
  unfold sreg
  rw [hs]

/-- A write of a register leaves the threads alone. -/
theorem threadOf_setSreg {s : State} (h : coresOk s = true) (c : Nat) (r : RegNo) (v : Word) (k u : Nat) :
    threadOf (setSreg c r v s) k u = threadOf s k u := by
  unfold setSreg
  split
  · rfl
  · unfold threadOf
    by_cases hk : k = c
    · subst hk
      rw [coreOf_modCore_same h]
    · rw [coreOf_modCore_other h _ hk]

/-- An image of every core that makes a good one of a good one keeps all good. -/
theorem coresOk_smap {s t : State} (h : coresOk s = true) {f : Nat → Core → Core} (hf : ∀ n k, coreOk k = true → coreOk (f n k) = true)
    (ht : t.cores = smap {} f s.cores) : coresOk t = true := by
  simp only [coresOk, Bool.and_eq_true] at h ⊢
  rw [ht]
  refine ⟨scanon_smap f h.1, ?_⟩
  simp only [List.all_eq_true, smap, List.mem_filter, List.mem_map] at h ⊢
  rintro x ⟨⟨y, hy, rfl⟩, _⟩
  exact hf _ _ (h.2 y hy)

end Sys2Proof.Machine
end

