-- ==== Sys2Proof/Laws/Held.lean ====
section
/-!
SUPPORT. What every operation on the state but a reset and the end of a changeover keeps: the code of a chip fault, and TENANT. One
lemma per operation, as in Kept.
-/
set_option maxRecDepth 4000
set_option linter.all false
namespace Sys2Proof.Machine
/-- `t` stands under the chip fault of `r`, if there is one, and has its TENANT. -/
def Held (r t : State) : Prop :=
  (r.chipFault.isSome = true → t.chipFault = r.chipFault) ∧ t.job.tenant = r.job.tenant
/-- Every next state of an outcome is one that `Held` allows. -/
def OutHeld (r : State) (o : Out) : Prop := ∀ t, o = .next t → Held r t
theorem Held.refl (s : State) : Held s s := ⟨fun _ => rfl, rfl⟩
theorem outHeld_next {r t : State} (h : Held r t) : OutHeld r (.next t) := by
  intro u hu
  cases hu
  exact h
theorem Held.mk {r s : State} (h : Held r s) {a0 a1 a2 a3 a4 a5 a6 a7 a8 a9 a10 a11 a12 a13 a14 a15 a16 a17 a18 a19 a20 a21 a22 a23 a24 a25 a26 a27 a28 a29 a30} :
    Held r (State.mk a0 a1 a2 a3 a4 a5 a6 a7 a8 a9 s.chipFault a10 a11 a12 a13 a14 s.job a15 a16 a17 a18 a19 a20 a21 a22 a23 a24 a25 a26 a27 a28 a29 a30) := h
theorem ite_held {r a b : State} {p : Prop} [Decidable p] (ha : Held r a) (hb : Held r b) : Held r (if p then a else b) := by
  split <;> assumption
theorem foldl_held {r s : State} {α : Type} {l : List α} {f : State → α → State} (h : Held r s)
    (hf : ∀ t x, Held r t → Held r (f t x)) : Held r (l.foldl f s) := by
  induction l generalizing s with
  | nil => exact h
  | cons x l ih => exact ih (hf s x h)
theorem pairFold_held {r : State} {α β : Type} {f : State × β → α → State × β} (hf : ∀ y x, Held r y.1 → Held r (f y x).1)
    (l : List α) {y : State × β} (h : Held r y.1) : Held r (l.foldl f y).1 := by
  induction l generalizing y with
  | nil => exact h
  | cons x l ih => exact ih (hf y x h)
theorem modCore_held {s0 s : State} (h : Held s0 s) (c : ℕ) (f : Core → Core) : Held s0 (modCore c f s) := by
  unfold modCore
  repeat' first
    | with_reducible first
        | assumption | apply ite_held | apply foldl_held | fail_if_no_progress (apply Held.mk)
    | split | intro _ | dsimp only | assumption | rfl

theorem modThread_held {s0 s : State} (h : Held s0 s) (c : ℕ) (t : ℕ) (f : Thread → Thread) : Held s0 (modThread c t f s) := by
  unfold modThread
  repeat' first
    | with_reducible first
        | assumption | apply modCore_held | apply ite_held | apply foldl_held | fail_if_no_progress (apply Held.mk)
    | split | intro _ | dsimp only | assumption | rfl

theorem modEng_held {s0 s : State} (h : Held s0 s) (e : ℕ) (f : Engine → Engine) : Held s0 (modEng e f s) := by
  unfold modEng
  repeat' first
    | with_reducible first
        | assumption | apply ite_held | apply foldl_held | fail_if_no_progress (apply Held.mk)
    | split | intro _ | dsimp only | assumption | rfl

theorem modAg_held {s0 s : State} (h : Held s0 s) (e : ℕ) (a : ℕ) (f : Ag → Ag) : Held s0 (modAg e a f s) := by
  unfold modAg
  repeat' first
    | with_reducible first
        | assumption | apply modEng_held | apply ite_held | apply foldl_held | fail_if_no_progress (apply Held.mk)
    | split | intro _ | dsimp only | assumption | rfl

theorem modRin_held {s0 s : State} (h : Held s0 s) (e : ℕ) (q : ℕ) (f : ReinIn → ReinIn) : Held s0 (modRin e q f s) := by
  unfold modRin
  repeat' first
    | with_reducible first
        | assumption | apply ite_held | apply foldl_held | fail_if_no_progress (apply Held.mk)
    | split | intro _ | dsimp only | assumption | rfl

theorem modRout_held {s0 s : State} (h : Held s0 s) (e : ℕ) (o : ℕ) (f : ReinOut → ReinOut) : Held s0 (modRout e o f s) := by
  unfold modRout
  repeat' first
    | with_reducible first
        | assumption | apply ite_held | apply foldl_held | fail_if_no_progress (apply Held.mk)
    | split | intro _ | dsimp only | assumption | rfl

theorem modTiers_held {s0 s : State} (h : Held s0 s) (f : Tiers → Tiers) : Held s0 (modTiers f s) := by
  unfold modTiers
  repeat' first
    | with_reducible first
        | assumption | apply ite_held | apply foldl_held | fail_if_no_progress (apply Held.mk)
    | split | intro _ | dsimp only | assumption | rfl

theorem modPort_held {s0 s : State} (h : Held s0 s) (p : ℕ) (f : Port → Port) : Held s0 (modPort p f s) := by
  unfold modPort
  repeat' first
    | with_reducible first
        | assumption | apply modTiers_held | apply ite_held | apply foldl_held
        | fail_if_no_progress (apply Held.mk)
    | split | intro _ | dsimp only | assumption | rfl

theorem modCurb_held {s0 s : State} (h : Held s0 s) (p : ℕ) (k : ℕ) (f : Curb → Curb) : Held s0 (modCurb p k f s) := by
  unfold modCurb
  repeat' first
    | with_reducible first
        | assumption | apply modTiers_held | apply ite_held | apply foldl_held
        | fail_if_no_progress (apply Held.mk)
    | split | intro _ | dsimp only | assumption | rfl

theorem modSync_held {s0 s : State} (h : Held s0 s) (f : Sync → Sync) : Held s0 (modSync f s) := by
  unfold modSync
  repeat' first
    | with_reducible first
        | assumption | apply ite_held | apply foldl_held | fail_if_no_progress (apply Held.mk)
    | split | intro _ | dsimp only | assumption | rfl

theorem modObj_held {s0 s : State} (h : Held s0 s) (n : ℕ) (f : SyncObj → SyncObj) : Held s0 (modObj n f s) := by
  unfold modObj
  repeat' first
    | with_reducible first
        | assumption | apply modSync_held | apply ite_held | apply foldl_held | fail_if_no_progress (apply Held.mk)
    | split | intro _ | dsimp only | assumption | rfl

theorem modHitch_held {s0 s : State} (h : Held s0 s) (h : ℕ) (f : Hitch → Hitch) : Held s0 (modHitch h f s) := by
  unfold modHitch
  repeat' first
    | with_reducible first
        | assumption | apply ite_held | apply foldl_held | fail_if_no_progress (apply Held.mk)
    | split | intro _ | dsimp only | assumption | rfl

theorem modServe_held {s0 s : State} (h : Held s0 s) (f : Serve → Serve) : Held s0 (modServe f s) := by
  unfold modServe
  repeat' first
    | with_reducible first
        | assumption | apply ite_held | apply foldl_held | fail_if_no_progress (apply Held.mk)
    | split | intro _ | dsimp only | assumption | rfl

theorem modSess_held {s0 s : State} (h : Held s0 s) (n : ℕ) (f : Session → Session) : Held s0 (modSess n f s) := by
  unfold modSess
  repeat' first
    | with_reducible first
        | assumption | apply modServe_held | apply ite_held | apply foldl_held
        | fail_if_no_progress (apply Held.mk)
    | split | intro _ | dsimp only | assumption | rfl

theorem modReq_held {s0 s : State} (h : Held s0 s) (n : ℕ) (f : Request → Request) : Held s0 (modReq n f s) := by
  unfold modReq
  repeat' first
    | with_reducible first
        | assumption | apply modServe_held | apply ite_held | apply foldl_held
        | fail_if_no_progress (apply Held.mk)
    | split | intro _ | dsimp only | assumption | rfl

theorem modWeights_held {s0 s : State} (h : Held s0 s) (f : Weights → Weights) : Held s0 (modWeights f s) := by
  unfold modWeights
  repeat' first
    | with_reducible first
        | assumption | apply ite_held | apply foldl_held | fail_if_no_progress (apply Held.mk)
    | split | intro _ | dsimp only | assumption | rfl

theorem modLinks_held {s0 s : State} (h : Held s0 s) (f : Links → Links) : Held s0 (modLinks f s) := by
  unfold modLinks
  repeat' first
    | with_reducible first
        | assumption | apply ite_held | apply foldl_held | fail_if_no_progress (apply Held.mk)
    | split | intro _ | dsimp only | assumption | rfl

theorem modLink_held {s0 s : State} (h : Held s0 s) (l : ℕ) (f : Link → Link) : Held s0 (modLink l f s) := by
  unfold modLink
  repeat' first
    | with_reducible first
        | assumption | apply modLinks_held | apply ite_held | apply foldl_held
        | fail_if_no_progress (apply Held.mk)
    | split | intro _ | dsimp only | assumption | rfl

theorem modHost_held {s0 s : State} (h : Held s0 s) (f : HostIf → HostIf) : Held s0 (modHost f s) := by
  unfold modHost
  repeat' first
    | with_reducible first
        | assumption | apply ite_held | apply foldl_held | fail_if_no_progress (apply Held.mk)
    | split | intro _ | dsimp only | assumption | rfl

theorem modRing_held {s0 s : State} (h : Held s0 s) (r : ℕ) (f : Ring → Ring) : Held s0 (modRing r f s) := by
  unfold modRing
  repeat' first
    | with_reducible first
        | assumption | apply modHost_held | apply ite_held | apply foldl_held | fail_if_no_progress (apply Held.mk)
    | split | intro _ | dsimp only | assumption | rfl

theorem modOstler_held {s0 s : State} (h : Held s0 s) (n : ℕ) (f : Ostler → Ostler) : Held s0 (modOstler n f s) := by
  unfold modOstler
  repeat' first
    | with_reducible first
        | assumption | apply ite_held | apply foldl_held | fail_if_no_progress (apply Held.mk)
    | split | intro _ | dsimp only | assumption | rfl

theorem modStride_held {s0 s : State} (h : Held s0 s) (f : Stride → Stride) : Held s0 (modStride f s) := by
  unfold modStride
  repeat' first
    | with_reducible first
        | assumption | apply ite_held | apply foldl_held | fail_if_no_progress (apply Held.mk)
    | split | intro _ | dsimp only | assumption | rfl

theorem modJob_held {r s : State} (h : Held r s) (f : Job → Job) (hf : (f s.job).tenant = s.job.tenant) : Held r (modJob f s) :=
  ⟨h.1, hf.trans h.2⟩

theorem modRun_held {s0 s : State} (h : Held s0 s) (f : Running → Running) : Held s0 (modRun f s) := by
  unfold modRun
  repeat' first
    | with_reducible first
        | assumption | apply modJob_held | apply ite_held | apply foldl_held | fail_if_no_progress (apply Held.mk)
    | split | intro _ | dsimp only | assumption | rfl

theorem modMgmt_held {s0 s : State} (h : Held s0 s) (f : Mgmt → Mgmt) : Held s0 (modMgmt f s) := by
  unfold modMgmt
  repeat' first
    | with_reducible first
        | assumption | apply ite_held | apply foldl_held | fail_if_no_progress (apply Held.mk)
    | split | intro _ | dsimp only | assumption | rfl

theorem modTally_held {s0 s : State} (h : Held s0 s) (f : Tally → Tally) : Held s0 (modTally f s) := by
  unfold modTally
  repeat' first
    | with_reducible first
        | assumption | apply ite_held | apply foldl_held | fail_if_no_progress (apply Held.mk)
    | split | intro _ | dsimp only | assumption | rfl

theorem modSec_held {s0 s : State} (h : Held s0 s) (f : Sec → Sec) : Held s0 (modSec f s) := by
  unfold modSec
  repeat' first
    | with_reducible first
        | assumption | apply ite_held | apply foldl_held | fail_if_no_progress (apply Held.mk)
    | split | intro _ | dsimp only | assumption | rfl

theorem modBoot_held {s0 s : State} (h : Held s0 s) (f : Boot → Boot) : Held s0 (modBoot f s) := by
  unfold modBoot
  repeat' first
    | with_reducible first
        | assumption | apply ite_held | apply foldl_held | fail_if_no_progress (apply Held.mk)
    | split | intro _ | dsimp only | assumption | rfl

theorem modDumps_held {s0 s : State} (h : Held s0 s) (f : Dumps → Dumps) : Held s0 (modDumps f s) := by
  unfold modDumps
  repeat' first
    | with_reducible first
        | assumption | apply ite_held | apply foldl_held | fail_if_no_progress (apply Held.mk)
    | split | intro _ | dsimp only | assumption | rfl

theorem modSft_held {s0 s : State} (h : Held s0 s) (f : Sft → Sft) : Held s0 (modSft f s) := by
  unfold modSft
  repeat' first
    | with_reducible first
        | assumption | apply ite_held | apply foldl_held | fail_if_no_progress (apply Held.mk)
    | split | intro _ | dsimp only | assumption | rfl

theorem emit_held {s0 s : State} (h : Held s0 s) (e : Effect) : Held s0 (emit e s) := by
  unfold emit
  repeat' first
    | with_reducible first
        | assumption | apply ite_held | apply foldl_held | fail_if_no_progress (apply Held.mk)
    | split | intro _ | dsimp only | assumption | rfl

theorem whenB_held {r s : State} {b : Bool} {f : State → State} (h : Held r s) (hf : Held r s → Held r (f s)) : Held r (whenB b f s) := by
  unfold whenB; split
  · exact hf h
  · exact h

theorem forEach_held {r s : State} {α : Type} {l : List α} {f : α → State → State} (h : Held r s)
    (hf : ∀ x t, Held r t → Held r (f x t)) : Held r (forEach l f s) :=
  foldl_held h (fun t x ht => hf x t ht)

theorem takeFree_held {r s : State} (h : Held r s) : Held r (takeFree s).2 := h

theorem raiseMsix_held {s0 s : State} (h : Held s0 s) (v : ℕ) : Held s0 (raiseMsix v s) := by
  unfold raiseMsix
  repeat' first
    | with_reducible first
        | assumption | apply modHost_held | apply emit_held | apply ite_held | apply foldl_held
        | fail_if_no_progress (apply Held.mk)
    | split | intro _ | dsimp only | assumption | rfl

theorem msixUnmask_held {s0 s : State} (h : Held s0 s)  : Held s0 (msixUnmask s) := by
  unfold msixUnmask
  repeat' first
    | with_reducible first
        | assumption | apply forEach_held | apply emit_held | apply modHost_held | apply ite_held
        | apply foldl_held | fail_if_no_progress (apply Held.mk)
    | split | intro _ | dsimp only | assumption | rfl

theorem tallyHand_held {s0 s : State} (h : Held s0 s)  : Held s0 (tallyHand s) := by
  unfold tallyHand
  repeat' first
    | with_reducible first
        | assumption | apply raiseMsix_held | apply ite_held | apply foldl_held
        | fail_if_no_progress (apply Held.mk)
    | split | intro _ | dsimp only | assumption | rfl

theorem tallyPut_held {s0 s : State} (h : Held s0 s) (r : TallyRec) : Held s0 (tallyPut r s) := by
  unfold tallyPut
  repeat' first
    | with_reducible first
        | assumption | apply tallyHand_held | apply ite_held | apply foldl_held
        | fail_if_no_progress (apply Held.mk)
    | split | intro _ | dsimp only | assumption | rfl

theorem record_held {s0 s : State} (h : Held s0 s) (type : ℕ) (level : ℕ) (code : ℕ) (detail : List Byte) : Held s0 (record type level code detail s) := by
  unfold record
  repeat' first
    | with_reducible first
        | assumption | apply tallyPut_held | apply ite_held | apply foldl_held
        | fail_if_no_progress (apply Held.mk)
    | split | intro _ | dsimp only | assumption | rfl

theorem event_held {s0 s : State} (h : Held s0 s) (code : ℕ) (detail : List Byte) : Held s0 (event code detail s) := by
  unfold event
  repeat' first
    | with_reducible first
        | assumption | apply record_held | apply ite_held | apply foldl_held | fail_if_no_progress (apply Held.mk)
    | split | intro _ | dsimp only | assumption | rfl

theorem jobFault_held {s0 s : State} (h : Held s0 s) (code : ℕ) (detail : List Byte) : Held s0 (jobFault code detail s) := by
  unfold jobFault
  repeat' first
    | with_reducible first
        | assumption | apply modRun_held | apply record_held | apply ite_held | apply foldl_held
        | fail_if_no_progress (apply Held.mk)
    | split | intro _ | dsimp only | assumption | rfl

theorem requestFault_held {s0 s : State} (h : Held s0 s) (code : ℕ) (detail : List Byte) : Held s0 (requestFault code detail s) := by
  unfold requestFault
  repeat' first
    | with_reducible first
        | assumption | apply record_held | apply ite_held | apply foldl_held | fail_if_no_progress (apply Held.mk)
    | split | intro _ | dsimp only | assumption | rfl

theorem rowsFault_held {s0 s : State} (h : Held s0 s) (code : ℕ) (rows : List ℕ) : Held s0 (rowsFault code rows s) := by
  unfold rowsFault
  repeat' first
    | with_reducible first
        | assumption | apply forEach_held | apply modReq_held | apply ite_held | apply foldl_held
        | fail_if_no_progress (apply Held.mk)
    | split | intro _ | dsimp only | assumption | rfl

theorem countEcc_held {s0 s : State} (h : Held s0 s) (corrected : Bool) : Held s0 (countEcc corrected s) := by
  unfold countEcc
  repeat' first
    | with_reducible first
        | assumption | apply modTiers_held | apply ite_held | apply foldl_held
        | fail_if_no_progress (apply Held.mk)
    | split | intro _ | dsimp only | assumption | rfl

theorem measAdd_held {s0 s : State} (h : Held s0 s) (n : ℕ) (kind : FigKind) (unit : ℕ) (v : ℕ) : Held s0 (measAdd n kind unit v s) := by
  unfold measAdd
  repeat' first
    | with_reducible first
        | assumption | apply modRun_held | apply ite_held | apply foldl_held | fail_if_no_progress (apply Held.mk)
    | split | intro _ | dsimp only | assumption | rfl

theorem uncheckSteps_held {s0 s : State} (h : Held s0 s)  : Held s0 (uncheckSteps s) := by
  unfold uncheckSteps
  repeat' first
    | with_reducible first
        | assumption | apply modRun_held | apply ite_held | apply foldl_held | fail_if_no_progress (apply Held.mk)
    | split | intro _ | dsimp only | assumption | rfl

theorem progress_held {s0 s : State} (h : Held s0 s)  : Held s0 (progress s) := by
  unfold progress
  repeat' first
    | with_reducible first
        | assumption | apply modRun_held | apply ite_held | apply foldl_held | fail_if_no_progress (apply Held.mk)
    | split | intro _ | dsimp only | assumption | rfl

theorem linkCount_held {s0 s : State} (h : Held s0 s) (n0 : ℕ) (l : ℕ) (p : Packet) : Held s0 (linkCount n0 l p s) := by
  unfold linkCount
  repeat' first
    | with_reducible first
        | assumption | apply measAdd_held | apply ite_held | apply foldl_held | fail_if_no_progress (apply Held.mk)
    | split | intro _ | dsimp only | assumption | rfl

theorem flitOut_held {s0 s : State} (h : Held s0 s) (l : ℕ) (kind : ℕ) (seq : ℕ) (vc : ℕ) (payload : List Byte) : Held s0 (flitOut l kind seq vc payload s) := by
  unfold flitOut
  repeat' first
    | with_reducible first
        | assumption | apply emit_held | apply ite_held | apply foldl_held | fail_if_no_progress (apply Held.mk)
    | split | intro _ | dsimp only | assumption | rfl

theorem ctlOut_held {s0 s : State} (h : Held s0 s) (l : ℕ) (c : LinkCtl) : Held s0 (ctlOut l c s) := by
  unfold ctlOut
  repeat' first
    | with_reducible first
        | assumption | apply flitOut_held | apply ite_held | apply foldl_held | fail_if_no_progress (apply Held.mk)
    | split | intro _ | dsimp only | assumption | rfl

theorem idleOut_held {s0 s : State} (h : Held s0 s) (l : ℕ) : Held s0 (idleOut l s) := by
  unfold idleOut
  repeat' first
    | with_reducible first
        | assumption | apply flitOut_held | apply ite_held | apply foldl_held | fail_if_no_progress (apply Held.mk)
    | split | intro _ | dsimp only | assumption | rfl

theorem linkFlush_held {s0 s : State} (h : Held s0 s) (l : ℕ) : Held s0 (linkFlush l s) := by
  unfold linkFlush
  repeat' first
    | with_reducible first
        | assumption | apply forEach_held | apply flitOut_held | apply modLink_held | apply ite_held
        | apply foldl_held | fail_if_no_progress (apply Held.mk)
    | split | intro _ | dsimp only | assumption | rfl

theorem linkQueue_held {s0 s : State} (h : Held s0 s) (l : ℕ) (vc : ℕ) (p : Packet) : Held s0 (linkQueue l vc p s) := by
  unfold linkQueue
  repeat' first
    | with_reducible first
        | assumption | apply linkFlush_held | apply modLink_held | apply ite_held | apply foldl_held
        | fail_if_no_progress (apply Held.mk)
    | split | intro _ | dsimp only | assumption | rfl

theorem linkSend_held {s0 s : State} (h : Held s0 s) (n0 : ℕ) (l : ℕ) (fromLink : Option ℕ) (dl : ℕ) (p : Packet) : Held s0 (linkSend n0 l fromLink dl p s) := by
  unfold linkSend
  repeat' first
    | with_reducible first
        | assumption | apply linkQueue_held | apply linkCount_held | apply ite_held | apply foldl_held
        | fail_if_no_progress (apply Held.mk)
    | split | intro _ | dsimp only | assumption | rfl

theorem countUnreach_held {s0 s : State} (h : Held s0 s)  : Held s0 (countUnreach s) := by
  unfold countUnreach
  repeat' first
    | with_reducible first
        | assumption | apply modLinks_held | apply ite_held | apply foldl_held
        | fail_if_no_progress (apply Held.mk)
    | split | intro _ | dsimp only | assumption | rfl

theorem lostJob_held {s0 s : State} (h : Held s0 s) (p : Packet) (reason : ℕ) : Held s0 (lostJob p reason s) := by
  unfold lostJob
  repeat' first
    | with_reducible first
        | assumption | apply jobFault_held | apply ite_held | apply foldl_held
        | fail_if_no_progress (apply Held.mk)
    | split | intro _ | dsimp only | assumption | rfl

theorem segmentsOut_held {s0 s : State} (h : Held s0 s) (n0 : ℕ) (l : List Packet) (eff : Effect) (lost : ℕ → State → State) (hlost : ∀ x0 t, Held s0 t → Held s0 (lost x0 t)) : Held s0 (segmentsOut n0 l eff lost s) := by
  unfold segmentsOut
  repeat' first
    | with_reducible first
        | assumption | apply emit_held | apply forEach_held | apply linkSend_held | apply countUnreach_held
        | apply hlost | apply ite_held | apply foldl_held | fail_if_no_progress (apply Held.mk)
    | split | intro _ | dsimp only | assumption | rfl

theorem packetOut_held {s0 s : State} (h : Held s0 s) (n0 : ℕ) (p : Packet) (eff : Effect) (lost : ℕ → State → State) (hlost : ∀ x0 t, Held s0 t → Held s0 (lost x0 t)) : Held s0 (packetOut n0 p eff lost s) := by
  unfold packetOut
  repeat' first
    | with_reducible first
        | assumption | apply segmentsOut_held | apply hlost | apply ite_held | apply foldl_held
        | fail_if_no_progress (apply Held.mk)
    | split | intro _ | dsimp only | assumption | rfl

theorem linkDiscard_held {s0 s : State} (h : Held s0 s)  : Held s0 (linkDiscard s) := by
  unfold linkDiscard
  repeat' first
    | with_reducible first
        | assumption | apply modMgmt_held | apply ite_held | apply foldl_held | fail_if_no_progress (apply Held.mk)
    | split | intro _ | dsimp only | assumption | rfl

theorem sendToken_held {s0 s : State} (h : Held s0 s) (n0 : ℕ) (m : TokenMsg) (dst : ℕ) : Held s0 (sendToken n0 m dst s) := by
  unfold sendToken
  repeat' first
    | with_reducible first
        | assumption | apply packetOut_held | apply lostJob_held | apply ite_held | apply foldl_held
        | fail_if_no_progress (apply Held.mk)
    | split | intro _ | dsimp only | assumption | rfl

theorem sendCredit_held {s0 s : State} (h : Held s0 s) (n0 : ℕ) (dst : ℕ) (eng : ℕ) (port : ℕ) (n : ℕ) (ep : BitVec 3) : Held s0 (sendCredit n0 dst eng port n ep s) := by
  unfold sendCredit
  repeat' first
    | with_reducible first
        | assumption | apply packetOut_held | apply lostJob_held | apply ite_held | apply foldl_held
        | fail_if_no_progress (apply Held.mk)
    | split | intro _ | dsimp only | assumption | rfl

theorem sendSyncReq_held {s0 s : State} (h : Held s0 s) (n0 : ℕ) (chip : ℕ) (obj : ℕ) (word : ℕ) (st : Bool) (core : ℕ) (thread : ℕ) (data : Word) (reissue : Bool) (lost : ℕ → State → State) (hlost : ∀ x0 t, Held s0 t → Held s0 (lost x0 t)) : Held s0 (sendSyncReq n0 chip obj word st core thread data reissue lost s) := by
  unfold sendSyncReq
  repeat' first
    | with_reducible first
        | assumption | apply packetOut_held | apply hlost | apply ite_held | apply foldl_held
        | fail_if_no_progress (apply Held.mk)
    | split | intro _ | dsimp only | assumption | rfl

theorem sendSyncRsp_held {s0 s : State} (h : Held s0 s) (chip : ℕ) (core : ℕ) (thread : ℕ) (info : BitVec 48) (v : Word) : Held s0 (sendSyncRsp chip core thread info v s) := by
  unfold sendSyncRsp
  repeat' first
    | with_reducible first
        | assumption | apply packetOut_held | apply linkDiscard_held | apply ite_held | apply foldl_held
        | fail_if_no_progress (apply Held.mk)
    | split | intro _ | dsimp only | assumption | rfl

theorem sendStride_held {s0 s : State} (h : Held s0 s) (dst : ℕ) (sub : ℕ) (m : Marker) : Held s0 (sendStride dst sub m s) := by
  unfold sendStride
  repeat' first
    | with_reducible first
        | assumption | apply packetOut_held | apply linkDiscard_held | apply ite_held | apply foldl_held
        | fail_if_no_progress (apply Held.mk)
    | split | intro _ | dsimp only | assumption | rfl

theorem queueFree_held {s0 s : State} (h : Held s0 s) (e : ℕ) (q : ℕ) (keep : ℕ) : Held s0 (queueFree e q keep s) := by
  unfold queueFree
  repeat' first
    | with_reducible first
        | assumption | apply modRin_held | apply ite_held | apply foldl_held | fail_if_no_progress (apply Held.mk)
    | split | intro _ | dsimp only | assumption | rfl

theorem creditBack_held {s0 s : State} (h : Held s0 s) (m : TokenMsg) : Held s0 (creditBack m s) := by
  unfold creditBack
  repeat' first
    | with_reducible first
        | assumption | apply sendCredit_held | apply ite_held | apply foldl_held
        | fail_if_no_progress (apply Held.mk)
    | split | intro _ | dsimp only | assumption | rfl

theorem earlyEmpty_held {s0 s : State} (h : Held s0 s) (e : ℕ) : Held s0 (earlyEmpty e s) := by
  unfold earlyEmpty
  repeat' first
    | with_reducible first
        | assumption | apply modEng_held | apply forEach_held | apply creditBack_held | apply ite_held
        | apply foldl_held | fail_if_no_progress (apply Held.mk)
    | split | intro _ | dsimp only | assumption | rfl

theorem dropRuns_held {s0 s : State} (h : Held s0 s) (e : ℕ) : Held s0 (dropRuns e s) := by
  unfold dropRuns
  repeat' first
    | with_reducible first
        | assumption | apply forEach_held | apply modRin_held | apply modEng_held | apply ite_held
        | apply foldl_held | fail_if_no_progress (apply Held.mk)
    | split | intro _ | dsimp only | assumption | rfl

theorem haltEngines_held {s0 s : State} (h : Held s0 s) (c : ℕ) : Held s0 (haltEngines c s) := by
  unfold haltEngines
  repeat' first
    | with_reducible first
        | assumption | apply forEach_held | apply modEng_held | apply queueFree_held | apply dropRuns_held
        | apply earlyEmpty_held | apply ite_held | apply foldl_held | fail_if_no_progress (apply Held.mk)
    | split | intro _ | dsimp only | assumption | rfl

theorem haltCore_held {s0 s : State} (h : Held s0 s) (c : ℕ) (t : ℕ) (eng : ℕ) (code : ℕ) (pc : ℕ) (need : ℕ) (avail : ℕ) : Held s0 (haltCore c t eng code pc need avail s) := by
  unfold haltCore
  repeat' first
    | with_reducible first
        | assumption | apply modCore_held | apply haltEngines_held | apply ite_held | apply foldl_held
        | fail_if_no_progress (apply Held.mk)
    | split | intro _ | dsimp only | assumption | rfl

theorem groomRefuse_held {s0 s : State} (h : Held s0 s) (c : ℕ) (t : ℕ) (eng : ℕ) (code : ℕ) (more : List Byte) (need : ℕ) (avail : ℕ) : Held s0 (groomRefuse c t eng code more need avail s) := by
  unfold groomRefuse
  repeat' first
    | with_reducible first
        | assumption | apply haltCore_held | apply jobFault_held | apply ite_held | apply foldl_held
        | fail_if_no_progress (apply Held.mk)
    | split | intro _ | dsimp only | assumption | rfl

theorem spadRefuse_held {s0 s : State} (h : Held s0 s) (c : ℕ) (t : ℕ) (eng : ℕ) (code : ℕ) (pc : ℕ) (off : ℕ) : Held s0 (spadRefuse c t eng code pc off s) := by
  unfold spadRefuse
  repeat' first
    | with_reducible first
        | assumption | apply haltCore_held | apply jobFault_held | apply ite_held | apply foldl_held
        | fail_if_no_progress (apply Held.mk)
    | split | intro _ | dsimp only | assumption | rfl

theorem measChange_held {s0 s : State} (h : Held s0 s)  : Held s0 (measChange s) := by
  unfold measChange
  repeat' first
    | with_reducible first
        | assumption | apply event_held | apply modSec_held | apply ite_held | apply foldl_held
        | fail_if_no_progress (apply Held.mk)
    | split | intro _ | dsimp only | assumption | rfl

theorem newKey_held {s0 s : State} (h : Held s0 s)  : Held s0 (newKey s) := by
  unfold newKey
  repeat' first
    | with_reducible first
        | assumption | apply ite_held | apply foldl_held | fail_if_no_progress (apply Held.mk)
    | split | intro _ | dsimp only | assumption | rfl

theorem writeByte_held {r s : State} (h : Held r s) (a : Nat) (b : Byte) : Held r (writeByte a b s) := by
  rw [writeByte_eq]
  exact Held.mk h

theorem writeBytes_held {r s : State} (h : Held r s) (a : Nat) (bs : List Byte) : Held r (writeBytes a bs s) := by
  rw [writeBytes_eq]
  exact h

theorem writeWord_held {s0 s : State} (h : Held s0 s) (a : ℕ) (w : Word) : Held s0 (writeWord a w s) := by
  unfold writeWord
  repeat' first
    | with_reducible first
        | assumption | apply writeBytes_held | apply ite_held | apply foldl_held
        | fail_if_no_progress (apply Held.mk)
    | split | intro _ | dsimp only | assumption | rfl

theorem writeSpad_held {s0 s : State} (h : Held s0 s) (c : ℕ) (off : ℕ) (bs : List Byte) : Held s0 (writeSpad c off bs s) := by
  unfold writeSpad
  repeat' first
    | with_reducible first
        | assumption | apply writeBytes_held | apply ite_held | apply foldl_held
        | fail_if_no_progress (apply Held.mk)
    | split | intro _ | dsimp only | assumption | rfl

theorem atomicWrite_held {s0 s : State} (h : Held s0 s) (setBits : Bool) (a : ℕ) (v : Word) : Held s0 (atomicWrite setBits a v s) := by
  unfold atomicWrite
  repeat' first
    | with_reducible first
        | assumption | apply writeWord_held | apply ite_held | apply foldl_held
        | fail_if_no_progress (apply Held.mk)
    | split | intro _ | dsimp only | assumption | rfl

theorem zeroBytes_held {s0 s : State} (h : Held s0 s) (a : ℕ) (n : ℕ) : Held s0 (zeroBytes a n s) := by
  unfold zeroBytes
  repeat' first
    | with_reducible first
        | assumption | apply ite_held | apply foldl_held | fail_if_no_progress (apply Held.mk)
    | split | intro _ | dsimp only | assumption | rfl

theorem zeroFill_held {s0 s : State} (h : Held s0 s) (a : ℕ) (n : ℕ) : Held s0 (zeroFill a n s) := by
  unfold zeroFill
  repeat' first
    | with_reducible first
        | assumption | apply zeroBytes_held | apply writeBytes_held | apply ite_held | apply foldl_held
        | fail_if_no_progress (apply Held.mk)
    | split | intro _ | dsimp only | assumption | rfl

theorem noteEcc_held {s0 s : State} (h : Held s0 s) (e : Ecc) (a : ℕ) : Held s0 (noteEcc e a s) := by
  unfold noteEcc
  repeat' first
    | with_reducible first
        | assumption | apply countEcc_held | apply modCore_held | apply modTiers_held | apply ite_held
        | apply foldl_held | fail_if_no_progress (apply Held.mk)
    | split | intro _ | dsimp only | assumption | rfl

theorem noteSram_held {s0 s : State} (h : Held s0 s) (e : Ecc) (o : ℕ) (off : ℕ) : Held s0 (noteSram e o off s) := by
  unfold noteSram
  repeat' first
    | with_reducible first
        | assumption | apply modTiers_held | apply countEcc_held | apply ite_held | apply foldl_held
        | fail_if_no_progress (apply Held.mk)
    | split | intro _ | dsimp only | assumption | rfl

theorem unitEscape_held {s0 s : State} (h : Held s0 s) (x : UnitErr) (a : ℕ) : Held s0 (unitEscape x a s) := by
  unfold unitEscape
  repeat' first
    | with_reducible first
        | assumption | apply writeBytes_held | apply ite_held | apply foldl_held
        | fail_if_no_progress (apply Held.mk)
    | split | intro _ | dsimp only | assumption | rfl

theorem unitFound_held {s0 s : State} (h : Held s0 s) (x : UnitErr) (a : ℕ) : Held s0 (unitFound x a s) := by
  unfold unitFound
  repeat' first
    | with_reducible first
        | assumption | apply unitEscape_held | apply noteEcc_held | apply ite_held | apply foldl_held
        | fail_if_no_progress (apply Held.mk)
    | split | intro _ | dsimp only | assumption | rfl

theorem portTouch_held {s0 s : State} (h : Held s0 s) (a : ℕ) (n : ℕ) : Held s0 (portTouch a n s) := by
  unfold portTouch
  repeat' first
    | with_reducible first
        | assumption | apply modTiers_held | apply forEach_held | apply ite_held | apply foldl_held
        | fail_if_no_progress (apply Held.mk)
    | split | intro _ | dsimp only | assumption | rfl

theorem pageReadDrop_held {s0 s : State} (h : Held s0 s) (a : ℕ) : Held s0 (pageReadDrop a s) := by
  unfold pageReadDrop
  repeat' first
    | with_reducible first
        | assumption | apply modTiers_held | apply ite_held | apply foldl_held
        | fail_if_no_progress (apply Held.mk)
    | split | intro _ | dsimp only | assumption | rfl

theorem pageReadStart_held {s0 s : State} (h : Held s0 s) (a : ℕ) : Held s0 (pageReadStart a s) := by
  unfold pageReadStart
  repeat' first
    | with_reducible first
        | assumption | apply modTiers_held | apply ite_held | apply foldl_held
        | fail_if_no_progress (apply Held.mk)
    | split | intro _ | dsimp only | assumption | rfl

theorem mapConsult_held {s0 s : State} (h : Held s0 s) (d : ℕ) (a : ℕ) : Held s0 (mapConsult d a s) := by
  unfold mapConsult
  repeat' first
    | with_reducible first
        | assumption | apply modTiers_held | apply ite_held | apply foldl_held
        | fail_if_no_progress (apply Held.mk)
    | split | intro _ | dsimp only | assumption | rfl

theorem rebuildImage_held {s0 s : State} (h : Held s0 s)  : Held s0 (rebuildImage s) := by
  unfold rebuildImage
  repeat' first
    | with_reducible first
        | assumption | apply modMgmt_held | apply ite_held | apply foldl_held | fail_if_no_progress (apply Held.mk)
    | split | intro _ | dsimp only | assumption | rfl

theorem nextTerms_held {s0 s : State} (h : Held s0 s)  : Held s0 (nextTerms s) := by
  unfold nextTerms
  repeat' first
    | with_reducible first
        | assumption | apply modStride_held | apply ite_held | apply foldl_held
        | fail_if_no_progress (apply Held.mk)
    | split | intro _ | dsimp only | assumption | rfl

theorem setLen_held {s0 s : State} (h : Held s0 s)  : Held s0 (setLen s) := by
  unfold setLen
  repeat' first
    | with_reducible first
        | assumption | apply event_held | apply modStride_held | apply nextTerms_held | apply ite_held
        | apply foldl_held | fail_if_no_progress (apply Held.mk)
    | split | intro _ | dsimp only | assumption | rfl

theorem freeSession_held {s0 s : State} (h : Held s0 s) (n : ℕ) : Held s0 (freeSession n s) := by
  unfold freeSession
  repeat' first
    | with_reducible first
        | assumption | apply modWeights_held | apply modServe_held | apply modSess_held | apply ite_held
        | apply foldl_held | fail_if_no_progress (apply Held.mk)
    | split | intro _ | dsimp only | assumption | rfl

theorem poolReleased_held {s0 s : State} (h : Held s0 s) (id : ℕ) (base : ℕ) (bytes : ℕ) : Held s0 (poolReleased id base bytes s) := by
  unfold poolReleased
  repeat' first
    | with_reducible first
        | assumption | apply forEach_held | apply freeSession_held | apply modServe_held | apply ite_held
        | apply foldl_held | fail_if_no_progress (apply Held.mk)
    | split | intro _ | dsimp only | assumption | rfl

theorem placementInForce_held {s0 s : State} (h : Held s0 s)  : Held s0 (placementInForce s) := by
  unfold placementInForce
  repeat' first
    | with_reducible first
        | assumption | apply modTiers_held | apply forEach_held | apply poolReleased_held | apply ite_held
        | apply foldl_held | fail_if_no_progress (apply Held.mk)
    | split | intro _ | dsimp only | assumption | rfl

theorem quotasInForce_held {s0 s : State} (h : Held s0 s)  : Held s0 (quotasInForce s) := by
  unfold quotasInForce
  repeat' first
    | with_reducible first
        | assumption | apply modTiers_held | apply ite_held | apply foldl_held
        | fail_if_no_progress (apply Held.mk)
    | split | intro _ | dsimp only | assumption | rfl

theorem releasePoolPages_held {s0 s : State} (h : Held s0 s)  : Held s0 (releasePoolPages s) := by
  unfold releasePoolPages
  repeat' first
    | with_reducible first
        | assumption | apply forEach_held | apply modTiers_held | apply modServe_held | apply ite_held
        | apply foldl_held | fail_if_no_progress (apply Held.mk)
    | split | intro _ | dsimp only | assumption | rfl

theorem curbCharge_held {s0 s : State} (h : Held s0 s) (p : ℕ) (k : ℕ) (units : ℕ) : Held s0 (curbCharge p k units s) := by
  unfold curbCharge
  repeat' first
    | with_reducible first
        | assumption | apply modCurb_held | apply ite_held | apply foldl_held | fail_if_no_progress (apply Held.mk)
    | split | intro _ | dsimp only | assumption | rfl

theorem moveUnits_held {s0 s : State} (h : Held s0 s) (left : Sparse Nat) : Held s0 (moveUnits left s).2 := by
  have hf : ∀ (l : List (Nat × Nat)) (y : Sparse Nat × State), Held s0 y.2 → Held s0 (l.foldl (fun x p =>
      let n := curbRoom x.2 p.1 4 p.2
      (sset 0 x.1 p.1 (p.2 - n), whenB (n ≠ 0) (curbCharge p.1 4 n) x.2)) y).2 := by
    intro l
    induction l with
    | nil => exact fun y hy => hy
    | cons p l ih => exact fun y hy => ih _ (whenB_held hy (fun hk => curbCharge_held hk _ _ _))
  exact hf left (left, s) h

theorem journalWrite_held {s0 s : State} (h : Held s0 s) (dcTime : ℕ) : Held s0 (journalWrite dcTime s) := by
  unfold journalWrite
  repeat' first
    | with_reducible first
        | assumption | apply event_held | apply modDumps_held | apply ite_held | apply foldl_held
        | fail_if_no_progress (apply Held.mk)
    | split | intro _ | dsimp only | assumption | rfl

theorem dumpEnd_held {s0 s : State} (h : Held s0 s)  : Held s0 (dumpEnd s) := by
  unfold dumpEnd
  repeat' first
    | with_reducible first
        | assumption | apply event_held | apply modDumps_held | apply ite_held | apply foldl_held
        | fail_if_no_progress (apply Held.mk)
    | split | intro _ | dsimp only | assumption | rfl

theorem copyEnd_held {s0 s : State} (h : Held s0 s)  : Held s0 (copyEnd s) := by
  unfold copyEnd
  repeat' first
    | with_reducible first
        | assumption | apply modDumps_held | apply ite_held | apply foldl_held
        | fail_if_no_progress (apply Held.mk)
    | split | intro _ | dsimp only | assumption | rfl

theorem dumpGo_held {s0 s : State} (h : Held s0 s)  : Held s0 (dumpGo s) := by
  unfold dumpGo
  repeat' first
    | with_reducible first
        | assumption | apply moveUnits_held | apply modDumps_held | apply dumpEnd_held | apply copyEnd_held
        | apply ite_held | apply foldl_held | fail_if_no_progress (apply Held.mk)
    | split | intro _ | dsimp only | assumption | rfl

theorem fullDump_held {s0 s : State} (h : Held s0 s) (done : Bool) : Held s0 (fullDump done s) := by
  unfold fullDump
  repeat' first
    | with_reducible first
        | assumption | apply modDumps_held | apply dumpGo_held | apply event_held | apply ite_held
        | apply foldl_held | fail_if_no_progress (apply Held.mk)
    | split | intro _ | dsimp only | assumption | rfl

theorem reducedDump_held {s0 s : State} (h : Held s0 s)  : Held s0 (reducedDump s) := by
  unfold reducedDump
  repeat' first
    | with_reducible first
        | assumption | apply modDumps_held | apply event_held | apply ite_held | apply foldl_held
        | fail_if_no_progress (apply Held.mk)
    | split | intro _ | dsimp only | assumption | rfl

theorem stopChip_held {s0 s : State} (h : Held s0 s)  : Held s0 (stopChip s) := by
  unfold stopChip
  repeat' first
    | with_reducible first
        | assumption | apply ite_held | apply foldl_held | fail_if_no_progress (apply Held.mk)
    | split | intro _ | dsimp only | assumption | rfl

theorem chipStopBy_held {s0 s : State} (h : Held s0 s) (tumbler : Bool) (code : Nat) (detail : List Byte) (progress : Bool) :
    Held s0 (chipStopBy tumbler code detail progress s) := by
  unfold chipStopBy
  have hr := record_held h 1 3 code detail
  generalize record 1 3 code detail s = u at hr
  dsimp only
  split
  · split
    · exact modDumps_held (Held.mk hr) _
    · exact Held.mk hr
  · rename_i hn
    have hs : Held s0 (State.mk u.pending u.mem u.scr u.free u.fuses u.board u.pins u.thermal u.boot u.dumps (some code)
        (Nat.min (s.chipFaults + 1) (2 ^ 32 - 1)) u.bindings u.spares u.ostlers u.stride u.job u.cores u.engines u.reinIn u.reinOut
        u.sft u.tiers u.sync u.hitches u.serve u.weights u.links u.host u.mgmt u.tally u.sec u.out) := by
      refine ⟨fun hf => ?_, hr.2⟩
      rw [← hr.1 hf] at hf
      exact absurd hf hn
    split
    · exact modDumps_held (stopChip_held hs) _
    · exact fullDump_held (stopChip_held hs) progress

theorem chipStop_held {s0 s : State} (h : Held s0 s) (code : Nat) (detail : List Byte) (progress : Bool) :
    Held s0 (chipStop code detail progress s) := chipStopBy_held h _ _ _ _

theorem sendLenReq_held {s0 s : State} (h : Held s0 s)  : Held s0 (sendLenReq s) := by
  unfold sendLenReq
  repeat' first
    | with_reducible first
        | assumption | apply sendStride_held | apply ite_held | apply foldl_held
        | fail_if_no_progress (apply Held.mk)
    | split | intro _ | dsimp only | assumption | rfl

theorem closeLaunches_held {s0 s : State} (h : Held s0 s) (h : ℕ) : Held s0 (closeLaunches h s) := by
  unfold closeLaunches
  repeat' first
    | with_reducible first
        | assumption | apply modHitch_held | apply ite_held | apply foldl_held
        | fail_if_no_progress (apply Held.mk)
    | split | intro _ | dsimp only | assumption | rfl

theorem stopLaunches_held {s0 s : State} (h : Held s0 s)  : Held s0 (stopLaunches s) := by
  unfold stopLaunches
  repeat' first
    | with_reducible first
        | assumption | apply forEach_held | apply closeLaunches_held | apply ite_held | apply foldl_held
        | fail_if_no_progress (apply Held.mk)
    | split | intro _ | dsimp only | assumption | rfl

theorem autoActs_held {s0 s : State} (h : Held s0 s) (k : ℕ) : Held s0 (autoActs k s) := by
  unfold autoActs
  repeat' first
    | with_reducible first
        | assumption | apply stopLaunches_held | apply quotasInForce_held | apply placementInForce_held
        | apply releasePoolPages_held | apply rebuildImage_held | apply sendLenReq_held | apply setLen_held
        | apply ite_held | apply foldl_held | fail_if_no_progress (apply Held.mk)
    | split | intro _ | dsimp only | assumption | rfl

theorem setAct_held {s0 s : State} (h : Held s0 s) (k : ℕ) : Held s0 (setAct k s) := by
  unfold setAct
  repeat' first
    | with_reducible first
        | assumption | apply modStride_held | apply autoActs_held | apply ite_held | apply foldl_held
        | fail_if_no_progress (apply Held.mk)
    | split | intro _ | dsimp only | assumption | rfl

theorem noteChange_held {s0 s : State} (h : Held s0 s)  : Held s0 (noteChange s) := by
  unfold noteChange
  repeat' first
    | with_reducible first
        | assumption | apply modStride_held | apply sendLenReq_held | apply nextTerms_held | apply ite_held
        | apply foldl_held | fail_if_no_progress (apply Held.mk)
    | split | intro _ | dsimp only | assumption | rfl

theorem tripIfHot_held {s0 s : State} (h : Held s0 s)  : Held s0 (tripIfHot s) := by
  unfold tripIfHot
  repeat' first
    | with_reducible first
        | assumption | apply chipStop_held | apply ite_held | apply foldl_held
        | fail_if_no_progress (apply Held.mk)
    | split | intro _ | dsimp only | assumption | rfl

theorem setSreg_held {s0 s : State} (h : Held s0 s) (c : ℕ) (r : RegNo) (v : Word) : Held s0 (setSreg c r v s) := by
  unfold setSreg
  repeat' first
    | with_reducible first
        | assumption | apply modCore_held | apply ite_held | apply foldl_held | fail_if_no_progress (apply Held.mk)
    | split | intro _ | dsimp only | assumption | rfl

theorem deliver_held {s0 s : State} (h : Held s0 s) (w : Waiter) (v : Word) : Held s0 (deliver w v s) := by
  unfold deliver
  repeat' first
    | with_reducible first
        | assumption | apply modThread_held | apply setSreg_held | apply sendSyncRsp_held | apply ite_held
        | apply foldl_held | fail_if_no_progress (apply Held.mk)
    | split | intro _ | dsimp only | assumption | rfl

theorem counterPut_held {s0 s : State} (h : Held s0 s) (n : ℕ) (x : ℤ) (clear : Bool) : Held s0 (counterPut n x clear s) := by
  unfold counterPut
  repeat' first
    | with_reducible first
        | assumption | apply modObj_held | apply forEach_held | apply deliver_held | apply ite_held
        | apply foldl_held | fail_if_no_progress (apply Held.mk)
    | split | intro _ | dsimp only | assumption | rfl

theorem opSet_held {s0 s : State} (h : Held s0 s) (r : SyncReq) (data : Word) : Held s0 (opSet r data s).1 := by
  unfold opSet
  repeat' first
    | with_reducible first
        | assumption | apply counterPut_held | apply ite_held | apply foldl_held
        | fail_if_no_progress (apply Held.mk)
    | split | intro _ | dsimp only | assumption | rfl

theorem opFetchInc_held {s0 s : State} (h : Held s0 s) (r : SyncReq) : Held s0 (opFetchInc r s).1 := by
  unfold opFetchInc
  repeat' first
    | with_reducible first
        | assumption | apply counterPut_held | apply ite_held | apply foldl_held
        | fail_if_no_progress (apply Held.mk)
    | split | intro _ | dsimp only | assumption | rfl

theorem opAdd_held {s0 s : State} (h : Held s0 s) (r : SyncReq) (data : Word) : Held s0 (opAdd r data s).1 := by
  unfold opAdd
  repeat' first
    | with_reducible first
        | assumption | apply counterPut_held | apply ite_held | apply foldl_held
        | fail_if_no_progress (apply Held.mk)
    | split | intro _ | dsimp only | assumption | rfl

theorem opWait_held {s0 s : State} (h : Held s0 s) (r : SyncReq) (bound : Word) : Held s0 (opWait r bound s).1 := by
  unfold opWait
  repeat' first
    | with_reducible first
        | assumption | apply modObj_held | apply ite_held | apply foldl_held | fail_if_no_progress (apply Held.mk)
    | split | intro _ | dsimp only | assumption | rfl

theorem opArrive_held {s0 s : State} (h : Held s0 s) (r : SyncReq) (wait : Bool) : Held s0 (opArrive r wait s).1 := by
  unfold opArrive
  repeat' first
    | with_reducible first
        | assumption | apply modObj_held | apply forEach_held | apply deliver_held | apply ite_held
        | apply foldl_held | fail_if_no_progress (apply Held.mk)
    | split | intro _ | dsimp only | assumption | rfl

theorem opClaim_held {s0 s : State} (h : Held s0 s) (r : SyncReq) (seq : BitVec 16) : Held s0 (opClaim r seq s).1 := by
  unfold opClaim
  repeat' first
    | with_reducible first
        | assumption | apply modSync_held | apply modObj_held | apply ite_held | apply foldl_held
        | fail_if_no_progress (apply Held.mk)
    | split | intro _ | dsimp only | assumption | rfl

theorem syncRefuse_held {s0 s : State} (h : Held s0 s) (r : SyncReq) (code : ℕ) (detail : List Byte) : Held s0 (syncRefuse r code detail s) := by
  unfold syncRefuse
  repeat' first
    | with_reducible first
        | assumption | apply jobFault_held | apply haltCore_held | apply ite_held | apply foldl_held
        | fail_if_no_progress (apply Held.mk)
    | split | intro _ | dsimp only | assumption | rfl

theorem syncAnswer_held {s0 : State} (r : SyncReq) {x : State × SyncAns} (h : Held s0 x.1) : Held s0 (syncAnswer r x) := by
  unfold syncAnswer
  split
  · exact sendSyncRsp_held h _ _ _ _ _
  · exact h
  · exact h
  · exact syncRefuse_held h _ _ _

theorem syncServe_held {s0 s : State} (h : Held s0 s) (r : SyncReq) (op : State → State × SyncAns) (hop : ∀ t, Held s0 t → Held s0 (op  t).1) : Held s0 (syncServe r op s) := by
  unfold syncServe
  repeat' first
    | with_reducible first
        | assumption | apply modMgmt_held | apply modSync_held | apply syncAnswer_held | apply hop | apply ite_held
        | apply foldl_held | fail_if_no_progress (apply Held.mk)
    | split | intro _ | dsimp only | assumption | rfl

theorem syncReturn_held {s0 s : State} (h : Held s0 s) (c : ℕ) (t : ℕ) (result : Word) : Held s0 (syncReturn c t result s) := by
  unfold syncReturn
  repeat' first
    | with_reducible first
        | assumption | apply modCore_held | apply modThread_held | apply setSreg_held | apply ite_held
        | apply foldl_held | fail_if_no_progress (apply Held.mk)
    | split | intro _ | dsimp only | assumption | rfl

theorem syncAgain_held {s0 s : State} (h : Held s0 s) (n c t reason : Nat) : Held s0 (syncAgain n c t reason s) := by
  induction n generalizing s c t reason with
  | zero => exact h
  | succ k ih =>
    unfold syncAgain
    split
    · exact h
    split
    · split
      · exact sendSyncReq_held (modSync_held (modThread_held h _ _ _) _) _ _ _ _ _ _ _ _ _ _ (fun x u hu => ih hu _ _ _)
      · split
        · exact jobFault_held h _ _
        · exact h
    · exact h

theorem threadMove_held {s0 s : State} (h : Held s0 s) (c : ℕ) (t : ℕ) (n : ℕ) : Held s0 (threadMove c t n s) := by
  unfold threadMove
  repeat' first
    | with_reducible first
        | assumption | apply modCore_held | apply modThread_held | apply ite_held | apply foldl_held
        | fail_if_no_progress (apply Held.mk)
    | split | intro _ | dsimp only | assumption | rfl

theorem threadBegin_held {s0 s : State} (h : Held s0 s) (k : Tack) (c : ℕ) (t : ℕ) (n : ℕ) : Held s0 (threadBegin k c t n s) := by
  unfold threadBegin
  repeat' first
    | with_reducible first
        | assumption | apply modThread_held | apply ite_held | apply foldl_held
        | fail_if_no_progress (apply Held.mk)
    | split | intro _ | dsimp only | assumption | rfl

theorem threadAdvance_held {s0 s : State} (h : Held s0 s) (c : ℕ) (t : ℕ) : Held s0 (threadAdvance c t s) := by
  unfold threadAdvance
  repeat' first
    | with_reducible first
        | assumption | apply forEach_held | apply threadBegin_held | apply ite_held | apply foldl_held
        | fail_if_no_progress (apply Held.mk)
    | split | intro _ | dsimp only | assumption | rfl

theorem engineBegin_held {s0 s : State} (h : Held s0 s) (k : Tack) (e : ℕ) (n : ℕ) : Held s0 (engineBegin k e n s) := by
  unfold engineBegin
  repeat' first
    | with_reducible first
        | assumption | apply modEng_held | apply ite_held | apply foldl_held | fail_if_no_progress (apply Held.mk)
    | split | intro _ | dsimp only | assumption | rfl

theorem engineAdvance_held {s0 s : State} (h : Held s0 s) (e : ℕ) : Held s0 (engineAdvance e s) := by
  unfold engineAdvance
  repeat' first
    | with_reducible first
        | assumption | apply forEach_held | apply engineBegin_held | apply ite_held | apply foldl_held
        | fail_if_no_progress (apply Held.mk)
    | split | intro _ | dsimp only | assumption | rfl

theorem scalarRun_held {s0 s : State} (h : Held s0 s) (c : ℕ) (t : ℕ) (f : ScalarF) (target : ℕ → ℤ) (eff : State → State) (heff : ∀ t, Held s0 t → Held s0 (eff  t)) : Held s0 (scalarRun c t f target eff s) := by
  unfold scalarRun
  repeat' first
    | with_reducible first
        | assumption | apply groomRefuse_held | apply threadMove_held | apply heff | apply ite_held
        | apply foldl_held | fail_if_no_progress (apply Held.mk)
    | split | intro _ | dsimp only | assumption | rfl

theorem scalarIssue_held {s0 s : State} (h : Held s0 s) (c : ℕ) (t : ℕ) (f : ScalarF) (target : ℕ → ℤ) (eff : State → State) (heff : ∀ t, Held s0 t → Held s0 (eff  t)) : Held s0 (scalarIssue c t f target eff s) := by
  unfold scalarIssue
  repeat' first
    | with_reducible first
        | assumption | apply scalarRun_held | apply heff | apply ite_held | apply foldl_held
        | fail_if_no_progress (apply Held.mk)
    | split | intro _ | dsimp only | assumption | rfl

theorem setDst_held {s0 s : State} (h : Held s0 s) (c : ℕ) (f : ScalarF) (v : State → Word) : Held s0 (setDst c f v s) := by
  unfold setDst
  repeat' first
    | with_reducible first
        | assumption | apply setSreg_held | apply ite_held | apply foldl_held | fail_if_no_progress (apply Held.mk)
    | split | intro _ | dsimp only | assumption | rfl

theorem execLi_held {s0 s : State} (h : Held s0 s) (c : CoreId) (t : ThreadId) (f : ScalarF) : OutHeld s0 (execLi c t f s) := by
  unfold execLi
  apply outHeld_next
  repeat' first
    | with_reducible first
        | assumption | apply scalarIssue_held | apply setDst_held | apply ite_held | apply foldl_held
        | fail_if_no_progress (apply Held.mk)
    | split | intro _ | dsimp only | assumption | rfl

theorem execLui_held {s0 s : State} (h : Held s0 s) (c : CoreId) (t : ThreadId) (f : ScalarF) : OutHeld s0 (execLui c t f s) := by
  unfold execLui
  apply outHeld_next
  repeat' first
    | with_reducible first
        | assumption | apply scalarIssue_held | apply setDst_held | apply ite_held | apply foldl_held
        | fail_if_no_progress (apply Held.mk)
    | split | intro _ | dsimp only | assumption | rfl

theorem execAdd_held {s0 s : State} (h : Held s0 s) (c : CoreId) (t : ThreadId) (f : ScalarF) : OutHeld s0 (execAdd c t f s) := by
  unfold execAdd
  apply outHeld_next
  repeat' first
    | with_reducible first
        | assumption | apply scalarIssue_held | apply setDst_held | apply ite_held | apply foldl_held
        | fail_if_no_progress (apply Held.mk)
    | split | intro _ | dsimp only | assumption | rfl

theorem execSub_held {s0 s : State} (h : Held s0 s) (c : CoreId) (t : ThreadId) (f : ScalarF) : OutHeld s0 (execSub c t f s) := by
  unfold execSub
  apply outHeld_next
  repeat' first
    | with_reducible first
        | assumption | apply scalarIssue_held | apply setDst_held | apply ite_held | apply foldl_held
        | fail_if_no_progress (apply Held.mk)
    | split | intro _ | dsimp only | assumption | rfl

theorem execMul_held {s0 s : State} (h : Held s0 s) (c : CoreId) (t : ThreadId) (f : ScalarF) : OutHeld s0 (execMul c t f s) := by
  unfold execMul
  apply outHeld_next
  repeat' first
    | with_reducible first
        | assumption | apply scalarIssue_held | apply setDst_held | apply ite_held | apply foldl_held
        | fail_if_no_progress (apply Held.mk)
    | split | intro _ | dsimp only | assumption | rfl

theorem execShl_held {s0 s : State} (h : Held s0 s) (c : CoreId) (t : ThreadId) (f : ScalarF) : OutHeld s0 (execShl c t f s) := by
  unfold execShl
  apply outHeld_next
  repeat' first
    | with_reducible first
        | assumption | apply scalarIssue_held | apply setDst_held | apply ite_held | apply foldl_held
        | fail_if_no_progress (apply Held.mk)
    | split | intro _ | dsimp only | assumption | rfl

theorem execShr_held {s0 s : State} (h : Held s0 s) (c : CoreId) (t : ThreadId) (f : ScalarF) : OutHeld s0 (execShr c t f s) := by
  unfold execShr
  apply outHeld_next
  repeat' first
    | with_reducible first
        | assumption | apply scalarIssue_held | apply setDst_held | apply ite_held | apply foldl_held
        | fail_if_no_progress (apply Held.mk)
    | split | intro _ | dsimp only | assumption | rfl

theorem execSar_held {s0 s : State} (h : Held s0 s) (c : CoreId) (t : ThreadId) (f : ScalarF) : OutHeld s0 (execSar c t f s) := by
  unfold execSar
  apply outHeld_next
  repeat' first
    | with_reducible first
        | assumption | apply scalarIssue_held | apply setDst_held | apply ite_held | apply foldl_held
        | fail_if_no_progress (apply Held.mk)
    | split | intro _ | dsimp only | assumption | rfl

theorem execAnd_held {s0 s : State} (h : Held s0 s) (c : CoreId) (t : ThreadId) (f : ScalarF) : OutHeld s0 (execAnd c t f s) := by
  unfold execAnd
  apply outHeld_next
  repeat' first
    | with_reducible first
        | assumption | apply scalarIssue_held | apply setDst_held | apply ite_held | apply foldl_held
        | fail_if_no_progress (apply Held.mk)
    | split | intro _ | dsimp only | assumption | rfl

theorem execOr_held {s0 s : State} (h : Held s0 s) (c : CoreId) (t : ThreadId) (f : ScalarF) : OutHeld s0 (execOr c t f s) := by
  unfold execOr
  apply outHeld_next
  repeat' first
    | with_reducible first
        | assumption | apply scalarIssue_held | apply setDst_held | apply ite_held | apply foldl_held
        | fail_if_no_progress (apply Held.mk)
    | split | intro _ | dsimp only | assumption | rfl

theorem execXor_held {s0 s : State} (h : Held s0 s) (c : CoreId) (t : ThreadId) (f : ScalarF) : OutHeld s0 (execXor c t f s) := by
  unfold execXor
  apply outHeld_next
  repeat' first
    | with_reducible first
        | assumption | apply scalarIssue_held | apply setDst_held | apply ite_held | apply foldl_held
        | fail_if_no_progress (apply Held.mk)
    | split | intro _ | dsimp only | assumption | rfl

theorem execMin_held {s0 s : State} (h : Held s0 s) (c : CoreId) (t : ThreadId) (f : ScalarF) : OutHeld s0 (execMin c t f s) := by
  unfold execMin
  apply outHeld_next
  repeat' first
    | with_reducible first
        | assumption | apply scalarIssue_held | apply setDst_held | apply ite_held | apply foldl_held
        | fail_if_no_progress (apply Held.mk)
    | split | intro _ | dsimp only | assumption | rfl

theorem execMax_held {s0 s : State} (h : Held s0 s) (c : CoreId) (t : ThreadId) (f : ScalarF) : OutHeld s0 (execMax c t f s) := by
  unfold execMax
  apply outHeld_next
  repeat' first
    | with_reducible first
        | assumption | apply scalarIssue_held | apply setDst_held | apply ite_held | apply foldl_held
        | fail_if_no_progress (apply Held.mk)
    | split | intro _ | dsimp only | assumption | rfl

theorem execBeq_held {s0 s : State} (h : Held s0 s) (c : CoreId) (t : ThreadId) (f : ScalarF) : OutHeld s0 (execBeq c t f s) := by
  unfold execBeq
  apply outHeld_next
  repeat' first
    | with_reducible first
        | assumption | apply scalarIssue_held | apply ite_held | apply foldl_held
        | fail_if_no_progress (apply Held.mk)
    | split | intro _ | dsimp only | assumption | rfl

theorem execBne_held {s0 s : State} (h : Held s0 s) (c : CoreId) (t : ThreadId) (f : ScalarF) : OutHeld s0 (execBne c t f s) := by
  unfold execBne
  apply outHeld_next
  repeat' first
    | with_reducible first
        | assumption | apply scalarIssue_held | apply ite_held | apply foldl_held
        | fail_if_no_progress (apply Held.mk)
    | split | intro _ | dsimp only | assumption | rfl

theorem execBlt_held {s0 s : State} (h : Held s0 s) (c : CoreId) (t : ThreadId) (f : ScalarF) : OutHeld s0 (execBlt c t f s) := by
  unfold execBlt
  apply outHeld_next
  repeat' first
    | with_reducible first
        | assumption | apply scalarIssue_held | apply ite_held | apply foldl_held
        | fail_if_no_progress (apply Held.mk)
    | split | intro _ | dsimp only | assumption | rfl

theorem execJmp_held {s0 s : State} (h : Held s0 s) (c : CoreId) (t : ThreadId) (f : ScalarF) : OutHeld s0 (execJmp c t f s) := by
  unfold execJmp
  apply outHeld_next
  repeat' first
    | with_reducible first
        | assumption | apply scalarIssue_held | apply ite_held | apply foldl_held
        | fail_if_no_progress (apply Held.mk)
    | split | intro _ | dsimp only | assumption | rfl

theorem groomMiss_held {s0 s : State} (h : Held s0 s) (c : ℕ) (t : ℕ) (page : ℕ) (a : ℕ) : Held s0 (groomMiss c t page a s) := by
  unfold groomMiss
  repeat' first
    | with_reducible first
        | assumption | apply modThread_held | apply event_held | apply modMgmt_held | apply ite_held
        | apply foldl_held | fail_if_no_progress (apply Held.mk)
    | split | intro _ | dsimp only | assumption | rfl

theorem groomHole_held {s0 s : State} (h : Held s0 s) (c : ℕ) (t : ℕ) (a : ℕ) (m : ℕ) : Held s0 (groomHole c t a m s) := by
  unfold groomHole
  repeat' first
    | with_reducible first
        | assumption | apply haltCore_held | apply jobFault_held | apply ite_held | apply foldl_held
        | fail_if_no_progress (apply Held.mk)
    | split | intro _ | dsimp only | assumption | rfl

theorem groomSyncRefuse_held {s0 s : State} (h : Held s0 s) (c : ℕ) (t : ℕ) (code : ℕ) (detail : List Byte) : Held s0 (groomSyncRefuse c t code detail s) := by
  unfold groomSyncRefuse
  repeat' first
    | with_reducible first
        | assumption | apply haltCore_held | apply jobFault_held | apply ite_held | apply foldl_held
        | fail_if_no_progress (apply Held.mk)
    | split | intro _ | dsimp only | assumption | rfl

theorem groomAnswer_held {s0 : State} (c : CoreId) (t : ThreadId) (dst : RegNo) (n pc : Nat) {x : State × SyncAns} (h : Held s0 x.1) :
    Held s0 (groomAnswer c t dst n pc x) := by
  unfold groomAnswer
  split
  · exact threadMove_held (setSreg_held h _ _ _) _ _ _
  · exact threadMove_held h _ _ _
  · exact modThread_held (threadMove_held h _ _ _) _ _ _
  · exact groomSyncRefuse_held h _ _ _ _

theorem remoteSync_held {s0 s : State} (h : Held s0 s) (c : CoreId) (t : ThreadId) (ld : Bool) (dst : RegNo) (chip : ℕ) (n : ℕ) (word : ℕ) (pc : ℕ) (v : Word) : Held s0 (remoteSync c t ld dst chip n word pc v s) := by
  unfold remoteSync
  repeat' first
    | with_reducible first
        | assumption | apply threadMove_held | apply modThread_held | apply sendSyncReq_held | apply syncAgain_held
        | apply modCore_held | apply lostJob_held | apply ite_held | apply foldl_held
        | fail_if_no_progress (apply Held.mk)
    | split | intro _ | dsimp only | assumption | rfl

theorem ldSync_held {s0 s : State} (h : Held s0 s) (c : CoreId) (t : ThreadId) (f : ScalarF) (n : ℕ) (off : ℕ) (pc : ℕ) : Held s0 (ldSync c t f n off pc s) := by
  unfold ldSync
  repeat' first
    | with_reducible first
        | assumption | apply threadMove_held | apply setSreg_held | apply groomAnswer_held | apply opFetchInc_held
        | apply opArrive_held | apply modThread_held | apply opClaim_held | apply opWait_held
        | apply groomSyncRefuse_held | apply ite_held | apply foldl_held | fail_if_no_progress (apply Held.mk)
    | split | intro _ | dsimp only | assumption | rfl

theorem stSync_held {s0 s : State} (h : Held s0 s) (c : CoreId) (t : ThreadId) (f : ScalarF) (n : ℕ) (off : ℕ) (pc : ℕ) : Held s0 (stSync c t f n off pc s) := by
  unfold stSync
  repeat' first
    | with_reducible first
        | assumption | apply groomAnswer_held | apply opSet_held | apply opAdd_held | apply opArrive_held
        | apply groomSyncRefuse_held | apply ite_held | apply foldl_held | fail_if_no_progress (apply Held.mk)
    | split | intro _ | dsimp only | assumption | rfl

theorem groomRemote_held {s0 s : State} (h : Held s0 s) (c : CoreId) (t : ThreadId) (f : ScalarF) (ld : Bool) (chip : ℕ) (a : ℕ) (pc : ℕ) : Held s0 (groomRemote c t f ld chip a pc s) := by
  unfold groomRemote
  repeat' first
    | with_reducible first
        | assumption | apply groomSyncRefuse_held | apply modThread_held | apply remoteSync_held
        | apply groomHole_held | apply ite_held | apply foldl_held | fail_if_no_progress (apply Held.mk)
    | split | intro _ | dsimp only | assumption | rfl

theorem ldWait_held {s0 s : State} (h : Held s0 s) (c : ℕ) (t : ℕ) (dst : RegNo) (a : ℕ) (pc : ℕ) : Held s0 (ldWait c t dst a pc s) := by
  unfold ldWait
  repeat' first
    | with_reducible first
        | assumption | apply modThread_held | apply threadMove_held | apply ite_held | apply foldl_held
        | fail_if_no_progress (apply Held.mk)
    | split | intro _ | dsimp only | assumption | rfl

theorem misaligned_held {s0 s : State} (h : Held s0 s) (c : CoreId) (t : ThreadId) (a : ℕ) : Held s0 (misaligned c t a s) := by
  unfold misaligned
  repeat' first
    | with_reducible first
        | assumption | apply groomSyncRefuse_held | apply groomRefuse_held | apply ite_held | apply foldl_held
        | fail_if_no_progress (apply Held.mk)
    | split | intro _ | dsimp only | assumption | rfl

theorem ldAccess_held {s0 s : State} (h : Held s0 s) (c : CoreId) (t : ThreadId) (f : ScalarF) (pc : ℕ) : Held s0 (ldAccess c t f pc s) := by
  unfold ldAccess
  repeat' first
    | with_reducible first
        | assumption | apply misaligned_held | apply groomRemote_held | apply ldSync_held | apply ldWait_held
        | apply mapConsult_held | apply pageReadStart_held | apply groomMiss_held | apply groomHole_held
        | apply ite_held | apply foldl_held | fail_if_no_progress (apply Held.mk)
    | split | intro _ | dsimp only | assumption | rfl

theorem stWrite_held {s0 s : State} (h : Held s0 s) (c : ℕ) (t : ℕ) (pc : ℕ) (a : ℕ) (v : Word) : Held s0 (stWrite c t pc a v s) := by
  unfold stWrite
  repeat' first
    | with_reducible first
        | assumption | apply modThread_held | apply threadMove_held | apply portTouch_held | apply writeWord_held
        | apply ite_held | apply foldl_held | fail_if_no_progress (apply Held.mk)
    | split | intro _ | dsimp only | assumption | rfl

theorem stAccess_held {s0 s : State} (h : Held s0 s) (c : CoreId) (t : ThreadId) (f : ScalarF) (pc : ℕ) : Held s0 (stAccess c t f pc s) := by
  unfold stAccess
  repeat' first
    | with_reducible first
        | assumption | apply misaligned_held | apply groomRemote_held | apply stSync_held | apply mapConsult_held
        | apply stWrite_held | apply groomMiss_held | apply groomHole_held | apply ite_held | apply foldl_held
        | fail_if_no_progress (apply Held.mk)
    | split | intro _ | dsimp only | assumption | rfl

theorem memRun_held {s0 s : State} (h : Held s0 s) (c : CoreId) (t : ThreadId) (f : ScalarF) (access : ℕ → State → State) (haccess : ∀ x0 t, Held s0 t → Held s0 (access x0 t)) : Held s0 (memRun c t f access s) := by
  unfold memRun
  repeat' first
    | with_reducible first
        | assumption | apply groomRefuse_held | apply haccess | apply ite_held | apply foldl_held
        | fail_if_no_progress (apply Held.mk)
    | split | intro _ | dsimp only | assumption | rfl

theorem execLd_held {s0 s : State} (h : Held s0 s) (c : CoreId) (t : ThreadId) (f : ScalarF) : OutHeld s0 (execLd c t f s) := by
  unfold execLd
  apply outHeld_next
  repeat' first
    | with_reducible first
        | assumption | apply memRun_held | apply ldAccess_held | apply ite_held | apply foldl_held
        | fail_if_no_progress (apply Held.mk)
    | split | intro _ | dsimp only | assumption | rfl

theorem execSt_held {s0 s : State} (h : Held s0 s) (c : CoreId) (t : ThreadId) (f : ScalarF) : OutHeld s0 (execSt c t f s) := by
  unfold execSt
  apply outHeld_next
  repeat' first
    | with_reducible first
        | assumption | apply memRun_held | apply stAccess_held | apply ite_held | apply foldl_held
        | fail_if_no_progress (apply Held.mk)
    | split | intro _ | dsimp only | assumption | rfl

theorem twaitRun_held {s0 s : State} (h : Held s0 s) (c : ℕ) (t : ℕ) (f : ScalarF) : Held s0 (twaitRun c t f s) := by
  unfold twaitRun
  repeat' first
    | with_reducible first
        | assumption | apply modThread_held | apply scalarRun_held | apply ite_held | apply foldl_held
        | fail_if_no_progress (apply Held.mk)
    | split | intro _ | dsimp only | assumption | rfl

theorem execTwait_held {s0 s : State} (h : Held s0 s) (c : CoreId) (t : ThreadId) (f : ScalarF) : OutHeld s0 (execTwait c t f s) := by
  unfold execTwait
  apply outHeld_next
  repeat' first
    | with_reducible first
        | assumption | apply twaitRun_held | apply ite_held | apply foldl_held
        | fail_if_no_progress (apply Held.mk)
    | split | intro _ | dsimp only | assumption | rfl

theorem snapRegs_held {s0 s : State} (h : Held s0 s) (c : ℕ) (t : ℕ) : Held s0 (snapRegs c t s) := by
  unfold snapRegs
  repeat' first
    | with_reducible first
        | assumption | apply modCore_held | apply ite_held | apply foldl_held | fail_if_no_progress (apply Held.mk)
    | split | intro _ | dsimp only | assumption | rfl

theorem stepEnded_held {s0 s : State} (h : Held s0 s) (c : ℕ) (t : ℕ) : Held s0 (stepEnded c t s) := by
  unfold stepEnded
  repeat' first
    | with_reducible first
        | assumption | apply threadAdvance_held | apply modThread_held | apply snapRegs_held | apply ite_held
        | apply foldl_held | fail_if_no_progress (apply Held.mk)
    | split | intro _ | dsimp only | assumption | rfl

theorem stepEndRun_held {s0 s : State} (h : Held s0 s) (c : ℕ) (t : ℕ) (f : ScalarF) : Held s0 (stepEndRun c t f s) := by
  unfold stepEndRun
  repeat' first
    | with_reducible first
        | assumption | apply groomRefuse_held | apply stepEnded_held | apply threadMove_held | apply ite_held
        | apply foldl_held | fail_if_no_progress (apply Held.mk)
    | split | intro _ | dsimp only | assumption | rfl

theorem execStepEnd_held {s0 s : State} (h : Held s0 s) (c : CoreId) (t : ThreadId) (f : ScalarF) : OutHeld s0 (execStepEnd c t f s) := by
  unfold execStepEnd
  apply outHeld_next
  repeat' first
    | with_reducible first
        | assumption | apply stepEndRun_held | apply ite_held | apply foldl_held
        | fail_if_no_progress (apply Held.mk)
    | split | intro _ | dsimp only | assumption | rfl

theorem tileIssue_held {s0 s : State} (h : Held s0 s) (c : ℕ) (t : ℕ) (eng : Fin 8) (acc : Accept) : Held s0 (tileIssue c t eng acc s) := by
  unfold tileIssue
  repeat' first
    | with_reducible first
        | assumption | apply groomRefuse_held | apply modThread_held | apply haltCore_held | apply jobFault_held
        | apply threadMove_held | apply modEng_held | apply measAdd_held | apply ite_held | apply foldl_held
        | fail_if_no_progress (apply Held.mk)
    | split | intro _ | dsimp only | assumption | rfl

theorem execTmac_held {s0 s : State} (h : Held s0 s) (c : CoreId) (t : ThreadId) (f : TileF) : OutHeld s0 (execTmac c t f s) := by
  unfold execTmac
  apply outHeld_next
  repeat' first
    | with_reducible first
        | assumption | apply tileIssue_held | apply ite_held | apply foldl_held
        | fail_if_no_progress (apply Held.mk)
    | split | intro _ | dsimp only | assumption | rfl

theorem execTout_held {s0 s : State} (h : Held s0 s) (c : CoreId) (t : ThreadId) (f : TileF) : OutHeld s0 (execTout c t f s) := by
  unfold execTout
  apply outHeld_next
  repeat' first
    | with_reducible first
        | assumption | apply tileIssue_held | apply ite_held | apply foldl_held
        | fail_if_no_progress (apply Held.mk)
    | split | intro _ | dsimp only | assumption | rfl

theorem execResload_held {s0 s : State} (h : Held s0 s) (c : CoreId) (t : ThreadId) (f : ResloadF) : OutHeld s0 (execResload c t f s) := by
  unfold execResload
  apply outHeld_next
  repeat' first
    | with_reducible first
        | assumption | apply tileIssue_held | apply ite_held | apply foldl_held
        | fail_if_no_progress (apply Held.mk)
    | split | intro _ | dsimp only | assumption | rfl

theorem writeOut_held {s0 s : State} (hs : Held s0 s) (h : HeldTile) (r j : Nat) (fmt : Nat) (y : Int) :
    Held s0 (writeOut h r j fmt y s) := by
  unfold writeOut
  dsimp only
  split
  · exact writeByte_held hs _ _
  · exact writeBytes_held hs _ _

theorem writeTag_held {s0 s : State} (h : Held s0 s) (h : HeldTile) (ep : BitVec 3) (r : ℕ) (lame : Bool) (row : ℕ) : Held s0 (writeTag h ep r lame row s) := by
  unfold writeTag
  repeat' first
    | with_reducible first
        | assumption | apply writeBytes_held | apply ite_held | apply foldl_held
        | fail_if_no_progress (apply Held.mk)
    | split | intro _ | dsimp only | assumption | rfl

theorem tileWrite_held {s0 s : State} (h : Held s0 s) (h : HeldTile) (ep : BitVec 3) (n : ℕ) (m : ℕ) (t : Tile) : Held s0 (tileWrite h ep n m t s).1 := by
  unfold tileWrite
  repeat' first
    | with_reducible first
        | assumption | apply forEach_held | apply writeOut_held | apply writeTag_held | apply ite_held
        | apply foldl_held | fail_if_no_progress (apply Held.mk)
    | split | intro _ | dsimp only | assumption | rfl

theorem tileStep_held {s0 : State} {x : TileRun} (hx : Held s0 x.s) (e : Nat) (h : HeldTile) (nb : Nat) (whole : Bool)
    (p : Nat × Nat) : Held s0 (tileStep e h nb whole x p).s := by
  unfold tileStep
  dsimp only
  apply modEng_held
  split
  · exact hx
  · exact tileWrite_held hx _ _ _ _ _

theorem tileFold_held {s0 : State} (e : Nat) (h : HeldTile) (nb : Nat) (whole : Bool) (l : List (Nat × Nat)) {x : TileRun}
    (hx : Held s0 x.s) : Held s0 (l.foldl (tileStep e h nb whole) x).s := by
  induction l generalizing x with
  | nil => exact hx
  | cons p l ih => exact ih (tileStep_held hx e h nb whole p)

theorem satJoin_held {s0 s : State} (h : Held s0 s) (e : ℕ) (reg : ℕ) : Held s0 (satJoin e reg s) := by
  unfold satJoin
  repeat' first
    | with_reducible first
        | assumption | apply modEng_held | apply ite_held | apply foldl_held | fail_if_no_progress (apply Held.mk)
    | split | intro _ | dsimp only | assumption | rfl

theorem satEnd_held {s0 s : State} (h : Held s0 s) (e : ℕ) (h : HeldTile) (ep : BitVec 3) (l : List SatTile) : Held s0 (satEnd e h ep l s) := by
  unfold satEnd
  repeat' first
    | with_reducible first
        | assumption | apply forEach_held | apply satJoin_held | apply writeTag_held | apply rowsFault_held
        | apply requestFault_held | apply ite_held | apply foldl_held | fail_if_no_progress (apply Held.mk)
    | split | intro _ | dsimp only | assumption | rfl

theorem tileRunList_held {s0 s : State} (hs : Held s0 s) (e : Nat) (h : HeldTile) (n : Nat) (l : List (Nat × Nat))
    (part : Option ((Nat × Nat) × Nat)) (ended : Bool) : Held s0 (tileRunList e h n l part ended s) := by
  have hx : Held s0 (l.foldl (tileStep e h (ceilDiv h.k 32) true) { s := s }).s := tileFold_held e h _ _ l hs
  unfold tileRunList
  generalize l.foldl (tileStep e h (ceilDiv h.k 32) true) { s := s } = x at hx
  have hp : ∀ p b, Held s0 (tileStep e h b false x p).s := fun p b => tileStep_held hx _ _ _ _ _
  cases part with
  | none =>
    dsimp only
    split
    · exact satEnd_held (measAdd_held (modMgmt_held hx _) _ _ _ _) _ _ _ _
    · exact measAdd_held (modMgmt_held hx _) _ _ _ _
  | some q =>
    dsimp only
    split
    · exact satEnd_held (measAdd_held (modMgmt_held (hp _ _) _) _ _ _ _) _ _ _ _
    · exact measAdd_held (modMgmt_held (hp _ _) _) _ _ _ _

theorem mapRuns_held {s0 s : State} (h : Held s0 s) (e : ℕ) (f : Run → Run) : Held s0 (mapRuns e f s) := by
  unfold mapRuns
  repeat' first
    | with_reducible first
        | assumption | apply forEach_held | apply modAg_held | apply ite_held | apply foldl_held
        | fail_if_no_progress (apply Held.mk)
    | split | intro _ | dsimp only | assumption | rfl

theorem consume_held {s0 s : State} (h : Held s0 s) (e : ℕ) (q : ℕ) (n : ℕ) : Held s0 (consume e q n s) := by
  unfold consume
  repeat' first
    | with_reducible first
        | assumption | apply modRin_held | apply ite_held | apply foldl_held | fail_if_no_progress (apply Held.mk)
    | split | intro _ | dsimp only | assumption | rfl

theorem firingComplete_held {s0 s : State} (h : Held s0 s) (e : ℕ) : Held s0 (firingComplete e s) := by
  unfold firingComplete
  repeat' first
    | with_reducible first
        | assumption | apply modEng_held | apply forEach_held | apply modRin_held | apply consume_held
        | apply mapRuns_held | apply engineAdvance_held | apply ite_held | apply foldl_held
        | fail_if_no_progress (apply Held.mk)
    | split | intro _ | dsimp only | assumption | rfl

theorem firingReady_held {s0 s : State} (h : Held s0 s) (e : ℕ) : Held s0 (firingReady e s) := by
  unfold firingReady
  repeat' first
    | with_reducible first
        | assumption | apply modEng_held | apply firingComplete_held | apply ite_held | apply foldl_held
        | fail_if_no_progress (apply Held.mk)
    | split | intro _ | dsimp only | assumption | rfl

theorem startFiring_held {s0 s : State} (h : Held s0 s) (e : ℕ) (q : SchedEntry) : Held s0 (startFiring e q s) := by
  unfold startFiring
  repeat' first
    | with_reducible first
        | assumption | apply modEng_held | apply forEach_held | apply modRout_held | apply firingReady_held
        | apply mapRuns_held | apply ite_held | apply foldl_held | fail_if_no_progress (apply Held.mk)
    | split | intro _ | dsimp only | assumption | rfl

theorem creditTake_held {s0 s : State} (h : Held s0 s) (e : ℕ) (o : ℕ) (n : ℕ) : Held s0 (creditTake e o n s) := by
  unfold creditTake
  repeat' first
    | with_reducible first
        | assumption | apply progress_held | apply jobFault_held | apply modRout_held | apply ite_held
        | apply foldl_held | fail_if_no_progress (apply Held.mk)
    | split | intro _ | dsimp only | assumption | rfl

theorem creditReturn_held {s0 s : State} (h : Held s0 s) (e : ℕ) (o : ℕ) (count : ℕ) (epoch : BitVec 3) : Held s0 (creditReturn e o count epoch s) := by
  unfold creditReturn
  repeat' first
    | with_reducible first
        | assumption | apply modMgmt_held | apply creditTake_held | apply modCore_held | apply ite_held
        | apply foldl_held | fail_if_no_progress (apply Held.mk)
    | split | intro _ | dsimp only | assumption | rfl

theorem joinQueue_held {s0 s : State} (h : Held s0 s) (m : TokenMsg) : Held s0 (joinQueue m s) := by
  unfold joinQueue
  repeat' first
    | with_reducible first
        | assumption | apply jobFault_held | apply writeSpad_held | apply modRin_held | apply event_held
        | apply ite_held | apply foldl_held | fail_if_no_progress (apply Held.mk)
    | split | intro _ | dsimp only | assumption | rfl

theorem staleToken_held {s0 s : State} (h : Held s0 s) (m : TokenMsg) : Held s0 (staleToken m s) := by
  unfold staleToken
  repeat' first
    | with_reducible first
        | assumption | apply creditBack_held | apply modEng_held | apply ite_held | apply foldl_held
        | fail_if_no_progress (apply Held.mk)
    | split | intro _ | dsimp only | assumption | rfl

theorem tokenSort_held {s0 s : State} (h : Held s0 s) (m : TokenMsg) : Held s0 (tokenSort m s) := by
  unfold tokenSort
  repeat' first
    | with_reducible first
        | assumption | apply staleToken_held | apply creditBack_held | apply joinQueue_held | apply modEng_held
        | apply ite_held | apply foldl_held | fail_if_no_progress (apply Held.mk)
    | split | intro _ | dsimp only | assumption | rfl

theorem tokenArrive_held {s0 s : State} (h : Held s0 s) (m : TokenMsg) : Held s0 (tokenArrive m s) := by
  unfold tokenArrive
  repeat' first
    | with_reducible first
        | assumption | apply modMgmt_held | apply tokenSort_held | apply ite_held | apply foldl_held
        | fail_if_no_progress (apply Held.mk)
    | split | intro _ | dsimp only | assumption | rfl

theorem earlyJoin_held {s0 s : State} (h : Held s0 s) (e : ℕ) : Held s0 (earlyJoin e s) := by
  unfold earlyJoin
  repeat' first
    | with_reducible first
        | assumption | apply forEach_held | apply tokenSort_held | apply modEng_held | apply ite_held
        | apply foldl_held | fail_if_no_progress (apply Held.mk)
    | split | intro _ | dsimp only | assumption | rfl

theorem tileDone_held {s0 s : State} (h : Held s0 s) (e : ℕ) (x : Firing) : Held s0 (tileDone e x s) := by
  unfold tileDone
  repeat' first
    | with_reducible first
        | assumption | apply modCore_held | apply firingReady_held | apply progress_held | apply modEng_held
        | apply ite_held | apply foldl_held | fail_if_no_progress (apply Held.mk)
    | split | intro _ | dsimp only | assumption | rfl

theorem abandonFiring_held {s0 s : State} (h : Held s0 s) (e : ℕ) (x : Firing) : Held s0 (abandonFiring e x s) := by
  unfold abandonFiring
  repeat' first
    | with_reducible first
        | assumption | apply forEach_held | apply modRout_held | apply modAg_held | apply modEng_held
        | apply ite_held | apply foldl_held | fail_if_no_progress (apply Held.mk)
    | split | intro _ | dsimp only | assumption | rfl

theorem curbAdmit_held {s0 s : State} (h : Held s0 s) (p : ℕ) (k : ℕ) (q : CurbReq) : Held s0 (curbAdmit p k q s) := by
  unfold curbAdmit
  repeat' first
    | with_reducible first
        | assumption | apply modTiers_held | apply curbCharge_held | apply modCurb_held | apply ite_held
        | apply foldl_held | fail_if_no_progress (apply Held.mk)
    | split | intro _ | dsimp only | assumption | rfl

theorem curbAsk_held {s0 s : State} (h : Held s0 s) (n0 : ℕ) (k : ℕ) (bytes : ℕ) (q : CurbReq) : Held s0 (curbAsk n0 k bytes q s) := by
  unfold curbAsk
  repeat' first
    | with_reducible first
        | assumption | apply measAdd_held | apply curbAdmit_held | apply modCurb_held | apply ite_held
        | apply foldl_held | fail_if_no_progress (apply Held.mk)
    | split | intro _ | dsimp only | assumption | rfl

theorem transferCharge_held {s0 s : State} (h : Held s0 s) (k : ℕ) (a : ℕ) (n : ℕ) : Held s0 (transferCharge k a n s) := by
  unfold transferCharge
  repeat' first
    | with_reducible first
        | assumption | apply forEach_held | apply curbCharge_held | apply ite_held | apply foldl_held
        | fail_if_no_progress (apply Held.mk)
    | split | intro _ | dsimp only | assumption | rfl

theorem transferCount_held {s0 s : State} (h : Held s0 s) (n0 k a n : Nat) : Held s0 (transferCount n0 k a n s) := by
  unfold transferCount
  apply forEach_held h
  intro i t ht
  dsimp only
  split
  · exact measAdd_held ht _ _ _ _
  · exact ht

theorem agCommit_held {s0 s : State} (h : Held s0 s) (e : ℕ) (a : ℕ) (n : ℕ) : Held s0 (agCommit e a n s) := by
  unfold agCommit
  repeat' first
    | with_reducible first
        | assumption | apply progress_held | apply modAg_held | apply ite_held | apply foldl_held
        | fail_if_no_progress (apply Held.mk)
    | split | intro _ | dsimp only | assumption | rfl

theorem modFiring_held {s0 s : State} (h : Held s0 s) (e : ℕ) (f : Firing → Firing) : Held s0 (modFiring e f s) := by
  unfold modFiring
  repeat' first
    | with_reducible first
        | assumption | apply modEng_held | apply ite_held | apply foldl_held | fail_if_no_progress (apply Held.mk)
    | split | intro _ | dsimp only | assumption | rfl

theorem resloadLand_held {s0 s : State} (h : Held s0 s) (e : ℕ) (h : HeldTile) (off : ℕ) (bs : List Byte) : Held s0 (resloadLand e h off bs s) := by
  unfold resloadLand
  repeat' first
    | with_reducible first
        | assumption | apply agCommit_held | apply modEng_held | apply ite_held | apply foldl_held
        | fail_if_no_progress (apply Held.mk)
    | split | intro _ | dsimp only | assumption | rfl

theorem resloadMiss_held {s0 s : State} (h : Held s0 s) (e : ℕ) (page : ℕ) (addr : ℕ) : Held s0 (resloadMiss e page addr s) := by
  unfold resloadMiss
  repeat' first
    | with_reducible first
        | assumption | apply event_held | apply modMgmt_held | apply modAg_held | apply modFiring_held
        | apply ite_held | apply foldl_held | fail_if_no_progress (apply Held.mk)
    | split | intro _ | dsimp only | assumption | rfl

theorem resloadAbandon_held {s0 s : State} (h : Held s0 s) (e : ℕ) (x : Firing) (h : HeldTile) (code : ℕ) (detail : List Byte) : Held s0 (resloadAbandon e x h code detail s) := by
  unfold resloadAbandon
  repeat' first
    | with_reducible first
        | assumption | apply haltCore_held | apply jobFault_held | apply abandonFiring_held | apply ite_held
        | apply foldl_held | fail_if_no_progress (apply Held.mk)
    | split | intro _ | dsimp only | assumption | rfl

theorem resloadIssue_held {s0 s : State} (hs : Held s0 s) (e : Nat) (h : HeldTile) (fuel : Nat) :
    Held s0 (resloadIssue e h fuel s) := by
  induction fuel generalizing s with
  | zero => exact hs
  | succ n ih =>
    unfold resloadIssue
    dsimp only
    split
    · exact hs
    split
    · exact hs
    have hc := fun d a => mapConsult_held hs d a
    split
    · exact resloadMiss_held (hc _ _) _ _ _
    · split
      · exact resloadAbandon_held (hc _ _) _ _ _ _ _
      · exact hc _ _
    · split
      · exact ih (curbAsk_held (modFiring_held (hc _ _) _ _) _ _ _ _)
      · exact ih (modFiring_held (resloadLand_held (hc _ _) _ _ _ _) _ _)

theorem resloadRun_held {s0 s : State} (hs : Held s0 s) (e : Nat) (h : HeldTile) : Held s0 (resloadRun e h s) := by
  have hi := resloadIssue_held hs e h (h.len / 64 + 1)
  unfold resloadRun
  dsimp only
  split
  · exact hi
  split
  · exact tileDone_held hi _ _
  · exact hi

theorem tileWork_held {s0 s : State} (hs : Held s0 s) (e : Nat) (x : Firing) (h : HeldTile) : Held s0 (tileWork e x h s) := by
  unfold tileWork
  split
  · exact resloadRun_held hs _ _
  split
  · exact tileDone_held hs _ _
  · exact tileDone_held (tileRunList_held hs _ _ _ _ _ _) _ _

theorem modRunAt_held {s0 s : State} (h : Held s0 s) (e : ℕ) (a : ℕ) (i : ℕ) (f : Run → Run) : Held s0 (modRunAt e a i f s) := by
  unfold modRunAt
  repeat' first
    | with_reducible first
        | assumption | apply modAg_held | apply ite_held | apply foldl_held | fail_if_no_progress (apply Held.mk)
    | split | intro _ | dsimp only | assumption | rfl

theorem beginPre_held {s0 s : State} (h : Held s0 s) (e : ℕ) (a : AgNo) : Held s0 (beginPre e a s) := by
  unfold beginPre
  repeat' first
    | with_reducible first
        | assumption | apply modCore_held | apply modAg_held | apply ite_held | apply foldl_held
        | fail_if_no_progress (apply Held.mk)
    | split | intro _ | dsimp only | assumption | rfl

theorem streamRun_held {s0 s t : State} {n : Nat} (h : Held s0 s) {e : Nat} {a : AgNo} {post : Bool}
    (hr : streamRun e a post s = some (t, n)) : Held s0 t := by
  unfold streamRun at hr
  have hb : Held s0 (if post then s else beginPre e a s) := by
    split
    · exact h
    · exact beginPre_held h _ _
  generalize (if post then s else beginPre e a s) = q at hr hb
  split at hr
  · cases hr
  · dsimp only at hr
    split at hr
    · cases hr
    · split at hr
      · cases hr
      · cases hr
        exact hb

theorem streamStep_held {s0 s : State} (h : Held s0 s) (e : Nat) (a : AgNo) (post : Bool) (act : Nat → State → State)
    (hact : ∀ i t, Held s0 t → Held s0 (act i t)) : Held s0 (streamStep e a post act s) := by
  unfold streamStep
  split
  · exact h
  · rename_i t i hr
    exact hact i t (streamRun_held h hr)

theorem streamRefuse_held {s0 s : State} (h : Held s0 s) (e : ℕ) (a : AgNo) (i : ℕ) (code : ℕ) (detail : List Byte) : Held s0 (streamRefuse e a i code detail s) := by
  unfold streamRefuse
  repeat' first
    | with_reducible first
        | assumption | apply modAg_held | apply haltCore_held | apply jobFault_held | apply ite_held
        | apply foldl_held | fail_if_no_progress (apply Held.mk)
    | split | intro _ | dsimp only | assumption | rfl

theorem runNext_held {s0 s : State} (h : Held s0 s) (e : ℕ) (a : ℕ) (i : ℕ) : Held s0 (runNext e a i s) := by
  unfold runNext
  repeat' first
    | with_reducible first
        | assumption | apply modRunAt_held | apply ite_held | apply foldl_held
        | fail_if_no_progress (apply Held.mk)
    | split | intro _ | dsimp only | assumption | rfl

theorem streamMiss_held {s0 s : State} (h : Held s0 s) (e : ℕ) (a : ℕ) (i : ℕ) (page : ℕ) (addr : ℕ) : Held s0 (streamMiss e a i page addr s) := by
  unfold streamMiss
  repeat' first
    | with_reducible first
        | assumption | apply event_held | apply modMgmt_held | apply modAg_held | apply ite_held | apply foldl_held
        | fail_if_no_progress (apply Held.mk)
    | split | intro _ | dsimp only | assumption | rfl

theorem loadIssue_held {s0 s : State} (h : Held s0 s) (e : Nat) (a : AgNo) (f : StreamF) (fuel i : Nat) :
    Held s0 (loadIssue e a f fuel i s) := by
  induction fuel generalizing s i with
  | zero => exact h
  | succ n ih =>
    unfold loadIssue
    dsimp only
    split
    · exact runNext_held h _ _ _
    split
    · exact h
    split
    · exact h
    have hc := fun d a => mapConsult_held h d a
    split
    · exact streamMiss_held (hc _ _) _ _ _ _ _
    · exact streamRefuse_held (hc _ _) _ _ _ _ _
    · apply ih
      split
      · exact curbAsk_held (modRunAt_held (hc _ _) _ _ _ _) _ _ _ _
      · exact modRunAt_held (hc _ _) _ _ _ _

theorem storeIssue_held {s0 s : State} (h : Held s0 s) (e : Nat) (a : AgNo) (f : StreamF) (fuel i : Nat) :
    Held s0 (storeIssue e a f fuel i s) := by
  induction fuel generalizing s i with
  | zero => exact h
  | succ n ih =>
    unfold storeIssue
    dsimp only
    split
    · exact runNext_held h _ _ _
    split
    · exact h
    have hc := fun d a => mapConsult_held h d a
    split
    · exact streamMiss_held (hc _ _) _ _ _ _ _
    · exact streamRefuse_held (hc _ _) _ _ _ _ _
    · repeat' split
      all_goals
        repeat' with_reducible first
          | exact hc _ _ | apply ih | apply curbAsk_held | apply agCommit_held | apply writeBytes_held | apply modRunAt_held

theorem recvTake_held {s0 s : State} (h : Held s0 s) (e : Nat) (a : AgNo) (f : StreamF) (fuel i : Nat) :
    Held s0 (recvTake e a f fuel i s) := by
  induction fuel generalizing s i with
  | zero => exact h
  | succ n ih =>
    unfold recvTake
    dsimp only
    split
    · exact runNext_held h _ _ _
    split
    · exact h
    split
    · exact h
    apply ih
    apply modRunAt_held
    apply modRin_held h

theorem lameMixed_held {s0 s : State} (h : Held s0 s) (e slot window row first : Nat) :
    Held s0 (lameMixed e slot window row first s) := by
  unfold lameMixed
  apply forEach_held h
  intro b t ht
  split
  · split
    · apply modReq_held
      apply requestFault_held ht
    · exact ht
  · exact ht

theorem sendOne_held {s0 s : State} (h : Held s0 s) (e : ℕ) (a : AgNo) (f : StreamF) (i : ℕ) (j : ℕ) : Held s0 (sendOne e a f i j s) := by
  unfold sendOne
  repeat' first
    | with_reducible first
        | assumption | apply lameMixed_held | apply modRunAt_held | apply rowsFault_held | apply modRout_held
        | apply measAdd_held | apply sendToken_held | apply ite_held | apply foldl_held
        | fail_if_no_progress (apply Held.mk)
    | split | intro _ | dsimp only | assumption | rfl

theorem sendTake_held {s0 s : State} (h : Held s0 s) (e : Nat) (a : AgNo) (f : StreamF) (fuel i : Nat) :
    Held s0 (sendTake e a f fuel i s) := by
  induction fuel generalizing s i with
  | zero => exact h
  | succ n ih =>
    unfold sendTake
    dsimp only
    split
    · exact runNext_held h _ _ _
    split
    · exact h
    · exact ih (modRunAt_held (sendOne_held h _ _ _ _ _) _ _ _ _) _

theorem countRefuse_held {s0 s : State} (h : Held s0 s) (e : ℕ) (a : AgNo) (i : ℕ) (x : ℕ × ℕ × ℕ) : Held s0 (countRefuse e a i x s) := by
  unfold countRefuse
  repeat' first
    | with_reducible first
        | assumption | apply streamRefuse_held | apply ite_held | apply foldl_held
        | fail_if_no_progress (apply Held.mk)
    | split | intro _ | dsimp only | assumption | rfl

theorem preEnd_held {s0 s : State} (h : Held s0 s) (e : ℕ) (a : AgNo) (i : ℕ) (post : Bool) : Held s0 (preEnd e a i post s) := by
  unfold preEnd
  repeat' first
    | with_reducible first
        | assumption | apply runNext_held | apply modAg_held | apply ite_held | apply foldl_held
        | fail_if_no_progress (apply Held.mk)
    | split | intro _ | dsimp only | assumption | rfl

theorem lostRecords_held {s0 s : State} (h : Held s0 s) (r : Run) : Held s0 (lostRecords r s) := by
  unfold lostRecords
  repeat' first
    | with_reducible first
        | assumption | apply forEach_held | apply requestFault_held | apply ite_held | apply foldl_held
        | fail_if_no_progress (apply Held.mk)
    | split | intro _ | dsimp only | assumption | rfl

theorem commitData_held {s0 s : State} (h : Held s0 s) (r : Run) : Held s0 (commitData r s) := by
  unfold commitData
  repeat' first
    | with_reducible first
        | assumption | apply forEach_held | apply writeBytes_held | apply ite_held | apply foldl_held
        | fail_if_no_progress (apply Held.mk)
    | split | intro _ | dsimp only | assumption | rfl

theorem modMisses_held {s0 s : State} (h : Held s0 s) (e : ℕ) (a : ℕ) (f : Run → Run) (g : Firing → Firing) : Held s0 (modMisses e a f g s) := by
  unfold modMisses
  repeat' first
    | with_reducible first
        | assumption | apply modAg_held | apply modFiring_held | apply ite_held | apply foldl_held
        | fail_if_no_progress (apply Held.mk)
    | split | intro _ | dsimp only | assumption | rfl

theorem execAgResume_held {s0 s : State} (h : Held s0 s) (e : EngId) (ag : AgNo) : OutHeld s0 (execAgResume e ag s) := by
  unfold execAgResume
  apply outHeld_next
  repeat' first
    | with_reducible first
        | assumption | apply modMisses_held | apply ite_held | apply foldl_held
        | fail_if_no_progress (apply Held.mk)
    | split | intro _ | dsimp only | assumption | rfl

theorem writeElem_held {s0 s : State} (h : Held s0 s) (k : VecAt) (v : VecF) (x : ℕ × ℕ × ℤ) : Held s0 (writeElem k v x s) := by
  unfold writeElem
  repeat' first
    | with_reducible first
        | assumption | apply modEng_held | apply writeSpad_held | apply ite_held | apply foldl_held
        | fail_if_no_progress (apply Held.mk)
    | split | intro _ | dsimp only | assumption | rfl

theorem writeOutAll_held {s0 s : State} (h : Held s0 s) (k : VecAt) (v : VecF) (o : VecOut) : Held s0 (writeOutAll k v o s) := by
  unfold writeOutAll
  repeat' first
    | with_reducible first
        | assumption | apply forEach_held | apply writeElem_held | apply writeBytes_held | apply modMgmt_held
        | apply ite_held | apply foldl_held | fail_if_no_progress (apply Held.mk)
    | split | intro _ | dsimp only | assumption | rfl

theorem vecRefuse_held {s0 s : State} (h : Held s0 s) (k : VecAt) (code : ℕ) (more : List Byte) : Held s0 (vecRefuse k code more s) := by
  unfold vecRefuse
  repeat' first
    | with_reducible first
        | assumption | apply haltCore_held | apply jobFault_held | apply abandonFiring_held | apply ite_held
        | apply foldl_held | fail_if_no_progress (apply Held.mk)
    | split | intro _ | dsimp only | assumption | rfl

theorem vecRun_held {s0 s : State} (h : Held s0 s) (k : VecAt) (op : VecOp) (v : VecF) : Held s0 (vecRun k op v s) := by
  unfold vecRun
  repeat' first
    | with_reducible first
        | assumption | apply vecRefuse_held | apply measAdd_held | apply firingComplete_held | apply modEng_held
        | apply writeOutAll_held | apply ite_held | apply foldl_held | fail_if_no_progress (apply Held.mk)
    | split | intro _ | dsimp only | assumption | rfl

theorem vecStep_held {s0 s : State} (h : Held s0 s) (e : EngId) (op : VecOp) (v : VecF) : Held s0 (vecStep e op v s) := by
  unfold vecStep
  repeat' first
    | with_reducible first
        | assumption | apply vecRun_held | apply ite_held | apply foldl_held | fail_if_no_progress (apply Held.mk)
    | split | intro _ | dsimp only | assumption | rfl

theorem execSftLoad_held {s0 s : State} (h : Held s0 s)  : OutHeld s0 (execSftLoad s) := by
  unfold execSftLoad
  apply outHeld_next
  repeat' first
    | with_reducible first
        | assumption | apply modSft_held | apply ite_held | apply foldl_held | fail_if_no_progress (apply Held.mk)
    | split | intro _ | dsimp only | assumption | rfl

theorem execSftCancel_held {s0 s : State} (h : Held s0 s)  : OutHeld s0 (execSftCancel s) := by
  unfold execSftCancel
  apply outHeld_next
  repeat' first
    | with_reducible first
        | assumption | apply modSft_held | apply ite_held | apply foldl_held | fail_if_no_progress (apply Held.mk)
    | split | intro _ | dsimp only | assumption | rfl

theorem reqStage_held {s0 s : State} (h : Held s0 s) (q : CurbReq) (old : ReqStage) (new : ReqStage) : Held s0 (reqStage q old new s) := by
  unfold reqStage
  repeat' first
    | with_reducible first
        | assumption | apply modFiring_held | apply modRunAt_held | apply ite_held | apply foldl_held
        | fail_if_no_progress (apply Held.mk)
    | split | intro _ | dsimp only | assumption | rfl

theorem portServe_held {s0 s : State} (h : Held s0 s) (q : CurbReq) : Held s0 (portServe q s) := by
  unfold portServe
  repeat' first
    | with_reducible first
        | assumption | apply reqStage_held | apply modAg_held | apply portTouch_held | apply agCommit_held
        | apply writeBytes_held | apply ite_held | apply foldl_held | fail_if_no_progress (apply Held.mk)
    | split | intro _ | dsimp only | assumption | rfl

theorem loadLost_held {s0 s : State} (h : Held s0 s) (e : ℕ) (a : ℕ) (i : ℕ) (q : Req) (code : ℕ) (detail : List Byte) : Held s0 (loadLost e a i q code detail s) := by
  unfold loadLost
  repeat' first
    | with_reducible first
        | assumption | apply rowsFault_held | apply requestFault_held | apply modRunAt_held | apply jobFault_held
        | apply ite_held | apply foldl_held | fail_if_no_progress (apply Held.mk)
    | split | intro _ | dsimp only | assumption | rfl

theorem reqEnd_held {s0 s : State} (h : Held s0 s) (e : ℕ) (a : ℕ) (i : ℕ) (q : Req) (stage : ReqStage) (bs : List Byte) : Held s0 (reqEnd e a i q stage bs s) := by
  unfold reqEnd
  repeat' first
    | with_reducible first
        | assumption | apply modRunAt_held | apply ite_held | apply foldl_held
        | fail_if_no_progress (apply Held.mk)
    | split | intro _ | dsimp only | assumption | rfl

theorem chargePage_held {s0 s : State} (h : Held s0 s) (k : ℕ) (a : ℕ) (n : ℕ) : Held s0 (chargePage k a n s) := by
  unfold chargePage
  repeat' first
    | with_reducible first
        | assumption | apply forEach_held | apply curbCharge_held | apply ite_held | apply foldl_held
        | fail_if_no_progress (apply Held.mk)
    | split | intro _ | dsimp only | assumption | rfl

theorem copyBytes_held {s0 s : State} (h : Held s0 s) (src : ℕ) (dst : ℕ) (n : ℕ) : Held s0 (copyBytes src dst n s) := by
  unfold copyBytes
  repeat' first
    | with_reducible first
        | assumption | apply portTouch_held | apply writeBytes_held | apply ite_held | apply foldl_held
        | fail_if_no_progress (apply Held.mk)
    | split | intro _ | dsimp only | assumption | rfl

theorem portsZero_held {s0 s : State} (h : Held s0 s)  : Held s0 (portsZero s) := by
  unfold portsZero
  repeat' first
    | with_reducible first
        | assumption | apply forEach_held | apply moveUnits_held | apply modPort_held | apply ite_held
        | apply foldl_held | fail_if_no_progress (apply Held.mk)
    | split | intro _ | dsimp only | assumption | rfl

theorem portRestore_held {s0 s : State} (h : Held s0 s) (p : ℕ) : Held s0 (portRestore p s) := by
  unfold portRestore
  repeat' first
    | with_reducible first
        | assumption | apply modMgmt_held | apply modPort_held | apply ite_held | apply foldl_held
        | fail_if_no_progress (apply Held.mk)
    | split | intro _ | dsimp only | assumption | rfl

theorem aliasRefuse_held {s0 s : State} (h : Held s0 s) (w : AtomicWriter) (c : ℕ) (o : ℕ) : Held s0 (aliasRefuse w c o s) := by
  unfold aliasRefuse
  repeat' first
    | with_reducible first
        | assumption | apply haltCore_held | apply jobFault_held | apply modThread_held | apply modAg_held
        | apply ite_held | apply foldl_held | fail_if_no_progress (apply Held.mk)
    | split | intro _ | dsimp only | assumption | rfl

theorem aliasDone_held {s0 s : State} (h : Held s0 s) (w : AtomicWriter) : Held s0 (aliasDone w s) := by
  unfold aliasDone
  repeat' first
    | with_reducible first
        | assumption | apply modThread_held | apply agCommit_held | apply modRunAt_held | apply ite_held
        | apply foldl_held | fail_if_no_progress (apply Held.mk)
    | split | intro _ | dsimp only | assumption | rfl

theorem farPass_held {s0 s : State} (h : Held s0 s) (n : ℕ) (region : ℕ) : Held s0 (farPass n region s) := by
  unfold farPass
  repeat' first
    | with_reducible first
        | assumption | apply modSync_held | apply ite_held | apply foldl_held | fail_if_no_progress (apply Held.mk)
    | split | intro _ | dsimp only | assumption | rfl

theorem coreTest_held {s0 s : State} (h : Held s0 s) (c : ℕ) (o : RegionOutcome) : Held s0 (coreTest c o s) := by
  unfold coreTest
  repeat' first
    | with_reducible first
        | assumption | apply farPass_held | apply modCore_held | apply event_held | apply noteEcc_held
        | apply ite_held | apply foldl_held | fail_if_no_progress (apply Held.mk)
    | split | intro _ | dsimp only | assumption | rfl

theorem ostlerTest_held {s0 s : State} (h : Held s0 s) (n : ℕ) (o : RegionOutcome) : Held s0 (ostlerTest n o s) := by
  unfold ostlerTest
  repeat' first
    | with_reducible first
        | assumption | apply farPass_held | apply modOstler_held | apply noteSram_held | apply event_held
        | apply ite_held | apply foldl_held | fail_if_no_progress (apply Held.mk)
    | split | intro _ | dsimp only | assumption | rfl

theorem coreCorrected_held {s0 s : State} (h : Held s0 s) (c : ℕ) (l : List (Fin 256)) : Held s0 (coreCorrected c l s) := by
  unfold coreCorrected
  repeat' first
    | with_reducible first
        | assumption | apply forEach_held | apply noteEcc_held | apply ite_held | apply foldl_held
        | fail_if_no_progress (apply Held.mk)
    | split | intro _ | dsimp only | assumption | rfl

theorem ostlerCorrected_held {s0 s : State} (h : Held s0 s) (n : ℕ) (l : List (Fin 256)) : Held s0 (ostlerCorrected n l s) := by
  unfold ostlerCorrected
  repeat' first
    | with_reducible first
        | assumption | apply forEach_held | apply noteSram_held | apply ite_held | apply foldl_held
        | fail_if_no_progress (apply Held.mk)
    | split | intro _ | dsimp only | assumption | rfl

theorem scrubMove_held {s0 s : State} (h : Held s0 s) (p : ℕ) : Held s0 (scrubMove p s) := by
  unfold scrubMove
  repeat' first
    | with_reducible first
        | assumption | apply modSync_held | apply ite_held | apply foldl_held | fail_if_no_progress (apply Held.mk)
    | split | intro _ | dsimp only | assumption | rfl

theorem scrubSector_held {s0 s : State} (h : Held s0 s) (p : ℕ) (x : UnitErr) (a : ℕ) : Held s0 (scrubSector p x a s) := by
  unfold scrubSector
  repeat' first
    | with_reducible first
        | assumption | apply unitFound_held | apply event_held | apply modSync_held | apply ite_held
        | apply foldl_held | fail_if_no_progress (apply Held.mk)
    | split | intro _ | dsimp only | assumption | rfl

theorem ostlerLeave_held {s0 s : State} (h : Held s0 s) (n : ℕ) : Held s0 (ostlerLeave n s) := by
  unfold ostlerLeave
  repeat' first
    | with_reducible first
        | assumption | apply modOstler_held | apply modDumps_held | apply measChange_held | apply event_held
        | apply chipStop_held | apply ite_held | apply foldl_held | fail_if_no_progress (apply Held.mk)
    | split | intro _ | dsimp only | assumption | rfl

theorem ostlerRetire_held {s0 s : State} (h : Held s0 s) (n : ℕ) : Held s0 (ostlerRetire n s) := by
  unfold ostlerRetire
  repeat' first
    | with_reducible first
        | assumption | apply ostlerLeave_held | apply ite_held | apply foldl_held
        | fail_if_no_progress (apply Held.mk)
    | split | intro _ | dsimp only | assumption | rfl

theorem ostlersRetire_held {s0 s : State} (h : Held s0 s)  : Held s0 (ostlersRetire s) := by
  unfold ostlersRetire
  repeat' first
    | with_reducible first
        | assumption | apply forEach_held | apply ostlerRetire_held | apply ite_held | apply foldl_held
        | fail_if_no_progress (apply Held.mk)
    | split | intro _ | dsimp only | assumption | rfl

theorem modHst_held {s0 s : State} (h : Held s0 s) (h : ℕ) (i : ℕ) (f : HldState → HldState) : Held s0 (modHst h i f s) := by
  unfold modHst
  repeat' first
    | with_reducible first
        | assumption | apply modHitch_held | apply ite_held | apply foldl_held
        | fail_if_no_progress (apply Held.mk)
    | split | intro _ | dsimp only | assumption | rfl

theorem modExp_held {s0 s : State} (h : Held s0 s) (h : ℕ) (i : ℕ) (f : ExpSide → ExpSide) : Held s0 (modExp h i f s) := by
  unfold modExp
  repeat' first
    | with_reducible first
        | assumption | apply modHitch_held | apply ite_held | apply foldl_held
        | fail_if_no_progress (apply Held.mk)
    | split | intro _ | dsimp only | assumption | rfl

theorem hitchConsult_held {s0 s : State} (h : Held s0 s) (h : ℕ) (l : List (Bool × ℕ × ℕ)) : Held s0 (hitchConsult h l s) := by
  unfold hitchConsult
  repeat' first
    | with_reducible first
        | assumption | apply forEach_held | apply mapConsult_held | apply ite_held | apply foldl_held
        | fail_if_no_progress (apply Held.mk)
    | split | intro _ | dsimp only | assumption | rfl

theorem hitchMiss_held {s0 s : State} (h : Held s0 s) (h : ℕ) (i : ℕ) (page : ℕ) (a : ℕ) : Held s0 (hitchMiss h i page a s) := by
  unfold hitchMiss
  repeat' first
    | with_reducible first
        | assumption | apply event_held | apply modMgmt_held | apply modHst_held | apply ite_held
        | apply foldl_held | fail_if_no_progress (apply Held.mk)
    | split | intro _ | dsimp only | assumption | rfl

theorem hitchReach_held {s0 s : State} (h : Held s0 s) (h : ℕ) (i : ℕ) (l : List (Bool × ℕ × ℕ)) (hole : State → State) (go : State → State) (hhole : ∀ t, Held s0 t → Held s0 (hole  t)) (hgo : ∀ t, Held s0 t → Held s0 (go  t)) : Held s0 (hitchReach h i l hole go s) := by
  unfold hitchReach
  repeat' first
    | with_reducible first
        | assumption | apply hitchConsult_held | apply hitchMiss_held | apply jobFault_held | apply modHst_held
        | apply hhole | apply hgo | apply ite_held | apply foldl_held | fail_if_no_progress (apply Held.mk)
    | split | intro _ | dsimp only | assumption | rfl

theorem hitchBytes_held {s0 s : State} (h : Held s0 s) (n0 : ℕ) (a : ℕ) (n : ℕ) : Held s0 (hitchBytes n0 a n s) := by
  unfold hitchBytes
  repeat' first
    | with_reducible first
        | assumption | apply transferCount_held | apply portTouch_held | apply transferCharge_held | apply ite_held
        | apply foldl_held | fail_if_no_progress (apply Held.mk)
    | split | intro _ | dsimp only | assumption | rfl

theorem hitchAdd_held {s0 s : State} (h : Held s0 s) (n : ℕ) : Held s0 (hitchAdd n s) := by
  unfold hitchAdd
  repeat' first
    | with_reducible first
        | assumption | apply counterPut_held | apply ite_held | apply foldl_held
        | fail_if_no_progress (apply Held.mk)
    | split | intro _ | dsimp only | assumption | rfl

theorem hitchFlush_held {s0 s : State} (hs : Held s0 s) (h : Nat) : Held s0 (hitchFlush h s) := by
  unfold hitchFlush
  dsimp only
  apply modHitch_held
  apply pairFold_held _ _ hs
  intro y m hy
  split
  · exact hy
  · apply segmentsOut_held
    · exact modHitch_held hy _ _
    · intro r t ht
      exact lostJob_held ht _ _

theorem hitchSend_held {s0 s : State} (h : Held s0 s) (h : ℕ) (n0 : ℕ) (chip : ℕ) (peer : ℕ) (m : HitchMsg) : Held s0 (hitchSend h n0 chip peer m s) := by
  unfold hitchSend
  repeat' first
    | with_reducible first
        | assumption | apply hitchFlush_held | apply modHitch_held | apply ite_held | apply foldl_held
        | fail_if_no_progress (apply Held.mk)
    | split | intro _ | dsimp only | assumption | rfl

theorem hitchFree_held {s0 s : State} (h : Held s0 s) (h : ℕ) (m : HitchMsg) : Held s0 (hitchFree h m s) := by
  unfold hitchFree
  repeat' first
    | with_reducible first
        | assumption | apply packetOut_held | apply lostJob_held | apply ite_held | apply foldl_held
        | fail_if_no_progress (apply Held.mk)
    | split | intro _ | dsimp only | assumption | rfl

theorem hitchStale_held {s0 s : State} (h : Held s0 s) (h : ℕ) (m : HitchMsg) : Held s0 (hitchStale h m s) := by
  unfold hitchStale
  repeat' first
    | with_reducible first
        | assumption | apply hitchFree_held | apply modHitch_held | apply ite_held | apply foldl_held
        | fail_if_no_progress (apply Held.mk)
    | split | intro _ | dsimp only | assumption | rfl

theorem combineRow_held {s0 s : State} (h : Held s0 s) (d : Hld) (ep : BitVec 3) (i : ℕ) (r : HRow) : Held s0 (combineRow d ep i r s) := by
  unfold combineRow
  repeat' first
    | with_reducible first
        | assumption | apply modMgmt_held | apply writeBytes_held | apply ite_held | apply foldl_held
        | fail_if_no_progress (apply Held.mk)
    | split | intro _ | dsimp only | assumption | rfl

theorem combineLaunch_held {s0 s : State} (h : Held s0 s) (h : ℕ) (i : ℕ) : Held s0 (combineLaunch h i s) := by
  unfold combineLaunch
  repeat' first
    | with_reducible first
        | assumption | apply hitchBytes_held | apply forEach_held | apply combineRow_held | apply hitchAdd_held
        | apply modHst_held | apply ite_held | apply foldl_held | fail_if_no_progress (apply Held.mk)
    | split | intro _ | dsimp only | assumption | rfl

theorem gatherDone_held {s0 s : State} (h : Held s0 s) (h : ℕ) (i : ℕ) : Held s0 (gatherDone h i s) := by
  unfold gatherDone
  repeat' first
    | with_reducible first
        | assumption | apply hitchReach_held | apply modHst_held | apply combineLaunch_held | apply ite_held
        | apply foldl_held | fail_if_no_progress (apply Held.mk)
    | split | intro _ | dsimp only | assumption | rfl

theorem hitchResume_held {s0 s : State} (h : Held s0 s)  : Held s0 (hitchResume s) := by
  unfold hitchResume
  repeat' first
    | with_reducible first
        | assumption | apply forEach_held | apply gatherDone_held | apply ite_held | apply foldl_held
        | fail_if_no_progress (apply Held.mk)
    | split | intro _ | dsimp only | assumption | rfl

theorem dispatchTake_held {s0 s : State} (hs : Held s0 s) (h : Nat) (m : HitchHdr) (tag : BitVec 16) (slots : List (Nat × Nat))
    (row : List Byte) : Held s0 (dispatchTake h m tag slots row s) := by
  unfold dispatchTake
  apply forEach_held hs
  intro p t ht
  exact modExp_held (writeByte_held (writeBytes_held (writeBytes_held ht _ _) _ _) _ _) _ _ _

theorem markerAt_held {s0 s : State} (h : Held s0 s) (h : ℕ) (m : HitchHdr) : Held s0 (markerAt h m s) := by
  unfold markerAt
  repeat' first
    | with_reducible first
        | assumption | apply modExp_held | apply forEach_held | apply hitchAdd_held | apply writeBytes_held
        | apply ite_held | apply foldl_held | fail_if_no_progress (apply Held.mk)
    | split | intro _ | dsimp only | assumption | rfl

theorem markerTake_held {s0 s : State} (h : Held s0 s) (h : ℕ) (m : HitchHdr) : Held s0 (markerTake h m s) := by
  unfold markerTake
  repeat' first
    | with_reducible first
        | assumption | apply forEach_held | apply markerAt_held | apply ite_held | apply foldl_held
        | fail_if_no_progress (apply Held.mk)
    | split | intro _ | dsimp only | assumption | rfl

theorem dispatchRow_held {s0 s : State} (h : Held s0 s) (h : ℕ) (k : ℕ) (batch : ℕ) (d : Hld) (i : ℕ) (r : HRow) : Held s0 (dispatchRow h k batch d i r s) := by
  unfold dispatchRow
  repeat' first
    | with_reducible first
        | assumption | apply hitchBytes_held | apply forEach_held | apply dispatchTake_held | apply hitchSend_held
        | apply ite_held | apply foldl_held | fail_if_no_progress (apply Held.mk)
    | split | intro _ | dsimp only | assumption | rfl

theorem sendMarkers_held {s0 s : State} (h : Held s0 s) (h : ℕ) (k : ℕ) (batch : ℕ) (d : Hld) : Held s0 (sendMarkers h k batch d s) := by
  unfold sendMarkers
  repeat' first
    | with_reducible first
        | assumption | apply forEach_held | apply markerTake_held | apply hitchSend_held | apply ite_held
        | apply foldl_held | fail_if_no_progress (apply Held.mk)
    | split | intro _ | dsimp only | assumption | rfl

theorem launchCount_held {s0 s : State} (h : Held s0 s) (h : ℕ) (k : ℕ) : Held s0 (launchCount h k s) := by
  unfold launchCount
  repeat' first
    | with_reducible first
        | assumption | apply modHitch_held | apply modHst_held | apply ite_held | apply foldl_held
        | fail_if_no_progress (apply Held.mk)
    | split | intro _ | dsimp only | assumption | rfl

theorem launchRefuse_held {s0 s : State} (h : Held s0 s) (h : ℕ) (k : ℕ) (m : ℕ) (area : ℕ) : Held s0 (launchRefuse h k m area s) := by
  unfold launchRefuse
  repeat' first
    | with_reducible first
        | assumption | apply jobFault_held | apply modHst_held | apply launchCount_held | apply ite_held
        | apply foldl_held | fail_if_no_progress (apply Held.mk)
    | split | intro _ | dsimp only | assumption | rfl

theorem launchRun_held {s0 s : State} (h : Held s0 s) (h : ℕ) (k : ℕ) (m : ℕ) : Held s0 (launchRun h k m s) := by
  unfold launchRun
  repeat' first
    | with_reducible first
        | assumption | apply launchCount_held | apply modMgmt_held | apply hitchBytes_held | apply modHitch_held
        | apply modHst_held | apply forEach_held | apply dispatchRow_held | apply gatherDone_held
        | apply sendMarkers_held | apply ite_held | apply foldl_held | fail_if_no_progress (apply Held.mk)
    | split | intro _ | dsimp only | assumption | rfl

theorem launchHole_held {s0 s : State} (h : Held s0 s) (h : ℕ) (k : ℕ) : Held s0 (launchHole h k s) := by
  unfold launchHole
  repeat' first
    | with_reducible first
        | assumption | apply modHst_held | apply launchCount_held | apply ite_held | apply foldl_held
        | fail_if_no_progress (apply Held.mk)
    | split | intro _ | dsimp only | assumption | rfl

theorem launchSized_held {s0 s : State} (h : Held s0 s) (h : ℕ) (k : ℕ) : Held s0 (launchSized h k s) := by
  unfold launchSized
  repeat' first
    | with_reducible first
        | assumption | apply launchRefuse_held | apply hitchReach_held | apply launchHole_held
        | apply launchRun_held | apply ite_held | apply foldl_held | fail_if_no_progress (apply Held.mk)
    | split | intro _ | dsimp only | assumption | rfl

theorem launchOpen_held {s0 s : State} (h : Held s0 s) (h : ℕ) (k : ℕ) : Held s0 (launchOpen h k s) := by
  unfold launchOpen
  repeat' first
    | with_reducible first
        | assumption | apply launchRefuse_held | apply hitchReach_held | apply launchHole_held
        | apply launchSized_held | apply ite_held | apply foldl_held | fail_if_no_progress (apply Held.mk)
    | split | intro _ | dsimp only | assumption | rfl

theorem hitchArrive_held {s0 s : State} (h : Held s0 s) (h : ℕ) (m : HitchMsg) (ep : BitVec 3) (take : State → State) (htake : ∀ t, Held s0 t → Held s0 (take  t)) : Held s0 (hitchArrive h m ep take s) := by
  unfold hitchArrive
  repeat' first
    | with_reducible first
        | assumption | apply modMgmt_held | apply hitchFree_held | apply hitchStale_held | apply htake
        | apply ite_held | apply foldl_held | fail_if_no_progress (apply Held.mk)
    | split | intro _ | dsimp only | assumption | rfl

theorem returnCancelled_held {s0 s : State} (h : Held s0 s) (h : ℕ) (msg : HitchMsg) : Held s0 (returnCancelled h msg s) := by
  unfold returnCancelled
  repeat' first
    | with_reducible first
        | assumption | apply hitchFree_held | apply modHitch_held | apply ite_held | apply foldl_held
        | fail_if_no_progress (apply Held.mk)
    | split | intro _ | dsimp only | assumption | rfl

theorem returnLand_held {s0 s : State} (h : Held s0 s) (h : ℕ) (i : ℕ) (token : ℕ) (c : ℕ) (tag : BitVec 16) (row : List Byte) : Held s0 (returnLand h i token c tag row s) := by
  unfold returnLand
  repeat' first
    | with_reducible first
        | assumption | apply hitchBytes_held | apply writeBytes_held | apply modHst_held | apply ite_held
        | apply foldl_held | fail_if_no_progress (apply Held.mk)
    | split | intro _ | dsimp only | assumption | rfl

theorem returnOpen_held {s0 s : State} (h : Held s0 s) (reached : Bool) (h : ℕ) (m : HitchHdr) (expert : ℕ) (tag : BitVec 16) (row : List Byte) : Held s0 (returnOpen reached h m expert tag row s) := by
  unfold returnOpen
  repeat' first
    | with_reducible first
        | assumption | apply hitchStale_held | apply hitchFree_held | apply jobFault_held
        | apply returnCancelled_held | apply modHst_held | apply gatherDone_held | apply returnLand_held
        | apply hitchReach_held | apply ite_held | apply foldl_held | fail_if_no_progress (apply Held.mk)
    | split | intro _ | dsimp only | assumption | rfl

theorem returnLate_held {s0 s : State} (h : Held s0 s) (h : ℕ) (m : HitchHdr) (expert : ℕ) (tag : BitVec 16) (row : List Byte) : Held s0 (returnLate h m expert tag row s) := by
  unfold returnLate
  repeat' first
    | with_reducible first
        | assumption | apply returnCancelled_held | apply modHst_held | apply hitchStale_held | apply ite_held
        | apply foldl_held | fail_if_no_progress (apply Held.mk)
    | split | intro _ | dsimp only | assumption | rfl

theorem returnTake_held {s0 s : State} (h : Held s0 s) (reached : Bool) (h : ℕ) (m : HitchHdr) (expert : ℕ) (tag : BitVec 16) (row : List Byte) : Held s0 (returnTake reached h m expert tag row s) := by
  unfold returnTake
  repeat' first
    | with_reducible first
        | assumption | apply returnLate_held | apply returnOpen_held | apply returnCancelled_held
        | apply modHst_held | apply hitchStale_held | apply ite_held | apply foldl_held
        | fail_if_no_progress (apply Held.mk)
    | split | intro _ | dsimp only | assumption | rfl

theorem hitchIn_held {s0 s : State} (h : Held s0 s) (h : ℕ) (msg : HitchMsg) : Held s0 (hitchIn h msg s) := by
  unfold hitchIn
  repeat' first
    | with_reducible first
        | assumption | apply hitchArrive_held | apply hitchFree_held | apply dispatchTake_held
        | apply markerTake_held | apply returnTake_held | apply ite_held | apply foldl_held
        | fail_if_no_progress (apply Held.mk)
    | split | intro _ | dsimp only | assumption | rfl

theorem returnSend_held {s0 s : State} (h : Held s0 s) (h : ℕ) (i : Fin 64) (d : Hld) (e : MapEntry) (expert : ℕ) (f : ExpSlot) : Held s0 (returnSend h i d e expert f s) := by
  unfold returnSend
  repeat' first
    | with_reducible first
        | assumption | apply returnTake_held | apply hitchSend_held | apply ite_held | apply foldl_held
        | fail_if_no_progress (apply Held.mk)
    | split | intro _ | dsimp only | assumption | rfl

theorem returnsSend_held {s0 s : State} (h : Held s0 s) (h : ℕ) (i : Fin 64) (d : Hld) (expert : ℕ) (n : ℕ) : Held s0 (returnsSend h i d expert n s) := by
  unfold returnsSend
  repeat' first
    | with_reducible first
        | assumption | apply forEach_held | apply returnSend_held | apply modExp_held | apply ite_held
        | apply foldl_held | fail_if_no_progress (apply Held.mk)
    | split | intro _ | dsimp only | assumption | rfl

theorem hitchCredit_held {s0 s : State} (h : Held s0 s) (h : ℕ) (chip : ℕ) (peer : ℕ) (credits : ℕ) : Held s0 (hitchCredit h chip peer credits s) := by
  unfold hitchCredit
  repeat' first
    | with_reducible first
        | assumption | apply modMgmt_held | apply jobFault_held | apply modHitch_held | apply hitchFlush_held
        | apply ite_held | apply foldl_held | fail_if_no_progress (apply Held.mk)
    | split | intro _ | dsimp only | assumption | rfl

theorem launchLate_held {s0 s : State} (h : Held s0 s) (h : ℕ) (i : ℕ) : Held s0 (launchLate h i s) := by
  unfold launchLate
  repeat' first
    | with_reducible first
        | assumption | apply forEach_held | apply rowsFault_held | apply requestFault_held | apply gatherDone_held
        | apply modHst_held | apply ite_held | apply foldl_held | fail_if_no_progress (apply Held.mk)
    | split | intro _ | dsimp only | assumption | rfl

theorem hitchCancel_held {s0 s : State} (h : Held s0 s) (rows : List Nat) : Held s0 (hitchCancel rows s) := by
  unfold hitchCancel
  apply forEach_held h
  intro n t ht
  apply forEach_held ht
  intro i u hu
  split
  · apply gatherDone_held
    exact modHst_held hu _ _ _
  · exact hu

theorem hitchTableLost_held {s0 s : State} (h : Held s0 s) (h : ℕ) (n : ℕ) : Held s0 (hitchTableLost h n s) := by
  unfold hitchTableLost
  repeat' first
    | with_reducible first
        | assumption | apply jobFault_held | apply closeLaunches_held | apply modHitch_held | apply ite_held
        | apply foldl_held | fail_if_no_progress (apply Held.mk)
    | split | intro _ | dsimp only | assumption | rfl

theorem hitchRowLost_held {s0 s : State} (h : Held s0 s) (h : ℕ) (i : ℕ) (r : ℕ) (a : ℕ) (code : ℕ) (detail : List Byte) : Held s0 (hitchRowLost h i r a code detail s) := by
  unfold hitchRowLost
  repeat' first
    | with_reducible first
        | assumption | apply rowsFault_held | apply requestFault_held | apply modHst_held | apply ite_held
        | apply foldl_held | fail_if_no_progress (apply Held.mk)
    | split | intro _ | dsimp only | assumption | rfl

theorem remember_held {s0 s : State} (h : Held s0 s) (n : ℕ) (tag : ℕ) : Held s0 (remember n tag s) := by
  unfold remember
  repeat' first
    | with_reducible first
        | assumption | apply modServe_held | apply ite_held | apply foldl_held
        | fail_if_no_progress (apply Held.mk)
    | split | intro _ | dsimp only | assumption | rfl

theorem lastFault_held {s0 s : State} (h : Held s0 s) (n : ℕ) (code : ℕ) : Held s0 (lastFault n code s) := by
  unfold lastFault
  repeat' first
    | with_reducible first
        | assumption | apply modSess_held | apply ite_held | apply foldl_held | fail_if_no_progress (apply Held.mk)
    | split | intro _ | dsimp only | assumption | rfl

theorem decideOn_held {s0 s : State} (h : Held s0 s) (ring : ℕ) (c : Completion) : Held s0 (decideOn ring c s) := by
  unfold decideOn
  repeat' first
    | with_reducible first
        | assumption | apply modHost_held | apply modRing_held | apply ite_held | apply foldl_held
        | fail_if_no_progress (apply Held.mk)
    | split | intro _ | dsimp only | assumption | rfl

theorem countAdmit_held {s0 s : State} (h : Held s0 s) (ring : ℕ) : Held s0 (countAdmit ring s) := by
  unfold countAdmit
  repeat' first
    | with_reducible first
        | assumption | apply modRing_held | apply ite_held | apply foldl_held | fail_if_no_progress (apply Held.mk)
    | split | intro _ | dsimp only | assumption | rfl

theorem serveCompletion_held {s0 s : State} (h : Held s0 s) (q : ServeReq) (sess : ℕ) (kind : ℕ) (code : ℕ) (reason : ℕ) (tokens : ℕ) (acc : ℕ) (len : ℕ) : Held s0 (serveCompletion q sess kind code reason tokens acc len s) := by
  unfold serveCompletion
  repeat' first
    | with_reducible first
        | assumption | apply decideOn_held | apply ite_held | apply foldl_held
        | fail_if_no_progress (apply Held.mk)
    | split | intro _ | dsimp only | assumption | rfl

theorem serveRefuse_held {s0 s : State} (h : Held s0 s) (r : ServeReq) (ends : Bool) (fault : ℕ × List Byte) (last : Bool) : Held s0 (serveRefuse r ends fault last s) := by
  unfold serveRefuse
  repeat' first
    | with_reducible first
        | assumption | apply requestFault_held | apply serveCompletion_held | apply remember_held
        | apply lastFault_held | apply ite_held | apply foldl_held | fail_if_no_progress (apply Held.mk)
    | split | intro _ | dsimp only | assumption | rfl

theorem weightDone_held {s0 s : State} (h : Held s0 s) (w : WeightCmd) (kind : ℕ) (code : ℕ) (bytes : ℕ) : Held s0 (weightDone w kind code bytes s) := by
  unfold weightDone
  repeat' first
    | with_reducible first
        | assumption | apply decideOn_held | apply ite_held | apply foldl_held
        | fail_if_no_progress (apply Held.mk)
    | split | intro _ | dsimp only | assumption | rfl

theorem weightFault_held {s0 s : State} (h : Held s0 s) (w : WeightCmd) (code : ℕ) (detail : List Byte) : Held s0 (weightFault w code detail s) := by
  unfold weightFault
  repeat' first
    | with_reducible first
        | assumption | apply weightDone_held | apply requestFault_held | apply ite_held | apply foldl_held
        | fail_if_no_progress (apply Held.mk)
    | split | intro _ | dsimp only | assumption | rfl

theorem weightRefused_held {s0 s : State} (h : Held s0 s) (w : WeightCmd) : Held s0 (weightRefused w s) := by
  unfold weightRefused
  repeat' first
    | with_reducible first
        | assumption | apply takeFree_held | apply weightFault_held | apply ite_held | apply foldl_held
        | fail_if_no_progress (apply Held.mk)
    | split | intro _ | dsimp only | assumption | rfl

theorem jobCompletion_held {s0 s : State} (h : Held s0 s) (j : JobCmd) (kind : ℕ) (code : ℕ) (reason : ℕ) (strides : ℕ) (charged : ℕ) : Held s0 (jobCompletion j kind code reason strides charged s) := by
  unfold jobCompletion
  repeat' first
    | with_reducible first
        | assumption | apply decideOn_held | apply ite_held | apply foldl_held
        | fail_if_no_progress (apply Held.mk)
    | split | intro _ | dsimp only | assumption | rfl

theorem jobRefuse_held {s0 s : State} (h : Held s0 s) (j : JobCmd) (code : ℕ) (detail : List Byte) : Held s0 (jobRefuse j code detail s) := by
  unfold jobRefuse
  repeat' first
    | with_reducible first
        | assumption | apply jobCompletion_held | apply requestFault_held | apply ite_held | apply foldl_held
        | fail_if_no_progress (apply Held.mk)
    | split | intro _ | dsimp only | assumption | rfl

theorem refuseEntry_held {s0 s : State} (h : Held s0 s) (ring : RingId) (e : BitVec 512) (slot : ℕ) : Held s0 (refuseEntry ring e slot s) := by
  unfold refuseEntry
  repeat' first
    | with_reducible first
        | assumption | apply decideOn_held | apply requestFault_held | apply serveRefuse_held
        | apply weightRefused_held | apply jobRefuse_held | apply ite_held | apply foldl_held
        | fail_if_no_progress (apply Held.mk)
    | split | intro _ | dsimp only | assumption | rfl

theorem ringInvalid_held {s0 s : State} (h : Held s0 s) (ring : RingId) : Held s0 (ringInvalid ring s) := by
  unfold ringInvalid
  repeat' first
    | with_reducible first
        | assumption | apply forEach_held | apply refuseEntry_held | apply countAdmit_held | apply ite_held
        | apply foldl_held | fail_if_no_progress (apply Held.mk)
    | split | intro _ | dsimp only | assumption | rfl

theorem admitInvalid_held {s0 s : State} (h : Held s0 s) : Held s0 (admitInvalid s) := by
  unfold admitInvalid
  split
  · exact h
  refine forEach_held h (fun n t ht => ?_)
  split
  · exact ringInvalid_held ht _
  · exact ht

theorem openNine_held {s0 s : State} (h : Held s0 s)  : Held s0 (openNine s) := by
  unfold openNine
  repeat' first
    | with_reducible first
        | assumption | apply admitInvalid_held | apply setAct_held | apply ite_held | apply foldl_held
        | fail_if_no_progress (apply Held.mk)
    | split | intro _ | dsimp only | assumption | rfl

theorem admitEntry_held {s0 s : State} (h : Held s0 s) (ring : RingId) : Held s0 (admitEntry ring s) := by
  unfold admitEntry
  repeat' first
    | with_reducible first
        | assumption | apply admitInvalid_held | apply countAdmit_held | apply openNine_held | apply ite_held
        | apply foldl_held | fail_if_no_progress (apply Held.mk)
    | split | intro _ | dsimp only | assumption | rfl

theorem snapRing_held {s0 s : State} (h : Held s0 s) (n : ℕ) (v : RingView) (left : ℕ) : Held s0 (snapRing n v left s).1 := by
  unfold snapRing
  repeat' first
    | with_reducible first
        | assumption | apply modRing_held | apply event_held | apply emit_held | apply ite_held | apply foldl_held
        | fail_if_no_progress (apply Held.mk)
    | split | intro _ | dsimp only | assumption | rfl

theorem setEn_held {s0 s : State} (h : Held s0 s) (n : ℕ) (en : Bool) : Held s0 (setEn n en s) := by
  unfold setEn
  repeat' first
    | with_reducible first
        | assumption | apply modRing_held | apply ite_held | apply foldl_held | fail_if_no_progress (apply Held.mk)
    | split | intro _ | dsimp only | assumption | rfl

theorem outWrite_held {s0 s : State} (h : Held s0 s) (n : ℕ) (addr : ℕ) (toks : List ℕ) : Held s0 (outWrite n addr toks s).1 := by
  unfold outWrite
  repeat' first
    | with_reducible first
        | assumption | apply emit_held | apply modHost_held | apply modRing_held | apply ite_held
        | apply foldl_held | fail_if_no_progress (apply Held.mk)
    | split | intro _ | dsimp only | assumption | rfl

theorem flushOut_held {s0 s : State} (h : Held s0 s) (n : ℕ) : Held s0 (flushOut n s) := by
  unfold flushOut
  repeat' first
    | with_reducible first
        | assumption | apply forEach_held | apply emit_held | apply modHost_held | apply modRing_held
        | apply ite_held | apply foldl_held | fail_if_no_progress (apply Held.mk)
    | split | intro _ | dsimp only | assumption | rfl

theorem etxiaWrite_held {s0 s : State} (h : Held s0 s) (a : ℕ) (bs : List Byte) : Held s0 (etxiaWrite a bs s) := by
  unfold etxiaWrite
  repeat' first
    | with_reducible first
        | assumption | apply writeBytes_held | apply portTouch_held | apply transferCharge_held | apply ite_held
        | apply foldl_held | fail_if_no_progress (apply Held.mk)
    | split | intro _ | dsimp only | assumption | rfl

theorem setEntry_held {s0 s : State} (h : Held s0 s) (n : ℕ) (p : ℕ) (slot : ℕ) : Held s0 (setEntry n p slot s) := by
  unfold setEntry
  repeat' first
    | with_reducible first
        | assumption | apply etxiaWrite_held | apply ite_held | apply foldl_held
        | fail_if_no_progress (apply Held.mk)
    | split | intro _ | dsimp only | assumption | rfl

theorem freeSlot_held {s0 s : State} (h : Held s0 s) (n : ℕ) (decode : Bool) (wave : ℕ) (a : ℕ) : Held s0 (freeSlot n decode wave a s) := by
  unfold freeSlot
  repeat' first
    | with_reducible first
        | assumption | apply modServe_held | apply ite_held | apply foldl_held
        | fail_if_no_progress (apply Held.mk)
    | split | intro _ | dsimp only | assumption | rfl

theorem noteWritten_held {s0 s : State} (h : Held s0 s) (n : ℕ) (len : ℕ) : Held s0 (noteWritten n len s) := by
  unfold noteWritten
  repeat' first
    | with_reducible first
        | assumption | apply modServe_held | apply ite_held | apply foldl_held
        | fail_if_no_progress (apply Held.mk)
    | split | intro _ | dsimp only | assumption | rfl

theorem closeSlot_held {s0 s : State} (h : Held s0 s) (n : ℕ) (p : ℕ) (a : ℕ) : Held s0 (closeSlot n p a s) := by
  unfold closeSlot
  repeat' first
    | with_reducible first
        | assumption | apply modServe_held | apply ite_held | apply foldl_held
        | fail_if_no_progress (apply Held.mk)
    | split | intro _ | dsimp only | assumption | rfl

theorem allocSlot_held {s0 s : State} (h : Held s0 s) (v : Serving) (tier : ℕ) : Held s0 (allocSlot v tier s).1 := by
  unfold allocSlot
  repeat' first
    | with_reducible first
        | assumption | apply modServe_held | apply modTiers_held | apply ite_held | apply foldl_held
        | fail_if_no_progress (apply Held.mk)
    | split | intro _ | dsimp only | assumption | rfl

theorem allocSlots_held {s0 s : State} (h : Held s0 s) (v : Serving) (tier n : Nat) (l : List Nat) :
    Held s0 (allocSlots v tier n l s).1 := by
  induction n generalizing s l with
  | zero => exact h
  | succ n ih =>
    have ha := allocSlot_held h v tier
    unfold allocSlots
    split
    · rename_i t a hq
      rw [hq] at ha
      exact ih ha _
    · rename_i t c d hq
      rw [hq] at ha
      exact modServe_held ha _

theorem dropStep_held {s0 s : State} (h : Held s0 s) (n : ℕ) (q : Request) : Held s0 (dropStep n q s) := by
  unfold dropStep
  repeat' first
    | with_reducible first
        | assumption | apply forEach_held | apply freeSlot_held | apply setEntry_held | apply modServe_held
        | apply ite_held | apply foldl_held | fail_if_no_progress (apply Held.mk)
    | split | intro _ | dsimp only | assumption | rfl

theorem sessIdle_held {s0 s : State} (h : Held s0 s) (n : ℕ) : Held s0 (sessIdle n s) := by
  unfold sessIdle
  repeat' first
    | with_reducible first
        | assumption | apply modServe_held | apply modSess_held | apply ite_held | apply foldl_held
        | fail_if_no_progress (apply Held.mk)
    | split | intro _ | dsimp only | assumption | rfl

theorem startReq_held {s0 s : State} (h : Held s0 s) (n : ℕ) (q : Request) : Held s0 (startReq n q s) := by
  unfold startReq
  repeat' first
    | with_reducible first
        | assumption | apply modServe_held | apply modSess_held | apply ite_held | apply foldl_held
        | fail_if_no_progress (apply Held.mk)
    | split | intro _ | dsimp only | assumption | rfl

theorem faultDone_held {s0 s : State} (h : Held s0 s) (n : ℕ) (q : Request) (code : ℕ) : Held s0 (faultDone n q code s) := by
  unfold faultDone
  repeat' first
    | with_reducible first
        | assumption | apply remember_held | apply serveCompletion_held | apply lastFault_held | apply ite_held
        | apply foldl_held | fail_if_no_progress (apply Held.mk)
    | split | intro _ | dsimp only | assumption | rfl

theorem startNext_held {s0 s : State} (h : Held s0 s) (n k : Nat) : Held s0 (startNext n k s) := by
  induction k generalizing s with
  | zero => exact h
  | succ k ih =>
    unfold startNext
    split
    · exact h
    · dsimp only
      split
      · apply ih
        apply faultDone_held
        apply requestFault_held
        exact modServe_held h _
      · apply startReq_held
        exact modServe_held h _

theorem endReq_held {s0 s : State} (h : Held s0 s) (n kind code reason : Nat) : Held s0 (endReq n kind code reason s) := by
  unfold endReq
  split
  · exact h
  · dsimp only
    apply startNext_held
    apply sessIdle_held
    apply modSess_held
    apply remember_held
    apply serveCompletion_held
    split
    · exact h
    · exact dropStep_held h _ _

theorem rejectReq_held {s0 s : State} (h : Held s0 s) (r : ServeReq) (x : Reject) : Held s0 (rejectReq r x s) := by
  unfold rejectReq
  repeat' first
    | with_reducible first
        | assumption | apply serveRefuse_held | apply ite_held | apply foldl_held
        | fail_if_no_progress (apply Held.mk)
    | split | intro _ | dsimp only | assumption | rfl

theorem enqueue_held {s0 s : State} (h : Held s0 s) (n : ℕ) (q : Request) : Held s0 (enqueue n q s) := by
  unfold enqueue
  repeat' first
    | with_reducible first
        | assumption | apply modServe_held | apply faultDone_held | apply requestFault_held | apply startReq_held
        | apply ite_held | apply foldl_held | fail_if_no_progress (apply Held.mk)
    | split | intro _ | dsimp only | assumption | rfl

theorem openEntry_held {s0 s : State} (h : Held s0 s) (n : ℕ) (v : Serving) (r : ServeReq) : Held s0 (openEntry n v r s) := by
  unfold openEntry
  repeat' first
    | with_reducible first
        | assumption | apply zeroFill_held | apply portTouch_held | apply transferCharge_held | apply modServe_held
        | apply modSess_held | apply ite_held | apply foldl_held | fail_if_no_progress (apply Held.mk)
    | split | intro _ | dsimp only | assumption | rfl

theorem admitEnd_held {s0 s : State} (h : Held s0 s) (close : Bool) (r : ServeReq) : Held s0 (admitEnd close r s) := by
  unfold admitEnd
  repeat' first
    | with_reducible first
        | assumption | apply admitEntry_held | apply serveRefuse_held | apply modServe_held | apply ite_held
        | apply foldl_held | fail_if_no_progress (apply Held.mk)
    | split | intro _ | dsimp only | assumption | rfl

theorem dirSet_held {s0 s : State} (h : Held s0 s) (id : ℕ) (f : DirEntry → DirEntry) : Held s0 (dirSet id f s) := by
  unfold dirSet
  repeat' first
    | with_reducible first
        | assumption | apply modWeights_held | apply ite_held | apply foldl_held
        | fail_if_no_progress (apply Held.mk)
    | split | intro _ | dsimp only | assumption | rfl

theorem useAdapter_held {s0 s : State} (h : Held s0 s) (v : Serving) (n : ℕ) (k : ℕ) : Held s0 (useAdapter v n k s) := by
  unfold useAdapter
  repeat' first
    | with_reducible first
        | assumption | apply modTiers_held | apply dirSet_held | apply etxiaWrite_held | apply modWeights_held
        | apply ite_held | apply foldl_held | fail_if_no_progress (apply Held.mk)
    | split | intro _ | dsimp only | assumption | rfl

theorem setRowAdapter_held {s0 s : State} (h : Held s0 s) (v : Serving) (slots row k : Nat) :
    Held s0 (setRowAdapter v slots row k s) := by
  unfold setRowAdapter
  split
  · exact h
  · exact forEach_held (etxiaWrite_held h _ _) (fun j t ht => etxiaWrite_held ht _ _)

theorem fillRow_held {s0 s : State} (h : Held s0 s) (v : Serving) (row : ℕ) (pos : ℕ) (node : ℕ) (prefill : Bool) (n : ℕ) (token : ℕ) (mask : ℕ) (aslot : ℕ) (wave : ℕ) : Held s0 (fillRow v row pos node prefill n token mask aslot wave s) := by
  unfold fillRow
  repeat' first
    | with_reducible first
        | assumption | apply etxiaWrite_held | apply modServe_held | apply setRowAdapter_held | apply ite_held
        | apply foldl_held | fail_if_no_progress (apply Held.mk)
    | split | intro _ | dsimp only | assumption | rfl

theorem waveFault_held {s0 s : State} (h : Held s0 s) (n : ℕ) (code : ℕ) (detail : List Byte) : Held s0 (waveFault n code detail s) := by
  unfold waveFault
  repeat' first
    | with_reducible first
        | assumption | apply endReq_held | apply requestFault_held | apply ite_held | apply foldl_held
        | fail_if_no_progress (apply Held.mk)
    | split | intro _ | dsimp only | assumption | rfl

theorem fillPrefill_held {s0 s : State} (h : Held s0 s) (v : Serving) (wave n : Nat) : Held s0 (fillPrefill v wave n s).1 := by
  unfold fillPrefill
  split
  · exact h
  · dsimp only
    split
    · exact h
    split
    · exact h
    · exact waveFault_held h _ _ _
    · have ha := fun k => allocSlots_held h v (sessOf s n).kvTier k []
      split
      · rename_i t x hq
        have hb : Held s0 t := by
          rw [← (show _ = t from congrArg Prod.fst hq)]
          exact ha _
        exact waveFault_held hb _ _ _
      · rename_i t x hq
        have hb : Held s0 t := by
          rw [← (show _ = t from congrArg Prod.fst hq)]
          exact ha _
        dsimp only
        apply modSess_held
        apply modReq_held
        apply forEach_held
        · exact useAdapter_held hb _ _ _
        · intro p u hu
          apply setEntry_held
          exact fillRow_held hu _ _ _ _ _ _ _ _ _ _

theorem fillDecode_held {s0 s : State} (h : Held s0 s) (v : Serving) (wave n : Nat) : Held s0 (fillDecode v wave n s).1 := by
  unfold fillDecode
  split
  · exact h
  · dsimp only
    split
    · exact h
    split
    · exact h
    · exact waveFault_held h _ _ _
    · have ha := fun k => allocSlots_held h v (sessOf s n).kvTier k []
      split
      · rename_i t x hq
        have hb : Held s0 t := by
          rw [← (show _ = t from congrArg Prod.fst hq)]
          exact ha _
        exact waveFault_held hb _ _ _
      · rename_i t x hq
        have hb : Held s0 t := by
          rw [← (show _ = t from congrArg Prod.fst hq)]
          exact ha _
        dsimp only
        apply modSess_held
        apply modReq_held
        apply forEach_held
        · exact useAdapter_held hb _ _ _
        · intro p u hu
          apply setEntry_held
          exact fillRow_held hu _ _ _ _ _ _ _ _ _ _

theorem fillAll_held {s0 s : State} (h : Held s0 s) {f : Nat → State → State × Bool}
    (hf : ∀ n t, Held s0 t → Held s0 (f n t).1) (l : List Nat) : Held s0 (fillAll f l s) := by
  induction l generalizing s with
  | nil => exact h
  | cons n l ih =>
    unfold fillAll
    dsimp only
    split
    · exact ih (hf n s h)
    · exact hf n s h

theorem stuckNow_held {s0 s : State} (h : Held s0 s) (l : List ℕ) : Held s0 (stuckNow l s) := by
  unfold stuckNow
  repeat' first
    | with_reducible first
        | assumption | apply modServe_held | apply ite_held | apply foldl_held
        | fail_if_no_progress (apply Held.mk)
    | split | intro _ | dsimp only | assumption | rfl

theorem clearRows_held {s0 s : State} (h : Held s0 s) (v : Serving) (lo : ℕ) (n : ℕ) : Held s0 (clearRows v lo n s) := by
  unfold clearRows
  repeat' first
    | with_reducible first
        | assumption | apply forEach_held | apply setRowAdapter_held | apply etxiaWrite_held | apply ite_held
        | apply foldl_held | fail_if_no_progress (apply Held.mk)
    | split | intro _ | dsimp only | assumption | rfl

theorem chargeResult_held {s0 s : State} (h : Held s0 s) (v : Serving) (r : ℕ) : Held s0 (chargeResult v r s) := by
  unfold chargeResult
  repeat' first
    | with_reducible first
        | assumption | apply portTouch_held | apply transferCharge_held | apply ite_held | apply foldl_held
        | fail_if_no_progress (apply Held.mk)
    | split | intro _ | dsimp only | assumption | rfl

theorem stepDone_held {s0 s : State} (h : Held s0 s) (n : ℕ) : Held s0 (stepDone n s) := by
  unfold stepDone
  repeat' first
    | with_reducible first
        | assumption | apply modServe_held | apply modReq_held | apply modSess_held | apply ite_held
        | apply foldl_held | fail_if_no_progress (apply Held.mk)
    | split | intro _ | dsimp only | assumption | rfl

theorem emitTokens_held {s0 s : State} (h : Held s0 s) (n : ℕ) (toks : List ℕ) : Held s0 (emitTokens n toks s).1 := by
  unfold emitTokens
  repeat' first
    | with_reducible first
        | assumption | apply modSess_held | apply modReq_held | apply outWrite_held | apply ite_held
        | apply foldl_held | fail_if_no_progress (apply Held.mk)
    | split | intro _ | dsimp only | assumption | rfl

theorem afterCommit_held {s0 s : State} (h : Held s0 s) (n : ℕ) (v : Serving) (last : Option ℕ) (ended : Bool) (fits : Bool) : Held s0 (afterCommit n v last ended fits s) := by
  unfold afterCommit
  repeat' first
    | with_reducible first
        | assumption | apply endReq_held | apply requestFault_held | apply ite_held | apply foldl_held
        | fail_if_no_progress (apply Held.mk)
    | split | intro _ | dsimp only | assumption | rfl

theorem commitStep_held {s0 s : State} (h : Held s0 s) (n : ℕ) (v : Serving) (q : Request) : Held s0 (commitStep n v q s) := by
  unfold commitStep
  repeat' first
    | with_reducible first
        | assumption | apply forEach_held | apply setEntry_held | apply freeSlot_held | apply modSess_held
        | apply noteWritten_held | apply modReq_held | apply stepDone_held | apply emitTokens_held
        | apply afterCommit_held | apply ite_held | apply foldl_held | fail_if_no_progress (apply Held.mk)
    | split | intro _ | dsimp only | assumption | rfl

theorem commitChunk_held {s0 s : State} (h : Held s0 s) (n : ℕ) (v : Serving) (q : Request) : Held s0 (commitChunk n v q s) := by
  unfold commitChunk
  repeat' first
    | with_reducible first
        | assumption | apply modSess_held | apply noteWritten_held | apply modReq_held | apply stepDone_held
        | apply emitTokens_held | apply afterCommit_held | apply ite_held | apply foldl_held
        | fail_if_no_progress (apply Held.mk)
    | split | intro _ | dsimp only | assumption | rfl

theorem rangeEnd_held {s0 s : State} (h : Held s0 s) (n : ℕ) (q : Request) (row : ℕ) (y : ℕ) : Held s0 (rangeEnd n q row y s) := by
  unfold rangeEnd
  repeat' first
    | with_reducible first
        | assumption | apply endReq_held | apply requestFault_held | apply ite_held | apply foldl_held
        | fail_if_no_progress (apply Held.mk)
    | split | intro _ | dsimp only | assumption | rfl

theorem faultEnd_held {s0 s : State} (h : Held s0 s) (n : ℕ) : Held s0 (faultEnd n s) := by
  unfold faultEnd
  repeat' first
    | with_reducible first
        | assumption | apply rangeEnd_held | apply endReq_held | apply ite_held | apply foldl_held
        | fail_if_no_progress (apply Held.mk)
    | split | intro _ | dsimp only | assumption | rfl

theorem lastDone_held {s0 s : State} (h : Held s0 s) (n : ℕ) (kind : ℕ) : Held s0 (lastDone n kind s) := by
  unfold lastDone
  repeat' first
    | with_reducible first
        | assumption | apply modSess_held | apply ite_held | apply foldl_held | fail_if_no_progress (apply Held.mk)
    | split | intro _ | dsimp only | assumption | rfl

theorem cancelQueued_held {s0 s : State} (h : Held s0 s) (n : ℕ) (q : Request) : Held s0 (cancelQueued n q s) := by
  unfold cancelQueued
  repeat' first
    | with_reducible first
        | assumption | apply lastDone_held | apply remember_held | apply serveCompletion_held | apply modServe_held
        | apply ite_held | apply foldl_held | fail_if_no_progress (apply Held.mk)
    | split | intro _ | dsimp only | assumption | rfl

theorem cancelRunning_held {s0 s : State} (h : Held s0 s) (n : ℕ) : Held s0 (cancelRunning n s) := by
  unfold cancelRunning
  repeat' first
    | with_reducible first
        | assumption | apply endReq_held | apply hitchCancel_held | apply ite_held | apply foldl_held
        | fail_if_no_progress (apply Held.mk)
    | split | intro _ | dsimp only | assumption | rfl

theorem endDone_held {s0 s : State} (h : Held s0 s) (n : ℕ) (kind : ℕ) (r : ServeReq) : Held s0 (endDone n kind r s) := by
  unfold endDone
  repeat' first
    | with_reducible first
        | assumption | apply lastDone_held | apply serveCompletion_held | apply ite_held | apply foldl_held
        | fail_if_no_progress (apply Held.mk)
    | split | intro _ | dsimp only | assumption | rfl

theorem applyCancel_held {s0 s : State} (h : Held s0 s) (r : ServeReq) : Held s0 (applyCancel r s) := by
  unfold applyCancel
  repeat' first
    | with_reducible first
        | assumption | apply endDone_held | apply serveCompletion_held | apply cancelQueued_held
        | apply cancelRunning_held | apply ite_held | apply foldl_held | fail_if_no_progress (apply Held.mk)
    | split | intro _ | dsimp only | assumption | rfl

theorem applyClose_held {s0 s : State} (h : Held s0 s) (r : ServeReq) : Held s0 (applyClose r s) := by
  unfold applyClose
  repeat' first
    | with_reducible first
        | assumption | apply serveCompletion_held | apply forEach_held | apply cancelQueued_held
        | apply cancelRunning_held | apply closeSlot_held | apply setEntry_held | apply modServe_held
        | apply modSess_held | apply ite_held | apply foldl_held | fail_if_no_progress (apply Held.mk)
    | split | intro _ | dsimp only | assumption | rfl

theorem jobEnded_held {s0 s : State} (h : Held s0 s) (code : ℕ) (detail : List Byte) : Held s0 (jobEnded code detail s) := by
  unfold jobEnded
  repeat' first
    | with_reducible first
        | assumption | apply requestFault_held | apply ite_held | apply foldl_held
        | fail_if_no_progress (apply Held.mk)
    | split | intro _ | dsimp only | assumption | rfl

theorem endClosing_held {s0 s : State} (h : Held s0 s) (code : ℕ) (n : ℕ) : Held s0 (endClosing code n s) := by
  unfold endClosing
  repeat' first
    | with_reducible first
        | assumption | apply forEach_held | apply lastFault_held | apply serveCompletion_held | apply jobEnded_held
        | apply modServe_held | apply modSess_held | apply setEntry_held | apply ite_held | apply foldl_held
        | fail_if_no_progress (apply Held.mk)
    | split | intro _ | dsimp only | assumption | rfl

theorem endCloseReq_held {s0 s : State} (h : Held s0 s) (code : ℕ) (r : ServeReq) : Held s0 (endCloseReq code r s) := by
  unfold endCloseReq
  repeat' first
    | with_reducible first
        | assumption | apply lastFault_held | apply serveCompletion_held | apply jobEnded_held | apply ite_held
        | apply foldl_held | fail_if_no_progress (apply Held.mk)
    | split | intro _ | dsimp only | assumption | rfl

theorem endRequests_held {s0 s : State} (h : Held s0 s) (code : ℕ) : Held s0 (endRequests code s) := by
  unfold endRequests
  repeat' first
    | with_reducible first
        | assumption | apply forEach_held | apply faultDone_held | apply jobEnded_held | apply modServe_held
        | apply endReq_held | apply endClosing_held | apply endCloseReq_held | apply ite_held | apply foldl_held
        | fail_if_no_progress (apply Held.mk)
    | split | intro _ | dsimp only | assumption | rfl

theorem quietTick_held {s0 s : State} (h : Held s0 s)  : Held s0 (quietTick s) := by
  unfold quietTick
  repeat' first
    | with_reducible first
        | assumption | apply modServe_held | apply ite_held | apply foldl_held
        | fail_if_no_progress (apply Held.mk)
    | split | intro _ | dsimp only | assumption | rfl

theorem dirAdd_held {s0 s : State} (h : Held s0 s) (objId : ℕ) (tier : ℕ) (die : ℕ) (kind : ℕ) (bytes : ℕ) (modelId : ℕ) (stored : Bool) : Held s0 (dirAdd objId tier die kind bytes modelId stored s) := by
  unfold dirAdd
  repeat' first
    | with_reducible first
        | assumption | apply modWeights_held | apply ite_held | apply foldl_held
        | fail_if_no_progress (apply Held.mk)
    | split | intro _ | dsimp only | assumption | rfl

theorem dirStored_held {s0 s : State} (h : Held s0 s) (id : ℕ) : Held s0 (dirStored id s) := by
  unfold dirStored
  repeat' first
    | with_reducible first
        | assumption | apply dirSet_held | apply ite_held | apply foldl_held | fail_if_no_progress (apply Held.mk)
    | split | intro _ | dsimp only | assumption | rfl

theorem loadGo_held {s0 s : State} (h : Held s0 s) (x : Load) : Held s0 (loadGo x s) := by
  unfold loadGo
  repeat' first
    | with_reducible first
        | assumption | apply weightRefused_held | apply modWeights_held | apply moveUnits_held
        | apply weightDone_held | apply dirStored_held | apply portTouch_held | apply writeBytes_held
        | apply ite_held | apply foldl_held | fail_if_no_progress (apply Held.mk)
    | split | intro _ | dsimp only | assumption | rfl

theorem loadsGo_held {s0 s : State} (h : Held s0 s)  : Held s0 (loadsGo s) := by
  unfold loadsGo
  repeat' first
    | with_reducible first
        | assumption | apply forEach_held | apply loadGo_held | apply modWeights_held | apply ite_held
        | apply foldl_held | fail_if_no_progress (apply Held.mk)
    | split | intro _ | dsimp only | assumption | rfl

theorem setSlot_held {s0 s : State} (h : Held s0 s) (k : Fin 2) (c : CacheSlot) : Held s0 (setSlot k c s) := by
  unfold setSlot
  repeat' first
    | with_reducible first
        | assumption | apply modWeights_held | apply ite_held | apply foldl_held
        | fail_if_no_progress (apply Held.mk)
    | split | intro _ | dsimp only | assumption | rfl

theorem dirRemove_held {s0 s : State} (h : Held s0 s) (d : DirEntry) : Held s0 (dirRemove d s) := by
  unfold dirRemove
  repeat' first
    | with_reducible first
        | assumption | apply poolReleased_held | apply modTiers_held | apply modWeights_held | apply ite_held
        | apply foldl_held | fail_if_no_progress (apply Held.mk)
    | split | intro _ | dsimp only | assumption | rfl

theorem setRelay_held {s0 s : State} (h : Held s0 s) (k : Fin 2) (r : Option Relay) : Held s0 (setRelay k r s) := by
  unfold setRelay
  repeat' first
    | with_reducible first
        | assumption | apply modWeights_held | apply ite_held | apply foldl_held
        | fail_if_no_progress (apply Held.mk)
    | split | intro _ | dsimp only | assumption | rfl

theorem relayBegin_held {s0 s : State} (h : Held s0 s) (k : Fin 2) (r : Relay) : Held s0 (relayBegin k r s) := by
  unfold relayBegin
  repeat' first
    | with_reducible first
        | assumption | apply setRelay_held | apply dirAdd_held | apply ite_held | apply foldl_held
        | fail_if_no_progress (apply Held.mk)
    | split | intro _ | dsimp only | assumption | rfl

theorem relayNote_held {s0 s : State} (h : Held s0 s) (chip : ℕ) (slot : Fin 2) (kind : NoteKind) (chunk : ℕ) : Held s0 (relayNote chip slot kind chunk s) := by
  unfold relayNote
  repeat' first
    | with_reducible first
        | assumption | apply packetOut_held | apply linkDiscard_held | apply ite_held | apply foldl_held
        | fail_if_no_progress (apply Held.mk)
    | split | intro _ | dsimp only | assumption | rfl

theorem relayCut_held {s0 s : State} (h : Held s0 s) (slot : Fin 2) : Held s0 (relayCut slot s) := by
  unfold relayCut
  repeat' first
    | with_reducible first
        | assumption | apply forEach_held | apply relayNote_held | apply setRelay_held | apply ite_held
        | apply foldl_held | fail_if_no_progress (apply Held.mk)
    | split | intro _ | dsimp only | assumption | rfl

theorem relayAskFrom_held {s0 s : State} (h : Held s0 s) (slot : Fin 2) (l : List Nat) : Held s0 (relayAskFrom slot l s) := by
  induction l generalizing s with
  | nil => exact relayCut_held h _
  | cons i l ih =>
    unfold relayAskFrom
    split
    · exact h
    split
    · exact ih (countUnreach_held (setRelay_held h _ _))
    · exact relayNote_held (setRelay_held h _ _) _ _ _ _

theorem relayBreak_held {s0 s : State} (h : Held s0 s) (slot : Fin 2) (i : ℕ) : Held s0 (relayBreak slot i s) := by
  unfold relayBreak
  repeat' first
    | with_reducible first
        | assumption | apply relayAskFrom_held | apply setRelay_held | apply ite_held | apply foldl_held
        | fail_if_no_progress (apply Held.mk)
    | split | intro _ | dsimp only | assumption | rfl

theorem relayForwardOne_held {s0 s : State} (h : Held s0 s) (slot : Fin 2) : Held s0 (relayForwardOne slot s) := by
  unfold relayForwardOne
  repeat' first
    | with_reducible first
        | assumption | apply segmentsOut_held | apply relayBreak_held | apply setRelay_held | apply ite_held
        | apply foldl_held | fail_if_no_progress (apply Held.mk)
    | split | intro _ | dsimp only | assumption | rfl

theorem relayForward_held {s0 s : State} (h : Held s0 s) (slot : Fin 2) : Held s0 (relayForward slot s) := by
  unfold relayForward
  repeat' first
    | with_reducible first
        | assumption | apply forEach_held | apply relayForwardOne_held | apply ite_held | apply foldl_held
        | fail_if_no_progress (apply Held.mk)
    | split | intro _ | dsimp only | assumption | rfl

theorem relayAgain_held {s0 s : State} (h : Held s0 s) (slot : Fin 2) (c : ℕ) : Held s0 (relayAgain slot c s) := by
  unfold relayAgain
  repeat' first
    | with_reducible first
        | assumption | apply segmentsOut_held | apply relayBreak_held | apply ite_held | apply foldl_held
        | fail_if_no_progress (apply Held.mk)
    | split | intro _ | dsimp only | assumption | rfl

theorem relayAckBack_held {s0 s : State} (h : Held s0 s) (slot : Fin 2) (c : ℕ) : Held s0 (relayAckBack slot c s) := by
  unfold relayAckBack
  repeat' first
    | with_reducible first
        | assumption | apply relayNote_held | apply setRelay_held | apply ite_held | apply foldl_held
        | fail_if_no_progress (apply Held.mk)
    | split | intro _ | dsimp only | assumption | rfl

theorem relayStore_held {s0 s : State} (h : Held s0 s) (r : Relay) (c : ℕ) (data : List Byte) : Held s0 (relayStore r c data s) := by
  unfold relayStore
  repeat' first
    | with_reducible first
        | assumption | apply portTouch_held | apply chargePage_held | apply writeBytes_held | apply ite_held
        | apply foldl_held | fail_if_no_progress (apply Held.mk)
    | split | intro _ | dsimp only | assumption | rfl

theorem relayFail_held {s0 s : State} (h : Held s0 s) (slot : Fin 2) (r : Relay) : Held s0 (relayFail slot r s) := by
  unfold relayFail
  repeat' first
    | with_reducible first
        | assumption | apply modWeights_held | apply weightFault_held | apply setRelay_held | apply ite_held
        | apply foldl_held | fail_if_no_progress (apply Held.mk)
    | split | intro _ | dsimp only | assumption | rfl

theorem relayBad_held {s0 s : State} (h : Held s0 s) (slot : Fin 2) (r : Relay) (c : ℕ) : Held s0 (relayBad slot r c s) := by
  unfold relayBad
  repeat' first
    | with_reducible first
        | assumption | apply relayFail_held | apply relayNote_held | apply setRelay_held | apply ite_held
        | apply foldl_held | fail_if_no_progress (apply Held.mk)
    | split | intro _ | dsimp only | assumption | rfl

theorem relayStored_held {s0 s : State} (h : Held s0 s) (r : Relay) : Held s0 (relayStored r s) := by
  unfold relayStored
  repeat' first
    | with_reducible first
        | assumption | apply dirStored_held | apply ite_held | apply foldl_held
        | fail_if_no_progress (apply Held.mk)
    | split | intro _ | dsimp only | assumption | rfl

theorem relayGood_held {s0 s : State} (h : Held s0 s) (slot : Fin 2) (r : Relay) (c : ℕ) (data : List Byte) : Held s0 (relayGood slot r c data s) := by
  unfold relayGood
  repeat' first
    | with_reducible first
        | assumption | apply setRelay_held | apply relayStored_held | apply relayStore_held | apply relayNote_held
        | apply relayForward_held | apply relayAckBack_held | apply ite_held | apply foldl_held
        | fail_if_no_progress (apply Held.mk)
    | split | intro _ | dsimp only | assumption | rfl

theorem relayIntro_held {s0 s : State} (h : Held s0 s) (slot : Fin 2) (x : RelayIntro) : Held s0 (relayIntro slot x s) := by
  unfold relayIntro
  repeat' first
    | with_reducible first
        | assumption | apply relayBegin_held | apply segmentsOut_held | apply relayBreak_held | apply ite_held
        | apply foldl_held | fail_if_no_progress (apply Held.mk)
    | split | intro _ | dsimp only | assumption | rfl

theorem relayChunk_held {s0 s : State} (h : Held s0 s) (slot : Fin 2) (intro : Option RelayIntro) (c : ℕ) (crc : Option (BitVec 32)) (data : List Byte) : Held s0 (relayChunk slot intro c crc data s) := by
  unfold relayChunk
  repeat' first
    | with_reducible first
        | assumption | apply relayIntro_held | apply relayBad_held | apply relayGood_held | apply ite_held
        | apply foldl_held | fail_if_no_progress (apply Held.mk)
    | split | intro _ | dsimp only | assumption | rfl

theorem relayThere_held {s0 s : State} (h : Held s0 s) (slot : Fin 2) (acked : Bool) (c : ℕ) : Held s0 (relayThere slot acked c s) := by
  unfold relayThere
  repeat' first
    | with_reducible first
        | assumption | apply relayForward_held | apply relayAckBack_held | apply setRelay_held | apply ite_held
        | apply foldl_held | fail_if_no_progress (apply Held.mk)
    | split | intro _ | dsimp only | assumption | rfl

theorem relayAnswered_held {s0 s : State} (h : Held s0 s) (slot : Fin 2) (i : ℕ) (n : ℕ) : Held s0 (relayAnswered slot i n s) := by
  unfold relayAnswered
  repeat' first
    | with_reducible first
        | assumption | apply relayAskFrom_held | apply setRelay_held | apply relayForward_held | apply forEach_held
        | apply relayAckBack_held | apply ite_held | apply foldl_held | fail_if_no_progress (apply Held.mk)
    | split | intro _ | dsimp only | assumption | rfl

theorem relayNoted_held {s0 s : State} (h : Held s0 s) (slot : Fin 2) (kind : NoteKind) (src : ℕ) (c : ℕ) : Held s0 (relayNoted slot kind src c s) := by
  unfold relayNoted
  repeat' first
    | with_reducible first
        | assumption | apply relayNote_held | apply relayAnswered_held | apply relayThere_held
        | apply relayAgain_held | apply relayBreak_held | apply ite_held | apply foldl_held
        | fail_if_no_progress (apply Held.mk)
    | split | intro _ | dsimp only | assumption | rfl

theorem epochAdvance_held {s0 s : State} (h : Held s0 s)  : Held s0 (epochAdvance s) := by
  unfold epochAdvance
  repeat' first
    | with_reducible first
        | assumption | apply forEach_held | apply modCore_held | apply modJob_held | apply ite_held
        | apply foldl_held | fail_if_no_progress (apply Held.mk)
    | split | intro _ | dsimp only | assumption | rfl

theorem coreLeaves_held {s0 s : State} (h : Held s0 s) (c : ℕ) : Held s0 (coreLeaves c s) := by
  unfold coreLeaves
  repeat' first
    | with_reducible first
        | assumption | apply modCore_held | apply event_held | apply ite_held | apply foldl_held
        | fail_if_no_progress (apply Held.mk)
    | split | intro _ | dsimp only | assumption | rfl

theorem retireCore_held {s0 s : State} (h : Held s0 s) (c : ℕ) : Held s0 (retireCore c s) := by
  unfold retireCore
  repeat' first
    | with_reducible first
        | assumption | apply modCore_held | apply coreLeaves_held | apply ite_held | apply foldl_held
        | fail_if_no_progress (apply Held.mk)
    | split | intro _ | dsimp only | assumption | rfl

theorem recordRows_held {s0 s : State} (h : Held s0 s)  : Held s0 (recordRows s) := by
  unfold recordRows
  repeat' first
    | with_reducible first
        | assumption | apply ite_held | apply foldl_held | fail_if_no_progress (apply Held.mk)
    | split | intro _ | dsimp only | assumption | rfl

theorem retireAll_held {s0 s : State} (h : Held s0 s)  : Held s0 (retireAll s) := by
  unfold retireAll
  repeat' first
    | with_reducible first
        | assumption | apply recordRows_held | apply forEach_held | apply retireCore_held | apply ite_held
        | apply foldl_held | fail_if_no_progress (apply Held.mk)
    | split | intro _ | dsimp only | assumption | rfl

theorem keepObject_held {s0 s : State} (h : Held s0 s) (o : Placed) : Held s0 (keepObject o s) := by
  unfold keepObject
  repeat' first
    | with_reducible first
        | assumption | apply modTiers_held | apply modWeights_held | apply ite_held | apply foldl_held
        | fail_if_no_progress (apply Held.mk)
    | split | intro _ | dsimp only | assumption | rfl

theorem releaseObjects_held {s0 s : State} (h : Held s0 s)  : Held s0 (releaseObjects s) := by
  unfold releaseObjects
  repeat' first
    | with_reducible first
        | assumption | apply forEach_held | apply pageReadDrop_held | apply modTiers_held | apply modWeights_held
        | apply keepObject_held | apply ite_held | apply foldl_held | fail_if_no_progress (apply Held.mk)
    | split | intro _ | dsimp only | assumption | rfl

theorem slotRetire_held {s0 s : State} (h : Held s0 s)  : Held s0 (slotRetire s) := by
  unfold slotRetire
  repeat' first
    | with_reducible first
        | assumption | apply modWeights_held | apply ite_held | apply foldl_held
        | fail_if_no_progress (apply Held.mk)
    | split | intro _ | dsimp only | assumption | rfl

theorem modClient_held {s0 s : State} (h : Held s0 s) (n : ℕ) (f : Client → Client) : Held s0 (modClient n f s) := by
  unfold modClient
  repeat' first
    | with_reducible first
        | assumption | apply modJob_held | apply ite_held | apply foldl_held | fail_if_no_progress (apply Held.mk)
    | split | intro _ | dsimp only | assumption | rfl

theorem quietCores_held {s0 s : State} (h : Held s0 s)  : Held s0 (quietCores s) := by
  unfold quietCores
  repeat' first
    | with_reducible first
        | assumption | apply ite_held | apply foldl_held | fail_if_no_progress (apply Held.mk)
    | split | intro _ | dsimp only | assumption | rfl

theorem domainAlone_held {s0 s : State} (h : Held s0 s)  : Held s0 (domainAlone s) := by
  unfold domainAlone
  repeat' first
    | with_reducible first
        | assumption | apply modStride_held | apply ite_held | apply foldl_held
        | fail_if_no_progress (apply Held.mk)
    | split | intro _ | dsimp only | assumption | rfl

theorem jobOver_held {s0 s : State} (h : Held s0 s)  : Held s0 (jobOver s) := by
  unfold jobOver
  repeat' first
    | with_reducible first
        | assumption | apply endRequests_held | apply jobCompletion_held | apply modClient_held
        | apply retireAll_held | apply slotRetire_held | apply releaseObjects_held | apply quietCores_held
        | apply measChange_held | apply domainAlone_held | apply modJob_held | apply ite_held | apply foldl_held
        | fail_if_no_progress (apply Held.mk)
    | split | intro _ | dsimp only | assumption | rfl

theorem linkWriteOff_held {s0 s : State} (h : Held s0 s) : Held s0 (linkWriteOff s) := by
  unfold linkWriteOff
  split
  · exact h
  apply Held.mk
  refine forEach_held h (fun e t ht => ?_)
  exact forEach_held (earlyEmpty_held ht _) (fun q u hu => queueFree_held hu _ _ _)

theorem stopEngine_held {s0 s : State} (h : Held s0 s) (e : ℕ) : Held s0 (stopEngine e s) := by
  unfold stopEngine
  repeat' first
    | with_reducible first
        | assumption | apply forEach_held | apply queueFree_held | apply earlyEmpty_held | apply modRout_held
        | apply modEng_held | apply ite_held | apply foldl_held | fail_if_no_progress (apply Held.mk)
    | split | intro _ | dsimp only | assumption | rfl

theorem requestChangeover_held {s0 s : State} (h : Held s0 s) (tenant : BitVec 16) : Held s0 (requestChangeover tenant s) := by
  unfold requestChangeover
  repeat' first
    | with_reducible first
        | assumption | apply forEach_held | apply jobRefuse_held | apply modJob_held | apply modRun_held
        | apply ite_held | apply foldl_held | fail_if_no_progress (apply Held.mk)
    | split | intro _ | dsimp only | assumption | rfl

theorem tenantWrite_held {s0 s : State} (h : Held s0 s) (value : BitVec 16) : Held s0 (tenantWrite value s) := by
  unfold tenantWrite
  repeat' first
    | with_reducible first
        | assumption | apply modMgmt_held | apply requestFault_held | apply requestChangeover_held | apply ite_held
        | apply foldl_held | fail_if_no_progress (apply Held.mk)
    | split | intro _ | dsimp only | assumption | rfl

theorem raiseUsed_held {s0 s : State} (h : Held s0 s)  : Held s0 (raiseUsed s) := by
  unfold raiseUsed
  repeat' first
    | with_reducible first
        | assumption | apply forEach_held | apply modJob_held | apply ite_held | apply foldl_held
        | fail_if_no_progress (apply Held.mk)
    | split | intro _ | dsimp only | assumption | rfl

theorem endRunning_held {s0 s : State} (h : Held s0 s)  : Held s0 (endRunning s) := by
  unfold endRunning
  repeat' first
    | with_reducible first
        | assumption | apply modRun_held | apply ite_held | apply foldl_held | fail_if_no_progress (apply Held.mk)
    | split | intro _ | dsimp only | assumption | rfl

theorem chooseNow_held {s0 s : State} (h : Held s0 s) (j : Option JobCmd) : Held s0 (chooseNow j s) := by
  unfold chooseNow
  repeat' first
    | with_reducible first
        | assumption | apply modJob_held | apply ite_held | apply foldl_held | fail_if_no_progress (apply Held.mk)
    | split | intro _ | dsimp only | assumption | rfl

theorem announceJob_held {s0 s : State} (h : Held s0 s) (id : ℕ) : Held s0 (announceJob id s) := by
  unfold announceJob
  repeat' first
    | with_reducible first
        | assumption | apply modRun_held | apply modStride_held | apply ite_held | apply foldl_held
        | fail_if_no_progress (apply Held.mk)
    | split | intro _ | dsimp only | assumption | rfl

theorem choose_held {s0 s : State} (h : Held s0 s) (j : Option JobCmd) : Held s0 (choose j s) := by
  unfold choose
  repeat' first
    | with_reducible first
        | assumption | apply endRunning_held | apply announceJob_held | apply chooseNow_held | apply ite_held
        | apply foldl_held | fail_if_no_progress (apply Held.mk)
    | split | intro _ | dsimp only | assumption | rfl

theorem renew_held {s0 s : State} (h : Held s0 s)  : Held s0 (renew s) := by
  unfold renew
  repeat' first
    | with_reducible first
        | assumption | apply modRun_held | apply ite_held | apply foldl_held | fail_if_no_progress (apply Held.mk)
    | split | intro _ | dsimp only | assumption | rfl

theorem selectGroup_held {s0 s : State} (h : Held s0 s) (r : Running) : Held s0 (selectGroup r s) := by
  unfold selectGroup
  repeat' first
    | with_reducible first
        | assumption | apply endRunning_held | apply openNine_held | apply announceJob_held | apply raiseUsed_held
        | apply ite_held | apply foldl_held | fail_if_no_progress (apply Held.mk)
    | split | intro _ | dsimp only | assumption | rfl

theorem selectJob_selectOne_held {s0 s : State} (h : Held s0 s) : Held s0 (selectJob.selectOne s) := by
  unfold selectJob.selectOne
  split
  · exact endRunning_held h
  · exact renew_held h
  · exact choose_held h _

theorem selectJob_held {s0 s : State} (h : Held s0 s) : Held s0 (selectJob s) := by
  unfold selectJob
  split
  · exact h
  split
  · split
    · exact selectGroup_held h _
    · exact selectJob_selectOne_held (raiseUsed_held (openNine_held h))
  · exact selectJob_selectOne_held (raiseUsed_held (openNine_held h))



theorem markerChoice_held {s0 s : State} (h : Held s0 s)  : Held s0 (markerChoice s) := by
  unfold markerChoice
  repeat' first
    | with_reducible first
        | assumption | apply renew_held | apply openNine_held | apply chooseNow_held | apply endRunning_held
        | apply ite_held | apply foldl_held | fail_if_no_progress (apply Held.mk)
    | split | intro _ | dsimp only | assumption | rfl

theorem loadEngine_held {s0 s : State} (h : Held s0 s) (x : EngineCfg) : Held s0 (loadEngine x s) := by
  unfold loadEngine
  repeat' first
    | with_reducible first
        | assumption | apply modEng_held | apply ite_held | apply foldl_held | fail_if_no_progress (apply Held.mk)
    | split | intro _ | dsimp only | assumption | rfl

theorem clearEngines_held {s0 s : State} (h : Held s0 s)  : Held s0 (clearEngines s) := by
  unfold clearEngines
  repeat' first
    | with_reducible first
        | assumption | apply ite_held | apply foldl_held | fail_if_no_progress (apply Held.mk)
    | split | intro _ | dsimp only | assumption | rfl

theorem loadReins_held {s0 s : State} (h : Held s0 s) (k : Tack) : Held s0 (loadReins k s) := by
  unfold loadReins
  repeat' first
    | with_reducible first
        | assumption | apply ite_held | apply foldl_held | fail_if_no_progress (apply Held.mk)
    | split | intro _ | dsimp only | assumption | rfl

theorem loadSync_held {s0 s : State} (h : Held s0 s) (k : Tack) : Held s0 (loadSync k s) := by
  unfold loadSync
  repeat' first
    | with_reducible first
        | assumption | apply modSync_held | apply ite_held | apply foldl_held | fail_if_no_progress (apply Held.mk)
    | split | intro _ | dsimp only | assumption | rfl

theorem loadHitch_held {s0 s : State} (h : Held s0 s) (k : Tack) (chips : ℕ) : Held s0 (loadHitch k chips s) := by
  unfold loadHitch
  repeat' first
    | with_reducible first
        | assumption | apply forEach_held | apply modHitch_held | apply ite_held | apply foldl_held
        | fail_if_no_progress (apply Held.mk)
    | split | intro _ | dsimp only | assumption | rfl

theorem clearCurbs_held {s0 s : State} (h : Held s0 s)  : Held s0 (clearCurbs s) := by
  unfold clearCurbs
  repeat' first
    | with_reducible first
        | assumption | apply modTiers_held | apply ite_held | apply foldl_held
        | fail_if_no_progress (apply Held.mk)
    | split | intro _ | dsimp only | assumption | rfl

theorem loadRoutes_held {s0 s : State} (h : Held s0 s) (k : Tack) (g : List ℕ) : Held s0 (loadRoutes k g s) := by
  unfold loadRoutes
  repeat' first
    | with_reducible first
        | assumption | apply modLinks_held | apply ite_held | apply foldl_held
        | fail_if_no_progress (apply Held.mk)
    | split | intro _ | dsimp only | assumption | rfl

theorem clearCores_held {s0 s : State} (h : Held s0 s)  : Held s0 (clearCores s) := by
  unfold clearCores
  repeat' first
    | with_reducible first
        | assumption | apply forEach_held | apply event_held | apply ite_held | apply foldl_held
        | fail_if_no_progress (apply Held.mk)
    | split | intro _ | dsimp only | assumption | rfl

theorem loadObjects_held {s0 s : State} (h : Held s0 s) (k : Tack) : Held s0 (loadObjects k s) := by
  unfold loadObjects
  repeat' first
    | with_reducible first
        | assumption | apply modTiers_held | apply forEach_held | apply dirSet_held | apply ite_held
        | apply foldl_held | fail_if_no_progress (apply Held.mk)
    | split | intro _ | dsimp only | assumption | rfl

theorem installControl_held {s0 s : State} (h : Held s0 s) (k : Tack) (g : List ℕ) : Held s0 (installControl k g s) := by
  unfold installControl
  repeat' first
    | with_reducible first
        | assumption | apply loadObjects_held | apply loadRoutes_held | apply clearCores_held
        | apply clearCurbs_held | apply loadHitch_held | apply loadSync_held | apply loadReins_held
        | apply forEach_held | apply loadEngine_held | apply clearEngines_held | apply earlyJoin_held
        | apply ite_held | apply foldl_held | fail_if_no_progress (apply Held.mk)
    | split | intro _ | dsimp only | assumption | rfl

theorem installRefused_held {s0 s : State} (h : Held s0 s) (j : JobCmd) (x : ℕ × List Byte) : Held s0 (installRefused j x s) := by
  unfold installRefused
  repeat' first
    | with_reducible first
        | assumption | apply record_held | apply jobCompletion_held | apply modJob_held | apply modClient_held
        | apply ite_held | apply foldl_held | fail_if_no_progress (apply Held.mk)
    | split | intro _ | dsimp only | assumption | rfl

theorem slotActivate_held {s0 s : State} (h : Held s0 s) (n : Fin 2) : Held s0 (slotActivate n s) := by
  unfold slotActivate
  repeat' first
    | with_reducible first
        | assumption | apply slotRetire_held | apply setSlot_held | apply ite_held | apply foldl_held
        | fail_if_no_progress (apply Held.mk)
    | split | intro _ | dsimp only | assumption | rfl

theorem installBegin_held {s0 s : State} (h : Held s0 s) (j : JobCmd) (k : Tack) (n : Fin 2) : Held s0 (installBegin j k n s) := by
  unfold installBegin
  repeat' first
    | with_reducible first
        | assumption | apply epochAdvance_held | apply slotActivate_held | apply modClient_held | apply modJob_held
        | apply modMgmt_held | apply modStride_held | apply measChange_held | apply modSec_held
        | apply installControl_held | apply ite_held | apply foldl_held | fail_if_no_progress (apply Held.mk)
    | split | intro _ | dsimp only | assumption | rfl

theorem learnGroup_held {s0 s : State} (h : Held s0 s) (v : GroupView) (k : Tack) : Held s0 (learnGroup v k s) := by
  unfold learnGroup
  repeat' first
    | with_reducible first
        | assumption | apply modSync_held | apply modJob_held | apply modLinks_held | apply setAct_held
        | apply ite_held | apply foldl_held | fail_if_no_progress (apply Held.mk)
    | split | intro _ | dsimp only | assumption | rfl

theorem zeroObject_held {s0 s : State} (h : Held s0 s) (o : Placed) : Held s0 (zeroObject o s) := by
  unfold zeroObject
  repeat' first
    | with_reducible first
        | assumption | apply chargePage_held | apply portTouch_held | apply zeroFill_held | apply ite_held
        | apply foldl_held | fail_if_no_progress (apply Held.mk)
    | split | intro _ | dsimp only | assumption | rfl

theorem installImage_held {s0 s : State} (h : Held s0 s) (k : Tack) : Held s0 (installImage k s) := by
  unfold installImage
  repeat' first
    | with_reducible first
        | assumption | apply forEach_held | apply curbCharge_held | apply zeroBytes_held | apply writeSpad_held
        | apply zeroObject_held | apply ite_held | apply foldl_held | fail_if_no_progress (apply Held.mk)
    | split | intro _ | dsimp only | assumption | rfl

theorem installLower_held {s0 s : State} (h : Held s0 s)  : Held s0 (installLower s) := by
  unfold installLower
  repeat' first
    | with_reducible first
        | assumption | apply forEach_held | apply zeroObject_held | apply chargePage_held | apply copyBytes_held
        | apply ite_held | apply foldl_held | fail_if_no_progress (apply Held.mk)
    | split | intro _ | dsimp only | assumption | rfl

theorem readyBudgets_held {s0 s : State} (h : Held s0 s) (k : Tack) : Held s0 (readyBudgets k s) := by
  unfold readyBudgets
  repeat' first
    | with_reducible first
        | assumption | apply modTiers_held | apply ite_held | apply foldl_held
        | fail_if_no_progress (apply Held.mk)
    | split | intro _ | dsimp only | assumption | rfl

theorem entryPcs_held {s0 s : State} (h : Held s0 s) (x : CoreImage) : Held s0 (entryPcs x s) := by
  unfold entryPcs
  repeat' first
    | with_reducible first
        | assumption | apply forEach_held | apply modThread_held | apply ite_held | apply foldl_held
        | fail_if_no_progress (apply Held.mk)
    | split | intro _ | dsimp only | assumption | rfl

theorem armAdapters_held {s0 s : State} (h : Held s0 s) (k : Tack) : Held s0 (armAdapters k s) := by
  unfold armAdapters
  repeat' first
    | with_reducible first
        | assumption | apply zeroFill_held | apply portTouch_held | apply transferCharge_held | apply ite_held
        | apply foldl_held | fail_if_no_progress (apply Held.mk)
    | split | intro _ | dsimp only | assumption | rfl

theorem installArm_held {s0 s : State} (h : Held s0 s) (k : Tack) : Held s0 (installArm k s) := by
  unfold installArm
  repeat' first
    | with_reducible first
        | assumption | apply forEach_held | apply entryPcs_held | apply setSreg_held | apply readyBudgets_held
        | apply armAdapters_held | apply ite_held | apply foldl_held | fail_if_no_progress (apply Held.mk)
    | split | intro _ | dsimp only | assumption | rfl

theorem phaseWork_held {s0 s : State} (h : Held s0 s) (phase : ℕ) (k : Tack) : Held s0 (phaseWork phase k s) := by
  unfold phaseWork
  repeat' first
    | with_reducible first
        | assumption | apply installImage_held | apply installLower_held | apply installArm_held | apply ite_held
        | apply foldl_held | fail_if_no_progress (apply Held.mk)
    | split | intro _ | dsimp only | assumption | rfl

theorem tellStaged_held {s0 s : State} (h : Held s0 s) (t : Tack) : Held s0 (tellStaged t s) := by
  unfold tellStaged
  repeat' first
    | with_reducible first
        | assumption | apply sendStride_held | apply ite_held | apply foldl_held
        | fail_if_no_progress (apply Held.mk)
    | split | intro _ | dsimp only | assumption | rfl

theorem stageGo_held {s0 s : State} (h : Held s0 s) (k : Fin 2) : Held s0 (stageGo k s) := by
  unfold stageGo
  repeat' first
    | with_reducible first
        | assumption | apply moveUnits_held | apply setSlot_held | apply weightFault_held | apply tellStaged_held
        | apply weightDone_held | apply ite_held | apply foldl_held | fail_if_no_progress (apply Held.mk)
    | split | intro _ | dsimp only | assumption | rfl

theorem stagesGo_held {s0 s : State} (h : Held s0 s)  : Held s0 (stagesGo s) := by
  unfold stagesGo
  repeat' first
    | with_reducible first
        | assumption | apply stageGo_held | apply ite_held | apply foldl_held | fail_if_no_progress (apply Held.mk)
    | split | intro _ | dsimp only | assumption | rfl

theorem debugShut_held {s0 s : State} (h : Held s0 s)  : Held s0 (debugShut s) := by
  unfold debugShut
  repeat' first
    | with_reducible first
        | assumption | apply modSec_held | apply measChange_held | apply event_held | apply jobFault_held
        | apply ite_held | apply foldl_held | fail_if_no_progress (apply Held.mk)
    | split | intro _ | dsimp only | assumption | rfl

theorem chgPhase_held {s0 s : State} (h : Held s0 s) (n : ℕ) : Held s0 (chgPhase n s) := by
  unfold chgPhase
  repeat' first
    | with_reducible first
        | assumption | apply measChange_held | apply modJob_held | apply ite_held | apply foldl_held
        | fail_if_no_progress (apply Held.mk)
    | split | intro _ | dsimp only | assumption | rfl

theorem changeoverFailed_held {s0 s : State} (h : Held s0 s) (op : ℕ) : Held s0 (changeoverFailed op s) := by
  unfold changeoverFailed
  repeat' first
    | with_reducible first
        | assumption | apply chipStop_held | apply ite_held | apply foldl_held
        | fail_if_no_progress (apply Held.mk)
    | split | intro _ | dsimp only | assumption | rfl

theorem replaceKeys_held {s0 s : State} (h : Held s0 s)  : Held s0 (replaceKeys s) := by
  unfold replaceKeys
  repeat' first
    | with_reducible first
        | assumption | apply modTiers_held | apply newKey_held | apply ite_held | apply foldl_held
        | fail_if_no_progress (apply Held.mk)
    | split | intro _ | dsimp only | assumption | rfl

theorem clearTenant_held {s0 s : State} (h : Held s0 s)  : Held s0 (clearTenant s) := by
  unfold clearTenant
  repeat' first
    | with_reducible first
        | assumption | apply forEach_held | apply applyClose_held | apply applyCancel_held
        | apply serveCompletion_held | apply weightRefused_held | apply modWeights_held | apply modTiers_held
        | apply modJob_held | apply ite_held | apply foldl_held | fail_if_no_progress (apply Held.mk)
    | split | intro _ | dsimp only | assumption | rfl

theorem zeroStores_held {s0 s : State} (h : Held s0 s)  : Held s0 (zeroStores s) := by
  unfold zeroStores
  repeat' first
    | with_reducible first
        | assumption | apply zeroBytes_held | apply modSync_held | apply ite_held | apply foldl_held
        | fail_if_no_progress (apply Held.mk)
    | split | intro _ | dsimp only | assumption | rfl

theorem defaultBudgets_held {s0 s : State} (h : Held s0 s)  : Held s0 (defaultBudgets s) := by
  unfold defaultBudgets
  repeat' first
    | with_reducible first
        | assumption | apply modTiers_held | apply ite_held | apply foldl_held
        | fail_if_no_progress (apply Held.mk)
    | split | intro _ | dsimp only | assumption | rfl

theorem endTenancy_held {s0 s : State} (h : Held s0 s)  : Held s0 (endTenancy s) := by
  unfold endTenancy
  repeat' first
    | with_reducible first
        | assumption | apply modHost_held | apply modSec_held | apply measChange_held | apply ite_held
        | apply foldl_held | fail_if_no_progress (apply Held.mk)
    | split | intro _ | dsimp only | assumption | rfl

-- TENANT changes here

theorem relayLost_held {s0 s : State} (h : Held s0 s) (p : Packet) : Held s0 (relayLost p s) := by
  unfold relayLost
  repeat' first
    | with_reducible first
        | assumption | apply linkDiscard_held | apply relayBreak_held | apply ite_held | apply foldl_held
        | fail_if_no_progress (apply Held.mk)
    | split | intro _ | dsimp only | assumption | rfl

theorem unreachAct_held {s0 s : State} (h : Held s0 s) (p : Packet) (reason : ℕ) : Held s0 (unreachAct p reason s) := by
  unfold unreachAct
  repeat' first
    | with_reducible first
        | assumption | apply lostJob_held | apply syncAgain_held | apply relayLost_held | apply linkDiscard_held
        | apply ite_held | apply foldl_held | fail_if_no_progress (apply Held.mk)
    | split | intro _ | dsimp only | assumption | rfl

theorem sendUnreach_held {s0 s : State} (h : Held s0 s) (reason : ℕ) (p : Packet) : Held s0 (sendUnreach reason p s) := by
  unfold sendUnreach
  repeat' first
    | with_reducible first
        | assumption | apply packetOut_held | apply linkDiscard_held | apply countUnreach_held | apply ite_held
        | apply foldl_held | fail_if_no_progress (apply Held.mk)
    | split | intro _ | dsimp only | assumption | rfl

theorem packetLost_held {s0 s : State} (h : Held s0 s) (reason : ℕ) (p : Packet) : Held s0 (packetLost reason p s) := by
  unfold packetLost
  repeat' first
    | with_reducible first
        | assumption | apply linkDiscard_held | apply unreachAct_held | apply countUnreach_held
        | apply sendUnreach_held | apply ite_held | apply foldl_held | fail_if_no_progress (apply Held.mk)
    | split | intro _ | dsimp only | assumption | rfl

theorem tellLinkDown_held {s0 s : State} (h : Held s0 s) (l : ℕ) : Held s0 (tellLinkDown l s) := by
  unfold tellLinkDown
  repeat' first
    | with_reducible first
        | assumption | apply modRun_held | apply modStride_held | apply sendStride_held | apply ite_held
        | apply foldl_held | fail_if_no_progress (apply Held.mk)
    | split | intro _ | dsimp only | assumption | rfl

theorem linkFalls_held {s0 s : State} (h : Held s0 s) (l : ℕ) : Held s0 (linkFalls l s) := by
  unfold linkFalls
  repeat' first
    | with_reducible first
        | assumption | apply modLinks_held | apply modLink_held | apply tellLinkDown_held | apply forEach_held
        | apply packetLost_held | apply ite_held | apply foldl_held | fail_if_no_progress (apply Held.mk)
    | split | intro _ | dsimp only | assumption | rfl

theorem linkComesUp_held {s0 s : State} (h : Held s0 s) (l : ℕ) (t : LinkTrain) (c : LinkCtl) : Held s0 (linkComesUp l t c s) := by
  unfold linkComesUp
  repeat' first
    | with_reducible first
        | assumption | apply modLink_held | apply ite_held | apply foldl_held | fail_if_no_progress (apply Held.mk)
    | split | intro _ | dsimp only | assumption | rfl

theorem sendIdent_held {s0 s : State} (h : Held s0 s) (l : ℕ) (t : LinkTrain) (c : LinkCtl) : Held s0 (sendIdent l t c s) := by
  unfold sendIdent
  repeat' first
    | with_reducible first
        | assumption | apply ctlOut_held | apply ite_held | apply foldl_held | fail_if_no_progress (apply Held.mk)
    | split | intro _ | dsimp only | assumption | rfl

theorem linkTrained_held {s0 s : State} (h : Held s0 s) (l : ℕ) (t : LinkTrain) : Held s0 (linkTrained l t s) := by
  unfold linkTrained
  repeat' first
    | with_reducible first
        | assumption | apply sendIdent_held | apply linkFalls_held | apply linkComesUp_held | apply event_held
        | apply modLink_held | apply ite_held | apply foldl_held | fail_if_no_progress (apply Held.mk)
    | split | intro _ | dsimp only | assumption | rfl

theorem execLinkRetrain_held {s0 s : State} (h : Held s0 s) (l : LinkId) : OutHeld s0 (execLinkRetrain l s) := by
  unfold execLinkRetrain
  apply outHeld_next
  repeat' first
    | with_reducible first
        | assumption | apply modLink_held | apply ite_held | apply foldl_held | fail_if_no_progress (apply Held.mk)
    | split | intro _ | dsimp only | assumption | rfl

theorem laneOut_held {s0 s : State} (h : Held s0 s) (l : ℕ) (k : Fin 8) : Held s0 (laneOut l k s) := by
  unfold laneOut
  repeat' first
    | with_reducible first
        | assumption | apply linkFalls_held | apply modLink_held | apply ite_held | apply foldl_held
        | fail_if_no_progress (apply Held.mk)
    | split | intro _ | dsimp only | assumption | rfl

theorem laneRemove_held {s0 s : State} (h : Held s0 s) (l : ℕ) (k : Fin 8) : Held s0 (laneRemove l k s) := by
  unfold laneRemove
  repeat' first
    | with_reducible first
        | assumption | apply linkFalls_held | apply ctlOut_held | apply laneOut_held | apply ite_held
        | apply foldl_held | fail_if_no_progress (apply Held.mk)
    | split | intro _ | dsimp only | assumption | rfl

theorem laneTurn_held {s0 s : State} (h : Held s0 s) (l : ℕ) : Held s0 (laneTurn l s) := by
  unfold laneTurn
  repeat' first
    | with_reducible first
        | assumption | apply laneRemove_held | apply modLink_held | apply ite_held | apply foldl_held
        | fail_if_no_progress (apply Held.mk)
    | split | intro _ | dsimp only | assumption | rfl

theorem execLinkRecal_held {s0 s : State} (h : Held s0 s) (l : LinkId) : OutHeld s0 (execLinkRecal l s) := by
  unfold execLinkRecal
  apply outHeld_next
  repeat' first
    | with_reducible first
        | assumption | apply laneTurn_held | apply ite_held | apply foldl_held
        | fail_if_no_progress (apply Held.mk)
    | split | intro _ | dsimp only | assumption | rfl

theorem laneBack_held {s0 s : State} (h : Held s0 s) (l : ℕ) (k : Fin 8) : Held s0 (laneBack l k s) := by
  unfold laneBack
  repeat' first
    | with_reducible first
        | assumption | apply modLink_held | apply ite_held | apply foldl_held | fail_if_no_progress (apply Held.mk)
    | split | intro _ | dsimp only | assumption | rfl

theorem resendAll_held {s0 s : State} (h : Held s0 s) (l : ℕ) : Held s0 (resendAll l s) := by
  unfold resendAll
  repeat' first
    | with_reducible first
        | assumption | apply forEach_held | apply flitOut_held | apply ite_held | apply foldl_held
        | fail_if_no_progress (apply Held.mk)
    | split | intro _ | dsimp only | assumption | rfl

theorem linkReplay_held {s0 s : State} (h : Held s0 s) (l : ℕ) : Held s0 (linkReplay l s) := by
  unfold linkReplay
  repeat' first
    | with_reducible first
        | assumption | apply linkFalls_held | apply modLink_held | apply resendAll_held | apply ite_held
        | apply foldl_held | fail_if_no_progress (apply Held.mk)
    | split | intro _ | dsimp only | assumption | rfl

theorem vcFreed_held {s0 s : State} (h : Held s0 s) (l : ℕ) (v : ℕ) (n : ℕ) : Held s0 (vcFreed l v n s) := by
  unfold vcFreed
  repeat' first
    | with_reducible first
        | assumption | apply ctlOut_held | apply ite_held | apply foldl_held | fail_if_no_progress (apply Held.mk)
    | split | intro _ | dsimp only | assumption | rfl

theorem dataTake_held {s0 s : State} (h : Held s0 s) (l : ℕ) (f : Flit) : Held s0 (dataTake l f s) := by
  unfold dataTake
  repeat' first
    | with_reducible first
        | assumption | apply vcFreed_held | apply modMgmt_held | apply modLink_held | apply idleOut_held
        | apply ite_held | apply foldl_held | fail_if_no_progress (apply Held.mk)
    | split | intro _ | dsimp only | assumption | rfl

theorem nakOut_held {s0 s : State} (h : Held s0 s) (l : ℕ) : Held s0 (nakOut l s) := by
  unfold nakOut
  repeat' first
    | with_reducible first
        | assumption | apply ctlOut_held | apply ite_held | apply foldl_held | fail_if_no_progress (apply Held.mk)
    | split | intro _ | dsimp only | assumption | rfl

theorem linkControl_held {s0 s : State} (h : Held s0 s) (l : ℕ) (c : LinkCtl) : Held s0 (linkControl l c s) := by
  unfold linkControl
  repeat' first
    | with_reducible first
        | assumption | apply linkFalls_held | apply linkFlush_held | apply modLink_held | apply whenB_held
        | apply linkReplay_held | apply laneOut_held | apply laneBack_held | apply ite_held | apply foldl_held
        | fail_if_no_progress (apply Held.mk)
    | split | intro _ | dsimp only | assumption | rfl

theorem flitGood_held {s0 s : State} (h : Held s0 s) (l : ℕ) (f : Flit) : Held s0 (flitGood l f s) := by
  unfold flitGood
  repeat' first
    | with_reducible first
        | assumption | apply linkFlush_held | apply modLink_held | apply dataTake_held | apply nakOut_held
        | apply linkControl_held | apply ite_held | apply foldl_held | fail_if_no_progress (apply Held.mk)
    | split | intro _ | dsimp only | assumption | rfl

theorem linkDownJob_held {s0 s : State} (h : Held s0 s)  : Held s0 (linkDownJob s) := by
  unfold linkDownJob
  repeat' first
    | with_reducible first
        | assumption | apply forEach_held | apply jobFault_held | apply setAct_held | apply modRun_held
        | apply jobOver_held | apply modTiers_held | apply ite_held | apply foldl_held
        | fail_if_no_progress (apply Held.mk)
    | split | intro _ | dsimp only | assumption | rfl

theorem bar2Refuse_held {s0 s : State} (h : Held s0 s) (a : ℕ) : Held s0 (bar2Refuse a s) := by
  unfold bar2Refuse
  repeat' first
    | with_reducible first
        | assumption | apply event_held | apply modHost_held | apply ite_held | apply foldl_held
        | fail_if_no_progress (apply Held.mk)
    | split | intro _ | dsimp only | assumption | rfl

theorem bar2Poison_held {s0 s : State} (h : Held s0 s) (a : ℕ) (code : ℕ) : Held s0 (bar2Poison a code s) := by
  unfold bar2Poison
  repeat' first
    | with_reducible first
        | assumption | apply event_held | apply modHost_held | apply ite_held | apply foldl_held
        | fail_if_no_progress (apply Held.mk)
    | split | intro _ | dsimp only | assumption | rfl

theorem hostReturn_held {s0 s : State} (h : Held s0 s) (data : List Byte) (status : ℕ) : Held s0 (hostReturn data status s) := by
  unfold hostReturn
  repeat' first
    | with_reducible first
        | assumption | apply modHost_held | apply ite_held | apply foldl_held | fail_if_no_progress (apply Held.mk)
    | split | intro _ | dsimp only | assumption | rfl

theorem hostZero_held {s0 s : State} (h : Held s0 s) (size : ℕ) : Held s0 (hostZero size s) := by
  unfold hostZero
  repeat' first
    | with_reducible first
        | assumption | apply hostReturn_held | apply ite_held | apply foldl_held
        | fail_if_no_progress (apply Held.mk)
    | split | intro _ | dsimp only | assumption | rfl

theorem hostCharge_held {s0 s : State} (h : Held s0 s) (a : ℕ) (n : ℕ) : Held s0 (hostCharge a n s) := by
  unfold hostCharge
  repeat' first
    | with_reducible first
        | assumption | apply portTouch_held | apply transferCharge_held | apply ite_held | apply foldl_held
        | fail_if_no_progress (apply Held.mk)
    | split | intro _ | dsimp only | assumption | rfl

theorem bar2Answer_held {s0 s : State} (h : Held s0 s) (a : ℕ) (size : ℕ) (bad : Option (ℕ × Ecc × ℕ)) : Held s0 (bar2Answer a size bad s) := by
  unfold bar2Answer
  repeat' first
    | with_reducible first
        | assumption | apply takeFree_held | apply hostReturn_held | apply bar2Poison_held | apply ite_held
        | apply foldl_held | fail_if_no_progress (apply Held.mk)
    | split | intro _ | dsimp only | assumption | rfl

theorem aliasWord_held {s0 s : State} (h : Held s0 s) (set : Bool) (c : ℕ) (errs : List (BitVec 48 × UnitErr)) (o : ℕ) (v : Word) : Held s0 (aliasWord set c errs o v s) := by
  unfold aliasWord
  repeat' first
    | with_reducible first
        | assumption | apply forEach_held | apply unitFound_held | apply bar2Poison_held | apply atomicWrite_held
        | apply ite_held | apply foldl_held | fail_if_no_progress (apply Held.mk)
    | split | intro _ | dsimp only | assumption | rfl

theorem urReport_held {s0 s : State} (h : Held s0 s) (on : Bool) (a : ℕ) : Held s0 (urReport on a s) := by
  unfold urReport
  repeat' first
    | with_reducible first
        | assumption | apply whenB_held | apply emit_held | apply ite_held | apply foldl_held
        | fail_if_no_progress (apply Held.mk)
    | split | intro _ | dsimp only | assumption | rfl

theorem ringCfgWrite_held {s0 s : State} (h : Held s0 s) (r : ℕ) (w : Word) : Held s0 (ringCfgWrite r w s) := by
  unfold ringCfgWrite
  repeat' first
    | with_reducible first
        | assumption | apply setEn_held | apply modRing_held | apply ite_held | apply foldl_held
        | fail_if_no_progress (apply Held.mk)
    | split | intro _ | dsimp only | assumption | rfl

theorem outState_held {s0 s : State} (h : Held s0 s) {o : Out} (ho : OutHeld s0 o) : Held s0 (outState o s) := by
  unfold outState
  split
  · exact ho _ rfl
  · exact h

theorem sftCtrlWrite_held {s0 s : State} (h : Held s0 s) (x : RegAccess) : Held s0 (sftCtrlWrite x s) := by
  unfold sftCtrlWrite
  repeat' first
    | with_reducible first
        | assumption | apply outState_held | apply execSftLoad_held | apply execSftCancel_held | apply ite_held
        | apply foldl_held | fail_if_no_progress (apply Held.mk)
    | split | intro _ | dsimp only | assumption | rfl

theorem sftStageWrite_held {s0 s : State} (h : Held s0 s) (w : ℕ) (x : RegAccess) : Held s0 (sftStageWrite w x s) := by
  unfold sftStageWrite
  repeat' first
    | with_reducible first
        | assumption | apply modSft_held | apply ite_held | apply foldl_held | fail_if_no_progress (apply Held.mk)
    | split | intro _ | dsimp only | assumption | rfl

theorem linkCtrlWrite_held {s0 s : State} (h : Held s0 s) (l : ℕ) (x : RegAccess) : Held s0 (linkCtrlWrite l x s) := by
  unfold linkCtrlWrite
  repeat' first
    | with_reducible first
        | assumption | apply outState_held | apply execLinkRecal_held | apply execLinkRetrain_held | apply ite_held
        | apply foldl_held | fail_if_no_progress (apply Held.mk)
    | split | intro _ | dsimp only | assumption | rfl

theorem deadlineWrite_held {s0 s : State} (h : Held s0 s) (w : Word) : Held s0 (deadlineWrite w s) := by
  unfold deadlineWrite
  repeat' first
    | with_reducible first
        | assumption | apply modTiers_held | apply ite_held | apply foldl_held
        | fail_if_no_progress (apply Held.mk)
    | split | intro _ | dsimp only | assumption | rfl

theorem routeWrite_held {s0 s : State} (h : Held s0 s) (i : ℕ) (w : Word) : Held s0 (routeWrite i w s) := by
  unfold routeWrite
  repeat' first
    | with_reducible first
        | assumption | apply modLinks_held | apply ite_held | apply foldl_held
        | fail_if_no_progress (apply Held.mk)
    | split | intro _ | dsimp only | assumption | rfl

theorem tallyFree_held {s0 s : State} (h : Held s0 s)  : Held s0 (tallyFree s) := by
  unfold tallyFree
  repeat' first
    | with_reducible first
        | assumption | apply tallyHand_held | apply modTally_held | apply ite_held | apply foldl_held
        | fail_if_no_progress (apply Held.mk)
    | split | intro _ | dsimp only | assumption | rfl

theorem tallyCtrlWrite_held {s0 s : State} (h : Held s0 s) (x : RegAccess) : Held s0 (tallyCtrlWrite x s) := by
  unfold tallyCtrlWrite
  repeat' first
    | with_reducible first
        | assumption | apply modTally_held | apply tallyFree_held | apply ite_held | apply foldl_held
        | fail_if_no_progress (apply Held.mk)
    | split | intro _ | dsimp only | assumption | rfl

theorem regWrite_held {s0 s : State} (h : Held s0 s) (r : Reg) (x : RegAccess) : Held s0 (regWrite r x s) := by
  unfold regWrite
  repeat' first
    | with_reducible first
        | assumption | apply modHost_held | apply whenB_held | apply modRing_held | apply ringCfgWrite_held
        | apply msixUnmask_held | apply outState_held | apply execAgResume_held | apply modCurb_held
        | apply deadlineWrite_held | apply modTiers_held | apply modPort_held | apply modLink_held
        | apply linkCtrlWrite_held | apply routeWrite_held | apply modHitch_held | apply modSync_held
        | apply sftStageWrite_held | apply modSft_held | apply sftCtrlWrite_held | apply modRin_held
        | apply modEng_held | apply modCore_held | apply tallyCtrlWrite_held | apply ite_held | apply foldl_held
        | fail_if_no_progress (apply Held.mk)
    | split | intro _ | dsimp only | assumption | rfl

theorem debugOpen_held {s0 s : State} (h : Held s0 s) (p : DbgPath) (level : ℕ) : Held s0 (debugOpen p level s) := by
  unfold debugOpen
  repeat' first
    | with_reducible first
        | assumption | apply modSec_held | apply measChange_held | apply event_held | apply ite_held
        | apply foldl_held | fail_if_no_progress (apply Held.mk)
    | split | intro _ | dsimp only | assumption | rfl

theorem debugCtrl_held {s0 s : State} (h : Held s0 s) (p : DbgPath) (act : State → State) (hact : ∀ t, Held s0 t → Held s0 (act  t)) : Held s0 (debugCtrl p act s) := by
  unfold debugCtrl
  repeat' first
    | with_reducible first
        | assumption | apply event_held | apply modHost_held | apply hact | apply ite_held | apply foldl_held
        | fail_if_no_progress (apply Held.mk)
    | split | intro _ | dsimp only | assumption | rfl

theorem debugClose_held {s0 s : State} (h : Held s0 s) (p : DbgPath) : Held s0 (debugClose p s) := by
  unfold debugClose
  repeat' first
    | with_reducible first
        | assumption | apply debugShut_held | apply ite_held | apply foldl_held
        | fail_if_no_progress (apply Held.mk)
    | split | intro _ | dsimp only | assumption | rfl

theorem debugHalt_held {s0 s : State} (h : Held s0 s)  : Held s0 (debugHalt s) := by
  unfold debugHalt
  repeat' first
    | with_reducible first
        | assumption | apply whenB_held | apply uncheckSteps_held | apply modCore_held | apply ite_held
        | apply foldl_held | fail_if_no_progress (apply Held.mk)
    | split | intro _ | dsimp only | assumption | rfl

theorem debugResume_held {s0 s : State} (h : Held s0 s)  : Held s0 (debugResume s) := by
  unfold debugResume
  repeat' first
    | with_reducible first
        | assumption | apply modCore_held | apply ite_held | apply foldl_held | fail_if_no_progress (apply Held.mk)
    | split | intro _ | dsimp only | assumption | rfl

theorem groomScalar_held {s0 s : State} (h : Held s0 s) (opc : Nat) (c : CoreId) (t : ThreadId) (f : ScalarF) {x : Out}
    (hx : groomScalar opc c t f s = some x) : OutHeld s0 x := by
  unfold groomScalar at hx
  split at hx
  · cases hx; exact execLi_held h c t f
  · cases hx; exact execLui_held h c t f
  · cases hx; exact execAdd_held h c t f
  · cases hx; exact execSub_held h c t f
  · cases hx; exact execMul_held h c t f
  · cases hx; exact execShl_held h c t f
  · cases hx; exact execShr_held h c t f
  · cases hx; exact execSar_held h c t f
  · cases hx; exact execAnd_held h c t f
  · cases hx; exact execOr_held h c t f
  · cases hx; exact execXor_held h c t f
  · cases hx; exact execMin_held h c t f
  · cases hx; exact execMax_held h c t f
  · cases hx; exact execLd_held h c t f
  · cases hx; exact execSt_held h c t f
  · cases hx; exact execBeq_held h c t f
  · cases hx; exact execBne_held h c t f
  · cases hx; exact execBlt_held h c t f
  · cases hx; exact execJmp_held h c t f
  · cases hx; exact execTwait_held h c t f
  · cases hx; exact execStepEnd_held h c t f
  · cases hx

theorem groomExec_held {s0 s : State} (h : Held s0 s) (c : CoreId) (t : ThreadId) : Held s0 (groomExec c t s) := by
  unfold groomExec
  dsimp only
  split
  · exact groomRefuse_held h _ _ _ _ _ _ _
  · split
    · rename_i x hq
      apply outState_held h
      split at hq
      · cases hq; exact execTmac_held h _ _ _
      split at hq
      · cases hq; exact execTout_held h _ _ _
      split at hq
      · cases hq; exact execResload_held h _ _ _
      · exact groomScalar_held h _ _ _ _ hq
    · exact groomRefuse_held h _ _ _ _ _ _ _

theorem debugStep_held {s0 s : State} (h : Held s0 s)  : Held s0 (debugStep s) := by
  unfold debugStep
  repeat' first
    | with_reducible first
        | assumption | apply whenB_held | apply uncheckSteps_held | apply modCore_held | apply groomExec_held
        | apply ite_held | apply foldl_held | fail_if_no_progress (apply Held.mk)
    | split | intro _ | dsimp only | assumption | rfl

theorem debugAdvance_held {s0 s : State} (h : Held s0 s)  : Held s0 (debugAdvance s) := by
  unfold debugAdvance
  repeat' first
    | with_reducible first
        | assumption | apply modSec_held | apply ite_held | apply foldl_held | fail_if_no_progress (apply Held.mk)
    | split | intro _ | dsimp only | assumption | rfl

theorem debugRead_held {s0 s : State} (h : Held s0 s)  : Held s0 (debugRead s).2 := by
  unfold debugRead
  repeat' first
    | with_reducible first
        | assumption | apply debugAdvance_held | apply ite_held | apply foldl_held
        | fail_if_no_progress (apply Held.mk)
    | split | intro _ | dsimp only | assumption | rfl

theorem debugRegWrite_held {s0 s : State} (h : Held s0 s) (o : ℕ) (v : Word) : Held s0 (debugRegWrite o v s) := by
  unfold debugRegWrite
  repeat' first
    | with_reducible first
        | assumption | apply setSreg_held | apply regWrite_held | apply ite_held | apply foldl_held
        | fail_if_no_progress (apply Held.mk)
    | split | intro _ | dsimp only | assumption | rfl

theorem debugSyncWrite_held {s0 s : State} (h : Held s0 s) (n : ℕ) (off : ℕ) (v : Word) : Held s0 (debugSyncWrite n off v s) := by
  unfold debugSyncWrite
  repeat' first
    | with_reducible first
        | assumption | apply opSet_held | apply opArrive_held | apply opAdd_held | apply ite_held
        | apply foldl_held | fail_if_no_progress (apply Held.mk)
    | split | intro _ | dsimp only | assumption | rfl

theorem debugStore_held {s0 s : State} (h : Held s0 s) (a : ℕ) (v : Word) : Held s0 (debugStore a v s) := by
  unfold debugStore
  repeat' first
    | with_reducible first
        | assumption | apply debugRegWrite_held | apply debugSyncWrite_held | apply writeWord_held
        | apply atomicWrite_held | apply ite_held | apply foldl_held | fail_if_no_progress (apply Held.mk)
    | split | intro _ | dsimp only | assumption | rfl

theorem debugWrite_held {s0 s : State} (h : Held s0 s) (v : Word) : Held s0 (debugWrite v s) := by
  unfold debugWrite
  repeat' first
    | with_reducible first
        | assumption | apply debugStore_held | apply measChange_held | apply modSec_held | apply debugAdvance_held
        | apply ite_held | apply foldl_held | fail_if_no_progress (apply Held.mk)
    | split | intro _ | dsimp only | assumption | rfl

theorem dumpRead_held {s0 s : State} (h : Held s0 s)  : Held s0 (dumpRead s) := by
  unfold dumpRead
  repeat' first
    | with_reducible first
        | assumption | apply modMgmt_held | apply modDumps_held | apply ite_held | apply foldl_held
        | fail_if_no_progress (apply Held.mk)
    | split | intro _ | dsimp only | assumption | rfl

theorem dbgRegRead_held {s0 s : State} (h : Held s0 s) (r : Reg) : Held s0 (dbgRegRead r s).2 := by
  unfold dbgRegRead
  repeat' first
    | with_reducible first
        | assumption | apply debugRead_held | apply ite_held | apply foldl_held
        | fail_if_no_progress (apply Held.mk)
    | split | intro _ | dsimp only | assumption | rfl

theorem dbgRegWrite_held {s0 s : State} (h : Held s0 s) (p : DbgPath) (r : Reg) (x : RegAccess) : Held s0 (dbgRegWrite p r x s) := by
  unfold dbgRegWrite
  repeat' first
    | with_reducible first
        | assumption | apply debugOpen_held | apply debugClose_held | apply modSec_held | apply debugWrite_held
        | apply debugHalt_held | apply debugResume_held | apply debugStep_held | apply ite_held | apply foldl_held
        | fail_if_no_progress (apply Held.mk)
    | split | intro _ | dsimp only | assumption | rfl

theorem bar0Refuse_held {s0 s : State} (h : Held s0 s) (off : ℕ) : Held s0 (bar0Refuse off s) := by
  unfold bar0Refuse
  repeat' first
    | with_reducible first
        | assumption | apply event_held | apply modHost_held | apply ite_held | apply foldl_held
        | fail_if_no_progress (apply Held.mk)
    | split | intro _ | dsimp only | assumption | rfl

theorem setLatch_held {s0 s : State} (h : Held s0 s) (slot : ℕ) (v : Option ℕ) : Held s0 (setLatch slot v s) := by
  unfold setLatch
  repeat' first
    | with_reducible first
        | assumption | apply modHost_held | apply ite_held | apply foldl_held | fail_if_no_progress (apply Held.mk)
    | split | intro _ | dsimp only | assumption | rfl

theorem regReadAt_held {s0 s : State} (h : Held s0 s) (r : Reg) (off : ℕ) (size : ℕ) : Held s0 (regReadAt r off size s) := by
  unfold regReadAt
  repeat' first
    | with_reducible first
        | assumption | apply hostReturn_held | apply dbgRegRead_held | apply setLatch_held | apply ite_held
        | apply foldl_held | fail_if_no_progress (apply Held.mk)
    | split | intro _ | dsimp only | assumption | rfl

theorem regWriteAt_held {s0 s : State} (h : Held s0 s) (p : DbgPath) (r : Reg) (x : RegAccess) : Held s0 (regWriteAt p r x s) := by
  unfold regWriteAt
  repeat' first
    | with_reducible first
        | assumption | apply dbgRegWrite_held | apply regWrite_held | apply ite_held | apply foldl_held
        | fail_if_no_progress (apply Held.mk)
    | split | intro _ | dsimp only | assumption | rfl

theorem reply_held {s0 s : State} (h : Held s0 s) (l : List ℕ) : Held s0 (reply l s) := by
  unfold reply
  repeat' first
    | with_reducible first
        | assumption | apply modSec_held | apply ite_held | apply foldl_held | fail_if_no_progress (apply Held.mk)
    | split | intro _ | dsimp only | assumption | rfl

theorem spdmError_held {s0 s : State} (h : Held s0 s) (code : ℕ) : Held s0 (spdmError code s) := by
  unfold spdmError
  repeat' first
    | with_reducible first
        | assumption | apply reply_held | apply ite_held | apply foldl_held | fail_if_no_progress (apply Held.mk)
    | split | intro _ | dsimp only | assumption | rfl

theorem spdm_held {s0 s : State} (h : Held s0 s) (act : State → State) (hact : ∀ t, Held s0 t → Held s0 (act  t)) : Held s0 (spdm act s) := by
  unfold spdm
  repeat' first
    | with_reducible first
        | assumption | apply spdmError_held | apply hact | apply ite_held | apply foldl_held
        | fail_if_no_progress (apply Held.mk)
    | split | intro _ | dsimp only | assumption | rfl

theorem modSpdm_held {s0 s : State} (h : Held s0 s) (n : ℕ) (f : SpdmSess → SpdmSess) : Held s0 (modSpdm n f s) := by
  unfold modSpdm
  repeat' first
    | with_reducible first
        | assumption | apply modSec_held | apply ite_held | apply foldl_held | fail_if_no_progress (apply Held.mk)
    | split | intro _ | dsimp only | assumption | rfl

theorem inSession_held {s0 s : State} (h : Held s0 s) (n : ℕ) (act : State → State) (hact : ∀ t, Held s0 t → Held s0 (act  t)) : Held s0 (inSession n act s) := by
  unfold inSession
  repeat' first
    | with_reducible first
        | assumption | apply spdm_held | apply spdmError_held | apply hact | apply ite_held | apply foldl_held
        | fail_if_no_progress (apply Held.mk)
    | split | intro _ | dsimp only | assumption | rfl

theorem setIde_held {s0 s : State} (h : Held s0 s) (n : ℕ) : Held s0 (setIde n s) := by
  unfold setIde
  repeat' first
    | with_reducible first
        | assumption | apply measChange_held | apply modHost_held | apply ite_held | apply foldl_held
        | fail_if_no_progress (apply Held.mk)
    | split | intro _ | dsimp only | assumption | rfl

theorem sdoAnswer_held {s0 s : State} (h : Held s0 s) (abort : ℕ) : Held s0 (sdoAnswer abort s) := by
  unfold sdoAnswer
  repeat' first
    | with_reducible first
        | assumption | apply modMgmt_held | apply ite_held | apply foldl_held | fail_if_no_progress (apply Held.mk)
    | split | intro _ | dsimp only | assumption | rfl

theorem newNonce_held {s0 s : State} (h : Held s0 s)  : Held s0 (newNonce s) := by
  unfold newNonce
  repeat' first
    | with_reducible first
        | assumption | apply modSec_held | apply ite_held | apply foldl_held | fail_if_no_progress (apply Held.mk)
    | split | intro _ | dsimp only | assumption | rfl

theorem authRefuse_held {s0 s : State} (h : Held s0 s)  : Held s0 (authRefuse s) := by
  unfold authRefuse
  repeat' first
    | with_reducible first
        | assumption | apply sdoAnswer_held | apply event_held | apply modSec_held | apply ite_held
        | apply foldl_held | fail_if_no_progress (apply Held.mk)
    | split | intro _ | dsimp only | assumption | rfl

theorem wardStart_held {s0 s : State} (h : Held s0 s) (w : Ward) (v : ℕ) : Held s0 (wardStart w v s) := by
  unfold wardStart
  repeat' first
    | with_reducible first
        | assumption | apply sdoAnswer_held | apply modMgmt_held | apply ite_held | apply foldl_held
        | fail_if_no_progress (apply Held.mk)
    | split | intro _ | dsimp only | assumption | rfl

theorem wardPass_held {s0 s : State} (h : Held s0 s) (w : Ward) (v : ℕ) : Held s0 (wardPass w v s) := by
  unfold wardPass
  repeat' first
    | with_reducible first
        | assumption | apply sdoAnswer_held | apply wardStart_held | apply ite_held | apply foldl_held
        | fail_if_no_progress (apply Held.mk)
    | split | intro _ | dsimp only | assumption | rfl

theorem wardWrite_held {s0 s : State} (h : Held s0 s) (w : Ward) (v : ℕ) : Held s0 (wardWrite w v s) := by
  unfold wardWrite
  repeat' first
    | with_reducible first
        | assumption | apply newNonce_held | apply modSec_held | apply wardPass_held | apply sdoAnswer_held
        | apply authRefuse_held | apply ite_held | apply foldl_held | fail_if_no_progress (apply Held.mk)
    | split | intro _ | dsimp only | assumption | rfl

theorem burnEnd_held {s0 s : State} (h : Held s0 s) (w : Ward) (old : ℕ) (abort : ℕ) : Held s0 (burnEnd w old abort s) := by
  unfold burnEnd
  repeat' first
    | with_reducible first
        | assumption | apply sdoAnswer_held | apply event_held | apply modMgmt_held | apply ite_held
        | apply foldl_held | fail_if_no_progress (apply Held.mk)
    | split | intro _ | dsimp only | assumption | rfl

theorem tallyPop_held {s0 s : State} (h : Held s0 s)  : Held s0 (tallyPop s) := by
  unfold tallyPop
  repeat' first
    | with_reducible first
        | assumption | apply modMgmt_held | apply tallyFree_held | apply modTally_held | apply ite_held
        | apply foldl_held | fail_if_no_progress (apply Held.mk)
    | split | intro _ | dsimp only | assumption | rfl

theorem tallyReader_held {s0 s : State} (h : Held s0 s) (value : ℕ) : Held s0 (tallyReader value s) := by
  unfold tallyReader
  repeat' first
    | with_reducible first
        | assumption | apply sdoAnswer_held | apply modTally_held | apply ite_held | apply foldl_held
        | fail_if_no_progress (apply Held.mk)
    | split | intro _ | dsimp only | assumption | rfl

theorem ovfClear_held {s0 s : State} (h : Held s0 s) (index : ℕ) (sub : ℕ) (sat : BitVec 16) : Held s0 (ovfClear index sub sat s) := by
  unfold ovfClear
  repeat' first
    | with_reducible first
        | assumption | apply modMgmt_held | apply modStride_held | apply modSync_held | apply modLinks_held
        | apply modJob_held | apply modSec_held | apply ite_held | apply foldl_held
        | fail_if_no_progress (apply Held.mk)
    | split | intro _ | dsimp only | assumption | rfl

theorem ovfWrite_held {s0 s : State} (h : Held s0 s) (index : ℕ) (sub : ℕ) (value : ℕ) (sat : BitVec 16) : Held s0 (ovfWrite index sub value sat s) := by
  unfold ovfWrite
  repeat' first
    | with_reducible first
        | assumption | apply sdoAnswer_held | apply ovfClear_held | apply ite_held | apply foldl_held
        | fail_if_no_progress (apply Held.mk)
    | split | intro _ | dsimp only | assumption | rfl

theorem inRange_held {s0 s : State} (h : Held s0 s) (ok : Bool) (act : State → State) (hact : ∀ t, Held s0 t → Held s0 (act  t)) : Held s0 (inRange ok act s) := by
  unfold inRange
  repeat' first
    | with_reducible first
        | assumption | apply sdoAnswer_held | apply hact | apply ite_held | apply foldl_held
        | fail_if_no_progress (apply Held.mk)
    | split | intro _ | dsimp only | assumption | rfl

theorem setRack_held {s0 s : State} (h : Held s0 s) (v : BitVec 8) : Held s0 (setRack v s) := by
  unfold setRack
  repeat' first
    | with_reducible first
        | assumption | apply event_held | apply modMgmt_held | apply ite_held | apply foldl_held
        | fail_if_no_progress (apply Held.mk)
    | split | intro _ | dsimp only | assumption | rfl

theorem measIf_held {s0 s : State} (h : Held s0 s) (changed : Bool) : Held s0 (measIf changed s) := by
  unfold measIf
  repeat' first
    | with_reducible first
        | assumption | apply measChange_held | apply ite_held | apply foldl_held
        | fail_if_no_progress (apply Held.mk)
    | split | intro _ | dsimp only | assumption | rfl

theorem shareBudgets_held {s0 s : State} (h : Held s0 s)  : Held s0 (shareBudgets s) := by
  unfold shareBudgets
  repeat' first
    | with_reducible first
        | assumption | apply modTiers_held | apply ite_held | apply foldl_held
        | fail_if_no_progress (apply Held.mk)
    | split | intro _ | dsimp only | assumption | rfl

theorem setShare_held {s0 s : State} (h : Held s0 s) (sub : ℕ) (v : ℕ) : Held s0 (setShare sub v s) := by
  unfold setShare
  repeat' first
    | with_reducible first
        | assumption | apply inRange_held | apply shareBudgets_held | apply modTiers_held | apply ite_held
        | apply foldl_held | fail_if_no_progress (apply Held.mk)
    | split | intro _ | dsimp only | assumption | rfl

theorem setCoord_held {s0 s : State} (h : Held s0 s) (v : ℕ) (limit : ℕ) (f : Links → Links) : Held s0 (setCoord v limit f s) := by
  unfold setCoord
  repeat' first
    | with_reducible first
        | assumption | apply sdoAnswer_held | apply inRange_held | apply modLinks_held | apply ite_held
        | apply foldl_held | fail_if_no_progress (apply Held.mk)
    | split | intro _ | dsimp only | assumption | rfl

theorem write2100_held {s0 s : State} (h : Held s0 s) (sub : ℕ) (v : ℕ) : Held s0 (write2100 sub v s) := by
  unfold write2100
  repeat' first
    | with_reducible first
        | assumption | apply sdoAnswer_held | apply inRange_held | apply noteChange_held | apply modMgmt_held
        | apply setRack_held | apply ite_held | apply foldl_held | fail_if_no_progress (apply Held.mk)
    | split | intro _ | dsimp only | assumption | rfl

theorem write2200_held {s0 s : State} (h : Held s0 s) (sub : ℕ) (v : ℕ) : Held s0 (write2200 sub v s) := by
  unfold write2200
  repeat' first
    | with_reducible first
        | assumption | apply inRange_held | apply modStride_held | apply measIf_held | apply ite_held
        | apply foldl_held | fail_if_no_progress (apply Held.mk)
    | split | intro _ | dsimp only | assumption | rfl

theorem write2300_held {s0 s : State} (h : Held s0 s) (sub : ℕ) (v : ℕ) : Held s0 (write2300 sub v s) := by
  unfold write2300
  repeat' first
    | with_reducible first
        | assumption | apply inRange_held | apply modTiers_held | apply portRestore_held | apply setShare_held
        | apply ite_held | apply foldl_held | fail_if_no_progress (apply Held.mk)
    | split | intro _ | dsimp only | assumption | rfl

theorem write2400_held {s0 s : State} (h : Held s0 s) (sub : ℕ) (v : ℕ) : Held s0 (write2400 sub v s) := by
  unfold write2400
  repeat' first
    | with_reducible first
        | assumption | apply setCoord_held | apply inRange_held | apply modLinks_held | apply ite_held
        | apply foldl_held | fail_if_no_progress (apply Held.mk)
    | split | intro _ | dsimp only | assumption | rfl

theorem write2500_held {s0 s : State} (h : Held s0 s) (sub : ℕ) (v : ℕ) : Held s0 (write2500 sub v s) := by
  unfold write2500
  repeat' first
    | with_reducible first
        | assumption | apply tenantWrite_held | apply sdoAnswer_held | apply inRange_held | apply modJob_held
        | apply ite_held | apply foldl_held | fail_if_no_progress (apply Held.mk)
    | split | intro _ | dsimp only | assumption | rfl

theorem write2800_held {s0 s : State} (h : Held s0 s) (sub : ℕ) (v : ℕ) : Held s0 (write2800 sub v s) := by
  unfold write2800
  repeat' first
    | with_reducible first
        | assumption | apply inRange_held | apply modSync_held | apply ite_held | apply foldl_held
        | fail_if_no_progress (apply Held.mk)
    | split | intro _ | dsimp only | assumption | rfl

theorem write2F00_held {s0 s : State} (h : Held s0 s) (sub : ℕ) (v : ℕ) : Held s0 (write2F00 sub v s) := by
  unfold write2F00
  repeat' first
    | with_reducible first
        | assumption | apply sdoAnswer_held | apply dbgRegWrite_held | apply inRange_held | apply modSec_held
        | apply modDumps_held | apply ite_held | apply foldl_held | fail_if_no_progress (apply Held.mk)
    | split | intro _ | dsimp only | assumption | rfl

theorem write2001_held {s0 s : State} (h : Held s0 s) (sub : ℕ) (v : ℕ) : Held s0 (write2001 sub v s) := by
  unfold write2001
  repeat' first
    | with_reducible first
        | assumption | apply inRange_held | apply modBoot_held | apply modDumps_held | apply ite_held
        | apply foldl_held | fail_if_no_progress (apply Held.mk)
    | split | intro _ | dsimp only | assumption | rfl

theorem odWrite_held {s0 s : State} (h : Held s0 s) (index : ℕ) (sub : ℕ) (v : ℕ) : Held s0 (odWrite index sub v s) := by
  unfold odWrite
  repeat' first
    | with_reducible first
        | assumption | apply ovfWrite_held | apply wardWrite_held | apply write2001_held | apply write2100_held
        | apply write2200_held | apply write2300_held | apply write2400_held | apply write2500_held
        | apply tallyReader_held | apply write2800_held | apply write2F00_held | apply ite_held | apply foldl_held
        | fail_if_no_progress (apply Held.mk)
    | split | intro _ | dsimp only | assumption | rfl

theorem alTo_held {s0 s : State} (h : Held s0 s) (a : AlState) (code : ℕ) : Held s0 (alTo a code s) := by
  unfold alTo
  repeat' first
    | with_reducible first
        | assumption | apply modMgmt_held | apply ite_held | apply foldl_held | fail_if_no_progress (apply Held.mk)
    | split | intro _ | dsimp only | assumption | rfl

theorem alOp_held {s0 s : State} (h : Held s0 s)  : Held s0 (alOp s) := by
  unfold alOp
  repeat' first
    | with_reducible first
        | assumption | apply modMgmt_held | apply ite_held | apply foldl_held | fail_if_no_progress (apply Held.mk)
    | split | intro _ | dsimp only | assumption | rfl

theorem takeBudget_held {s0 s : State} (h : Held s0 s) (b : ℕ) : Held s0 (takeBudget b s) := by
  unfold takeBudget
  repeat' first
    | with_reducible first
        | assumption | apply modMgmt_held | apply noteChange_held | apply ite_held | apply foldl_held
        | fail_if_no_progress (apply Held.mk)
    | split | intro _ | dsimp only | assumption | rfl

theorem loseMaster_held {s0 s : State} (h : Held s0 s)  : Held s0 (loseMaster s) := by
  unfold loseMaster
  repeat' first
    | with_reducible first
        | assumption | apply event_held | apply modMgmt_held | apply ite_held | apply foldl_held
        | fail_if_no_progress (apply Held.mk)
    | split | intro _ | dsimp only | assumption | rfl

theorem slipStatus_held {s0 s : State} (h : Held s0 s) (r : Running) : Held s0 (slipStatus r s) := by
  unfold slipStatus
  repeat' first
    | with_reducible first
        | assumption | apply event_held | apply modStride_held | apply ite_held | apply foldl_held
        | fail_if_no_progress (apply Held.mk)
    | split | intro _ | dsimp only | assumption | rfl

theorem ledgerMismatch_held {s0 s : State} (h : Held s0 s) (r : Running) (n : ℕ) (f : Figure) : Held s0 (ledgerMismatch r n f s) := by
  unfold ledgerMismatch
  repeat' first
    | with_reducible first
        | assumption | apply modStride_held | apply jobFault_held | apply event_held | apply ite_held
        | apply foldl_held | fail_if_no_progress (apply Held.mk)
    | split | intro _ | dsimp only | assumption | rfl

theorem ledgerCheck_held {s0 s : State} (h : Held s0 s) (r : Running) (n : ℕ) : Held s0 (ledgerCheck r n s) := by
  unfold ledgerCheck
  repeat' first
    | with_reducible first
        | assumption | apply modRun_held | apply ledgerMismatch_held | apply ite_held | apply foldl_held
        | fail_if_no_progress (apply Held.mk)
    | split | intro _ | dsimp only | assumption | rfl

theorem watchTick_held {s0 s : State} (h : Held s0 s)  : Held s0 (watchTick s) := by
  unfold watchTick
  repeat' first
    | with_reducible first
        | assumption | apply modRun_held | apply ite_held | apply foldl_held | fail_if_no_progress (apply Held.mk)
    | split | intro _ | dsimp only | assumption | rfl

theorem markerFault_held {s0 s : State} (h : Held s0 s)  : Held s0 (markerFault s) := by
  unfold markerFault
  repeat' first
    | with_reducible first
        | assumption | apply modStride_held | apply jobFault_held | apply jobOver_held | apply modTiers_held
        | apply ite_held | apply foldl_held | fail_if_no_progress (apply Held.mk)
    | split | intro _ | dsimp only | assumption | rfl

theorem closeStarted_held {s0 s : State} (h : Held s0 s)  : Held s0 (closeStarted s) := by
  unfold closeStarted
  repeat' first
    | with_reducible first
        | assumption | apply slipStatus_held | apply forEach_held | apply ledgerCheck_held | apply watchTick_held
        | apply ite_held | apply foldl_held | fail_if_no_progress (apply Held.mk)
    | split | intro _ | dsimp only | assumption | rfl

theorem strideClose_held {s0 s : State} (h : Held s0 s)  : Held s0 (strideClose s) := by
  unfold strideClose
  repeat' first
    | with_reducible first
        | assumption | apply markerFault_held | apply closeStarted_held | apply ite_held | apply foldl_held
        | fail_if_no_progress (apply Held.mk)
    | split | intro _ | dsimp only | assumption | rfl

theorem strideInForce_held {s0 s : State} (h : Held s0 s)  : Held s0 (strideInForce s) := by
  unfold strideInForce
  repeat' first
    | with_reducible first
        | assumption | apply modStride_held | apply ite_held | apply foldl_held
        | fail_if_no_progress (apply Held.mk)
    | split | intro _ | dsimp only | assumption | rfl

theorem odInForce_held {s0 s : State} (h : Held s0 s)  : Held s0 (odInForce s) := by
  unfold odInForce
  repeat' first
    | with_reducible first
        | assumption | apply modSync_held | apply modTiers_held | apply ite_held | apply foldl_held
        | fail_if_no_progress (apply Held.mk)
    | split | intro _ | dsimp only | assumption | rfl

theorem curbLoad_held {s0 s : State} (h : Held s0 s)  : Held s0 (curbLoad s) := by
  unfold curbLoad
  repeat' first
    | with_reducible first
        | assumption | apply modTiers_held | apply ite_held | apply foldl_held
        | fail_if_no_progress (apply Held.mk)
    | split | intro _ | dsimp only | assumption | rfl

theorem usageCharge_held {s0 s : State} (h : Held s0 s)  : Held s0 (usageCharge s) := by
  unfold usageCharge
  repeat' first
    | with_reducible first
        | assumption | apply modJob_held | apply modRun_held | apply ite_held | apply foldl_held
        | fail_if_no_progress (apply Held.mk)
    | split | intro _ | dsimp only | assumption | rfl

theorem jobAges_held {s0 s : State} (h : Held s0 s)  : Held s0 (jobAges s) := by
  unfold jobAges
  repeat' first
    | with_reducible first
        | assumption | apply modRun_held | apply modJob_held | apply ite_held | apply foldl_held
        | fail_if_no_progress (apply Held.mk)
    | split | intro _ | dsimp only | assumption | rfl

theorem waitAges_held {s0 s : State} (h : Held s0 s)  : Held s0 (waitAges s) := by
  unfold waitAges
  repeat' first
    | with_reducible first
        | assumption | apply modSync_held | apply ite_held | apply foldl_held | fail_if_no_progress (apply Held.mk)
    | split | intro _ | dsimp only | assumption | rfl

theorem takeMeasures_held {s0 s : State} (h : Held s0 s) (b : BoundaryIn) : Held s0 (takeMeasures b s) := by
  unfold takeMeasures
  repeat' first
    | with_reducible first
        | assumption | apply modStride_held | apply tripIfHot_held | apply noteChange_held | apply ite_held
        | apply foldl_held | fail_if_no_progress (apply Held.mk)
    | split | intro _ | dsimp only | assumption | rfl

theorem openWindow_held {s0 s : State} (h : Held s0 s)  : Held s0 (openWindow s) := by
  unfold openWindow
  repeat' first
    | with_reducible first
        | assumption | apply modStride_held | apply ite_held | apply foldl_held
        | fail_if_no_progress (apply Held.mk)
    | split | intro _ | dsimp only | assumption | rfl

theorem laneAges_held {s0 s : State} (h : Held s0 s)  : Held s0 (laneAges s) := by
  unfold laneAges
  repeat' first
    | with_reducible first
        | assumption | apply modLinks_held | apply ite_held | apply foldl_held
        | fail_if_no_progress (apply Held.mk)
    | split | intro _ | dsimp only | assumption | rfl

theorem hostAges_held {s0 s : State} (h : Held s0 s)  : Held s0 (hostAges s) := by
  unfold hostAges
  repeat' first
    | with_reducible first
        | assumption | apply modHost_held | apply modSec_held | apply ite_held | apply foldl_held
        | fail_if_no_progress (apply Held.mk)
    | split | intro _ | dsimp only | assumption | rfl

theorem etxiaGoes_held {s0 s : State} (h : Held s0 s)  : Held s0 (etxiaGoes s) := by
  unfold etxiaGoes
  repeat' first
    | with_reducible first
        | assumption | apply stagesGo_held | apply loadsGo_held | apply portsZero_held | apply dumpGo_held
        | apply ite_held | apply foldl_held | fail_if_no_progress (apply Held.mk)
    | split | intro _ | dsimp only | assumption | rfl

theorem boundaryWork_held {s0 s : State} (h : Held s0 s)  : Held s0 (boundaryWork s) := by
  unfold boundaryWork
  repeat' first
    | with_reducible first
        | assumption | apply strideClose_held | apply odInForce_held | apply waitAges_held | apply jobAges_held
        | apply usageCharge_held | apply ostlersRetire_held | apply raiseUsed_held | apply quietTick_held
        | apply etxiaGoes_held | apply curbLoad_held | apply laneAges_held | apply ite_held | apply foldl_held
        | fail_if_no_progress (apply Held.mk)
    | split | intro _ | dsimp only | assumption | rfl

theorem stepOpen_held {s0 s : State} (h : Held s0 s)  : Held s0 (stepOpen s) := by
  unfold stepOpen
  repeat' first
    | with_reducible first
        | assumption | apply modRun_held | apply ite_held | apply foldl_held | fail_if_no_progress (apply Held.mk)
    | split | intro _ | dsimp only | assumption | rfl

theorem waitRecord_held {s0 s : State} (h : Held s0 s) (e : ℕ) : Held s0 (waitRecord e s) := by
  unfold waitRecord
  repeat' first
    | with_reducible first
        | assumption | apply event_held | apply ite_held | apply foldl_held | fail_if_no_progress (apply Held.mk)
    | split | intro _ | dsimp only | assumption | rfl

theorem markerForward_held {s0 s : State} (h : Held s0 s) (m : Marker) (g : List ℕ) (root : ℕ) : Held s0 (markerForward m g root s) := by
  unfold markerForward
  repeat' first
    | with_reducible first
        | assumption | apply forEach_held | apply linkSend_held | apply emit_held | apply ite_held
        | apply foldl_held | fail_if_no_progress (apply Held.mk)
    | split | intro _ | dsimp only | assumption | rfl

theorem markerSays_held {s0 s : State} (h : Held s0 s) (m : Marker) : Held s0 (markerSays m s) := by
  unfold markerSays
  repeat' first
    | with_reducible first
        | assumption | apply modStride_held | apply ite_held | apply foldl_held
        | fail_if_no_progress (apply Held.mk)
    | split | intro _ | dsimp only | assumption | rfl

theorem markerAlign_held {s0 s : State} (h : Held s0 s) (m : Marker) (phase : ℤ) : Held s0 (markerAlign m phase s) := by
  unfold markerAlign
  repeat' first
    | with_reducible first
        | assumption | apply event_held | apply modStride_held | apply ite_held | apply foldl_held
        | fail_if_no_progress (apply Held.mk)
    | split | intro _ | dsimp only | assumption | rfl

theorem strideBody_held {s0 s : State} (h : Held s0 s) (kind : ℕ) (b : BitVec 256) (f : Marker → State → State) (hf : ∀ x0 t, Held s0 t → Held s0 (f x0 t)) : Held s0 (strideBody kind b f s) := by
  unfold strideBody
  repeat' first
    | with_reducible first
        | assumption | apply modMgmt_held | apply hf | apply ite_held | apply foldl_held
        | fail_if_no_progress (apply Held.mk)
    | split | intro _ | dsimp only | assumption | rfl

theorem takeMarker_held {s0 s : State} (h : Held s0 s) (phase : ℤ) (m : Marker) : Held s0 (takeMarker phase m s) := by
  unfold takeMarker
  repeat' first
    | with_reducible first
        | assumption | apply markerForward_held | apply markerAlign_held | apply markerSays_held | apply ite_held
        | apply foldl_held | fail_if_no_progress (apply Held.mk)
    | split | intro _ | dsimp only | assumption | rfl

theorem announce_held {s0 s : State} (h : Held s0 s) (code : ℕ) : Held s0 (announce code s) := by
  unfold announce
  repeat' first
    | with_reducible first
        | assumption | apply modStride_held | apply ite_held | apply foldl_held
        | fail_if_no_progress (apply Held.mk)
    | split | intro _ | dsimp only | assumption | rfl

theorem takeLenReq_held {s0 s : State} (h : Held s0 s) (chip : BitVec 16) (m : Marker) : Held s0 (takeLenReq chip m s) := by
  unfold takeLenReq
  repeat' first
    | with_reducible first
        | assumption | apply modStride_held | apply ite_held | apply foldl_held
        | fail_if_no_progress (apply Held.mk)
    | split | intro _ | dsimp only | assumption | rfl

theorem stagedReport_held {s0 s : State} (h : Held s0 s) (chip : ℕ) (tackId : ℕ) : Held s0 (stagedReport chip tackId s) := by
  unfold stagedReport
  repeat' first
    | with_reducible first
        | assumption | apply modJob_held | apply ite_held | apply foldl_held | fail_if_no_progress (apply Held.mk)
    | split | intro _ | dsimp only | assumption | rfl

theorem takeEvent_held {s0 s : State} (h : Held s0 s) (chip : BitVec 16) (m : Marker) : Held s0 (takeEvent chip m s) := by
  unfold takeEvent
  repeat' first
    | with_reducible first
        | assumption | apply stagedReport_held | apply announce_held | apply ite_held | apply foldl_held
        | fail_if_no_progress (apply Held.mk)
    | split | intro _ | dsimp only | assumption | rfl

theorem streamReadEnd_held {s0 s : State} (h : Held s0 s) (e : ℕ) (ag : ℕ) (a : ℕ) (lost : Option (ℕ × List Byte)) : Held s0 (streamReadEnd e ag a lost s) := by
  unfold streamReadEnd
  repeat' first
    | with_reducible first
        | assumption | apply reqEnd_held | apply loadLost_held | apply ite_held | apply foldl_held
        | fail_if_no_progress (apply Held.mk)
    | split | intro _ | dsimp only | assumption | rfl

theorem streamSpadLost_held {s0 s : State} (h : Held s0 s) (e : ℕ) (ag : ℕ) (post : Bool) (a : ℕ) : Held s0 (streamSpadLost e ag post a s) := by
  unfold streamSpadLost
  repeat' first
    | with_reducible first
        | assumption | apply modAg_held | apply spadRefuse_held | apply ite_held | apply foldl_held
        | fail_if_no_progress (apply Held.mk)
    | split | intro _ | dsimp only | assumption | rfl

theorem scalarLost_held {s0 s : State} (h : Held s0 s) (c : ℕ) (t : ℕ) (a : ℕ) : Held s0 (scalarLost c t a s) := by
  unfold scalarLost
  repeat' first
    | with_reducible first
        | assumption | apply haltCore_held | apply jobFault_held | apply modThread_held | apply ite_held
        | apply foldl_held | fail_if_no_progress (apply Held.mk)
    | split | intro _ | dsimp only | assumption | rfl

theorem fetchLost_held {s0 s : State} (h : Held s0 s) (c : ℕ) (t : ℕ) (a : ℕ) : Held s0 (fetchLost c t a s) := by
  unfold fetchLost
  repeat' first
    | with_reducible first
        | assumption | apply spadRefuse_held | apply ite_held | apply foldl_held
        | fail_if_no_progress (apply Held.mk)
    | split | intro _ | dsimp only | assumption | rfl

theorem tileLost_held {s0 s : State} (h : Held s0 s) (e a : Nat) : Held s0 (tileLost e a s) := by
  unfold tileLost
  split
  · exact h
  split
  · exact h
  split
  · exact h
  split
  · exact h
  · exact spadRefuse_held (abandonFiring_held (tileRunList_held h _ _ _ _ _ _) _ _) _ _ _ _ _ _

theorem vectorAbandon_held {s0 s : State} (h : Held s0 s) (k : VecAt) (a : ℕ) : Held s0 (vectorAbandon k a s) := by
  unfold vectorAbandon
  repeat' first
    | with_reducible first
        | assumption | apply spadRefuse_held | apply abandonFiring_held | apply ite_held | apply foldl_held
        | fail_if_no_progress (apply Held.mk)
    | split | intro _ | dsimp only | assumption | rfl

theorem vectorLost_held {s0 s : State} (h : Held s0 s) (e : ℕ) (a : ℕ) (op : VecOp) (v : VecF) : Held s0 (vectorLost e a op v s) := by
  unfold vectorLost
  repeat' first
    | with_reducible first
        | assumption | apply vectorAbandon_held | apply writeOutAll_held | apply measAdd_held | apply ite_held
        | apply foldl_held | fail_if_no_progress (apply Held.mk)
    | split | intro _ | dsimp only | assumption | rfl

theorem resloadReturn_held {s0 s : State} (h : Held s0 s) (e : ℕ) (a : ℕ) : Held s0 (resloadReturn e a s) := by
  unfold resloadReturn
  repeat' first
    | with_reducible first
        | assumption | apply resloadLand_held | apply modFiring_held | apply ite_held | apply foldl_held
        | fail_if_no_progress (apply Held.mk)
    | split | intro _ | dsimp only | assumption | rfl

theorem resloadLost_held {s0 s : State} (h : Held s0 s) (e : ℕ) (a : ℕ) (code : ℕ) : Held s0 (resloadLost e a code s) := by
  unfold resloadLost
  repeat' first
    | with_reducible first
        | assumption | apply resloadAbandon_held | apply spadRefuse_held | apply abandonFiring_held
        | apply resloadLand_held | apply ite_held | apply foldl_held | fail_if_no_progress (apply Held.mk)
    | split | intro _ | dsimp only | assumption | rfl

theorem ctrlLost_held {s0 s : State} (h : Held s0 s) (store : ℕ) (a : ℕ) : Held s0 (ctrlLost store a s) := by
  unfold ctrlLost
  repeat' first
    | with_reducible first
        | assumption | apply chipStopBy_held | apply ite_held | apply foldl_held
        | fail_if_no_progress (apply Held.mk)
    | split | intro _ | dsimp only | assumption | rfl

theorem readLost_held {s0 s : State} (h : Held s0 s) (r : Reader) (a : ℕ) (u : ℕ) (x : Ecc) (retries : ℕ) : Held s0 (readLost r a u x retries s) := by
  unfold readLost
  repeat' first
    | with_reducible first
        | assumption | apply whenB_held | apply streamReadEnd_held | apply scalarLost_held | apply fetchLost_held
        | apply tileLost_held | apply vectorLost_held | apply streamSpadLost_held | apply resloadLost_held
        | apply ctrlLost_held | apply hitchTableLost_held | apply hitchRowLost_held | apply ite_held
        | apply foldl_held | fail_if_no_progress (apply Held.mk)
    | split | intro _ | dsimp only | assumption | rfl

theorem readNote_held {s0 s : State} (h : Held s0 s) (r : Reader) (a : ℕ) (x : UnitErr) : Held s0 (readNote r a x s) := by
  unfold readNote
  repeat' first
    | with_reducible first
        | assumption | apply noteSram_held | apply countEcc_held | apply unitFound_held | apply ite_held
        | apply foldl_held | fail_if_no_progress (apply Held.mk)
    | split | intro _ | dsimp only | assumption | rfl

theorem readTouch_held {s0 s : State} (h : Held s0 s) (r : Reader) (a : ℕ) (how : ReadEnd) : Held s0 (readTouch r a how s) := by
  unfold readTouch
  repeat' first
    | with_reducible first
        | assumption | apply pageReadDrop_held | apply portTouch_held | apply ite_held | apply foldl_held
        | fail_if_no_progress (apply Held.mk)
    | split | intro _ | dsimp only | assumption | rfl

theorem readPortFailed_held {s0 s : State} (h : Held s0 s) (r : Reader) (a : Nat) : Held s0 (readPortFailed r a s) := by
  cases r with
  | streamLoad e ag => exact whenB_held h (fun hk => streamReadEnd_held hk _ _ _ _)
  | session => exact ctrlLost_held h _ _
  | _ => exact h

theorem readGood_held {s0 s : State} (h : Held s0 s) (r : Reader) (a : ℕ) : Held s0 (readGood r a s) := by
  unfold readGood
  repeat' first
    | with_reducible first
        | assumption | apply whenB_held | apply streamReadEnd_held | apply resloadReturn_held | apply ite_held
        | apply foldl_held | fail_if_no_progress (apply Held.mk)
    | split | intro _ | dsimp only | assumption | rfl

theorem readEnd_held {s0 s : State} (h : Held s0 s) (r : Reader) (a : Nat) (how : ReadEnd) : Held s0 (readEnd r a how s) := by
  cases how with
  | portFailed => exact readPortFailed_held h _ _
  | data errs =>
    have hn := forEach_held (l := unitsIn s (plainAddr s a) (readSize r a s) errs) h
      (fun u t ht => readNote_held ht r u.1 u.2)
    unfold readEnd
    dsimp only
    split
    · exact readLost_held hn _ _ _ _ _
    · exact readGood_held hn _ _

-- excluded

-- excluded

theorem bindPass_held {s0 s : State} (h : Held s0 s) (die : ℕ) (courser : Bool) : Held s0 (bindPass die courser s) := by
  unfold bindPass
  repeat' first
    | with_reducible first
        | assumption | apply forEach_held | apply ite_held | apply foldl_held | fail_if_no_progress (apply Held.mk)
    | split | intro _ | dsimp only | assumption | rfl

theorem rebind_held {s0 s : State} (h : Held s0 s) (first : State) (x : ℕ × ℕ) : Held s0 (rebind first x s) := by
  unfold rebind
  repeat' first
    | with_reducible first
        | assumption | apply ite_held | apply foldl_held | fail_if_no_progress (apply Held.mk)
    | split | intro _ | dsimp only | assumption | rfl

theorem bindCores_held {s0 s : State} (h : Held s0 s)  : Held s0 (bindCores s) := by
  unfold bindCores
  repeat' first
    | with_reducible first
        | assumption | apply bindPass_held | apply forEach_held | apply rebind_held | apply modCore_held
        | apply ite_held | apply foldl_held | fail_if_no_progress (apply Held.mk)
    | split | intro _ | dsimp only | assumption | rfl

theorem bindOstlers_held {s0 s : State} (h : Held s0 s)  : Held s0 (bindOstlers s) := by
  unfold bindOstlers
  repeat' first
    | with_reducible first
        | assumption | apply forEach_held | apply modOstler_held | apply ite_held | apply foldl_held
        | fail_if_no_progress (apply Held.mk)
    | split | intro _ | dsimp only | assumption | rfl

theorem startStop_held {s0 s : State} (h : Held s0 s) (stage : ℕ) (code : ℕ) (detail : List Byte) : Held s0 (startStop stage code detail s) := by
  unfold startStop
  repeat' first
    | with_reducible first
        | assumption | apply chipStop_held | apply modBoot_held | apply reducedDump_held | apply modMgmt_held
        | apply ite_held | apply foldl_held | fail_if_no_progress (apply Held.mk)
    | split | intro _ | dsimp only | assumption | rfl

theorem stageFuses_held {s0 s : State} (h : Held s0 s)  : Held s0 (stageFuses s) := by
  unfold stageFuses
  repeat' first
    | with_reducible first
        | assumption | apply modStride_held | apply bindOstlers_held | apply bindCores_held | apply modTiers_held
        | apply modSec_held | apply ite_held | apply foldl_held | fail_if_no_progress (apply Held.mk)
    | split | intro _ | dsimp only | assumption | rfl

theorem stageTumbler_held {s0 s : State} (h : Held s0 s) (x : ℕ × Bool) : Held s0 (stageTumbler x s) := by
  unfold stageTumbler
  repeat' first
    | with_reducible first
        | assumption | apply modBoot_held | apply ite_held | apply foldl_held | fail_if_no_progress (apply Held.mk)
    | split | intro _ | dsimp only | assumption | rfl

theorem stageConfig_held {s0 s : State} (h : Held s0 s) (x : ℕ × Bool) : Held s0 (stageConfig x s) := by
  unfold stageConfig
  repeat' first
    | with_reducible first
        | assumption | apply modBoot_held | apply ite_held | apply foldl_held | fail_if_no_progress (apply Held.mk)
    | split | intro _ | dsimp only | assumption | rfl

theorem portZero_held {s0 s : State} (h : Held s0 s) (p : Nat) : Held s0 (portZero p s) := by
  have hc := curbCharge_held h p 4 (lHalf s / 8 / 64)
  unfold portZero
  dsimp only
  split
  · exact hc
  · exact forEach_held hc (fun a t ht => writeBytes_held ht _ _)

theorem portObjects_held {s0 s : State} (h : Held s0 s) (p : ℕ) : Held s0 (portObjects p s) := by
  unfold portObjects
  repeat' first
    | with_reducible first
        | assumption | apply forEach_held | apply dirRemove_held | apply ite_held | apply foldl_held
        | fail_if_no_progress (apply Held.mk)
    | split | intro _ | dsimp only | assumption | rfl

theorem stageMemory_held {s0 s : State} (h : Held s0 s) (i : StartIn) : Held s0 (stageMemory i s) := by
  unfold stageMemory
  repeat' first
    | with_reducible first
        | assumption | apply forEach_held | apply modPort_held | apply ite_held | apply foldl_held
        | fail_if_no_progress (apply Held.mk)
    | split | intro _ | dsimp only | assumption | rfl

theorem stageRelease_held {s0 s : State} (h : Held s0 s) (x : StartIn) : Held s0 (stageRelease x s) := by
  unfold stageRelease
  repeat' first
    | with_reducible first
        | assumption | apply forEach_held | apply event_held | apply modOstler_held | apply modSec_held
        | apply modMgmt_held | apply ite_held | apply foldl_held | fail_if_no_progress (apply Held.mk)
    | split | intro _ | dsimp only | assumption | rfl

theorem stageTables_held {s0 s : State} (h : Held s0 s) (i : StartIn) : Held s0 (stageTables i s) := by
  unfold stageTables
  repeat' first
    | with_reducible first
        | assumption | apply modSft_held | apply ite_held | apply foldl_held | fail_if_no_progress (apply Held.mk)
    | split | intro _ | dsimp only | assumption | rfl

theorem copyDump_held {s0 s : State} (h : Held s0 s)  : Held s0 (copyDump s) := by
  unfold copyDump
  repeat' first
    | with_reducible first
        | assumption | apply dumpGo_held | apply modDumps_held | apply ite_held | apply foldl_held
        | fail_if_no_progress (apply Held.mk)
    | split | intro _ | dsimp only | assumption | rfl

theorem stageEtxia_held {s0 s : State} (h : Held s0 s) (i : StartIn) : Held s0 (stageEtxia i s) := by
  unfold stageEtxia
  repeat' first
    | with_reducible first
        | assumption | apply stageTables_held | apply defaultBudgets_held | apply forEach_held | apply modLink_held
        | apply modJob_held | apply modBoot_held | apply copyDump_held | apply ite_held | apply foldl_held
        | fail_if_no_progress (apply Held.mk)
    | split | intro _ | dsimp only | assumption | rfl

theorem startLate_held {s0 s : State} (h : Held s0 s) (i : StartIn) : Held s0 (startLate i s) := by
  unfold startLate
  repeat' first
    | with_reducible first
        | assumption | apply startStop_held | apply stageEtxia_held | apply stageRelease_held | apply modBoot_held
        | apply ite_held | apply foldl_held | fail_if_no_progress (apply Held.mk)
    | split | intro _ | dsimp only | assumption | rfl

theorem startRun_held {s0 s : State} (h : Held s0 s) (i : StartIn) : Held s0 (startRun i s) := by
  unfold startRun
  repeat' first
    | with_reducible first
        | assumption | apply startStop_held | apply stageFuses_held | apply modBoot_held | apply stageTumbler_held
        | apply startLate_held | apply stageMemory_held | apply stageConfig_held | apply ite_held
        | apply foldl_held | fail_if_no_progress (apply Held.mk)
    | split | intro _ | dsimp only | assumption | rfl

theorem startAdmit_held {s0 s : State} (h : Held s0 s) (i : StartIn) : Held s0 (startAdmit i s) := by
  unfold startAdmit
  repeat' first
    | with_reducible first
        | assumption | apply event_held | apply modBoot_held | apply setAct_held | apply ite_held
        | apply foldl_held | fail_if_no_progress (apply Held.mk)
    | split | intro _ | dsimp only | assumption | rfl

theorem coreClear_held {s0 s : State} (h : Held s0 s) (c : ℕ) : Held s0 (coreClear c s) := by
  unfold coreClear
  repeat' first
    | with_reducible first
        | assumption | apply modCore_held | apply forEach_held | apply modEng_held | apply ite_held
        | apply foldl_held | fail_if_no_progress (apply Held.mk)
    | split | intro _ | dsimp only | assumption | rfl

theorem coreWriteOff_held {s0 s : State} (h : Held s0 s) (c : ℕ) : Held s0 (coreWriteOff c s) := by
  unfold coreWriteOff
  repeat' first
    | with_reducible first
        | assumption | apply ite_held | apply foldl_held | fail_if_no_progress (apply Held.mk)
    | split | intro _ | dsimp only | assumption | rfl

theorem imgStep_held {s0 s : State} (h : Held s0 s) (f : Boot → Boot) : Held s0 (imgStep f s) := by
  unfold imgStep
  repeat' first
    | with_reducible first
        | assumption | apply modBoot_held | apply event_held | apply ite_held | apply foldl_held
        | fail_if_no_progress (apply Held.mk)
    | split | intro _ | dsimp only | assumption | rfl

theorem rollNext_held {s0 s : State} (h : Held s0 s) (n : ℕ) : Held s0 (rollNext n s) := by
  unfold rollNext
  repeat' first
    | with_reducible first
        | assumption | apply imgStep_held | apply modBoot_held | apply ite_held | apply foldl_held
        | fail_if_no_progress (apply Held.mk)
    | split | intro _ | dsimp only | assumption | rfl

theorem imgRefuse_held {s0 s : State} (h : Held s0 s)  : Held s0 (imgRefuse s) := by
  unfold imgRefuse
  repeat' first
    | with_reducible first
        | assumption | apply modMgmt_held | apply modBoot_held | apply ite_held | apply foldl_held
        | fail_if_no_progress (apply Held.mk)
    | split | intro _ | dsimp only | assumption | rfl

theorem sdoFine_held {s0 s : State} (h : Held s0 s)  : Held s0 (sdoFine s) := by
  unfold sdoFine
  repeat' first
    | with_reducible first
        | assumption | apply modMgmt_held | apply ite_held | apply foldl_held | fail_if_no_progress (apply Held.mk)
    | split | intro _ | dsimp only | assumption | rfl

theorem imgFail_held {s0 s : State} (h : Held s0 s) (e : ℕ) : Held s0 (imgFail e s) := by
  unfold imgFail
  repeat' first
    | with_reducible first
        | assumption | apply sdoFine_held | apply imgStep_held | apply ite_held | apply foldl_held
        | fail_if_no_progress (apply Held.mk)
    | split | intro _ | dsimp only | assumption | rfl

theorem tumblerBack_held {s0 s : State} (h : Held s0 s)  : Held s0 (tumblerBack s) := by
  unfold tumblerBack
  repeat' first
    | with_reducible first
        | assumption | apply modBoot_held | apply noteChange_held | apply modMgmt_held | apply ite_held
        | apply foldl_held | fail_if_no_progress (apply Held.mk)
    | split | intro _ | dsimp only | assumption | rfl

theorem syncOp_held {s0 s : State} (h : Held s0 s) (r : SyncReq) (off : ℕ) (st : Bool) (data : Word) : Held s0 (syncOp r off st data s).1 := by
  unfold syncOp
  repeat' first
    | with_reducible first
        | assumption | apply opSet_held | apply opAdd_held | apply opArrive_held | apply opFetchInc_held
        | apply opClaim_held | apply opWait_held | apply ite_held | apply foldl_held
        | fail_if_no_progress (apply Held.mk)
    | split | intro _ | dsimp only | assumption | rfl

theorem hitchDeliver_held {s0 s : State} (h : Held s0 s) (p : Packet) : Held s0 (hitchDeliver p s).1 := by
  unfold hitchDeliver
  repeat' first
    | with_reducible first
        | assumption | apply modLinks_held | apply hitchIn_held | apply ite_held | apply foldl_held
        | fail_if_no_progress (apply Held.mk)
    | split | intro _ | dsimp only | assumption | rfl

theorem relayWhole_held {s0 s : State} (h : Held s0 s) (k : Fin 2) (c : ℕ) (b : List Byte) : Held s0 (relayWhole k c b s).1 := by
  unfold relayWhole
  repeat' first
    | with_reducible first
        | assumption | apply modWeights_held | apply relayIntro_held | apply relayChunk_held | apply ite_held
        | apply foldl_held | fail_if_no_progress (apply Held.mk)
    | split | intro _ | dsimp only | assumption | rfl

theorem relayDeliver_held {s0 s : State} (h : Held s0 s) (p : Packet) : Held s0 (relayDeliver p s).1 := by
  unfold relayDeliver
  repeat' first
    | with_reducible first
        | assumption | apply relayNoted_held | apply modWeights_held | apply relayWhole_held | apply ite_held
        | apply foldl_held | fail_if_no_progress (apply Held.mk)
    | split | intro _ | dsimp only | assumption | rfl

theorem freePhase_held {s0 s : State} (h : Held s0 s)  : Held s0 (freePhase s).2 := by
  unfold freePhase
  repeat' first
    | with_reducible first
        | assumption | apply takeFree_held | apply ite_held | apply foldl_held
        | fail_if_no_progress (apply Held.mk)
    | split | intro _ | dsimp only | assumption | rfl

theorem strideDeliver_held {s0 s : State} (h : Held s0 s) (p : Packet) : Held s0 (strideDeliver p s) := by
  unfold strideDeliver
  repeat' first
    | with_reducible first
        | assumption | apply freePhase_held | apply strideBody_held | apply takeMarker_held | apply takeLenReq_held
        | apply takeEvent_held | apply ite_held | apply foldl_held | fail_if_no_progress (apply Held.mk)
    | split | intro _ | dsimp only | assumption | rfl

theorem packetDeliver_held {s0 s : State} (h : Held s0 s) (p : Packet) : Held s0 (packetDeliver p s).1 := by
  unfold packetDeliver
  repeat' first
    | with_reducible first
        | assumption | apply tokenArrive_held | apply creditReturn_held | apply syncServe_held | apply syncOp_held
        | apply syncReturn_held | apply hitchDeliver_held | apply hitchCredit_held | apply relayDeliver_held
        | apply strideDeliver_held | apply unreachAct_held | apply ite_held | apply foldl_held
        | fail_if_no_progress (apply Held.mk)
    | split | intro _ | dsimp only | assumption | rfl

theorem packetTake_held {s0 s : State} (h : Held s0 s) (l : LinkId) (v : ℕ) (p : Packet) : Held s0 (packetTake l v p s).1 := by
  unfold packetTake
  repeat' first
    | with_reducible first
        | assumption | apply modMgmt_held | apply packetDeliver_held | apply linkSend_held | apply packetLost_held
        | apply ite_held | apply foldl_held | fail_if_no_progress (apply Held.mk)
    | split | intro _ | dsimp only | assumption | rfl

end Sys2Proof.Machine
end

