-- ==== Sys2Proof/Laws/Kept.lean ====
section
/-!
SUPPORT. What every operation on the state keeps: the queue, the canonical form of memory and of the cores, and the bits burnt so far.
One lemma per operation, in the order of the files; a proof about a command cites the lemmas of the operations it is made of.
-/
set_option maxRecDepth 4000
set_option linter.all false
namespace Sys2Proof.Machine
/-- Counts of burnt bits (R552) rise or stay. -/
def FusesRise (a b : Fuses) : Prop :=
  a.protCount ≤ b.protCount ∧ a.tumblerFloor ≤ b.tumblerFloor ∧ a.etxiaFloor ≤ b.etxiaFloor

theorem FusesRise.refl (a : Fuses) : FusesRise a a := ⟨Nat.le_refl _, Nat.le_refl _, Nat.le_refl _⟩

theorem FusesRise.trans {a b c : Fuses} (h : FusesRise a b) (k : FusesRise b c) : FusesRise a c :=
  ⟨Nat.le_trans h.1 k.1, Nat.le_trans h.2.1 k.2.1, Nat.le_trans h.2.2 k.2.2⟩

/-- `t` has the queue of `r`, memory and cores in canonical form if `r` has, and no burnt bit fewer. -/
def Kept (r t : State) : Prop :=
  t.pending = r.pending ∧ (Memory.wf r.mem = true → Memory.wf t.mem = true) ∧ FusesRise r.fuses t.fuses ∧
  (coresOk r = true → coresOk t = true)

/-- Every next state of an outcome is one that `Kept` allows. -/
def OutKept (r : State) (o : Out) : Prop := ∀ t, o = .next t → Kept r t

theorem Kept.refl (s : State) : Kept s s := ⟨rfl, id, FusesRise.refl _, id⟩

theorem outKept_next {r t : State} (h : Kept r t) : OutKept r (.next t) := by
  intro u hu
  cases hu
  exact h

/-- A change of other fields keeps all of it. -/
theorem Kept.mk {r s : State} (h : Kept r s) {a0 a1 a2 a3 a4 a5 a6 a7 a8 a9 a10 a11 a12 a13 a14 a15 a16 a17 a18 a19 a20 a21 a22 a23 a24 a25 a26 a27 a28} :
    Kept r (State.mk s.pending s.mem a0 a1 s.fuses a2 a3 a4 a5 a6 a7 a8 a9 a10 a11 a12 a13 s.cores a14 a15 a16 a17 a18 a19 a20 a21 a22 a23 a24 a25 a26 a27 a28) := h

/-- So does a change of the fuses that burns bits only. -/
theorem Kept.burn {r s : State} (h : Kept r s) {f : Fuses} (hf : FusesRise s.fuses f) : Kept r { s with fuses := f } :=
  ⟨h.1, h.2.1, h.2.2.1.trans hf, h.2.2.2⟩

/-- So does an image of every core that keeps its registers and threads in form. -/
theorem Kept.cores {r s t : State} (h : Kept r s) {f : Nat → Core → Core} (hf : ∀ n k, coreOk k = true → coreOk (f n k) = true)
    (hp : t.pending = s.pending) (hm : t.mem = s.mem) (hu : t.fuses = s.fuses) (ht : t.cores = smap {} f s.cores) : Kept r t := by
  refine ⟨hp.trans h.1, ?_, ?_, fun hr => coresOk_smap (h.2.2.2 hr) hf ht⟩
  · rw [hm]; exact h.2.1
  · rw [hu]; exact h.2.2.1

theorem ite_kept {r a b : State} {p : Prop} [Decidable p] (ha : Kept r a) (hb : Kept r b) : Kept r (if p then a else b) := by
  split <;> assumption

theorem foldl_kept {r s : State} {α : Type} {l : List α} {f : State → α → State} (h : Kept r s)
    (hf : ∀ t x, Kept r t → Kept r (f t x)) : Kept r (l.foldl f s) := by
  induction l generalizing s with
  | nil => exact h
  | cons x l ih => exact ih (hf s x h)

/-- Folds that carry a state and something else. -/
theorem pairFold_kept {r : State} {α β : Type} {f : State × β → α → State × β} (hf : ∀ y x, Kept r y.1 → Kept r (f y x).1)
    (l : List α) {y : State × β} (h : Kept r y.1) : Kept r (l.foldl f y).1 := by
  induction l generalizing y with
  | nil => exact h
  | cons x l ih => exact ih (hf y x h)

theorem modCore_kept {r s : State} (h : Kept r s) (c : Nat) (f : Core → Core) (hf : ∀ k, coreOk k = true → coreOk (f k) = true) :
    Kept r (modCore c f s) := ⟨h.1, h.2.1, h.2.2.1, fun hr => coresOk_modCore (h.2.2.2 hr) c hf⟩

theorem modThread_kept {r s : State} (h : Kept r s) (c t : Nat) (f : Thread → Thread) : Kept r (modThread c t f s) :=
  ⟨h.1, h.2.1, h.2.2.1, fun hr => coresOk_modThread (h.2.2.2 hr) c t f⟩

theorem modEng_kept {s0 s : State} (h : Kept s0 s) (e : ℕ) (f : Engine → Engine) : Kept s0 (modEng e f s) := by
  unfold modEng
  repeat' first
    | with_reducible first
        | assumption | apply ite_kept | apply foldl_kept | fail_if_no_progress (apply Kept.mk)
    | split | exact fun k (hk : coreOk k = true) => hk | intro _ | dsimp only | assumption

theorem modAg_kept {s0 s : State} (h : Kept s0 s) (e : ℕ) (a : ℕ) (f : Ag → Ag) : Kept s0 (modAg e a f s) := by
  unfold modAg
  repeat' first
    | with_reducible first
        | assumption | apply modEng_kept | apply ite_kept | apply foldl_kept | fail_if_no_progress (apply Kept.mk)
    | split | exact fun k (hk : coreOk k = true) => hk | intro _ | dsimp only | assumption

theorem modRin_kept {s0 s : State} (h : Kept s0 s) (e : ℕ) (q : ℕ) (f : ReinIn → ReinIn) : Kept s0 (modRin e q f s) := by
  unfold modRin
  repeat' first
    | with_reducible first
        | assumption | apply ite_kept | apply foldl_kept | fail_if_no_progress (apply Kept.mk)
    | split | exact fun k (hk : coreOk k = true) => hk | intro _ | dsimp only | assumption

theorem modRout_kept {s0 s : State} (h : Kept s0 s) (e : ℕ) (o : ℕ) (f : ReinOut → ReinOut) : Kept s0 (modRout e o f s) := by
  unfold modRout
  repeat' first
    | with_reducible first
        | assumption | apply ite_kept | apply foldl_kept | fail_if_no_progress (apply Kept.mk)
    | split | exact fun k (hk : coreOk k = true) => hk | intro _ | dsimp only | assumption

theorem modTiers_kept {s0 s : State} (h : Kept s0 s) (f : Tiers → Tiers) : Kept s0 (modTiers f s) := by
  unfold modTiers
  repeat' first
    | with_reducible first
        | assumption | apply ite_kept | apply foldl_kept | fail_if_no_progress (apply Kept.mk)
    | split | exact fun k (hk : coreOk k = true) => hk | intro _ | dsimp only | assumption

theorem modPort_kept {s0 s : State} (h : Kept s0 s) (p : ℕ) (f : Port → Port) : Kept s0 (modPort p f s) := by
  unfold modPort
  repeat' first
    | with_reducible first
        | assumption | apply modTiers_kept | apply ite_kept | apply foldl_kept
        | fail_if_no_progress (apply Kept.mk)
    | split | exact fun k (hk : coreOk k = true) => hk | intro _ | dsimp only | assumption

theorem modCurb_kept {s0 s : State} (h : Kept s0 s) (p : ℕ) (k : ℕ) (f : Curb → Curb) : Kept s0 (modCurb p k f s) := by
  unfold modCurb
  repeat' first
    | with_reducible first
        | assumption | apply modTiers_kept | apply ite_kept | apply foldl_kept
        | fail_if_no_progress (apply Kept.mk)
    | split | exact fun k (hk : coreOk k = true) => hk | intro _ | dsimp only | assumption

theorem modSync_kept {s0 s : State} (h : Kept s0 s) (f : Sync → Sync) : Kept s0 (modSync f s) := by
  unfold modSync
  repeat' first
    | with_reducible first
        | assumption | apply ite_kept | apply foldl_kept | fail_if_no_progress (apply Kept.mk)
    | split | exact fun k (hk : coreOk k = true) => hk | intro _ | dsimp only | assumption

theorem modObj_kept {s0 s : State} (h : Kept s0 s) (n : ℕ) (f : SyncObj → SyncObj) : Kept s0 (modObj n f s) := by
  unfold modObj
  repeat' first
    | with_reducible first
        | assumption | apply modSync_kept | apply ite_kept | apply foldl_kept | fail_if_no_progress (apply Kept.mk)
    | split | exact fun k (hk : coreOk k = true) => hk | intro _ | dsimp only | assumption

theorem modHitch_kept {s0 s : State} (h : Kept s0 s) (h : ℕ) (f : Hitch → Hitch) : Kept s0 (modHitch h f s) := by
  unfold modHitch
  repeat' first
    | with_reducible first
        | assumption | apply ite_kept | apply foldl_kept | fail_if_no_progress (apply Kept.mk)
    | split | exact fun k (hk : coreOk k = true) => hk | intro _ | dsimp only | assumption

theorem modServe_kept {s0 s : State} (h : Kept s0 s) (f : Serve → Serve) : Kept s0 (modServe f s) := by
  unfold modServe
  repeat' first
    | with_reducible first
        | assumption | apply ite_kept | apply foldl_kept | fail_if_no_progress (apply Kept.mk)
    | split | exact fun k (hk : coreOk k = true) => hk | intro _ | dsimp only | assumption

theorem modSess_kept {s0 s : State} (h : Kept s0 s) (n : ℕ) (f : Session → Session) : Kept s0 (modSess n f s) := by
  unfold modSess
  repeat' first
    | with_reducible first
        | assumption | apply modServe_kept | apply ite_kept | apply foldl_kept
        | fail_if_no_progress (apply Kept.mk)
    | split | exact fun k (hk : coreOk k = true) => hk | intro _ | dsimp only | assumption

theorem modReq_kept {s0 s : State} (h : Kept s0 s) (n : ℕ) (f : Request → Request) : Kept s0 (modReq n f s) := by
  unfold modReq
  repeat' first
    | with_reducible first
        | assumption | apply modServe_kept | apply ite_kept | apply foldl_kept
        | fail_if_no_progress (apply Kept.mk)
    | split | exact fun k (hk : coreOk k = true) => hk | intro _ | dsimp only | assumption

theorem modWeights_kept {s0 s : State} (h : Kept s0 s) (f : Weights → Weights) : Kept s0 (modWeights f s) := by
  unfold modWeights
  repeat' first
    | with_reducible first
        | assumption | apply ite_kept | apply foldl_kept | fail_if_no_progress (apply Kept.mk)
    | split | exact fun k (hk : coreOk k = true) => hk | intro _ | dsimp only | assumption

theorem modLinks_kept {s0 s : State} (h : Kept s0 s) (f : Links → Links) : Kept s0 (modLinks f s) := by
  unfold modLinks
  repeat' first
    | with_reducible first
        | assumption | apply ite_kept | apply foldl_kept | fail_if_no_progress (apply Kept.mk)
    | split | exact fun k (hk : coreOk k = true) => hk | intro _ | dsimp only | assumption

theorem modLink_kept {s0 s : State} (h : Kept s0 s) (l : ℕ) (f : Link → Link) : Kept s0 (modLink l f s) := by
  unfold modLink
  repeat' first
    | with_reducible first
        | assumption | apply modLinks_kept | apply ite_kept | apply foldl_kept
        | fail_if_no_progress (apply Kept.mk)
    | split | exact fun k (hk : coreOk k = true) => hk | intro _ | dsimp only | assumption

theorem modHost_kept {s0 s : State} (h : Kept s0 s) (f : HostIf → HostIf) : Kept s0 (modHost f s) := by
  unfold modHost
  repeat' first
    | with_reducible first
        | assumption | apply ite_kept | apply foldl_kept | fail_if_no_progress (apply Kept.mk)
    | split | exact fun k (hk : coreOk k = true) => hk | intro _ | dsimp only | assumption

theorem modRing_kept {s0 s : State} (h : Kept s0 s) (r : ℕ) (f : Ring → Ring) : Kept s0 (modRing r f s) := by
  unfold modRing
  repeat' first
    | with_reducible first
        | assumption | apply modHost_kept | apply ite_kept | apply foldl_kept | fail_if_no_progress (apply Kept.mk)
    | split | exact fun k (hk : coreOk k = true) => hk | intro _ | dsimp only | assumption

theorem modOstler_kept {s0 s : State} (h : Kept s0 s) (n : ℕ) (f : Ostler → Ostler) : Kept s0 (modOstler n f s) := by
  unfold modOstler
  repeat' first
    | with_reducible first
        | assumption | apply ite_kept | apply foldl_kept | fail_if_no_progress (apply Kept.mk)
    | split | exact fun k (hk : coreOk k = true) => hk | intro _ | dsimp only | assumption

theorem modStride_kept {s0 s : State} (h : Kept s0 s) (f : Stride → Stride) : Kept s0 (modStride f s) := by
  unfold modStride
  repeat' first
    | with_reducible first
        | assumption | apply ite_kept | apply foldl_kept | fail_if_no_progress (apply Kept.mk)
    | split | exact fun k (hk : coreOk k = true) => hk | intro _ | dsimp only | assumption

theorem modJob_kept {s0 s : State} (h : Kept s0 s) (f : Job → Job) : Kept s0 (modJob f s) := by
  unfold modJob
  repeat' first
    | with_reducible first
        | assumption | apply ite_kept | apply foldl_kept | fail_if_no_progress (apply Kept.mk)
    | split | exact fun k (hk : coreOk k = true) => hk | intro _ | dsimp only | assumption

theorem modRun_kept {s0 s : State} (h : Kept s0 s) (f : Running → Running) : Kept s0 (modRun f s) := by
  unfold modRun
  repeat' first
    | with_reducible first
        | assumption | apply modJob_kept | apply ite_kept | apply foldl_kept | fail_if_no_progress (apply Kept.mk)
    | split | exact fun k (hk : coreOk k = true) => hk | intro _ | dsimp only | assumption

theorem modMgmt_kept {s0 s : State} (h : Kept s0 s) (f : Mgmt → Mgmt) : Kept s0 (modMgmt f s) := by
  unfold modMgmt
  repeat' first
    | with_reducible first
        | assumption | apply ite_kept | apply foldl_kept | fail_if_no_progress (apply Kept.mk)
    | split | exact fun k (hk : coreOk k = true) => hk | intro _ | dsimp only | assumption

theorem modTally_kept {s0 s : State} (h : Kept s0 s) (f : Tally → Tally) : Kept s0 (modTally f s) := by
  unfold modTally
  repeat' first
    | with_reducible first
        | assumption | apply ite_kept | apply foldl_kept | fail_if_no_progress (apply Kept.mk)
    | split | exact fun k (hk : coreOk k = true) => hk | intro _ | dsimp only | assumption

theorem modSec_kept {s0 s : State} (h : Kept s0 s) (f : Sec → Sec) : Kept s0 (modSec f s) := by
  unfold modSec
  repeat' first
    | with_reducible first
        | assumption | apply ite_kept | apply foldl_kept | fail_if_no_progress (apply Kept.mk)
    | split | exact fun k (hk : coreOk k = true) => hk | intro _ | dsimp only | assumption

theorem modBoot_kept {s0 s : State} (h : Kept s0 s) (f : Boot → Boot) : Kept s0 (modBoot f s) := by
  unfold modBoot
  repeat' first
    | with_reducible first
        | assumption | apply ite_kept | apply foldl_kept | fail_if_no_progress (apply Kept.mk)
    | split | exact fun k (hk : coreOk k = true) => hk | intro _ | dsimp only | assumption

theorem modDumps_kept {s0 s : State} (h : Kept s0 s) (f : Dumps → Dumps) : Kept s0 (modDumps f s) := by
  unfold modDumps
  repeat' first
    | with_reducible first
        | assumption | apply ite_kept | apply foldl_kept | fail_if_no_progress (apply Kept.mk)
    | split | exact fun k (hk : coreOk k = true) => hk | intro _ | dsimp only | assumption

theorem modSft_kept {s0 s : State} (h : Kept s0 s) (f : Sft → Sft) : Kept s0 (modSft f s) := by
  unfold modSft
  repeat' first
    | with_reducible first
        | assumption | apply ite_kept | apply foldl_kept | fail_if_no_progress (apply Kept.mk)
    | split | exact fun k (hk : coreOk k = true) => hk | intro _ | dsimp only | assumption

theorem emit_kept {s0 s : State} (h : Kept s0 s) (e : Effect) : Kept s0 (emit e s) := by
  unfold emit
  repeat' first
    | with_reducible first
        | assumption | apply ite_kept | apply foldl_kept | fail_if_no_progress (apply Kept.mk)
    | split | exact fun k (hk : coreOk k = true) => hk | intro _ | dsimp only | assumption

theorem whenB_kept {r s : State} {b : Bool} {f : State → State} (h : Kept r s) (hf : Kept r s → Kept r (f s)) : Kept r (whenB b f s) := by
  unfold whenB; split
  · exact hf h
  · exact h

theorem forEach_kept {r s : State} {α : Type} {l : List α} {f : α → State → State} (h : Kept r s)
    (hf : ∀ x t, Kept r t → Kept r (f x t)) : Kept r (forEach l f s) :=
  foldl_kept h (fun t x ht => hf x t ht)

theorem takeFree_kept {r s : State} (h : Kept r s) : Kept r (takeFree s).2 := h

theorem raiseMsix_kept {s0 s : State} (h : Kept s0 s) (v : ℕ) : Kept s0 (raiseMsix v s) := by
  unfold raiseMsix
  repeat' first
    | with_reducible first
        | assumption | apply modHost_kept | apply emit_kept | apply ite_kept | apply foldl_kept
        | fail_if_no_progress (apply Kept.mk)
    | split | exact fun k (hk : coreOk k = true) => hk | intro _ | dsimp only | assumption

theorem msixUnmask_kept {s0 s : State} (h : Kept s0 s)  : Kept s0 (msixUnmask s) := by
  unfold msixUnmask
  repeat' first
    | with_reducible first
        | assumption | apply forEach_kept | apply emit_kept | apply modHost_kept | apply ite_kept
        | apply foldl_kept | fail_if_no_progress (apply Kept.mk)
    | split | exact fun k (hk : coreOk k = true) => hk | intro _ | dsimp only | assumption

theorem tallyHand_kept {s0 s : State} (h : Kept s0 s)  : Kept s0 (tallyHand s) := by
  unfold tallyHand
  repeat' first
    | with_reducible first
        | assumption | apply raiseMsix_kept | apply ite_kept | apply foldl_kept
        | fail_if_no_progress (apply Kept.mk)
    | split | exact fun k (hk : coreOk k = true) => hk | intro _ | dsimp only | assumption

theorem tallyPut_kept {s0 s : State} (h : Kept s0 s) (r : TallyRec) : Kept s0 (tallyPut r s) := by
  unfold tallyPut
  repeat' first
    | with_reducible first
        | assumption | apply tallyHand_kept | apply ite_kept | apply foldl_kept
        | fail_if_no_progress (apply Kept.mk)
    | split | exact fun k (hk : coreOk k = true) => hk | intro _ | dsimp only | assumption

theorem record_kept {s0 s : State} (h : Kept s0 s) (type : ℕ) (level : ℕ) (code : ℕ) (detail : List Byte) : Kept s0 (record type level code detail s) := by
  unfold record
  repeat' first
    | with_reducible first
        | assumption | apply tallyPut_kept | apply ite_kept | apply foldl_kept
        | fail_if_no_progress (apply Kept.mk)
    | split | exact fun k (hk : coreOk k = true) => hk | intro _ | dsimp only | assumption

theorem event_kept {s0 s : State} (h : Kept s0 s) (code : ℕ) (detail : List Byte) : Kept s0 (event code detail s) := by
  unfold event
  repeat' first
    | with_reducible first
        | assumption | apply record_kept | apply ite_kept | apply foldl_kept | fail_if_no_progress (apply Kept.mk)
    | split | exact fun k (hk : coreOk k = true) => hk | intro _ | dsimp only | assumption

theorem jobFault_kept {s0 s : State} (h : Kept s0 s) (code : ℕ) (detail : List Byte) : Kept s0 (jobFault code detail s) := by
  unfold jobFault
  repeat' first
    | with_reducible first
        | assumption | apply modRun_kept | apply record_kept | apply ite_kept | apply foldl_kept
        | fail_if_no_progress (apply Kept.mk)
    | split | exact fun k (hk : coreOk k = true) => hk | intro _ | dsimp only | assumption

theorem requestFault_kept {s0 s : State} (h : Kept s0 s) (code : ℕ) (detail : List Byte) : Kept s0 (requestFault code detail s) := by
  unfold requestFault
  repeat' first
    | with_reducible first
        | assumption | apply record_kept | apply ite_kept | apply foldl_kept | fail_if_no_progress (apply Kept.mk)
    | split | exact fun k (hk : coreOk k = true) => hk | intro _ | dsimp only | assumption

theorem rowsFault_kept {s0 s : State} (h : Kept s0 s) (code : ℕ) (rows : List ℕ) : Kept s0 (rowsFault code rows s) := by
  unfold rowsFault
  repeat' first
    | with_reducible first
        | assumption | apply forEach_kept | apply modReq_kept | apply ite_kept | apply foldl_kept
        | fail_if_no_progress (apply Kept.mk)
    | split | exact fun k (hk : coreOk k = true) => hk | intro _ | dsimp only | assumption

theorem countEcc_kept {s0 s : State} (h : Kept s0 s) (corrected : Bool) : Kept s0 (countEcc corrected s) := by
  unfold countEcc
  repeat' first
    | with_reducible first
        | assumption | apply modTiers_kept | apply ite_kept | apply foldl_kept
        | fail_if_no_progress (apply Kept.mk)
    | split | exact fun k (hk : coreOk k = true) => hk | intro _ | dsimp only | assumption

theorem measAdd_kept {s0 s : State} (h : Kept s0 s) (n : ℕ) (kind : FigKind) (unit : ℕ) (v : ℕ) : Kept s0 (measAdd n kind unit v s) := by
  unfold measAdd
  repeat' first
    | with_reducible first
        | assumption | apply modRun_kept | apply ite_kept | apply foldl_kept | fail_if_no_progress (apply Kept.mk)
    | split | exact fun k (hk : coreOk k = true) => hk | intro _ | dsimp only | assumption

theorem uncheckSteps_kept {s0 s : State} (h : Kept s0 s)  : Kept s0 (uncheckSteps s) := by
  unfold uncheckSteps
  repeat' first
    | with_reducible first
        | assumption | apply modRun_kept | apply ite_kept | apply foldl_kept | fail_if_no_progress (apply Kept.mk)
    | split | exact fun k (hk : coreOk k = true) => hk | intro _ | dsimp only | assumption

theorem progress_kept {s0 s : State} (h : Kept s0 s)  : Kept s0 (progress s) := by
  unfold progress
  repeat' first
    | with_reducible first
        | assumption | apply modRun_kept | apply ite_kept | apply foldl_kept | fail_if_no_progress (apply Kept.mk)
    | split | exact fun k (hk : coreOk k = true) => hk | intro _ | dsimp only | assumption

theorem linkCount_kept {s0 s : State} (h : Kept s0 s) (n0 : ℕ) (l : ℕ) (p : Packet) : Kept s0 (linkCount n0 l p s) := by
  unfold linkCount
  repeat' first
    | with_reducible first
        | assumption | apply measAdd_kept | apply ite_kept | apply foldl_kept | fail_if_no_progress (apply Kept.mk)
    | split | exact fun k (hk : coreOk k = true) => hk | intro _ | dsimp only | assumption

theorem flitOut_kept {s0 s : State} (h : Kept s0 s) (l : ℕ) (kind : ℕ) (seq : ℕ) (vc : ℕ) (payload : List Byte) : Kept s0 (flitOut l kind seq vc payload s) := by
  unfold flitOut
  repeat' first
    | with_reducible first
        | assumption | apply emit_kept | apply ite_kept | apply foldl_kept | fail_if_no_progress (apply Kept.mk)
    | split | exact fun k (hk : coreOk k = true) => hk | intro _ | dsimp only | assumption

theorem ctlOut_kept {s0 s : State} (h : Kept s0 s) (l : ℕ) (c : LinkCtl) : Kept s0 (ctlOut l c s) := by
  unfold ctlOut
  repeat' first
    | with_reducible first
        | assumption | apply flitOut_kept | apply ite_kept | apply foldl_kept | fail_if_no_progress (apply Kept.mk)
    | split | exact fun k (hk : coreOk k = true) => hk | intro _ | dsimp only | assumption

theorem idleOut_kept {s0 s : State} (h : Kept s0 s) (l : ℕ) : Kept s0 (idleOut l s) := by
  unfold idleOut
  repeat' first
    | with_reducible first
        | assumption | apply flitOut_kept | apply ite_kept | apply foldl_kept | fail_if_no_progress (apply Kept.mk)
    | split | exact fun k (hk : coreOk k = true) => hk | intro _ | dsimp only | assumption

theorem linkFlush_kept {s0 s : State} (h : Kept s0 s) (l : ℕ) : Kept s0 (linkFlush l s) := by
  unfold linkFlush
  repeat' first
    | with_reducible first
        | assumption | apply forEach_kept | apply flitOut_kept | apply modLink_kept | apply ite_kept
        | apply foldl_kept | fail_if_no_progress (apply Kept.mk)
    | split | exact fun k (hk : coreOk k = true) => hk | intro _ | dsimp only | assumption

theorem linkQueue_kept {s0 s : State} (h : Kept s0 s) (l : ℕ) (vc : ℕ) (p : Packet) : Kept s0 (linkQueue l vc p s) := by
  unfold linkQueue
  repeat' first
    | with_reducible first
        | assumption | apply linkFlush_kept | apply modLink_kept | apply ite_kept | apply foldl_kept
        | fail_if_no_progress (apply Kept.mk)
    | split | exact fun k (hk : coreOk k = true) => hk | intro _ | dsimp only | assumption

theorem linkSend_kept {s0 s : State} (h : Kept s0 s) (n0 : ℕ) (l : ℕ) (fromLink : Option ℕ) (dl : ℕ) (p : Packet) : Kept s0 (linkSend n0 l fromLink dl p s) := by
  unfold linkSend
  repeat' first
    | with_reducible first
        | assumption | apply linkQueue_kept | apply linkCount_kept | apply ite_kept | apply foldl_kept
        | fail_if_no_progress (apply Kept.mk)
    | split | exact fun k (hk : coreOk k = true) => hk | intro _ | dsimp only | assumption

theorem countUnreach_kept {s0 s : State} (h : Kept s0 s)  : Kept s0 (countUnreach s) := by
  unfold countUnreach
  repeat' first
    | with_reducible first
        | assumption | apply modLinks_kept | apply ite_kept | apply foldl_kept
        | fail_if_no_progress (apply Kept.mk)
    | split | exact fun k (hk : coreOk k = true) => hk | intro _ | dsimp only | assumption

theorem lostJob_kept {s0 s : State} (h : Kept s0 s) (p : Packet) (reason : ℕ) : Kept s0 (lostJob p reason s) := by
  unfold lostJob
  repeat' first
    | with_reducible first
        | assumption | apply jobFault_kept | apply ite_kept | apply foldl_kept
        | fail_if_no_progress (apply Kept.mk)
    | split | exact fun k (hk : coreOk k = true) => hk | intro _ | dsimp only | assumption

theorem segmentsOut_kept {s0 s : State} (h : Kept s0 s) (n0 : ℕ) (l : List Packet) (eff : Effect) (lost : ℕ → State → State) (hlost : ∀ x0 t, Kept s0 t → Kept s0 (lost x0 t)) : Kept s0 (segmentsOut n0 l eff lost s) := by
  unfold segmentsOut
  repeat' first
    | with_reducible first
        | assumption | apply emit_kept | apply forEach_kept | apply linkSend_kept | apply countUnreach_kept
        | apply hlost | apply ite_kept | apply foldl_kept | fail_if_no_progress (apply Kept.mk)
    | split | exact fun k (hk : coreOk k = true) => hk | intro _ | dsimp only | assumption

theorem packetOut_kept {s0 s : State} (h : Kept s0 s) (n0 : ℕ) (p : Packet) (eff : Effect) (lost : ℕ → State → State) (hlost : ∀ x0 t, Kept s0 t → Kept s0 (lost x0 t)) : Kept s0 (packetOut n0 p eff lost s) := by
  unfold packetOut
  repeat' first
    | with_reducible first
        | assumption | apply segmentsOut_kept | apply hlost | apply ite_kept | apply foldl_kept
        | fail_if_no_progress (apply Kept.mk)
    | split | exact fun k (hk : coreOk k = true) => hk | intro _ | dsimp only | assumption

theorem linkDiscard_kept {s0 s : State} (h : Kept s0 s)  : Kept s0 (linkDiscard s) := by
  unfold linkDiscard
  repeat' first
    | with_reducible first
        | assumption | apply modMgmt_kept | apply ite_kept | apply foldl_kept | fail_if_no_progress (apply Kept.mk)
    | split | exact fun k (hk : coreOk k = true) => hk | intro _ | dsimp only | assumption

theorem sendToken_kept {s0 s : State} (h : Kept s0 s) (n0 : ℕ) (m : TokenMsg) (dst : ℕ) : Kept s0 (sendToken n0 m dst s) := by
  unfold sendToken
  repeat' first
    | with_reducible first
        | assumption | apply packetOut_kept | apply lostJob_kept | apply ite_kept | apply foldl_kept
        | fail_if_no_progress (apply Kept.mk)
    | split | exact fun k (hk : coreOk k = true) => hk | intro _ | dsimp only | assumption

theorem sendCredit_kept {s0 s : State} (h : Kept s0 s) (n0 : ℕ) (dst : ℕ) (eng : ℕ) (port : ℕ) (n : ℕ) (ep : BitVec 3) : Kept s0 (sendCredit n0 dst eng port n ep s) := by
  unfold sendCredit
  repeat' first
    | with_reducible first
        | assumption | apply packetOut_kept | apply lostJob_kept | apply ite_kept | apply foldl_kept
        | fail_if_no_progress (apply Kept.mk)
    | split | exact fun k (hk : coreOk k = true) => hk | intro _ | dsimp only | assumption

theorem sendSyncReq_kept {s0 s : State} (h : Kept s0 s) (n0 : ℕ) (chip : ℕ) (obj : ℕ) (word : ℕ) (st : Bool) (core : ℕ) (thread : ℕ) (data : Word) (reissue : Bool) (lost : ℕ → State → State) (hlost : ∀ x0 t, Kept s0 t → Kept s0 (lost x0 t)) : Kept s0 (sendSyncReq n0 chip obj word st core thread data reissue lost s) := by
  unfold sendSyncReq
  repeat' first
    | with_reducible first
        | assumption | apply packetOut_kept | apply hlost | apply ite_kept | apply foldl_kept
        | fail_if_no_progress (apply Kept.mk)
    | split | exact fun k (hk : coreOk k = true) => hk | intro _ | dsimp only | assumption

theorem sendSyncRsp_kept {s0 s : State} (h : Kept s0 s) (chip : ℕ) (core : ℕ) (thread : ℕ) (info : BitVec 48) (v : Word) : Kept s0 (sendSyncRsp chip core thread info v s) := by
  unfold sendSyncRsp
  repeat' first
    | with_reducible first
        | assumption | apply packetOut_kept | apply linkDiscard_kept | apply ite_kept | apply foldl_kept
        | fail_if_no_progress (apply Kept.mk)
    | split | exact fun k (hk : coreOk k = true) => hk | intro _ | dsimp only | assumption

theorem sendStride_kept {s0 s : State} (h : Kept s0 s) (dst : ℕ) (sub : ℕ) (m : Marker) : Kept s0 (sendStride dst sub m s) := by
  unfold sendStride
  repeat' first
    | with_reducible first
        | assumption | apply packetOut_kept | apply linkDiscard_kept | apply ite_kept | apply foldl_kept
        | fail_if_no_progress (apply Kept.mk)
    | split | exact fun k (hk : coreOk k = true) => hk | intro _ | dsimp only | assumption

theorem queueFree_kept {s0 s : State} (h : Kept s0 s) (e : ℕ) (q : ℕ) (keep : ℕ) : Kept s0 (queueFree e q keep s) := by
  unfold queueFree
  repeat' first
    | with_reducible first
        | assumption | apply modRin_kept | apply ite_kept | apply foldl_kept | fail_if_no_progress (apply Kept.mk)
    | split | exact fun k (hk : coreOk k = true) => hk | intro _ | dsimp only | assumption

theorem creditBack_kept {s0 s : State} (h : Kept s0 s) (m : TokenMsg) : Kept s0 (creditBack m s) := by
  unfold creditBack
  repeat' first
    | with_reducible first
        | assumption | apply sendCredit_kept | apply ite_kept | apply foldl_kept
        | fail_if_no_progress (apply Kept.mk)
    | split | exact fun k (hk : coreOk k = true) => hk | intro _ | dsimp only | assumption

theorem earlyEmpty_kept {s0 s : State} (h : Kept s0 s) (e : ℕ) : Kept s0 (earlyEmpty e s) := by
  unfold earlyEmpty
  repeat' first
    | with_reducible first
        | assumption | apply modEng_kept | apply forEach_kept | apply creditBack_kept | apply ite_kept
        | apply foldl_kept | fail_if_no_progress (apply Kept.mk)
    | split | exact fun k (hk : coreOk k = true) => hk | intro _ | dsimp only | assumption

theorem dropRuns_kept {s0 s : State} (h : Kept s0 s) (e : ℕ) : Kept s0 (dropRuns e s) := by
  unfold dropRuns
  repeat' first
    | with_reducible first
        | assumption | apply forEach_kept | apply modRin_kept | apply modEng_kept | apply ite_kept
        | apply foldl_kept | fail_if_no_progress (apply Kept.mk)
    | split | exact fun k (hk : coreOk k = true) => hk | intro _ | dsimp only | assumption

theorem haltEngines_kept {s0 s : State} (h : Kept s0 s) (c : ℕ) : Kept s0 (haltEngines c s) := by
  unfold haltEngines
  repeat' first
    | with_reducible first
        | assumption | apply forEach_kept | apply modEng_kept | apply queueFree_kept | apply dropRuns_kept
        | apply earlyEmpty_kept | apply ite_kept | apply foldl_kept | fail_if_no_progress (apply Kept.mk)
    | split | exact fun k (hk : coreOk k = true) => hk | intro _ | dsimp only | assumption

theorem haltCore_kept {s0 s : State} (h : Kept s0 s) (c : ℕ) (t : ℕ) (eng : ℕ) (code : ℕ) (pc : ℕ) (need : ℕ) (avail : ℕ) : Kept s0 (haltCore c t eng code pc need avail s) := by
  unfold haltCore
  repeat' first
    | with_reducible first
        | assumption | apply modCore_kept | apply haltEngines_kept | apply ite_kept | apply foldl_kept
        | fail_if_no_progress (apply Kept.mk)
    | split | exact fun k (hk : coreOk k = true) => hk | intro _ | dsimp only | assumption

theorem groomRefuse_kept {s0 s : State} (h : Kept s0 s) (c : ℕ) (t : ℕ) (eng : ℕ) (code : ℕ) (more : List Byte) (need : ℕ) (avail : ℕ) : Kept s0 (groomRefuse c t eng code more need avail s) := by
  unfold groomRefuse
  repeat' first
    | with_reducible first
        | assumption | apply haltCore_kept | apply jobFault_kept | apply ite_kept | apply foldl_kept
        | fail_if_no_progress (apply Kept.mk)
    | split | exact fun k (hk : coreOk k = true) => hk | intro _ | dsimp only | assumption

theorem spadRefuse_kept {s0 s : State} (h : Kept s0 s) (c : ℕ) (t : ℕ) (eng : ℕ) (code : ℕ) (pc : ℕ) (off : ℕ) : Kept s0 (spadRefuse c t eng code pc off s) := by
  unfold spadRefuse
  repeat' first
    | with_reducible first
        | assumption | apply haltCore_kept | apply jobFault_kept | apply ite_kept | apply foldl_kept
        | fail_if_no_progress (apply Kept.mk)
    | split | exact fun k (hk : coreOk k = true) => hk | intro _ | dsimp only | assumption

theorem measChange_kept {s0 s : State} (h : Kept s0 s)  : Kept s0 (measChange s) := by
  unfold measChange
  repeat' first
    | with_reducible first
        | assumption | apply event_kept | apply modSec_kept | apply ite_kept | apply foldl_kept
        | fail_if_no_progress (apply Kept.mk)
    | split | exact fun k (hk : coreOk k = true) => hk | intro _ | dsimp only | assumption

theorem newKey_kept {s0 s : State} (h : Kept s0 s)  : Kept s0 (newKey s) := by
  unfold newKey
  repeat' first
    | with_reducible first
        | assumption | apply ite_kept | apply foldl_kept | fail_if_no_progress (apply Kept.mk)
    | split | exact fun k (hk : coreOk k = true) => hk | intro _ | dsimp only | assumption

theorem writeByte_kept {r s : State} (h : Kept r s) (a : Nat) (b : Byte) : Kept r (writeByte a b s) := by
  have hm : Memory.wf r.mem = true → Memory.wf (writeByte a b s).mem = true := fun hw => wf_writeByte (h.2.1 hw) a b
  rw [writeByte_eq] at hm ⊢
  exact ⟨h.1, hm, h.2.2⟩

theorem writeBytes_kept {r s : State} (h : Kept r s) (a : Nat) (bs : List Byte) : Kept r (writeBytes a bs s) := by
  refine ⟨(writeBytes_pending bs a s).trans h.1, fun hw => wf_writeBytes (h.2.1 hw) a bs, ?_⟩
  rw [writeBytes_eq]
  exact h.2.2

theorem writeWord_kept {s0 s : State} (h : Kept s0 s) (a : ℕ) (w : Word) : Kept s0 (writeWord a w s) := by
  unfold writeWord
  repeat' first
    | with_reducible first
        | assumption | apply writeBytes_kept | apply ite_kept | apply foldl_kept
        | fail_if_no_progress (apply Kept.mk)
    | split | exact fun k (hk : coreOk k = true) => hk | intro _ | dsimp only | assumption

theorem writeSpad_kept {s0 s : State} (h : Kept s0 s) (c : ℕ) (off : ℕ) (bs : List Byte) : Kept s0 (writeSpad c off bs s) := by
  unfold writeSpad
  repeat' first
    | with_reducible first
        | assumption | apply writeBytes_kept | apply ite_kept | apply foldl_kept
        | fail_if_no_progress (apply Kept.mk)
    | split | exact fun k (hk : coreOk k = true) => hk | intro _ | dsimp only | assumption

theorem atomicWrite_kept {s0 s : State} (h : Kept s0 s) (setBits : Bool) (a : ℕ) (v : Word) : Kept s0 (atomicWrite setBits a v s) := by
  unfold atomicWrite
  repeat' first
    | with_reducible first
        | assumption | apply writeWord_kept | apply ite_kept | apply foldl_kept
        | fail_if_no_progress (apply Kept.mk)
    | split | exact fun k (hk : coreOk k = true) => hk | intro _ | dsimp only | assumption

theorem zeroBytes_kept {r s : State} (h : Kept r s) (a n : Nat) : Kept r (zeroBytes a n s) :=
  ⟨h.1, fun hw => wf_zeroBytes (h.2.1 hw) a n, h.2.2⟩

theorem zeroFill_kept {s0 s : State} (h : Kept s0 s) (a : ℕ) (n : ℕ) : Kept s0 (zeroFill a n s) := by
  unfold zeroFill
  repeat' first
    | with_reducible first
        | assumption | apply zeroBytes_kept | apply writeBytes_kept | apply ite_kept | apply foldl_kept
        | fail_if_no_progress (apply Kept.mk)
    | split | exact fun k (hk : coreOk k = true) => hk | intro _ | dsimp only | assumption

theorem noteEcc_kept {s0 s : State} (h : Kept s0 s) (e : Ecc) (a : ℕ) : Kept s0 (noteEcc e a s) := by
  unfold noteEcc
  repeat' first
    | with_reducible first
        | assumption | apply countEcc_kept | apply modCore_kept | apply modTiers_kept | apply ite_kept
        | apply foldl_kept | fail_if_no_progress (apply Kept.mk)
    | split | exact fun k (hk : coreOk k = true) => hk | intro _ | dsimp only | assumption

theorem noteSram_kept {s0 s : State} (h : Kept s0 s) (e : Ecc) (o : ℕ) (off : ℕ) : Kept s0 (noteSram e o off s) := by
  unfold noteSram
  repeat' first
    | with_reducible first
        | assumption | apply modTiers_kept | apply countEcc_kept | apply ite_kept | apply foldl_kept
        | fail_if_no_progress (apply Kept.mk)
    | split | exact fun k (hk : coreOk k = true) => hk | intro _ | dsimp only | assumption

theorem unitEscape_kept {s0 s : State} (h : Kept s0 s) (x : UnitErr) (a : ℕ) : Kept s0 (unitEscape x a s) := by
  unfold unitEscape
  repeat' first
    | with_reducible first
        | assumption | apply writeBytes_kept | apply ite_kept | apply foldl_kept
        | fail_if_no_progress (apply Kept.mk)
    | split | exact fun k (hk : coreOk k = true) => hk | intro _ | dsimp only | assumption

theorem unitFound_kept {s0 s : State} (h : Kept s0 s) (x : UnitErr) (a : ℕ) : Kept s0 (unitFound x a s) := by
  unfold unitFound
  repeat' first
    | with_reducible first
        | assumption | apply unitEscape_kept | apply noteEcc_kept | apply ite_kept | apply foldl_kept
        | fail_if_no_progress (apply Kept.mk)
    | split | exact fun k (hk : coreOk k = true) => hk | intro _ | dsimp only | assumption

theorem portTouch_kept {s0 s : State} (h : Kept s0 s) (a : ℕ) (n : ℕ) : Kept s0 (portTouch a n s) := by
  unfold portTouch
  repeat' first
    | with_reducible first
        | assumption | apply modTiers_kept | apply forEach_kept | apply ite_kept | apply foldl_kept
        | fail_if_no_progress (apply Kept.mk)
    | split | exact fun k (hk : coreOk k = true) => hk | intro _ | dsimp only | assumption

theorem pageReadDrop_kept {s0 s : State} (h : Kept s0 s) (a : ℕ) : Kept s0 (pageReadDrop a s) := by
  unfold pageReadDrop
  repeat' first
    | with_reducible first
        | assumption | apply modTiers_kept | apply ite_kept | apply foldl_kept
        | fail_if_no_progress (apply Kept.mk)
    | split | exact fun k (hk : coreOk k = true) => hk | intro _ | dsimp only | assumption

theorem pageReadStart_kept {s0 s : State} (h : Kept s0 s) (a : ℕ) : Kept s0 (pageReadStart a s) := by
  unfold pageReadStart
  repeat' first
    | with_reducible first
        | assumption | apply modTiers_kept | apply ite_kept | apply foldl_kept
        | fail_if_no_progress (apply Kept.mk)
    | split | exact fun k (hk : coreOk k = true) => hk | intro _ | dsimp only | assumption

theorem mapConsult_kept {s0 s : State} (h : Kept s0 s) (d : ℕ) (a : ℕ) : Kept s0 (mapConsult d a s) := by
  unfold mapConsult
  repeat' first
    | with_reducible first
        | assumption | apply modTiers_kept | apply ite_kept | apply foldl_kept
        | fail_if_no_progress (apply Kept.mk)
    | split | exact fun k (hk : coreOk k = true) => hk | intro _ | dsimp only | assumption

theorem rebuildImage_kept {s0 s : State} (h : Kept s0 s)  : Kept s0 (rebuildImage s) := by
  unfold rebuildImage
  repeat' first
    | with_reducible first
        | assumption | apply modMgmt_kept | apply ite_kept | apply foldl_kept | fail_if_no_progress (apply Kept.mk)
    | split | exact fun k (hk : coreOk k = true) => hk | intro _ | dsimp only | assumption

theorem nextTerms_kept {s0 s : State} (h : Kept s0 s)  : Kept s0 (nextTerms s) := by
  unfold nextTerms
  repeat' first
    | with_reducible first
        | assumption | apply modStride_kept | apply ite_kept | apply foldl_kept
        | fail_if_no_progress (apply Kept.mk)
    | split | exact fun k (hk : coreOk k = true) => hk | intro _ | dsimp only | assumption

theorem setLen_kept {s0 s : State} (h : Kept s0 s)  : Kept s0 (setLen s) := by
  unfold setLen
  repeat' first
    | with_reducible first
        | assumption | apply event_kept | apply modStride_kept | apply nextTerms_kept | apply ite_kept
        | apply foldl_kept | fail_if_no_progress (apply Kept.mk)
    | split | exact fun k (hk : coreOk k = true) => hk | intro _ | dsimp only | assumption

theorem freeSession_kept {s0 s : State} (h : Kept s0 s) (n : ℕ) : Kept s0 (freeSession n s) := by
  unfold freeSession
  repeat' first
    | with_reducible first
        | assumption | apply modWeights_kept | apply modServe_kept | apply modSess_kept | apply ite_kept
        | apply foldl_kept | fail_if_no_progress (apply Kept.mk)
    | split | exact fun k (hk : coreOk k = true) => hk | intro _ | dsimp only | assumption

theorem poolReleased_kept {s0 s : State} (h : Kept s0 s) (id : ℕ) (base : ℕ) (bytes : ℕ) : Kept s0 (poolReleased id base bytes s) := by
  unfold poolReleased
  repeat' first
    | with_reducible first
        | assumption | apply forEach_kept | apply freeSession_kept | apply modServe_kept | apply ite_kept
        | apply foldl_kept | fail_if_no_progress (apply Kept.mk)
    | split | exact fun k (hk : coreOk k = true) => hk | intro _ | dsimp only | assumption

theorem placementInForce_kept {s0 s : State} (h : Kept s0 s)  : Kept s0 (placementInForce s) := by
  unfold placementInForce
  repeat' first
    | with_reducible first
        | assumption | apply modTiers_kept | apply forEach_kept | apply poolReleased_kept | apply ite_kept
        | apply foldl_kept | fail_if_no_progress (apply Kept.mk)
    | split | exact fun k (hk : coreOk k = true) => hk | intro _ | dsimp only | assumption

theorem quotasInForce_kept {s0 s : State} (h : Kept s0 s)  : Kept s0 (quotasInForce s) := by
  unfold quotasInForce
  repeat' first
    | with_reducible first
        | assumption | apply modTiers_kept | apply ite_kept | apply foldl_kept
        | fail_if_no_progress (apply Kept.mk)
    | split | exact fun k (hk : coreOk k = true) => hk | intro _ | dsimp only | assumption

theorem releasePoolPages_kept {s0 s : State} (h : Kept s0 s)  : Kept s0 (releasePoolPages s) := by
  unfold releasePoolPages
  repeat' first
    | with_reducible first
        | assumption | apply forEach_kept | apply modTiers_kept | apply modServe_kept | apply ite_kept
        | apply foldl_kept | fail_if_no_progress (apply Kept.mk)
    | split | exact fun k (hk : coreOk k = true) => hk | intro _ | dsimp only | assumption

theorem curbCharge_kept {s0 s : State} (h : Kept s0 s) (p : ℕ) (k : ℕ) (units : ℕ) : Kept s0 (curbCharge p k units s) := by
  unfold curbCharge
  repeat' first
    | with_reducible first
        | assumption | apply modCurb_kept | apply ite_kept | apply foldl_kept | fail_if_no_progress (apply Kept.mk)
    | split | exact fun k (hk : coreOk k = true) => hk | intro _ | dsimp only | assumption

theorem moveUnits_kept {s0 s : State} (h : Kept s0 s) (left : Sparse Nat) : Kept s0 (moveUnits left s).2 := by
  have hf : ∀ (l : List (Nat × Nat)) (y : Sparse Nat × State), Kept s0 y.2 → Kept s0 (l.foldl (fun x p =>
      let n := curbRoom x.2 p.1 4 p.2
      (sset 0 x.1 p.1 (p.2 - n), whenB (n ≠ 0) (curbCharge p.1 4 n) x.2)) y).2 := by
    intro l
    induction l with
    | nil => exact fun y hy => hy
    | cons p l ih => exact fun y hy => ih _ (whenB_kept hy (fun hk => curbCharge_kept hk _ _ _))
  exact hf left (left, s) h

theorem journalWrite_kept {s0 s : State} (h : Kept s0 s) (dcTime : ℕ) : Kept s0 (journalWrite dcTime s) := by
  unfold journalWrite
  repeat' first
    | with_reducible first
        | assumption | apply event_kept | apply modDumps_kept | apply ite_kept | apply foldl_kept
        | fail_if_no_progress (apply Kept.mk)
    | split | exact fun k (hk : coreOk k = true) => hk | intro _ | dsimp only | assumption

theorem dumpEnd_kept {s0 s : State} (h : Kept s0 s)  : Kept s0 (dumpEnd s) := by
  unfold dumpEnd
  repeat' first
    | with_reducible first
        | assumption | apply event_kept | apply modDumps_kept | apply ite_kept | apply foldl_kept
        | fail_if_no_progress (apply Kept.mk)
    | split | exact fun k (hk : coreOk k = true) => hk | intro _ | dsimp only | assumption

theorem copyEnd_kept {s0 s : State} (h : Kept s0 s)  : Kept s0 (copyEnd s) := by
  unfold copyEnd
  repeat' first
    | with_reducible first
        | assumption | apply modDumps_kept | apply ite_kept | apply foldl_kept
        | fail_if_no_progress (apply Kept.mk)
    | split | exact fun k (hk : coreOk k = true) => hk | intro _ | dsimp only | assumption

theorem dumpGo_kept {s0 s : State} (h : Kept s0 s)  : Kept s0 (dumpGo s) := by
  unfold dumpGo
  repeat' first
    | with_reducible first
        | assumption | apply moveUnits_kept | apply modDumps_kept | apply dumpEnd_kept | apply copyEnd_kept
        | apply ite_kept | apply foldl_kept | fail_if_no_progress (apply Kept.mk)
    | split | exact fun k (hk : coreOk k = true) => hk | intro _ | dsimp only | assumption

theorem fullDump_kept {s0 s : State} (h : Kept s0 s) (done : Bool) : Kept s0 (fullDump done s) := by
  unfold fullDump
  repeat' first
    | with_reducible first
        | assumption | apply modDumps_kept | apply dumpGo_kept | apply event_kept | apply ite_kept
        | apply foldl_kept | fail_if_no_progress (apply Kept.mk)
    | split | exact fun k (hk : coreOk k = true) => hk | intro _ | dsimp only | assumption

theorem reducedDump_kept {s0 s : State} (h : Kept s0 s)  : Kept s0 (reducedDump s) := by
  unfold reducedDump
  repeat' first
    | with_reducible first
        | assumption | apply modDumps_kept | apply event_kept | apply ite_kept | apply foldl_kept
        | fail_if_no_progress (apply Kept.mk)
    | split | exact fun k (hk : coreOk k = true) => hk | intro _ | dsimp only | assumption

theorem stopChip_kept {s0 s : State} (h : Kept s0 s)  : Kept s0 (stopChip s) := by
  unfold stopChip
  repeat' first
    | with_reducible first
        | assumption | apply ite_kept | apply foldl_kept | fail_if_no_progress (apply Kept.mk)
    | split | exact fun k (hk : coreOk k = true) => hk | intro _ | dsimp only | assumption

theorem chipStopBy_kept {s0 s : State} (h : Kept s0 s) (tumbler : Bool) (code : ℕ) (detail : List Byte) (progress : Bool) : Kept s0 (chipStopBy tumbler code detail progress s) := by
  unfold chipStopBy
  repeat' first
    | with_reducible first
        | assumption | apply record_kept | apply modDumps_kept | apply stopChip_kept | apply fullDump_kept
        | apply ite_kept | apply foldl_kept | fail_if_no_progress (apply Kept.mk)
    | split | exact fun k (hk : coreOk k = true) => hk | intro _ | dsimp only | assumption

theorem chipStop_kept {s0 s : State} (h : Kept s0 s) (code : ℕ) (detail : List Byte) (progress : Bool) : Kept s0 (chipStop code detail progress s) := by
  unfold chipStop
  repeat' first
    | with_reducible first
        | assumption | apply chipStopBy_kept | apply ite_kept | apply foldl_kept
        | fail_if_no_progress (apply Kept.mk)
    | split | exact fun k (hk : coreOk k = true) => hk | intro _ | dsimp only | assumption

theorem sendLenReq_kept {s0 s : State} (h : Kept s0 s)  : Kept s0 (sendLenReq s) := by
  unfold sendLenReq
  repeat' first
    | with_reducible first
        | assumption | apply sendStride_kept | apply ite_kept | apply foldl_kept
        | fail_if_no_progress (apply Kept.mk)
    | split | exact fun k (hk : coreOk k = true) => hk | intro _ | dsimp only | assumption

theorem closeLaunches_kept {s0 s : State} (h : Kept s0 s) (h : ℕ) : Kept s0 (closeLaunches h s) := by
  unfold closeLaunches
  repeat' first
    | with_reducible first
        | assumption | apply modHitch_kept | apply ite_kept | apply foldl_kept
        | fail_if_no_progress (apply Kept.mk)
    | split | exact fun k (hk : coreOk k = true) => hk | intro _ | dsimp only | assumption

theorem stopLaunches_kept {s0 s : State} (h : Kept s0 s)  : Kept s0 (stopLaunches s) := by
  unfold stopLaunches
  repeat' first
    | with_reducible first
        | assumption | apply forEach_kept | apply closeLaunches_kept | apply ite_kept | apply foldl_kept
        | fail_if_no_progress (apply Kept.mk)
    | split | exact fun k (hk : coreOk k = true) => hk | intro _ | dsimp only | assumption

theorem autoActs_kept {s0 s : State} (h : Kept s0 s) (k : ℕ) : Kept s0 (autoActs k s) := by
  unfold autoActs
  repeat' first
    | with_reducible first
        | assumption | apply stopLaunches_kept | apply quotasInForce_kept | apply placementInForce_kept
        | apply releasePoolPages_kept | apply rebuildImage_kept | apply sendLenReq_kept | apply setLen_kept
        | apply ite_kept | apply foldl_kept | fail_if_no_progress (apply Kept.mk)
    | split | exact fun k (hk : coreOk k = true) => hk | intro _ | dsimp only | assumption

theorem setAct_kept {s0 s : State} (h : Kept s0 s) (k : ℕ) : Kept s0 (setAct k s) := by
  unfold setAct
  repeat' first
    | with_reducible first
        | assumption | apply modStride_kept | apply autoActs_kept | apply ite_kept | apply foldl_kept
        | fail_if_no_progress (apply Kept.mk)
    | split | exact fun k (hk : coreOk k = true) => hk | intro _ | dsimp only | assumption

theorem noteChange_kept {s0 s : State} (h : Kept s0 s)  : Kept s0 (noteChange s) := by
  unfold noteChange
  repeat' first
    | with_reducible first
        | assumption | apply modStride_kept | apply sendLenReq_kept | apply nextTerms_kept | apply ite_kept
        | apply foldl_kept | fail_if_no_progress (apply Kept.mk)
    | split | exact fun k (hk : coreOk k = true) => hk | intro _ | dsimp only | assumption

theorem tripIfHot_kept {s0 s : State} (h : Kept s0 s)  : Kept s0 (tripIfHot s) := by
  unfold tripIfHot
  repeat' first
    | with_reducible first
        | assumption | apply chipStop_kept | apply ite_kept | apply foldl_kept
        | fail_if_no_progress (apply Kept.mk)
    | split | exact fun k (hk : coreOk k = true) => hk | intro _ | dsimp only | assumption

theorem setSreg_kept {r s : State} (h : Kept r s) (c : Nat) (q : RegNo) (v : Word) : Kept r (setSreg c q v s) := by
  refine ⟨?_, ?_, ?_, fun hr => coresOk_setSreg (h.2.2.2 hr) c q v⟩
  · unfold setSreg; split
    · exact h.1
    · exact h.1
  · unfold setSreg; split
    · exact h.2.1
    · exact h.2.1
  · unfold setSreg; split
    · exact h.2.2.1
    · exact h.2.2.1

theorem deliver_kept {s0 s : State} (h : Kept s0 s) (w : Waiter) (v : Word) : Kept s0 (deliver w v s) := by
  unfold deliver
  repeat' first
    | with_reducible first
        | assumption | apply modThread_kept | apply setSreg_kept | apply sendSyncRsp_kept | apply ite_kept
        | apply foldl_kept | fail_if_no_progress (apply Kept.mk)
    | split | exact fun k (hk : coreOk k = true) => hk | intro _ | dsimp only | assumption

theorem counterPut_kept {s0 s : State} (h : Kept s0 s) (n : ℕ) (x : ℤ) (clear : Bool) : Kept s0 (counterPut n x clear s) := by
  unfold counterPut
  repeat' first
    | with_reducible first
        | assumption | apply modObj_kept | apply forEach_kept | apply deliver_kept | apply ite_kept
        | apply foldl_kept | fail_if_no_progress (apply Kept.mk)
    | split | exact fun k (hk : coreOk k = true) => hk | intro _ | dsimp only | assumption

theorem opSet_kept {s0 s : State} (h : Kept s0 s) (r : SyncReq) (data : Word) : Kept s0 (opSet r data s).1 := by
  unfold opSet
  repeat' first
    | with_reducible first
        | assumption | apply counterPut_kept | apply ite_kept | apply foldl_kept
        | fail_if_no_progress (apply Kept.mk)
    | split | exact fun k (hk : coreOk k = true) => hk | intro _ | dsimp only | assumption

theorem opFetchInc_kept {s0 s : State} (h : Kept s0 s) (r : SyncReq) : Kept s0 (opFetchInc r s).1 := by
  unfold opFetchInc
  repeat' first
    | with_reducible first
        | assumption | apply counterPut_kept | apply ite_kept | apply foldl_kept
        | fail_if_no_progress (apply Kept.mk)
    | split | exact fun k (hk : coreOk k = true) => hk | intro _ | dsimp only | assumption

theorem opAdd_kept {s0 s : State} (h : Kept s0 s) (r : SyncReq) (data : Word) : Kept s0 (opAdd r data s).1 := by
  unfold opAdd
  repeat' first
    | with_reducible first
        | assumption | apply counterPut_kept | apply ite_kept | apply foldl_kept
        | fail_if_no_progress (apply Kept.mk)
    | split | exact fun k (hk : coreOk k = true) => hk | intro _ | dsimp only | assumption

theorem opWait_kept {s0 s : State} (h : Kept s0 s) (r : SyncReq) (bound : Word) : Kept s0 (opWait r bound s).1 := by
  unfold opWait
  repeat' first
    | with_reducible first
        | assumption | apply modObj_kept | apply ite_kept | apply foldl_kept | fail_if_no_progress (apply Kept.mk)
    | split | exact fun k (hk : coreOk k = true) => hk | intro _ | dsimp only | assumption

theorem opArrive_kept {s0 s : State} (h : Kept s0 s) (r : SyncReq) (wait : Bool) : Kept s0 (opArrive r wait s).1 := by
  unfold opArrive
  repeat' first
    | with_reducible first
        | assumption | apply modObj_kept | apply forEach_kept | apply deliver_kept | apply ite_kept
        | apply foldl_kept | fail_if_no_progress (apply Kept.mk)
    | split | exact fun k (hk : coreOk k = true) => hk | intro _ | dsimp only | assumption

theorem opClaim_kept {s0 s : State} (h : Kept s0 s) (r : SyncReq) (seq : BitVec 16) : Kept s0 (opClaim r seq s).1 := by
  unfold opClaim
  repeat' first
    | with_reducible first
        | assumption | apply modSync_kept | apply modObj_kept | apply ite_kept | apply foldl_kept
        | fail_if_no_progress (apply Kept.mk)
    | split | exact fun k (hk : coreOk k = true) => hk | intro _ | dsimp only | assumption

theorem syncRefuse_kept {s0 s : State} (h : Kept s0 s) (r : SyncReq) (code : ℕ) (detail : List Byte) : Kept s0 (syncRefuse r code detail s) := by
  unfold syncRefuse
  repeat' first
    | with_reducible first
        | assumption | apply jobFault_kept | apply haltCore_kept | apply ite_kept | apply foldl_kept
        | fail_if_no_progress (apply Kept.mk)
    | split | exact fun k (hk : coreOk k = true) => hk | intro _ | dsimp only | assumption

theorem syncAnswer_kept {s0 : State} (r : SyncReq) {x : State × SyncAns} (h : Kept s0 x.1) : Kept s0 (syncAnswer r x) := by
  unfold syncAnswer
  split
  · exact sendSyncRsp_kept h _ _ _ _ _
  · exact h
  · exact h
  · exact syncRefuse_kept h _ _ _

theorem syncServe_kept {s0 s : State} (h : Kept s0 s) (r : SyncReq) (op : State → State × SyncAns) (hop : ∀ t, Kept s0 t → Kept s0 (op  t).1) : Kept s0 (syncServe r op s) := by
  unfold syncServe
  repeat' first
    | with_reducible first
        | assumption | apply modMgmt_kept | apply modSync_kept | apply syncAnswer_kept | apply hop | apply ite_kept
        | apply foldl_kept | fail_if_no_progress (apply Kept.mk)
    | split | exact fun k (hk : coreOk k = true) => hk | intro _ | dsimp only | assumption

theorem syncReturn_kept {s0 s : State} (h : Kept s0 s) (c : ℕ) (t : ℕ) (result : Word) : Kept s0 (syncReturn c t result s) := by
  unfold syncReturn
  repeat' first
    | with_reducible first
        | assumption | apply modCore_kept | apply modThread_kept | apply setSreg_kept | apply ite_kept
        | apply foldl_kept | fail_if_no_progress (apply Kept.mk)
    | split | exact fun k (hk : coreOk k = true) => hk | intro _ | dsimp only | assumption

theorem syncAgain_kept {s0 s : State} (h : Kept s0 s) (n c t reason : Nat) : Kept s0 (syncAgain n c t reason s) := by
  induction n generalizing s c t reason with
  | zero => exact h
  | succ k ih =>
    unfold syncAgain
    split
    · exact h
    split
    · split
      · exact sendSyncReq_kept (modSync_kept (modThread_kept h _ _ _) _) _ _ _ _ _ _ _ _ _ _ (fun x u hu => ih hu _ _ _)
      · split
        · exact jobFault_kept h _ _
        · exact h
    · exact h

theorem threadMove_kept {r s : State} (h : Kept r s) (c t n : Nat) : Kept r (threadMove c t n s) :=
  ⟨h.1, h.2.1, h.2.2.1, fun hr => coresOk_threadMove (h.2.2.2 hr) c t n⟩

theorem threadBegin_kept {s0 s : State} (h : Kept s0 s) (k : Tack) (c : ℕ) (t : ℕ) (n : ℕ) : Kept s0 (threadBegin k c t n s) := by
  unfold threadBegin
  repeat' first
    | with_reducible first
        | assumption | apply modThread_kept | apply ite_kept | apply foldl_kept
        | fail_if_no_progress (apply Kept.mk)
    | split | exact fun k (hk : coreOk k = true) => hk | intro _ | dsimp only | assumption

theorem threadAdvance_kept {s0 s : State} (h : Kept s0 s) (c : ℕ) (t : ℕ) : Kept s0 (threadAdvance c t s) := by
  unfold threadAdvance
  repeat' first
    | with_reducible first
        | assumption | apply forEach_kept | apply threadBegin_kept | apply ite_kept | apply foldl_kept
        | fail_if_no_progress (apply Kept.mk)
    | split | exact fun k (hk : coreOk k = true) => hk | intro _ | dsimp only | assumption

theorem engineBegin_kept {s0 s : State} (h : Kept s0 s) (k : Tack) (e : ℕ) (n : ℕ) : Kept s0 (engineBegin k e n s) := by
  unfold engineBegin
  repeat' first
    | with_reducible first
        | assumption | apply modEng_kept | apply ite_kept | apply foldl_kept | fail_if_no_progress (apply Kept.mk)
    | split | exact fun k (hk : coreOk k = true) => hk | intro _ | dsimp only | assumption

theorem engineAdvance_kept {s0 s : State} (h : Kept s0 s) (e : ℕ) : Kept s0 (engineAdvance e s) := by
  unfold engineAdvance
  repeat' first
    | with_reducible first
        | assumption | apply forEach_kept | apply engineBegin_kept | apply ite_kept | apply foldl_kept
        | fail_if_no_progress (apply Kept.mk)
    | split | exact fun k (hk : coreOk k = true) => hk | intro _ | dsimp only | assumption

theorem scalarRun_kept {s0 s : State} (h : Kept s0 s) (c : ℕ) (t : ℕ) (f : ScalarF) (target : ℕ → ℤ) (eff : State → State) (heff : ∀ t, Kept s0 t → Kept s0 (eff  t)) : Kept s0 (scalarRun c t f target eff s) := by
  unfold scalarRun
  repeat' first
    | with_reducible first
        | assumption | apply groomRefuse_kept | apply threadMove_kept | apply heff | apply ite_kept
        | apply foldl_kept | fail_if_no_progress (apply Kept.mk)
    | split | exact fun k (hk : coreOk k = true) => hk | intro _ | dsimp only | assumption

theorem scalarIssue_kept {s0 s : State} (h : Kept s0 s) (c : ℕ) (t : ℕ) (f : ScalarF) (target : ℕ → ℤ) (eff : State → State) (heff : ∀ t, Kept s0 t → Kept s0 (eff  t)) : Kept s0 (scalarIssue c t f target eff s) := by
  unfold scalarIssue
  repeat' first
    | with_reducible first
        | assumption | apply scalarRun_kept | apply heff | apply ite_kept | apply foldl_kept
        | fail_if_no_progress (apply Kept.mk)
    | split | exact fun k (hk : coreOk k = true) => hk | intro _ | dsimp only | assumption

theorem setDst_kept {s0 s : State} (h : Kept s0 s) (c : ℕ) (f : ScalarF) (v : State → Word) : Kept s0 (setDst c f v s) := by
  unfold setDst
  repeat' first
    | with_reducible first
        | assumption | apply setSreg_kept | apply ite_kept | apply foldl_kept | fail_if_no_progress (apply Kept.mk)
    | split | exact fun k (hk : coreOk k = true) => hk | intro _ | dsimp only | assumption

theorem execLi_kept {s0 s : State} (h : Kept s0 s) (c : CoreId) (t : ThreadId) (f : ScalarF) : OutKept s0 (execLi c t f s) := by
  unfold execLi
  apply outKept_next
  repeat' first
    | with_reducible first
        | assumption | apply scalarIssue_kept | apply setDst_kept | apply ite_kept | apply foldl_kept
        | fail_if_no_progress (apply Kept.mk)
    | split | exact fun k (hk : coreOk k = true) => hk | intro _ | dsimp only | assumption

theorem execLui_kept {s0 s : State} (h : Kept s0 s) (c : CoreId) (t : ThreadId) (f : ScalarF) : OutKept s0 (execLui c t f s) := by
  unfold execLui
  apply outKept_next
  repeat' first
    | with_reducible first
        | assumption | apply scalarIssue_kept | apply setDst_kept | apply ite_kept | apply foldl_kept
        | fail_if_no_progress (apply Kept.mk)
    | split | exact fun k (hk : coreOk k = true) => hk | intro _ | dsimp only | assumption

theorem execAdd_kept {s0 s : State} (h : Kept s0 s) (c : CoreId) (t : ThreadId) (f : ScalarF) : OutKept s0 (execAdd c t f s) := by
  unfold execAdd
  apply outKept_next
  repeat' first
    | with_reducible first
        | assumption | apply scalarIssue_kept | apply setDst_kept | apply ite_kept | apply foldl_kept
        | fail_if_no_progress (apply Kept.mk)
    | split | exact fun k (hk : coreOk k = true) => hk | intro _ | dsimp only | assumption

theorem execSub_kept {s0 s : State} (h : Kept s0 s) (c : CoreId) (t : ThreadId) (f : ScalarF) : OutKept s0 (execSub c t f s) := by
  unfold execSub
  apply outKept_next
  repeat' first
    | with_reducible first
        | assumption | apply scalarIssue_kept | apply setDst_kept | apply ite_kept | apply foldl_kept
        | fail_if_no_progress (apply Kept.mk)
    | split | exact fun k (hk : coreOk k = true) => hk | intro _ | dsimp only | assumption

theorem execMul_kept {s0 s : State} (h : Kept s0 s) (c : CoreId) (t : ThreadId) (f : ScalarF) : OutKept s0 (execMul c t f s) := by
  unfold execMul
  apply outKept_next
  repeat' first
    | with_reducible first
        | assumption | apply scalarIssue_kept | apply setDst_kept | apply ite_kept | apply foldl_kept
        | fail_if_no_progress (apply Kept.mk)
    | split | exact fun k (hk : coreOk k = true) => hk | intro _ | dsimp only | assumption

theorem execShl_kept {s0 s : State} (h : Kept s0 s) (c : CoreId) (t : ThreadId) (f : ScalarF) : OutKept s0 (execShl c t f s) := by
  unfold execShl
  apply outKept_next
  repeat' first
    | with_reducible first
        | assumption | apply scalarIssue_kept | apply setDst_kept | apply ite_kept | apply foldl_kept
        | fail_if_no_progress (apply Kept.mk)
    | split | exact fun k (hk : coreOk k = true) => hk | intro _ | dsimp only | assumption

theorem execShr_kept {s0 s : State} (h : Kept s0 s) (c : CoreId) (t : ThreadId) (f : ScalarF) : OutKept s0 (execShr c t f s) := by
  unfold execShr
  apply outKept_next
  repeat' first
    | with_reducible first
        | assumption | apply scalarIssue_kept | apply setDst_kept | apply ite_kept | apply foldl_kept
        | fail_if_no_progress (apply Kept.mk)
    | split | exact fun k (hk : coreOk k = true) => hk | intro _ | dsimp only | assumption

theorem execSar_kept {s0 s : State} (h : Kept s0 s) (c : CoreId) (t : ThreadId) (f : ScalarF) : OutKept s0 (execSar c t f s) := by
  unfold execSar
  apply outKept_next
  repeat' first
    | with_reducible first
        | assumption | apply scalarIssue_kept | apply setDst_kept | apply ite_kept | apply foldl_kept
        | fail_if_no_progress (apply Kept.mk)
    | split | exact fun k (hk : coreOk k = true) => hk | intro _ | dsimp only | assumption

theorem execAnd_kept {s0 s : State} (h : Kept s0 s) (c : CoreId) (t : ThreadId) (f : ScalarF) : OutKept s0 (execAnd c t f s) := by
  unfold execAnd
  apply outKept_next
  repeat' first
    | with_reducible first
        | assumption | apply scalarIssue_kept | apply setDst_kept | apply ite_kept | apply foldl_kept
        | fail_if_no_progress (apply Kept.mk)
    | split | exact fun k (hk : coreOk k = true) => hk | intro _ | dsimp only | assumption

theorem execOr_kept {s0 s : State} (h : Kept s0 s) (c : CoreId) (t : ThreadId) (f : ScalarF) : OutKept s0 (execOr c t f s) := by
  unfold execOr
  apply outKept_next
  repeat' first
    | with_reducible first
        | assumption | apply scalarIssue_kept | apply setDst_kept | apply ite_kept | apply foldl_kept
        | fail_if_no_progress (apply Kept.mk)
    | split | exact fun k (hk : coreOk k = true) => hk | intro _ | dsimp only | assumption

theorem execXor_kept {s0 s : State} (h : Kept s0 s) (c : CoreId) (t : ThreadId) (f : ScalarF) : OutKept s0 (execXor c t f s) := by
  unfold execXor
  apply outKept_next
  repeat' first
    | with_reducible first
        | assumption | apply scalarIssue_kept | apply setDst_kept | apply ite_kept | apply foldl_kept
        | fail_if_no_progress (apply Kept.mk)
    | split | exact fun k (hk : coreOk k = true) => hk | intro _ | dsimp only | assumption

theorem execMin_kept {s0 s : State} (h : Kept s0 s) (c : CoreId) (t : ThreadId) (f : ScalarF) : OutKept s0 (execMin c t f s) := by
  unfold execMin
  apply outKept_next
  repeat' first
    | with_reducible first
        | assumption | apply scalarIssue_kept | apply setDst_kept | apply ite_kept | apply foldl_kept
        | fail_if_no_progress (apply Kept.mk)
    | split | exact fun k (hk : coreOk k = true) => hk | intro _ | dsimp only | assumption

theorem execMax_kept {s0 s : State} (h : Kept s0 s) (c : CoreId) (t : ThreadId) (f : ScalarF) : OutKept s0 (execMax c t f s) := by
  unfold execMax
  apply outKept_next
  repeat' first
    | with_reducible first
        | assumption | apply scalarIssue_kept | apply setDst_kept | apply ite_kept | apply foldl_kept
        | fail_if_no_progress (apply Kept.mk)
    | split | exact fun k (hk : coreOk k = true) => hk | intro _ | dsimp only | assumption

theorem execBeq_kept {s0 s : State} (h : Kept s0 s) (c : CoreId) (t : ThreadId) (f : ScalarF) : OutKept s0 (execBeq c t f s) := by
  unfold execBeq
  apply outKept_next
  repeat' first
    | with_reducible first
        | assumption | apply scalarIssue_kept | apply ite_kept | apply foldl_kept
        | fail_if_no_progress (apply Kept.mk)
    | split | exact fun k (hk : coreOk k = true) => hk | intro _ | dsimp only | assumption

theorem execBne_kept {s0 s : State} (h : Kept s0 s) (c : CoreId) (t : ThreadId) (f : ScalarF) : OutKept s0 (execBne c t f s) := by
  unfold execBne
  apply outKept_next
  repeat' first
    | with_reducible first
        | assumption | apply scalarIssue_kept | apply ite_kept | apply foldl_kept
        | fail_if_no_progress (apply Kept.mk)
    | split | exact fun k (hk : coreOk k = true) => hk | intro _ | dsimp only | assumption

theorem execBlt_kept {s0 s : State} (h : Kept s0 s) (c : CoreId) (t : ThreadId) (f : ScalarF) : OutKept s0 (execBlt c t f s) := by
  unfold execBlt
  apply outKept_next
  repeat' first
    | with_reducible first
        | assumption | apply scalarIssue_kept | apply ite_kept | apply foldl_kept
        | fail_if_no_progress (apply Kept.mk)
    | split | exact fun k (hk : coreOk k = true) => hk | intro _ | dsimp only | assumption

theorem execJmp_kept {s0 s : State} (h : Kept s0 s) (c : CoreId) (t : ThreadId) (f : ScalarF) : OutKept s0 (execJmp c t f s) := by
  unfold execJmp
  apply outKept_next
  repeat' first
    | with_reducible first
        | assumption | apply scalarIssue_kept | apply ite_kept | apply foldl_kept
        | fail_if_no_progress (apply Kept.mk)
    | split | exact fun k (hk : coreOk k = true) => hk | intro _ | dsimp only | assumption

theorem groomMiss_kept {s0 s : State} (h : Kept s0 s) (c : ℕ) (t : ℕ) (page : ℕ) (a : ℕ) : Kept s0 (groomMiss c t page a s) := by
  unfold groomMiss
  repeat' first
    | with_reducible first
        | assumption | apply modThread_kept | apply event_kept | apply modMgmt_kept | apply ite_kept
        | apply foldl_kept | fail_if_no_progress (apply Kept.mk)
    | split | exact fun k (hk : coreOk k = true) => hk | intro _ | dsimp only | assumption

theorem groomHole_kept {s0 s : State} (h : Kept s0 s) (c : ℕ) (t : ℕ) (a : ℕ) (m : ℕ) : Kept s0 (groomHole c t a m s) := by
  unfold groomHole
  repeat' first
    | with_reducible first
        | assumption | apply haltCore_kept | apply jobFault_kept | apply ite_kept | apply foldl_kept
        | fail_if_no_progress (apply Kept.mk)
    | split | exact fun k (hk : coreOk k = true) => hk | intro _ | dsimp only | assumption

theorem groomSyncRefuse_kept {s0 s : State} (h : Kept s0 s) (c : ℕ) (t : ℕ) (code : ℕ) (detail : List Byte) : Kept s0 (groomSyncRefuse c t code detail s) := by
  unfold groomSyncRefuse
  repeat' first
    | with_reducible first
        | assumption | apply haltCore_kept | apply jobFault_kept | apply ite_kept | apply foldl_kept
        | fail_if_no_progress (apply Kept.mk)
    | split | exact fun k (hk : coreOk k = true) => hk | intro _ | dsimp only | assumption

theorem groomAnswer_kept {s0 : State} (c : CoreId) (t : ThreadId) (dst : RegNo) (n pc : Nat) {x : State × SyncAns} (h : Kept s0 x.1) :
    Kept s0 (groomAnswer c t dst n pc x) := by
  unfold groomAnswer
  split
  · exact threadMove_kept (setSreg_kept h _ _ _) _ _ _
  · exact threadMove_kept h _ _ _
  · exact modThread_kept (threadMove_kept h _ _ _) _ _ _
  · exact groomSyncRefuse_kept h _ _ _ _

theorem remoteSync_kept {s0 s : State} (h : Kept s0 s) (c : CoreId) (t : ThreadId) (ld : Bool) (dst : RegNo) (chip : ℕ) (n : ℕ) (word : ℕ) (pc : ℕ) (v : Word) : Kept s0 (remoteSync c t ld dst chip n word pc v s) := by
  unfold remoteSync
  repeat' first
    | with_reducible first
        | assumption | apply threadMove_kept | apply modThread_kept | apply sendSyncReq_kept | apply syncAgain_kept
        | apply modCore_kept | apply lostJob_kept | apply ite_kept | apply foldl_kept
        | fail_if_no_progress (apply Kept.mk)
    | split | exact fun k (hk : coreOk k = true) => hk | intro _ | dsimp only | assumption

theorem ldSync_kept {s0 s : State} (h : Kept s0 s) (c : CoreId) (t : ThreadId) (f : ScalarF) (n : ℕ) (off : ℕ) (pc : ℕ) : Kept s0 (ldSync c t f n off pc s) := by
  unfold ldSync
  repeat' first
    | with_reducible first
        | assumption | apply threadMove_kept | apply setSreg_kept | apply groomAnswer_kept | apply opFetchInc_kept
        | apply opArrive_kept | apply modThread_kept | apply opClaim_kept | apply opWait_kept
        | apply groomSyncRefuse_kept | apply ite_kept | apply foldl_kept | fail_if_no_progress (apply Kept.mk)
    | split | exact fun k (hk : coreOk k = true) => hk | intro _ | dsimp only | assumption

theorem stSync_kept {s0 s : State} (h : Kept s0 s) (c : CoreId) (t : ThreadId) (f : ScalarF) (n : ℕ) (off : ℕ) (pc : ℕ) : Kept s0 (stSync c t f n off pc s) := by
  unfold stSync
  repeat' first
    | with_reducible first
        | assumption | apply groomAnswer_kept | apply opSet_kept | apply opAdd_kept | apply opArrive_kept
        | apply groomSyncRefuse_kept | apply ite_kept | apply foldl_kept | fail_if_no_progress (apply Kept.mk)
    | split | exact fun k (hk : coreOk k = true) => hk | intro _ | dsimp only | assumption

theorem groomRemote_kept {s0 s : State} (h : Kept s0 s) (c : CoreId) (t : ThreadId) (f : ScalarF) (ld : Bool) (chip : ℕ) (a : ℕ) (pc : ℕ) : Kept s0 (groomRemote c t f ld chip a pc s) := by
  unfold groomRemote
  repeat' first
    | with_reducible first
        | assumption | apply groomSyncRefuse_kept | apply modThread_kept | apply remoteSync_kept
        | apply groomHole_kept | apply ite_kept | apply foldl_kept | fail_if_no_progress (apply Kept.mk)
    | split | exact fun k (hk : coreOk k = true) => hk | intro _ | dsimp only | assumption

theorem ldWait_kept {s0 s : State} (h : Kept s0 s) (c : ℕ) (t : ℕ) (dst : RegNo) (a : ℕ) (pc : ℕ) : Kept s0 (ldWait c t dst a pc s) := by
  unfold ldWait
  repeat' first
    | with_reducible first
        | assumption | apply modThread_kept | apply threadMove_kept | apply ite_kept | apply foldl_kept
        | fail_if_no_progress (apply Kept.mk)
    | split | exact fun k (hk : coreOk k = true) => hk | intro _ | dsimp only | assumption

theorem misaligned_kept {s0 s : State} (h : Kept s0 s) (c : CoreId) (t : ThreadId) (a : ℕ) : Kept s0 (misaligned c t a s) := by
  unfold misaligned
  repeat' first
    | with_reducible first
        | assumption | apply groomSyncRefuse_kept | apply groomRefuse_kept | apply ite_kept | apply foldl_kept
        | fail_if_no_progress (apply Kept.mk)
    | split | exact fun k (hk : coreOk k = true) => hk | intro _ | dsimp only | assumption

theorem ldAccess_kept {s0 s : State} (h : Kept s0 s) (c : CoreId) (t : ThreadId) (f : ScalarF) (pc : ℕ) : Kept s0 (ldAccess c t f pc s) := by
  unfold ldAccess
  repeat' first
    | with_reducible first
        | assumption | apply misaligned_kept | apply groomRemote_kept | apply ldSync_kept | apply ldWait_kept
        | apply mapConsult_kept | apply pageReadStart_kept | apply groomMiss_kept | apply groomHole_kept
        | apply ite_kept | apply foldl_kept | fail_if_no_progress (apply Kept.mk)
    | split | exact fun k (hk : coreOk k = true) => hk | intro _ | dsimp only | assumption

theorem stWrite_kept {s0 s : State} (h : Kept s0 s) (c : ℕ) (t : ℕ) (pc : ℕ) (a : ℕ) (v : Word) : Kept s0 (stWrite c t pc a v s) := by
  unfold stWrite
  repeat' first
    | with_reducible first
        | assumption | apply modThread_kept | apply threadMove_kept | apply portTouch_kept | apply writeWord_kept
        | apply ite_kept | apply foldl_kept | fail_if_no_progress (apply Kept.mk)
    | split | exact fun k (hk : coreOk k = true) => hk | intro _ | dsimp only | assumption

theorem stAccess_kept {s0 s : State} (h : Kept s0 s) (c : CoreId) (t : ThreadId) (f : ScalarF) (pc : ℕ) : Kept s0 (stAccess c t f pc s) := by
  unfold stAccess
  repeat' first
    | with_reducible first
        | assumption | apply misaligned_kept | apply groomRemote_kept | apply stSync_kept | apply mapConsult_kept
        | apply stWrite_kept | apply groomMiss_kept | apply groomHole_kept | apply ite_kept | apply foldl_kept
        | fail_if_no_progress (apply Kept.mk)
    | split | exact fun k (hk : coreOk k = true) => hk | intro _ | dsimp only | assumption

theorem memRun_kept {s0 s : State} (h : Kept s0 s) (c : CoreId) (t : ThreadId) (f : ScalarF) (access : ℕ → State → State) (haccess : ∀ x0 t, Kept s0 t → Kept s0 (access x0 t)) : Kept s0 (memRun c t f access s) := by
  unfold memRun
  repeat' first
    | with_reducible first
        | assumption | apply groomRefuse_kept | apply haccess | apply ite_kept | apply foldl_kept
        | fail_if_no_progress (apply Kept.mk)
    | split | exact fun k (hk : coreOk k = true) => hk | intro _ | dsimp only | assumption

theorem execLd_kept {s0 s : State} (h : Kept s0 s) (c : CoreId) (t : ThreadId) (f : ScalarF) : OutKept s0 (execLd c t f s) := by
  unfold execLd
  apply outKept_next
  repeat' first
    | with_reducible first
        | assumption | apply memRun_kept | apply ldAccess_kept | apply ite_kept | apply foldl_kept
        | fail_if_no_progress (apply Kept.mk)
    | split | exact fun k (hk : coreOk k = true) => hk | intro _ | dsimp only | assumption

theorem execSt_kept {s0 s : State} (h : Kept s0 s) (c : CoreId) (t : ThreadId) (f : ScalarF) : OutKept s0 (execSt c t f s) := by
  unfold execSt
  apply outKept_next
  repeat' first
    | with_reducible first
        | assumption | apply memRun_kept | apply stAccess_kept | apply ite_kept | apply foldl_kept
        | fail_if_no_progress (apply Kept.mk)
    | split | exact fun k (hk : coreOk k = true) => hk | intro _ | dsimp only | assumption

theorem twaitRun_kept {s0 s : State} (h : Kept s0 s) (c : ℕ) (t : ℕ) (f : ScalarF) : Kept s0 (twaitRun c t f s) := by
  unfold twaitRun
  repeat' first
    | with_reducible first
        | assumption | apply modThread_kept | apply scalarRun_kept | apply ite_kept | apply foldl_kept
        | fail_if_no_progress (apply Kept.mk)
    | split | exact fun k (hk : coreOk k = true) => hk | intro _ | dsimp only | assumption

theorem execTwait_kept {s0 s : State} (h : Kept s0 s) (c : CoreId) (t : ThreadId) (f : ScalarF) : OutKept s0 (execTwait c t f s) := by
  unfold execTwait
  apply outKept_next
  repeat' first
    | with_reducible first
        | assumption | apply twaitRun_kept | apply ite_kept | apply foldl_kept
        | fail_if_no_progress (apply Kept.mk)
    | split | exact fun k (hk : coreOk k = true) => hk | intro _ | dsimp only | assumption

theorem snapRegs_kept {s0 s : State} (h : Kept s0 s) (c : ℕ) (t : ℕ) : Kept s0 (snapRegs c t s) := by
  unfold snapRegs
  repeat' first
    | with_reducible first
        | assumption | apply modCore_kept | apply ite_kept | apply foldl_kept | fail_if_no_progress (apply Kept.mk)
    | split | exact fun k (hk : coreOk k = true) => hk | intro _ | dsimp only | assumption

theorem stepEnded_kept {s0 s : State} (h : Kept s0 s) (c : ℕ) (t : ℕ) : Kept s0 (stepEnded c t s) := by
  unfold stepEnded
  repeat' first
    | with_reducible first
        | assumption | apply threadAdvance_kept | apply modThread_kept | apply snapRegs_kept | apply ite_kept
        | apply foldl_kept | fail_if_no_progress (apply Kept.mk)
    | split | exact fun k (hk : coreOk k = true) => hk | intro _ | dsimp only | assumption

theorem stepEndRun_kept {s0 s : State} (h : Kept s0 s) (c : ℕ) (t : ℕ) (f : ScalarF) : Kept s0 (stepEndRun c t f s) := by
  unfold stepEndRun
  repeat' first
    | with_reducible first
        | assumption | apply groomRefuse_kept | apply stepEnded_kept | apply threadMove_kept | apply ite_kept
        | apply foldl_kept | fail_if_no_progress (apply Kept.mk)
    | split | exact fun k (hk : coreOk k = true) => hk | intro _ | dsimp only | assumption

theorem execStepEnd_kept {s0 s : State} (h : Kept s0 s) (c : CoreId) (t : ThreadId) (f : ScalarF) : OutKept s0 (execStepEnd c t f s) := by
  unfold execStepEnd
  apply outKept_next
  repeat' first
    | with_reducible first
        | assumption | apply stepEndRun_kept | apply ite_kept | apply foldl_kept
        | fail_if_no_progress (apply Kept.mk)
    | split | exact fun k (hk : coreOk k = true) => hk | intro _ | dsimp only | assumption

theorem tileIssue_kept {s0 s : State} (h : Kept s0 s) (c : ℕ) (t : ℕ) (eng : Fin 8) (acc : Accept) : Kept s0 (tileIssue c t eng acc s) := by
  unfold tileIssue
  repeat' first
    | with_reducible first
        | assumption | apply groomRefuse_kept | apply modThread_kept | apply haltCore_kept | apply jobFault_kept
        | apply threadMove_kept | apply modEng_kept | apply measAdd_kept | apply ite_kept | apply foldl_kept
        | fail_if_no_progress (apply Kept.mk)
    | split | exact fun k (hk : coreOk k = true) => hk | intro _ | dsimp only | assumption

theorem execTmac_kept {s0 s : State} (h : Kept s0 s) (c : CoreId) (t : ThreadId) (f : TileF) : OutKept s0 (execTmac c t f s) := by
  unfold execTmac
  apply outKept_next
  repeat' first
    | with_reducible first
        | assumption | apply tileIssue_kept | apply ite_kept | apply foldl_kept
        | fail_if_no_progress (apply Kept.mk)
    | split | exact fun k (hk : coreOk k = true) => hk | intro _ | dsimp only | assumption

theorem execTout_kept {s0 s : State} (h : Kept s0 s) (c : CoreId) (t : ThreadId) (f : TileF) : OutKept s0 (execTout c t f s) := by
  unfold execTout
  apply outKept_next
  repeat' first
    | with_reducible first
        | assumption | apply tileIssue_kept | apply ite_kept | apply foldl_kept
        | fail_if_no_progress (apply Kept.mk)
    | split | exact fun k (hk : coreOk k = true) => hk | intro _ | dsimp only | assumption

theorem execResload_kept {s0 s : State} (h : Kept s0 s) (c : CoreId) (t : ThreadId) (f : ResloadF) : OutKept s0 (execResload c t f s) := by
  unfold execResload
  apply outKept_next
  repeat' first
    | with_reducible first
        | assumption | apply tileIssue_kept | apply ite_kept | apply foldl_kept
        | fail_if_no_progress (apply Kept.mk)
    | split | exact fun k (hk : coreOk k = true) => hk | intro _ | dsimp only | assumption

theorem writeOut_kept {s0 s : State} (hs : Kept s0 s) (h : HeldTile) (r j : Nat) (fmt : Nat) (y : Int) :
    Kept s0 (writeOut h r j fmt y s) := by
  unfold writeOut
  dsimp only
  split
  · exact writeByte_kept hs _ _
  · exact writeBytes_kept hs _ _

theorem writeTag_kept {s0 s : State} (h : Kept s0 s) (h : HeldTile) (ep : BitVec 3) (r : ℕ) (lame : Bool) (row : ℕ) : Kept s0 (writeTag h ep r lame row s) := by
  unfold writeTag
  repeat' first
    | with_reducible first
        | assumption | apply writeBytes_kept | apply ite_kept | apply foldl_kept
        | fail_if_no_progress (apply Kept.mk)
    | split | exact fun k (hk : coreOk k = true) => hk | intro _ | dsimp only | assumption

theorem tileWrite_kept {s0 s : State} (h : Kept s0 s) (h : HeldTile) (ep : BitVec 3) (n : ℕ) (m : ℕ) (t : Tile) : Kept s0 (tileWrite h ep n m t s).1 := by
  unfold tileWrite
  repeat' first
    | with_reducible first
        | assumption | apply forEach_kept | apply writeOut_kept | apply writeTag_kept | apply ite_kept
        | apply foldl_kept | fail_if_no_progress (apply Kept.mk)
    | split | exact fun k (hk : coreOk k = true) => hk | intro _ | dsimp only | assumption

theorem tileStep_kept {s0 : State} {x : TileRun} (hx : Kept s0 x.s) (e : Nat) (h : HeldTile) (nb : Nat) (whole : Bool)
    (p : Nat × Nat) : Kept s0 (tileStep e h nb whole x p).s := by
  unfold tileStep
  dsimp only
  apply modEng_kept
  split
  · exact hx
  · exact tileWrite_kept hx _ _ _ _ _

theorem tileFold_kept {s0 : State} (e : Nat) (h : HeldTile) (nb : Nat) (whole : Bool) (l : List (Nat × Nat)) {x : TileRun}
    (hx : Kept s0 x.s) : Kept s0 (l.foldl (tileStep e h nb whole) x).s := by
  induction l generalizing x with
  | nil => exact hx
  | cons p l ih => exact ih (tileStep_kept hx e h nb whole p)

theorem satJoin_kept {s0 s : State} (h : Kept s0 s) (e : ℕ) (reg : ℕ) : Kept s0 (satJoin e reg s) := by
  unfold satJoin
  repeat' first
    | with_reducible first
        | assumption | apply modEng_kept | apply ite_kept | apply foldl_kept | fail_if_no_progress (apply Kept.mk)
    | split | exact fun k (hk : coreOk k = true) => hk | intro _ | dsimp only | assumption

theorem satEnd_kept {s0 s : State} (h : Kept s0 s) (e : ℕ) (h : HeldTile) (ep : BitVec 3) (l : List SatTile) : Kept s0 (satEnd e h ep l s) := by
  unfold satEnd
  repeat' first
    | with_reducible first
        | assumption | apply forEach_kept | apply satJoin_kept | apply writeTag_kept | apply rowsFault_kept
        | apply requestFault_kept | apply ite_kept | apply foldl_kept | fail_if_no_progress (apply Kept.mk)
    | split | exact fun k (hk : coreOk k = true) => hk | intro _ | dsimp only | assumption

theorem tileRunList_kept {s0 s : State} (hs : Kept s0 s) (e : Nat) (h : HeldTile) (n : Nat) (l : List (Nat × Nat))
    (part : Option ((Nat × Nat) × Nat)) (ended : Bool) : Kept s0 (tileRunList e h n l part ended s) := by
  have hx : Kept s0 (l.foldl (tileStep e h (ceilDiv h.k 32) true) { s := s }).s := tileFold_kept e h _ _ l hs
  unfold tileRunList
  generalize l.foldl (tileStep e h (ceilDiv h.k 32) true) { s := s } = x at hx
  have hp : ∀ p b, Kept s0 (tileStep e h b false x p).s := fun p b => tileStep_kept hx _ _ _ _ _
  cases part with
  | none =>
    dsimp only
    split
    · exact satEnd_kept (measAdd_kept (modMgmt_kept hx _) _ _ _ _) _ _ _ _
    · exact measAdd_kept (modMgmt_kept hx _) _ _ _ _
  | some q =>
    dsimp only
    split
    · exact satEnd_kept (measAdd_kept (modMgmt_kept (hp _ _) _) _ _ _ _) _ _ _ _
    · exact measAdd_kept (modMgmt_kept (hp _ _) _) _ _ _ _

theorem mapRuns_kept {s0 s : State} (h : Kept s0 s) (e : ℕ) (f : Run → Run) : Kept s0 (mapRuns e f s) := by
  unfold mapRuns
  repeat' first
    | with_reducible first
        | assumption | apply forEach_kept | apply modAg_kept | apply ite_kept | apply foldl_kept
        | fail_if_no_progress (apply Kept.mk)
    | split | exact fun k (hk : coreOk k = true) => hk | intro _ | dsimp only | assumption

theorem consume_kept {s0 s : State} (h : Kept s0 s) (e : ℕ) (q : ℕ) (n : ℕ) : Kept s0 (consume e q n s) := by
  unfold consume
  repeat' first
    | with_reducible first
        | assumption | apply modRin_kept | apply ite_kept | apply foldl_kept | fail_if_no_progress (apply Kept.mk)
    | split | exact fun k (hk : coreOk k = true) => hk | intro _ | dsimp only | assumption

theorem firingComplete_kept {s0 s : State} (h : Kept s0 s) (e : ℕ) : Kept s0 (firingComplete e s) := by
  unfold firingComplete
  repeat' first
    | with_reducible first
        | assumption | apply modEng_kept | apply forEach_kept | apply modRin_kept | apply consume_kept
        | apply mapRuns_kept | apply engineAdvance_kept | apply ite_kept | apply foldl_kept
        | fail_if_no_progress (apply Kept.mk)
    | split | exact fun k (hk : coreOk k = true) => hk | intro _ | dsimp only | assumption

theorem firingReady_kept {s0 s : State} (h : Kept s0 s) (e : ℕ) : Kept s0 (firingReady e s) := by
  unfold firingReady
  repeat' first
    | with_reducible first
        | assumption | apply modEng_kept | apply firingComplete_kept | apply ite_kept | apply foldl_kept
        | fail_if_no_progress (apply Kept.mk)
    | split | exact fun k (hk : coreOk k = true) => hk | intro _ | dsimp only | assumption

theorem startFiring_kept {s0 s : State} (h : Kept s0 s) (e : ℕ) (q : SchedEntry) : Kept s0 (startFiring e q s) := by
  unfold startFiring
  repeat' first
    | with_reducible first
        | assumption | apply modEng_kept | apply forEach_kept | apply modRout_kept | apply firingReady_kept
        | apply mapRuns_kept | apply ite_kept | apply foldl_kept | fail_if_no_progress (apply Kept.mk)
    | split | exact fun k (hk : coreOk k = true) => hk | intro _ | dsimp only | assumption

theorem creditTake_kept {s0 s : State} (h : Kept s0 s) (e : ℕ) (o : ℕ) (n : ℕ) : Kept s0 (creditTake e o n s) := by
  unfold creditTake
  repeat' first
    | with_reducible first
        | assumption | apply progress_kept | apply jobFault_kept | apply modRout_kept | apply ite_kept
        | apply foldl_kept | fail_if_no_progress (apply Kept.mk)
    | split | exact fun k (hk : coreOk k = true) => hk | intro _ | dsimp only | assumption

theorem creditReturn_kept {s0 s : State} (h : Kept s0 s) (e : ℕ) (o : ℕ) (count : ℕ) (epoch : BitVec 3) : Kept s0 (creditReturn e o count epoch s) := by
  unfold creditReturn
  repeat' first
    | with_reducible first
        | assumption | apply modMgmt_kept | apply creditTake_kept | apply modCore_kept | apply ite_kept
        | apply foldl_kept | fail_if_no_progress (apply Kept.mk)
    | split | exact fun k (hk : coreOk k = true) => hk | intro _ | dsimp only | assumption

theorem joinQueue_kept {s0 s : State} (h : Kept s0 s) (m : TokenMsg) : Kept s0 (joinQueue m s) := by
  unfold joinQueue
  repeat' first
    | with_reducible first
        | assumption | apply jobFault_kept | apply writeSpad_kept | apply modRin_kept | apply event_kept
        | apply ite_kept | apply foldl_kept | fail_if_no_progress (apply Kept.mk)
    | split | exact fun k (hk : coreOk k = true) => hk | intro _ | dsimp only | assumption

theorem staleToken_kept {s0 s : State} (h : Kept s0 s) (m : TokenMsg) : Kept s0 (staleToken m s) := by
  unfold staleToken
  repeat' first
    | with_reducible first
        | assumption | apply creditBack_kept | apply modEng_kept | apply ite_kept | apply foldl_kept
        | fail_if_no_progress (apply Kept.mk)
    | split | exact fun k (hk : coreOk k = true) => hk | intro _ | dsimp only | assumption

theorem tokenSort_kept {s0 s : State} (h : Kept s0 s) (m : TokenMsg) : Kept s0 (tokenSort m s) := by
  unfold tokenSort
  repeat' first
    | with_reducible first
        | assumption | apply staleToken_kept | apply creditBack_kept | apply joinQueue_kept | apply modEng_kept
        | apply ite_kept | apply foldl_kept | fail_if_no_progress (apply Kept.mk)
    | split | exact fun k (hk : coreOk k = true) => hk | intro _ | dsimp only | assumption

theorem tokenArrive_kept {s0 s : State} (h : Kept s0 s) (m : TokenMsg) : Kept s0 (tokenArrive m s) := by
  unfold tokenArrive
  repeat' first
    | with_reducible first
        | assumption | apply modMgmt_kept | apply tokenSort_kept | apply ite_kept | apply foldl_kept
        | fail_if_no_progress (apply Kept.mk)
    | split | exact fun k (hk : coreOk k = true) => hk | intro _ | dsimp only | assumption

theorem earlyJoin_kept {s0 s : State} (h : Kept s0 s) (e : ℕ) : Kept s0 (earlyJoin e s) := by
  unfold earlyJoin
  repeat' first
    | with_reducible first
        | assumption | apply forEach_kept | apply tokenSort_kept | apply modEng_kept | apply ite_kept
        | apply foldl_kept | fail_if_no_progress (apply Kept.mk)
    | split | exact fun k (hk : coreOk k = true) => hk | intro _ | dsimp only | assumption

theorem tileDone_kept {s0 s : State} (h : Kept s0 s) (e : Nat) (x : Firing) : Kept s0 (tileDone e x s) := by
  unfold tileDone
  dsimp only
  apply firingReady_kept
  apply progress_kept
  apply modEng_kept
  exact modCore_kept h _ _ (fun _ hk => hk)

theorem abandonFiring_kept {s0 s : State} (h : Kept s0 s) (e : ℕ) (x : Firing) : Kept s0 (abandonFiring e x s) := by
  unfold abandonFiring
  repeat' first
    | with_reducible first
        | assumption | apply forEach_kept | apply modRout_kept | apply modAg_kept | apply modEng_kept
        | apply ite_kept | apply foldl_kept | fail_if_no_progress (apply Kept.mk)
    | split | exact fun k (hk : coreOk k = true) => hk | intro _ | dsimp only | assumption

theorem curbAdmit_kept {s0 s : State} (h : Kept s0 s) (p : ℕ) (k : ℕ) (q : CurbReq) : Kept s0 (curbAdmit p k q s) := by
  unfold curbAdmit
  repeat' first
    | with_reducible first
        | assumption | apply modTiers_kept | apply curbCharge_kept | apply modCurb_kept | apply ite_kept
        | apply foldl_kept | fail_if_no_progress (apply Kept.mk)
    | split | exact fun k (hk : coreOk k = true) => hk | intro _ | dsimp only | assumption

theorem curbAsk_kept {s0 s : State} (h : Kept s0 s) (n0 : ℕ) (k : ℕ) (bytes : ℕ) (q : CurbReq) : Kept s0 (curbAsk n0 k bytes q s) := by
  unfold curbAsk
  repeat' first
    | with_reducible first
        | assumption | apply measAdd_kept | apply curbAdmit_kept | apply modCurb_kept | apply ite_kept
        | apply foldl_kept | fail_if_no_progress (apply Kept.mk)
    | split | exact fun k (hk : coreOk k = true) => hk | intro _ | dsimp only | assumption

theorem transferCharge_kept {s0 s : State} (h : Kept s0 s) (k : ℕ) (a : ℕ) (n : ℕ) : Kept s0 (transferCharge k a n s) := by
  unfold transferCharge
  repeat' first
    | with_reducible first
        | assumption | apply forEach_kept | apply curbCharge_kept | apply ite_kept | apply foldl_kept
        | fail_if_no_progress (apply Kept.mk)
    | split | exact fun k (hk : coreOk k = true) => hk | intro _ | dsimp only | assumption

theorem transferCount_kept {s0 s : State} (h : Kept s0 s) (n0 k a n : Nat) : Kept s0 (transferCount n0 k a n s) := by
  unfold transferCount
  apply forEach_kept h
  intro i t ht
  dsimp only
  split
  · exact measAdd_kept ht _ _ _ _
  · exact ht

theorem agCommit_kept {s0 s : State} (h : Kept s0 s) (e : ℕ) (a : ℕ) (n : ℕ) : Kept s0 (agCommit e a n s) := by
  unfold agCommit
  repeat' first
    | with_reducible first
        | assumption | apply progress_kept | apply modAg_kept | apply ite_kept | apply foldl_kept
        | fail_if_no_progress (apply Kept.mk)
    | split | exact fun k (hk : coreOk k = true) => hk | intro _ | dsimp only | assumption

theorem modFiring_kept {s0 s : State} (h : Kept s0 s) (e : ℕ) (f : Firing → Firing) : Kept s0 (modFiring e f s) := by
  unfold modFiring
  repeat' first
    | with_reducible first
        | assumption | apply modEng_kept | apply ite_kept | apply foldl_kept | fail_if_no_progress (apply Kept.mk)
    | split | exact fun k (hk : coreOk k = true) => hk | intro _ | dsimp only | assumption

theorem resloadLand_kept {s0 s : State} (h : Kept s0 s) (e : ℕ) (h : HeldTile) (off : ℕ) (bs : List Byte) : Kept s0 (resloadLand e h off bs s) := by
  unfold resloadLand
  repeat' first
    | with_reducible first
        | assumption | apply agCommit_kept | apply modEng_kept | apply ite_kept | apply foldl_kept
        | fail_if_no_progress (apply Kept.mk)
    | split | exact fun k (hk : coreOk k = true) => hk | intro _ | dsimp only | assumption

theorem resloadMiss_kept {s0 s : State} (h : Kept s0 s) (e : ℕ) (page : ℕ) (addr : ℕ) : Kept s0 (resloadMiss e page addr s) := by
  unfold resloadMiss
  repeat' first
    | with_reducible first
        | assumption | apply event_kept | apply modMgmt_kept | apply modAg_kept | apply modFiring_kept
        | apply ite_kept | apply foldl_kept | fail_if_no_progress (apply Kept.mk)
    | split | exact fun k (hk : coreOk k = true) => hk | intro _ | dsimp only | assumption

theorem resloadAbandon_kept {s0 s : State} (h : Kept s0 s) (e : ℕ) (x : Firing) (h : HeldTile) (code : ℕ) (detail : List Byte) : Kept s0 (resloadAbandon e x h code detail s) := by
  unfold resloadAbandon
  repeat' first
    | with_reducible first
        | assumption | apply haltCore_kept | apply jobFault_kept | apply abandonFiring_kept | apply ite_kept
        | apply foldl_kept | fail_if_no_progress (apply Kept.mk)
    | split | exact fun k (hk : coreOk k = true) => hk | intro _ | dsimp only | assumption

theorem resloadIssue_kept {s0 s : State} (hs : Kept s0 s) (e : Nat) (h : HeldTile) (fuel : Nat) :
    Kept s0 (resloadIssue e h fuel s) := by
  induction fuel generalizing s with
  | zero => exact hs
  | succ n ih =>
    unfold resloadIssue
    dsimp only
    split
    · exact hs
    split
    · exact hs
    have hc := fun d a => mapConsult_kept hs d a
    split
    · exact resloadMiss_kept (hc _ _) _ _ _
    · split
      · exact resloadAbandon_kept (hc _ _) _ _ _ _ _
      · exact hc _ _
    · split
      · exact ih (curbAsk_kept (modFiring_kept (hc _ _) _ _) _ _ _ _)
      · exact ih (modFiring_kept (resloadLand_kept (hc _ _) _ _ _ _) _ _)

theorem resloadRun_kept {s0 s : State} (hs : Kept s0 s) (e : Nat) (h : HeldTile) : Kept s0 (resloadRun e h s) := by
  have hi := resloadIssue_kept hs e h (h.len / 64 + 1)
  unfold resloadRun
  dsimp only
  split
  · exact hi
  split
  · exact tileDone_kept hi _ _
  · exact hi

theorem tileWork_kept {s0 s : State} (hs : Kept s0 s) (e : Nat) (x : Firing) (h : HeldTile) : Kept s0 (tileWork e x h s) := by
  unfold tileWork
  split
  · exact resloadRun_kept hs _ _
  split
  · exact tileDone_kept hs _ _
  · exact tileDone_kept (tileRunList_kept hs _ _ _ _ _ _) _ _

theorem modRunAt_kept {s0 s : State} (h : Kept s0 s) (e : ℕ) (a : ℕ) (i : ℕ) (f : Run → Run) : Kept s0 (modRunAt e a i f s) := by
  unfold modRunAt
  repeat' first
    | with_reducible first
        | assumption | apply modAg_kept | apply ite_kept | apply foldl_kept | fail_if_no_progress (apply Kept.mk)
    | split | exact fun k (hk : coreOk k = true) => hk | intro _ | dsimp only | assumption

theorem beginPre_kept {s0 s : State} (h : Kept s0 s) (e : ℕ) (a : AgNo) : Kept s0 (beginPre e a s) := by
  unfold beginPre
  repeat' first
    | with_reducible first
        | assumption | apply modCore_kept | apply modAg_kept | apply ite_kept | apply foldl_kept
        | fail_if_no_progress (apply Kept.mk)
    | split | exact fun k (hk : coreOk k = true) => hk | intro _ | dsimp only | assumption

theorem streamRun_kept {s0 s t : State} {n : Nat} (h : Kept s0 s) {e : Nat} {a : AgNo} {post : Bool}
    (hr : streamRun e a post s = some (t, n)) : Kept s0 t := by
  unfold streamRun at hr
  have hb : Kept s0 (if post then s else beginPre e a s) := by
    split
    · exact h
    · exact beginPre_kept h _ _
  generalize (if post then s else beginPre e a s) = q at hr hb
  split at hr
  · cases hr
  · dsimp only at hr
    split at hr
    · cases hr
    · split at hr
      · cases hr
      · cases hr
        exact hb

theorem streamStep_kept {s0 s : State} (h : Kept s0 s) (e : Nat) (a : AgNo) (post : Bool) (act : Nat → State → State)
    (hact : ∀ i t, Kept s0 t → Kept s0 (act i t)) : Kept s0 (streamStep e a post act s) := by
  unfold streamStep
  split
  · exact h
  · rename_i t i hr
    exact hact i t (streamRun_kept h hr)

theorem streamRefuse_kept {s0 s : State} (h : Kept s0 s) (e : ℕ) (a : AgNo) (i : ℕ) (code : ℕ) (detail : List Byte) : Kept s0 (streamRefuse e a i code detail s) := by
  unfold streamRefuse
  repeat' first
    | with_reducible first
        | assumption | apply modAg_kept | apply haltCore_kept | apply jobFault_kept | apply ite_kept
        | apply foldl_kept | fail_if_no_progress (apply Kept.mk)
    | split | exact fun k (hk : coreOk k = true) => hk | intro _ | dsimp only | assumption

theorem runNext_kept {s0 s : State} (h : Kept s0 s) (e : ℕ) (a : ℕ) (i : ℕ) : Kept s0 (runNext e a i s) := by
  unfold runNext
  repeat' first
    | with_reducible first
        | assumption | apply modRunAt_kept | apply ite_kept | apply foldl_kept
        | fail_if_no_progress (apply Kept.mk)
    | split | exact fun k (hk : coreOk k = true) => hk | intro _ | dsimp only | assumption

theorem streamMiss_kept {s0 s : State} (h : Kept s0 s) (e : ℕ) (a : ℕ) (i : ℕ) (page : ℕ) (addr : ℕ) : Kept s0 (streamMiss e a i page addr s) := by
  unfold streamMiss
  repeat' first
    | with_reducible first
        | assumption | apply event_kept | apply modMgmt_kept | apply modAg_kept | apply ite_kept | apply foldl_kept
        | fail_if_no_progress (apply Kept.mk)
    | split | exact fun k (hk : coreOk k = true) => hk | intro _ | dsimp only | assumption

theorem loadIssue_kept {s0 s : State} (h : Kept s0 s) (e : Nat) (a : AgNo) (f : StreamF) (fuel i : Nat) :
    Kept s0 (loadIssue e a f fuel i s) := by
  induction fuel generalizing s i with
  | zero => exact h
  | succ n ih =>
    unfold loadIssue
    dsimp only
    split
    · exact runNext_kept h _ _ _
    split
    · exact h
    split
    · exact h
    have hc := fun d a => mapConsult_kept h d a
    split
    · exact streamMiss_kept (hc _ _) _ _ _ _ _
    · exact streamRefuse_kept (hc _ _) _ _ _ _ _
    · apply ih
      split
      · exact curbAsk_kept (modRunAt_kept (hc _ _) _ _ _ _) _ _ _ _
      · exact modRunAt_kept (hc _ _) _ _ _ _

theorem storeIssue_kept {s0 s : State} (h : Kept s0 s) (e : Nat) (a : AgNo) (f : StreamF) (fuel i : Nat) :
    Kept s0 (storeIssue e a f fuel i s) := by
  induction fuel generalizing s i with
  | zero => exact h
  | succ n ih =>
    unfold storeIssue
    dsimp only
    split
    · exact runNext_kept h _ _ _
    split
    · exact h
    have hc := fun d a => mapConsult_kept h d a
    split
    · exact streamMiss_kept (hc _ _) _ _ _ _ _
    · exact streamRefuse_kept (hc _ _) _ _ _ _ _
    · repeat' split
      all_goals
        repeat' with_reducible first
          | exact hc _ _ | apply ih | apply curbAsk_kept | apply agCommit_kept | apply writeBytes_kept | apply modRunAt_kept

theorem recvTake_kept {s0 s : State} (h : Kept s0 s) (e : Nat) (a : AgNo) (f : StreamF) (fuel i : Nat) :
    Kept s0 (recvTake e a f fuel i s) := by
  induction fuel generalizing s i with
  | zero => exact h
  | succ n ih =>
    unfold recvTake
    dsimp only
    split
    · exact runNext_kept h _ _ _
    split
    · exact h
    split
    · exact h
    apply ih
    apply modRunAt_kept
    apply modRin_kept h

theorem lameMixed_kept {s0 s : State} (h : Kept s0 s) (e slot window row first : Nat) :
    Kept s0 (lameMixed e slot window row first s) := by
  unfold lameMixed
  apply forEach_kept h
  intro b t ht
  split
  · split
    · apply modReq_kept
      apply requestFault_kept ht
    · exact ht
  · exact ht

theorem sendOne_kept {s0 s : State} (h : Kept s0 s) (e : ℕ) (a : AgNo) (f : StreamF) (i : ℕ) (j : ℕ) : Kept s0 (sendOne e a f i j s) := by
  unfold sendOne
  repeat' first
    | with_reducible first
        | assumption | apply lameMixed_kept | apply modRunAt_kept | apply rowsFault_kept | apply modRout_kept
        | apply measAdd_kept | apply sendToken_kept | apply ite_kept | apply foldl_kept
        | fail_if_no_progress (apply Kept.mk)
    | split | exact fun k (hk : coreOk k = true) => hk | intro _ | dsimp only | assumption

theorem sendTake_kept {s0 s : State} (h : Kept s0 s) (e : Nat) (a : AgNo) (f : StreamF) (fuel i : Nat) :
    Kept s0 (sendTake e a f fuel i s) := by
  induction fuel generalizing s i with
  | zero => exact h
  | succ n ih =>
    unfold sendTake
    dsimp only
    split
    · exact runNext_kept h _ _ _
    split
    · exact h
    · exact ih (modRunAt_kept (sendOne_kept h _ _ _ _ _) _ _ _ _) _

theorem countRefuse_kept {s0 s : State} (h : Kept s0 s) (e : ℕ) (a : AgNo) (i : ℕ) (x : ℕ × ℕ × ℕ) : Kept s0 (countRefuse e a i x s) := by
  unfold countRefuse
  repeat' first
    | with_reducible first
        | assumption | apply streamRefuse_kept | apply ite_kept | apply foldl_kept
        | fail_if_no_progress (apply Kept.mk)
    | split | exact fun k (hk : coreOk k = true) => hk | intro _ | dsimp only | assumption

theorem preEnd_kept {s0 s : State} (h : Kept s0 s) (e : ℕ) (a : AgNo) (i : ℕ) (post : Bool) : Kept s0 (preEnd e a i post s) := by
  unfold preEnd
  repeat' first
    | with_reducible first
        | assumption | apply runNext_kept | apply modAg_kept | apply ite_kept | apply foldl_kept
        | fail_if_no_progress (apply Kept.mk)
    | split | exact fun k (hk : coreOk k = true) => hk | intro _ | dsimp only | assumption

theorem lostRecords_kept {s0 s : State} (h : Kept s0 s) (r : Run) : Kept s0 (lostRecords r s) := by
  unfold lostRecords
  repeat' first
    | with_reducible first
        | assumption | apply forEach_kept | apply requestFault_kept | apply ite_kept | apply foldl_kept
        | fail_if_no_progress (apply Kept.mk)
    | split | exact fun k (hk : coreOk k = true) => hk | intro _ | dsimp only | assumption

theorem commitData_kept {s0 s : State} (h : Kept s0 s) (r : Run) : Kept s0 (commitData r s) := by
  unfold commitData
  repeat' first
    | with_reducible first
        | assumption | apply forEach_kept | apply writeBytes_kept | apply ite_kept | apply foldl_kept
        | fail_if_no_progress (apply Kept.mk)
    | split | exact fun k (hk : coreOk k = true) => hk | intro _ | dsimp only | assumption

theorem modMisses_kept {s0 s : State} (h : Kept s0 s) (e : ℕ) (a : ℕ) (f : Run → Run) (g : Firing → Firing) : Kept s0 (modMisses e a f g s) := by
  unfold modMisses
  repeat' first
    | with_reducible first
        | assumption | apply modAg_kept | apply modFiring_kept | apply ite_kept | apply foldl_kept
        | fail_if_no_progress (apply Kept.mk)
    | split | exact fun k (hk : coreOk k = true) => hk | intro _ | dsimp only | assumption

theorem execAgResume_kept {s0 s : State} (h : Kept s0 s) (e : EngId) (ag : AgNo) : OutKept s0 (execAgResume e ag s) := by
  unfold execAgResume
  apply outKept_next
  repeat' first
    | with_reducible first
        | assumption | apply modMisses_kept | apply ite_kept | apply foldl_kept
        | fail_if_no_progress (apply Kept.mk)
    | split | exact fun k (hk : coreOk k = true) => hk | intro _ | dsimp only | assumption

theorem writeElem_kept {s0 s : State} (h : Kept s0 s) (k : VecAt) (v : VecF) (x : ℕ × ℕ × ℤ) : Kept s0 (writeElem k v x s) := by
  unfold writeElem
  repeat' first
    | with_reducible first
        | assumption | apply modEng_kept | apply writeSpad_kept | apply ite_kept | apply foldl_kept
        | fail_if_no_progress (apply Kept.mk)
    | split | exact fun k (hk : coreOk k = true) => hk | intro _ | dsimp only | assumption

theorem writeOutAll_kept {s0 s : State} (h : Kept s0 s) (k : VecAt) (v : VecF) (o : VecOut) : Kept s0 (writeOutAll k v o s) := by
  unfold writeOutAll
  repeat' first
    | with_reducible first
        | assumption | apply forEach_kept | apply writeElem_kept | apply writeBytes_kept | apply modMgmt_kept
        | apply ite_kept | apply foldl_kept | fail_if_no_progress (apply Kept.mk)
    | split | exact fun k (hk : coreOk k = true) => hk | intro _ | dsimp only | assumption

theorem vecRefuse_kept {s0 s : State} (h : Kept s0 s) (k : VecAt) (code : ℕ) (more : List Byte) : Kept s0 (vecRefuse k code more s) := by
  unfold vecRefuse
  repeat' first
    | with_reducible first
        | assumption | apply haltCore_kept | apply jobFault_kept | apply abandonFiring_kept | apply ite_kept
        | apply foldl_kept | fail_if_no_progress (apply Kept.mk)
    | split | exact fun k (hk : coreOk k = true) => hk | intro _ | dsimp only | assumption

theorem vecRun_kept {s0 s : State} (h : Kept s0 s) (k : VecAt) (op : VecOp) (v : VecF) : Kept s0 (vecRun k op v s) := by
  unfold vecRun
  repeat' first
    | with_reducible first
        | assumption | apply vecRefuse_kept | apply measAdd_kept | apply firingComplete_kept | apply modEng_kept
        | apply writeOutAll_kept | apply ite_kept | apply foldl_kept | fail_if_no_progress (apply Kept.mk)
    | split | exact fun k (hk : coreOk k = true) => hk | intro _ | dsimp only | assumption

theorem vecStep_kept {s0 s : State} (h : Kept s0 s) (e : EngId) (op : VecOp) (v : VecF) : Kept s0 (vecStep e op v s) := by
  unfold vecStep
  repeat' first
    | with_reducible first
        | assumption | apply vecRun_kept | apply ite_kept | apply foldl_kept | fail_if_no_progress (apply Kept.mk)
    | split | exact fun k (hk : coreOk k = true) => hk | intro _ | dsimp only | assumption

theorem execSftLoad_kept {s0 s : State} (h : Kept s0 s)  : OutKept s0 (execSftLoad s) := by
  unfold execSftLoad
  apply outKept_next
  repeat' first
    | with_reducible first
        | assumption | apply modSft_kept | apply ite_kept | apply foldl_kept | fail_if_no_progress (apply Kept.mk)
    | split | exact fun k (hk : coreOk k = true) => hk | intro _ | dsimp only | assumption

theorem execSftCancel_kept {s0 s : State} (h : Kept s0 s)  : OutKept s0 (execSftCancel s) := by
  unfold execSftCancel
  apply outKept_next
  repeat' first
    | with_reducible first
        | assumption | apply modSft_kept | apply ite_kept | apply foldl_kept | fail_if_no_progress (apply Kept.mk)
    | split | exact fun k (hk : coreOk k = true) => hk | intro _ | dsimp only | assumption

theorem reqStage_kept {s0 s : State} (h : Kept s0 s) (q : CurbReq) (old : ReqStage) (new : ReqStage) : Kept s0 (reqStage q old new s) := by
  unfold reqStage
  repeat' first
    | with_reducible first
        | assumption | apply modFiring_kept | apply modRunAt_kept | apply ite_kept | apply foldl_kept
        | fail_if_no_progress (apply Kept.mk)
    | split | exact fun k (hk : coreOk k = true) => hk | intro _ | dsimp only | assumption

theorem portServe_kept {s0 s : State} (h : Kept s0 s) (q : CurbReq) : Kept s0 (portServe q s) := by
  unfold portServe
  repeat' first
    | with_reducible first
        | assumption | apply reqStage_kept | apply modAg_kept | apply portTouch_kept | apply agCommit_kept
        | apply writeBytes_kept | apply ite_kept | apply foldl_kept | fail_if_no_progress (apply Kept.mk)
    | split | exact fun k (hk : coreOk k = true) => hk | intro _ | dsimp only | assumption

theorem loadLost_kept {s0 s : State} (h : Kept s0 s) (e : ℕ) (a : ℕ) (i : ℕ) (q : Req) (code : ℕ) (detail : List Byte) : Kept s0 (loadLost e a i q code detail s) := by
  unfold loadLost
  repeat' first
    | with_reducible first
        | assumption | apply rowsFault_kept | apply requestFault_kept | apply modRunAt_kept | apply jobFault_kept
        | apply ite_kept | apply foldl_kept | fail_if_no_progress (apply Kept.mk)
    | split | exact fun k (hk : coreOk k = true) => hk | intro _ | dsimp only | assumption

theorem reqEnd_kept {s0 s : State} (h : Kept s0 s) (e : ℕ) (a : ℕ) (i : ℕ) (q : Req) (stage : ReqStage) (bs : List Byte) : Kept s0 (reqEnd e a i q stage bs s) := by
  unfold reqEnd
  repeat' first
    | with_reducible first
        | assumption | apply modRunAt_kept | apply ite_kept | apply foldl_kept
        | fail_if_no_progress (apply Kept.mk)
    | split | exact fun k (hk : coreOk k = true) => hk | intro _ | dsimp only | assumption

theorem chargePage_kept {s0 s : State} (h : Kept s0 s) (k : ℕ) (a : ℕ) (n : ℕ) : Kept s0 (chargePage k a n s) := by
  unfold chargePage
  repeat' first
    | with_reducible first
        | assumption | apply forEach_kept | apply curbCharge_kept | apply ite_kept | apply foldl_kept
        | fail_if_no_progress (apply Kept.mk)
    | split | exact fun k (hk : coreOk k = true) => hk | intro _ | dsimp only | assumption

theorem copyBytes_kept {s0 s : State} (h : Kept s0 s) (src : ℕ) (dst : ℕ) (n : ℕ) : Kept s0 (copyBytes src dst n s) := by
  unfold copyBytes
  repeat' first
    | with_reducible first
        | assumption | apply portTouch_kept | apply writeBytes_kept | apply ite_kept | apply foldl_kept
        | fail_if_no_progress (apply Kept.mk)
    | split | exact fun k (hk : coreOk k = true) => hk | intro _ | dsimp only | assumption

theorem portsZero_kept {s0 s : State} (h : Kept s0 s)  : Kept s0 (portsZero s) := by
  unfold portsZero
  repeat' first
    | with_reducible first
        | assumption | apply forEach_kept | apply moveUnits_kept | apply modPort_kept | apply ite_kept
        | apply foldl_kept | fail_if_no_progress (apply Kept.mk)
    | split | exact fun k (hk : coreOk k = true) => hk | intro _ | dsimp only | assumption

theorem portRestore_kept {s0 s : State} (h : Kept s0 s) (p : ℕ) : Kept s0 (portRestore p s) := by
  unfold portRestore
  repeat' first
    | with_reducible first
        | assumption | apply modMgmt_kept | apply modPort_kept | apply ite_kept | apply foldl_kept
        | fail_if_no_progress (apply Kept.mk)
    | split | exact fun k (hk : coreOk k = true) => hk | intro _ | dsimp only | assumption

theorem aliasRefuse_kept {s0 s : State} (h : Kept s0 s) (w : AtomicWriter) (c : ℕ) (o : ℕ) : Kept s0 (aliasRefuse w c o s) := by
  unfold aliasRefuse
  repeat' first
    | with_reducible first
        | assumption | apply haltCore_kept | apply jobFault_kept | apply modThread_kept | apply modAg_kept
        | apply ite_kept | apply foldl_kept | fail_if_no_progress (apply Kept.mk)
    | split | exact fun k (hk : coreOk k = true) => hk | intro _ | dsimp only | assumption

theorem aliasDone_kept {s0 s : State} (h : Kept s0 s) (w : AtomicWriter) : Kept s0 (aliasDone w s) := by
  unfold aliasDone
  repeat' first
    | with_reducible first
        | assumption | apply modThread_kept | apply agCommit_kept | apply modRunAt_kept | apply ite_kept
        | apply foldl_kept | fail_if_no_progress (apply Kept.mk)
    | split | exact fun k (hk : coreOk k = true) => hk | intro _ | dsimp only | assumption

theorem farPass_kept {s0 s : State} (h : Kept s0 s) (n : ℕ) (region : ℕ) : Kept s0 (farPass n region s) := by
  unfold farPass
  repeat' first
    | with_reducible first
        | assumption | apply modSync_kept | apply ite_kept | apply foldl_kept | fail_if_no_progress (apply Kept.mk)
    | split | exact fun k (hk : coreOk k = true) => hk | intro _ | dsimp only | assumption

theorem coreTest_kept {s0 s : State} (h : Kept s0 s) (c : ℕ) (o : RegionOutcome) : Kept s0 (coreTest c o s) := by
  unfold coreTest
  repeat' first
    | with_reducible first
        | assumption | apply farPass_kept | apply modCore_kept | apply event_kept | apply noteEcc_kept
        | apply ite_kept | apply foldl_kept | fail_if_no_progress (apply Kept.mk)
    | split | exact fun k (hk : coreOk k = true) => hk | intro _ | dsimp only | assumption

theorem ostlerTest_kept {s0 s : State} (h : Kept s0 s) (n : ℕ) (o : RegionOutcome) : Kept s0 (ostlerTest n o s) := by
  unfold ostlerTest
  repeat' first
    | with_reducible first
        | assumption | apply farPass_kept | apply modOstler_kept | apply noteSram_kept | apply event_kept
        | apply ite_kept | apply foldl_kept | fail_if_no_progress (apply Kept.mk)
    | split | exact fun k (hk : coreOk k = true) => hk | intro _ | dsimp only | assumption

theorem coreCorrected_kept {s0 s : State} (h : Kept s0 s) (c : ℕ) (l : List (Fin 256)) : Kept s0 (coreCorrected c l s) := by
  unfold coreCorrected
  repeat' first
    | with_reducible first
        | assumption | apply forEach_kept | apply noteEcc_kept | apply ite_kept | apply foldl_kept
        | fail_if_no_progress (apply Kept.mk)
    | split | exact fun k (hk : coreOk k = true) => hk | intro _ | dsimp only | assumption

theorem ostlerCorrected_kept {s0 s : State} (h : Kept s0 s) (n : ℕ) (l : List (Fin 256)) : Kept s0 (ostlerCorrected n l s) := by
  unfold ostlerCorrected
  repeat' first
    | with_reducible first
        | assumption | apply forEach_kept | apply noteSram_kept | apply ite_kept | apply foldl_kept
        | fail_if_no_progress (apply Kept.mk)
    | split | exact fun k (hk : coreOk k = true) => hk | intro _ | dsimp only | assumption

theorem scrubMove_kept {s0 s : State} (h : Kept s0 s) (p : ℕ) : Kept s0 (scrubMove p s) := by
  unfold scrubMove
  repeat' first
    | with_reducible first
        | assumption | apply modSync_kept | apply ite_kept | apply foldl_kept | fail_if_no_progress (apply Kept.mk)
    | split | exact fun k (hk : coreOk k = true) => hk | intro _ | dsimp only | assumption

theorem scrubSector_kept {s0 s : State} (h : Kept s0 s) (p : ℕ) (x : UnitErr) (a : ℕ) : Kept s0 (scrubSector p x a s) := by
  unfold scrubSector
  repeat' first
    | with_reducible first
        | assumption | apply unitFound_kept | apply event_kept | apply modSync_kept | apply ite_kept
        | apply foldl_kept | fail_if_no_progress (apply Kept.mk)
    | split | exact fun k (hk : coreOk k = true) => hk | intro _ | dsimp only | assumption

theorem ostlerLeave_kept {s0 s : State} (h : Kept s0 s) (n : ℕ) : Kept s0 (ostlerLeave n s) := by
  unfold ostlerLeave
  repeat' first
    | with_reducible first
        | assumption | apply modOstler_kept | apply modDumps_kept | apply measChange_kept | apply event_kept
        | apply chipStop_kept | apply ite_kept | apply foldl_kept | fail_if_no_progress (apply Kept.mk)
    | split | exact fun k (hk : coreOk k = true) => hk | intro _ | dsimp only | assumption

theorem ostlerRetire_kept {s0 s : State} (h : Kept s0 s) (n : ℕ) : Kept s0 (ostlerRetire n s) := by
  unfold ostlerRetire
  repeat' first
    | with_reducible first
        | assumption | apply ostlerLeave_kept | apply ite_kept | apply foldl_kept
        | fail_if_no_progress (apply Kept.mk)
    | split | exact fun k (hk : coreOk k = true) => hk | intro _ | dsimp only | assumption

theorem ostlersRetire_kept {s0 s : State} (h : Kept s0 s)  : Kept s0 (ostlersRetire s) := by
  unfold ostlersRetire
  repeat' first
    | with_reducible first
        | assumption | apply forEach_kept | apply ostlerRetire_kept | apply ite_kept | apply foldl_kept
        | fail_if_no_progress (apply Kept.mk)
    | split | exact fun k (hk : coreOk k = true) => hk | intro _ | dsimp only | assumption

theorem modHst_kept {s0 s : State} (h : Kept s0 s) (h : ℕ) (i : ℕ) (f : HldState → HldState) : Kept s0 (modHst h i f s) := by
  unfold modHst
  repeat' first
    | with_reducible first
        | assumption | apply modHitch_kept | apply ite_kept | apply foldl_kept
        | fail_if_no_progress (apply Kept.mk)
    | split | exact fun k (hk : coreOk k = true) => hk | intro _ | dsimp only | assumption

theorem modExp_kept {s0 s : State} (h : Kept s0 s) (h : ℕ) (i : ℕ) (f : ExpSide → ExpSide) : Kept s0 (modExp h i f s) := by
  unfold modExp
  repeat' first
    | with_reducible first
        | assumption | apply modHitch_kept | apply ite_kept | apply foldl_kept
        | fail_if_no_progress (apply Kept.mk)
    | split | exact fun k (hk : coreOk k = true) => hk | intro _ | dsimp only | assumption

theorem hitchConsult_kept {s0 s : State} (h : Kept s0 s) (h : ℕ) (l : List (Bool × ℕ × ℕ)) : Kept s0 (hitchConsult h l s) := by
  unfold hitchConsult
  repeat' first
    | with_reducible first
        | assumption | apply forEach_kept | apply mapConsult_kept | apply ite_kept | apply foldl_kept
        | fail_if_no_progress (apply Kept.mk)
    | split | exact fun k (hk : coreOk k = true) => hk | intro _ | dsimp only | assumption

theorem hitchMiss_kept {s0 s : State} (h : Kept s0 s) (h : ℕ) (i : ℕ) (page : ℕ) (a : ℕ) : Kept s0 (hitchMiss h i page a s) := by
  unfold hitchMiss
  repeat' first
    | with_reducible first
        | assumption | apply event_kept | apply modMgmt_kept | apply modHst_kept | apply ite_kept
        | apply foldl_kept | fail_if_no_progress (apply Kept.mk)
    | split | exact fun k (hk : coreOk k = true) => hk | intro _ | dsimp only | assumption

theorem hitchReach_kept {s0 s : State} (h : Kept s0 s) (h : ℕ) (i : ℕ) (l : List (Bool × ℕ × ℕ)) (hole : State → State) (go : State → State) (hhole : ∀ t, Kept s0 t → Kept s0 (hole  t)) (hgo : ∀ t, Kept s0 t → Kept s0 (go  t)) : Kept s0 (hitchReach h i l hole go s) := by
  unfold hitchReach
  repeat' first
    | with_reducible first
        | assumption | apply hitchConsult_kept | apply hitchMiss_kept | apply jobFault_kept | apply modHst_kept
        | apply hhole | apply hgo | apply ite_kept | apply foldl_kept | fail_if_no_progress (apply Kept.mk)
    | split | exact fun k (hk : coreOk k = true) => hk | intro _ | dsimp only | assumption

theorem hitchBytes_kept {s0 s : State} (h : Kept s0 s) (n0 : ℕ) (a : ℕ) (n : ℕ) : Kept s0 (hitchBytes n0 a n s) := by
  unfold hitchBytes
  repeat' first
    | with_reducible first
        | assumption | apply transferCount_kept | apply portTouch_kept | apply transferCharge_kept | apply ite_kept
        | apply foldl_kept | fail_if_no_progress (apply Kept.mk)
    | split | exact fun k (hk : coreOk k = true) => hk | intro _ | dsimp only | assumption

theorem hitchAdd_kept {s0 s : State} (h : Kept s0 s) (n : ℕ) : Kept s0 (hitchAdd n s) := by
  unfold hitchAdd
  repeat' first
    | with_reducible first
        | assumption | apply counterPut_kept | apply ite_kept | apply foldl_kept
        | fail_if_no_progress (apply Kept.mk)
    | split | exact fun k (hk : coreOk k = true) => hk | intro _ | dsimp only | assumption

theorem hitchFlush_kept {s0 s : State} (hs : Kept s0 s) (h : Nat) : Kept s0 (hitchFlush h s) := by
  unfold hitchFlush
  dsimp only
  apply modHitch_kept
  apply pairFold_kept _ _ hs
  intro y m hy
  split
  · exact hy
  · apply segmentsOut_kept
    · exact modHitch_kept hy _ _
    · intro r t ht
      exact lostJob_kept ht _ _

theorem hitchSend_kept {s0 s : State} (h : Kept s0 s) (h : ℕ) (n0 : ℕ) (chip : ℕ) (peer : ℕ) (m : HitchMsg) : Kept s0 (hitchSend h n0 chip peer m s) := by
  unfold hitchSend
  repeat' first
    | with_reducible first
        | assumption | apply hitchFlush_kept | apply modHitch_kept | apply ite_kept | apply foldl_kept
        | fail_if_no_progress (apply Kept.mk)
    | split | exact fun k (hk : coreOk k = true) => hk | intro _ | dsimp only | assumption

theorem hitchFree_kept {s0 s : State} (h : Kept s0 s) (h : ℕ) (m : HitchMsg) : Kept s0 (hitchFree h m s) := by
  unfold hitchFree
  repeat' first
    | with_reducible first
        | assumption | apply packetOut_kept | apply lostJob_kept | apply ite_kept | apply foldl_kept
        | fail_if_no_progress (apply Kept.mk)
    | split | exact fun k (hk : coreOk k = true) => hk | intro _ | dsimp only | assumption

theorem hitchStale_kept {s0 s : State} (h : Kept s0 s) (h : ℕ) (m : HitchMsg) : Kept s0 (hitchStale h m s) := by
  unfold hitchStale
  repeat' first
    | with_reducible first
        | assumption | apply hitchFree_kept | apply modHitch_kept | apply ite_kept | apply foldl_kept
        | fail_if_no_progress (apply Kept.mk)
    | split | exact fun k (hk : coreOk k = true) => hk | intro _ | dsimp only | assumption

theorem combineRow_kept {s0 s : State} (h : Kept s0 s) (d : Hld) (ep : BitVec 3) (i : ℕ) (r : HRow) : Kept s0 (combineRow d ep i r s) := by
  unfold combineRow
  repeat' first
    | with_reducible first
        | assumption | apply modMgmt_kept | apply writeBytes_kept | apply ite_kept | apply foldl_kept
        | fail_if_no_progress (apply Kept.mk)
    | split | exact fun k (hk : coreOk k = true) => hk | intro _ | dsimp only | assumption

theorem combineLaunch_kept {s0 s : State} (h : Kept s0 s) (h : ℕ) (i : ℕ) : Kept s0 (combineLaunch h i s) := by
  unfold combineLaunch
  repeat' first
    | with_reducible first
        | assumption | apply hitchBytes_kept | apply forEach_kept | apply combineRow_kept | apply hitchAdd_kept
        | apply modHst_kept | apply ite_kept | apply foldl_kept | fail_if_no_progress (apply Kept.mk)
    | split | exact fun k (hk : coreOk k = true) => hk | intro _ | dsimp only | assumption

theorem gatherDone_kept {s0 s : State} (h : Kept s0 s) (h : ℕ) (i : ℕ) : Kept s0 (gatherDone h i s) := by
  unfold gatherDone
  repeat' first
    | with_reducible first
        | assumption | apply hitchReach_kept | apply modHst_kept | apply combineLaunch_kept | apply ite_kept
        | apply foldl_kept | fail_if_no_progress (apply Kept.mk)
    | split | exact fun k (hk : coreOk k = true) => hk | intro _ | dsimp only | assumption

theorem hitchResume_kept {s0 s : State} (h : Kept s0 s)  : Kept s0 (hitchResume s) := by
  unfold hitchResume
  repeat' first
    | with_reducible first
        | assumption | apply forEach_kept | apply gatherDone_kept | apply ite_kept | apply foldl_kept
        | fail_if_no_progress (apply Kept.mk)
    | split | exact fun k (hk : coreOk k = true) => hk | intro _ | dsimp only | assumption

theorem dispatchTake_kept {s0 s : State} (hs : Kept s0 s) (h : Nat) (m : HitchHdr) (tag : BitVec 16) (slots : List (Nat × Nat))
    (row : List Byte) : Kept s0 (dispatchTake h m tag slots row s) := by
  unfold dispatchTake
  apply forEach_kept hs
  intro p t ht
  exact modExp_kept (writeByte_kept (writeBytes_kept (writeBytes_kept ht _ _) _ _) _ _) _ _ _

theorem markerAt_kept {s0 s : State} (h : Kept s0 s) (h : ℕ) (m : HitchHdr) : Kept s0 (markerAt h m s) := by
  unfold markerAt
  repeat' first
    | with_reducible first
        | assumption | apply modExp_kept | apply forEach_kept | apply hitchAdd_kept | apply writeBytes_kept
        | apply ite_kept | apply foldl_kept | fail_if_no_progress (apply Kept.mk)
    | split | exact fun k (hk : coreOk k = true) => hk | intro _ | dsimp only | assumption

theorem markerTake_kept {s0 s : State} (h : Kept s0 s) (h : ℕ) (m : HitchHdr) : Kept s0 (markerTake h m s) := by
  unfold markerTake
  repeat' first
    | with_reducible first
        | assumption | apply forEach_kept | apply markerAt_kept | apply ite_kept | apply foldl_kept
        | fail_if_no_progress (apply Kept.mk)
    | split | exact fun k (hk : coreOk k = true) => hk | intro _ | dsimp only | assumption

theorem dispatchRow_kept {s0 s : State} (h : Kept s0 s) (h : ℕ) (k : ℕ) (batch : ℕ) (d : Hld) (i : ℕ) (r : HRow) : Kept s0 (dispatchRow h k batch d i r s) := by
  unfold dispatchRow
  repeat' first
    | with_reducible first
        | assumption | apply hitchBytes_kept | apply forEach_kept | apply dispatchTake_kept | apply hitchSend_kept
        | apply ite_kept | apply foldl_kept | fail_if_no_progress (apply Kept.mk)
    | split | exact fun k (hk : coreOk k = true) => hk | intro _ | dsimp only | assumption

theorem sendMarkers_kept {s0 s : State} (h : Kept s0 s) (h : ℕ) (k : ℕ) (batch : ℕ) (d : Hld) : Kept s0 (sendMarkers h k batch d s) := by
  unfold sendMarkers
  repeat' first
    | with_reducible first
        | assumption | apply forEach_kept | apply markerTake_kept | apply hitchSend_kept | apply ite_kept
        | apply foldl_kept | fail_if_no_progress (apply Kept.mk)
    | split | exact fun k (hk : coreOk k = true) => hk | intro _ | dsimp only | assumption

theorem launchCount_kept {s0 s : State} (h : Kept s0 s) (h : ℕ) (k : ℕ) : Kept s0 (launchCount h k s) := by
  unfold launchCount
  repeat' first
    | with_reducible first
        | assumption | apply modHitch_kept | apply modHst_kept | apply ite_kept | apply foldl_kept
        | fail_if_no_progress (apply Kept.mk)
    | split | exact fun k (hk : coreOk k = true) => hk | intro _ | dsimp only | assumption

theorem launchRefuse_kept {s0 s : State} (h : Kept s0 s) (h : ℕ) (k : ℕ) (m : ℕ) (area : ℕ) : Kept s0 (launchRefuse h k m area s) := by
  unfold launchRefuse
  repeat' first
    | with_reducible first
        | assumption | apply jobFault_kept | apply modHst_kept | apply launchCount_kept | apply ite_kept
        | apply foldl_kept | fail_if_no_progress (apply Kept.mk)
    | split | exact fun k (hk : coreOk k = true) => hk | intro _ | dsimp only | assumption

theorem launchRun_kept {s0 s : State} (h : Kept s0 s) (h : ℕ) (k : ℕ) (m : ℕ) : Kept s0 (launchRun h k m s) := by
  unfold launchRun
  repeat' first
    | with_reducible first
        | assumption | apply launchCount_kept | apply modMgmt_kept | apply hitchBytes_kept | apply modHitch_kept
        | apply modHst_kept | apply forEach_kept | apply dispatchRow_kept | apply gatherDone_kept
        | apply sendMarkers_kept | apply ite_kept | apply foldl_kept | fail_if_no_progress (apply Kept.mk)
    | split | exact fun k (hk : coreOk k = true) => hk | intro _ | dsimp only | assumption

theorem launchHole_kept {s0 s : State} (h : Kept s0 s) (h : ℕ) (k : ℕ) : Kept s0 (launchHole h k s) := by
  unfold launchHole
  repeat' first
    | with_reducible first
        | assumption | apply modHst_kept | apply launchCount_kept | apply ite_kept | apply foldl_kept
        | fail_if_no_progress (apply Kept.mk)
    | split | exact fun k (hk : coreOk k = true) => hk | intro _ | dsimp only | assumption

theorem launchSized_kept {s0 s : State} (h : Kept s0 s) (h : ℕ) (k : ℕ) : Kept s0 (launchSized h k s) := by
  unfold launchSized
  repeat' first
    | with_reducible first
        | assumption | apply launchRefuse_kept | apply hitchReach_kept | apply launchHole_kept
        | apply launchRun_kept | apply ite_kept | apply foldl_kept | fail_if_no_progress (apply Kept.mk)
    | split | exact fun k (hk : coreOk k = true) => hk | intro _ | dsimp only | assumption

theorem launchOpen_kept {s0 s : State} (h : Kept s0 s) (h : ℕ) (k : ℕ) : Kept s0 (launchOpen h k s) := by
  unfold launchOpen
  repeat' first
    | with_reducible first
        | assumption | apply launchRefuse_kept | apply hitchReach_kept | apply launchHole_kept
        | apply launchSized_kept | apply ite_kept | apply foldl_kept | fail_if_no_progress (apply Kept.mk)
    | split | exact fun k (hk : coreOk k = true) => hk | intro _ | dsimp only | assumption

theorem hitchArrive_kept {s0 s : State} (h : Kept s0 s) (h : ℕ) (m : HitchMsg) (ep : BitVec 3) (take : State → State) (htake : ∀ t, Kept s0 t → Kept s0 (take  t)) : Kept s0 (hitchArrive h m ep take s) := by
  unfold hitchArrive
  repeat' first
    | with_reducible first
        | assumption | apply modMgmt_kept | apply hitchFree_kept | apply hitchStale_kept | apply htake
        | apply ite_kept | apply foldl_kept | fail_if_no_progress (apply Kept.mk)
    | split | exact fun k (hk : coreOk k = true) => hk | intro _ | dsimp only | assumption

theorem returnCancelled_kept {s0 s : State} (h : Kept s0 s) (h : ℕ) (msg : HitchMsg) : Kept s0 (returnCancelled h msg s) := by
  unfold returnCancelled
  repeat' first
    | with_reducible first
        | assumption | apply hitchFree_kept | apply modHitch_kept | apply ite_kept | apply foldl_kept
        | fail_if_no_progress (apply Kept.mk)
    | split | exact fun k (hk : coreOk k = true) => hk | intro _ | dsimp only | assumption

theorem returnLand_kept {s0 s : State} (h : Kept s0 s) (h : ℕ) (i : ℕ) (token : ℕ) (c : ℕ) (tag : BitVec 16) (row : List Byte) : Kept s0 (returnLand h i token c tag row s) := by
  unfold returnLand
  repeat' first
    | with_reducible first
        | assumption | apply hitchBytes_kept | apply writeBytes_kept | apply modHst_kept | apply ite_kept
        | apply foldl_kept | fail_if_no_progress (apply Kept.mk)
    | split | exact fun k (hk : coreOk k = true) => hk | intro _ | dsimp only | assumption

theorem returnOpen_kept {s0 s : State} (h : Kept s0 s) (reached : Bool) (h : ℕ) (m : HitchHdr) (expert : ℕ) (tag : BitVec 16) (row : List Byte) : Kept s0 (returnOpen reached h m expert tag row s) := by
  unfold returnOpen
  repeat' first
    | with_reducible first
        | assumption | apply hitchStale_kept | apply hitchFree_kept | apply jobFault_kept
        | apply returnCancelled_kept | apply modHst_kept | apply gatherDone_kept | apply returnLand_kept
        | apply hitchReach_kept | apply ite_kept | apply foldl_kept | fail_if_no_progress (apply Kept.mk)
    | split | exact fun k (hk : coreOk k = true) => hk | intro _ | dsimp only | assumption

theorem returnLate_kept {s0 s : State} (h : Kept s0 s) (h : ℕ) (m : HitchHdr) (expert : ℕ) (tag : BitVec 16) (row : List Byte) : Kept s0 (returnLate h m expert tag row s) := by
  unfold returnLate
  repeat' first
    | with_reducible first
        | assumption | apply returnCancelled_kept | apply modHst_kept | apply hitchStale_kept | apply ite_kept
        | apply foldl_kept | fail_if_no_progress (apply Kept.mk)
    | split | exact fun k (hk : coreOk k = true) => hk | intro _ | dsimp only | assumption

theorem returnTake_kept {s0 s : State} (h : Kept s0 s) (reached : Bool) (h : ℕ) (m : HitchHdr) (expert : ℕ) (tag : BitVec 16) (row : List Byte) : Kept s0 (returnTake reached h m expert tag row s) := by
  unfold returnTake
  repeat' first
    | with_reducible first
        | assumption | apply returnLate_kept | apply returnOpen_kept | apply returnCancelled_kept
        | apply modHst_kept | apply hitchStale_kept | apply ite_kept | apply foldl_kept
        | fail_if_no_progress (apply Kept.mk)
    | split | exact fun k (hk : coreOk k = true) => hk | intro _ | dsimp only | assumption

theorem hitchIn_kept {s0 s : State} (h : Kept s0 s) (h : ℕ) (msg : HitchMsg) : Kept s0 (hitchIn h msg s) := by
  unfold hitchIn
  repeat' first
    | with_reducible first
        | assumption | apply hitchArrive_kept | apply hitchFree_kept | apply dispatchTake_kept
        | apply markerTake_kept | apply returnTake_kept | apply ite_kept | apply foldl_kept
        | fail_if_no_progress (apply Kept.mk)
    | split | exact fun k (hk : coreOk k = true) => hk | intro _ | dsimp only | assumption

theorem returnSend_kept {s0 s : State} (h : Kept s0 s) (h : ℕ) (i : Fin 64) (d : Hld) (e : MapEntry) (expert : ℕ) (f : ExpSlot) : Kept s0 (returnSend h i d e expert f s) := by
  unfold returnSend
  repeat' first
    | with_reducible first
        | assumption | apply returnTake_kept | apply hitchSend_kept | apply ite_kept | apply foldl_kept
        | fail_if_no_progress (apply Kept.mk)
    | split | exact fun k (hk : coreOk k = true) => hk | intro _ | dsimp only | assumption

theorem returnsSend_kept {s0 s : State} (h : Kept s0 s) (h : ℕ) (i : Fin 64) (d : Hld) (expert : ℕ) (n : ℕ) : Kept s0 (returnsSend h i d expert n s) := by
  unfold returnsSend
  repeat' first
    | with_reducible first
        | assumption | apply forEach_kept | apply returnSend_kept | apply modExp_kept | apply ite_kept
        | apply foldl_kept | fail_if_no_progress (apply Kept.mk)
    | split | exact fun k (hk : coreOk k = true) => hk | intro _ | dsimp only | assumption

theorem hitchCredit_kept {s0 s : State} (h : Kept s0 s) (h : ℕ) (chip : ℕ) (peer : ℕ) (credits : ℕ) : Kept s0 (hitchCredit h chip peer credits s) := by
  unfold hitchCredit
  repeat' first
    | with_reducible first
        | assumption | apply modMgmt_kept | apply jobFault_kept | apply modHitch_kept | apply hitchFlush_kept
        | apply ite_kept | apply foldl_kept | fail_if_no_progress (apply Kept.mk)
    | split | exact fun k (hk : coreOk k = true) => hk | intro _ | dsimp only | assumption

theorem launchLate_kept {s0 s : State} (h : Kept s0 s) (h : ℕ) (i : ℕ) : Kept s0 (launchLate h i s) := by
  unfold launchLate
  repeat' first
    | with_reducible first
        | assumption | apply forEach_kept | apply rowsFault_kept | apply requestFault_kept | apply gatherDone_kept
        | apply modHst_kept | apply ite_kept | apply foldl_kept | fail_if_no_progress (apply Kept.mk)
    | split | exact fun k (hk : coreOk k = true) => hk | intro _ | dsimp only | assumption

theorem hitchCancel_kept {s0 s : State} (h : Kept s0 s) (rows : List Nat) : Kept s0 (hitchCancel rows s) := by
  unfold hitchCancel
  apply forEach_kept h
  intro n t ht
  apply forEach_kept ht
  intro i u hu
  split
  · apply gatherDone_kept
    exact modHst_kept hu _ _ _
  · exact hu

theorem hitchTableLost_kept {s0 s : State} (h : Kept s0 s) (h : ℕ) (n : ℕ) : Kept s0 (hitchTableLost h n s) := by
  unfold hitchTableLost
  repeat' first
    | with_reducible first
        | assumption | apply jobFault_kept | apply closeLaunches_kept | apply modHitch_kept | apply ite_kept
        | apply foldl_kept | fail_if_no_progress (apply Kept.mk)
    | split | exact fun k (hk : coreOk k = true) => hk | intro _ | dsimp only | assumption

theorem hitchRowLost_kept {s0 s : State} (h : Kept s0 s) (h : ℕ) (i : ℕ) (r : ℕ) (a : ℕ) (code : ℕ) (detail : List Byte) : Kept s0 (hitchRowLost h i r a code detail s) := by
  unfold hitchRowLost
  repeat' first
    | with_reducible first
        | assumption | apply rowsFault_kept | apply requestFault_kept | apply modHst_kept | apply ite_kept
        | apply foldl_kept | fail_if_no_progress (apply Kept.mk)
    | split | exact fun k (hk : coreOk k = true) => hk | intro _ | dsimp only | assumption

theorem remember_kept {s0 s : State} (h : Kept s0 s) (n : ℕ) (tag : ℕ) : Kept s0 (remember n tag s) := by
  unfold remember
  repeat' first
    | with_reducible first
        | assumption | apply modServe_kept | apply ite_kept | apply foldl_kept
        | fail_if_no_progress (apply Kept.mk)
    | split | exact fun k (hk : coreOk k = true) => hk | intro _ | dsimp only | assumption

theorem lastFault_kept {s0 s : State} (h : Kept s0 s) (n : ℕ) (code : ℕ) : Kept s0 (lastFault n code s) := by
  unfold lastFault
  repeat' first
    | with_reducible first
        | assumption | apply modSess_kept | apply ite_kept | apply foldl_kept | fail_if_no_progress (apply Kept.mk)
    | split | exact fun k (hk : coreOk k = true) => hk | intro _ | dsimp only | assumption

theorem decideOn_kept {s0 s : State} (h : Kept s0 s) (ring : ℕ) (c : Completion) : Kept s0 (decideOn ring c s) := by
  unfold decideOn
  repeat' first
    | with_reducible first
        | assumption | apply modHost_kept | apply modRing_kept | apply ite_kept | apply foldl_kept
        | fail_if_no_progress (apply Kept.mk)
    | split | exact fun k (hk : coreOk k = true) => hk | intro _ | dsimp only | assumption

theorem countAdmit_kept {s0 s : State} (h : Kept s0 s) (ring : ℕ) : Kept s0 (countAdmit ring s) := by
  unfold countAdmit
  repeat' first
    | with_reducible first
        | assumption | apply modRing_kept | apply ite_kept | apply foldl_kept | fail_if_no_progress (apply Kept.mk)
    | split | exact fun k (hk : coreOk k = true) => hk | intro _ | dsimp only | assumption

theorem serveCompletion_kept {s0 s : State} (h : Kept s0 s) (q : ServeReq) (sess : ℕ) (kind : ℕ) (code : ℕ) (reason : ℕ) (tokens : ℕ) (acc : ℕ) (len : ℕ) : Kept s0 (serveCompletion q sess kind code reason tokens acc len s) := by
  unfold serveCompletion
  repeat' first
    | with_reducible first
        | assumption | apply decideOn_kept | apply ite_kept | apply foldl_kept
        | fail_if_no_progress (apply Kept.mk)
    | split | exact fun k (hk : coreOk k = true) => hk | intro _ | dsimp only | assumption

theorem serveRefuse_kept {s0 s : State} (h : Kept s0 s) (r : ServeReq) (ends : Bool) (fault : ℕ × List Byte) (last : Bool) : Kept s0 (serveRefuse r ends fault last s) := by
  unfold serveRefuse
  repeat' first
    | with_reducible first
        | assumption | apply requestFault_kept | apply serveCompletion_kept | apply remember_kept
        | apply lastFault_kept | apply ite_kept | apply foldl_kept | fail_if_no_progress (apply Kept.mk)
    | split | exact fun k (hk : coreOk k = true) => hk | intro _ | dsimp only | assumption

theorem weightDone_kept {s0 s : State} (h : Kept s0 s) (w : WeightCmd) (kind : ℕ) (code : ℕ) (bytes : ℕ) : Kept s0 (weightDone w kind code bytes s) := by
  unfold weightDone
  repeat' first
    | with_reducible first
        | assumption | apply decideOn_kept | apply ite_kept | apply foldl_kept
        | fail_if_no_progress (apply Kept.mk)
    | split | exact fun k (hk : coreOk k = true) => hk | intro _ | dsimp only | assumption

theorem weightFault_kept {s0 s : State} (h : Kept s0 s) (w : WeightCmd) (code : ℕ) (detail : List Byte) : Kept s0 (weightFault w code detail s) := by
  unfold weightFault
  repeat' first
    | with_reducible first
        | assumption | apply weightDone_kept | apply requestFault_kept | apply ite_kept | apply foldl_kept
        | fail_if_no_progress (apply Kept.mk)
    | split | exact fun k (hk : coreOk k = true) => hk | intro _ | dsimp only | assumption

theorem weightRefused_kept {s0 s : State} (h : Kept s0 s) (w : WeightCmd) : Kept s0 (weightRefused w s) := by
  unfold weightRefused
  repeat' first
    | with_reducible first
        | assumption | apply takeFree_kept | apply weightFault_kept | apply ite_kept | apply foldl_kept
        | fail_if_no_progress (apply Kept.mk)
    | split | exact fun k (hk : coreOk k = true) => hk | intro _ | dsimp only | assumption

theorem jobCompletion_kept {s0 s : State} (h : Kept s0 s) (j : JobCmd) (kind : ℕ) (code : ℕ) (reason : ℕ) (strides : ℕ) (charged : ℕ) : Kept s0 (jobCompletion j kind code reason strides charged s) := by
  unfold jobCompletion
  repeat' first
    | with_reducible first
        | assumption | apply decideOn_kept | apply ite_kept | apply foldl_kept
        | fail_if_no_progress (apply Kept.mk)
    | split | exact fun k (hk : coreOk k = true) => hk | intro _ | dsimp only | assumption

theorem jobRefuse_kept {s0 s : State} (h : Kept s0 s) (j : JobCmd) (code : ℕ) (detail : List Byte) : Kept s0 (jobRefuse j code detail s) := by
  unfold jobRefuse
  repeat' first
    | with_reducible first
        | assumption | apply jobCompletion_kept | apply requestFault_kept | apply ite_kept | apply foldl_kept
        | fail_if_no_progress (apply Kept.mk)
    | split | exact fun k (hk : coreOk k = true) => hk | intro _ | dsimp only | assumption

theorem refuseEntry_kept {s0 s : State} (h : Kept s0 s) (ring : RingId) (e : BitVec 512) (slot : ℕ) : Kept s0 (refuseEntry ring e slot s) := by
  unfold refuseEntry
  repeat' first
    | with_reducible first
        | assumption | apply decideOn_kept | apply requestFault_kept | apply serveRefuse_kept
        | apply weightRefused_kept | apply jobRefuse_kept | apply ite_kept | apply foldl_kept
        | fail_if_no_progress (apply Kept.mk)
    | split | exact fun k (hk : coreOk k = true) => hk | intro _ | dsimp only | assumption

theorem ringInvalid_kept {s0 s : State} (h : Kept s0 s) (ring : RingId) : Kept s0 (ringInvalid ring s) := by
  unfold ringInvalid
  repeat' first
    | with_reducible first
        | assumption | apply forEach_kept | apply refuseEntry_kept | apply countAdmit_kept | apply ite_kept
        | apply foldl_kept | fail_if_no_progress (apply Kept.mk)
    | split | exact fun k (hk : coreOk k = true) => hk | intro _ | dsimp only | assumption

theorem admitInvalid_kept {s0 s : State} (h : Kept s0 s) : Kept s0 (admitInvalid s) := by
  unfold admitInvalid
  split
  · exact h
  refine forEach_kept h (fun n t ht => ?_)
  split
  · exact ringInvalid_kept ht _
  · exact ht

theorem openNine_kept {s0 s : State} (h : Kept s0 s)  : Kept s0 (openNine s) := by
  unfold openNine
  repeat' first
    | with_reducible first
        | assumption | apply admitInvalid_kept | apply setAct_kept | apply ite_kept | apply foldl_kept
        | fail_if_no_progress (apply Kept.mk)
    | split | exact fun k (hk : coreOk k = true) => hk | intro _ | dsimp only | assumption

theorem admitEntry_kept {s0 s : State} (h : Kept s0 s) (ring : RingId) : Kept s0 (admitEntry ring s) := by
  unfold admitEntry
  repeat' first
    | with_reducible first
        | assumption | apply admitInvalid_kept | apply countAdmit_kept | apply openNine_kept | apply ite_kept
        | apply foldl_kept | fail_if_no_progress (apply Kept.mk)
    | split | exact fun k (hk : coreOk k = true) => hk | intro _ | dsimp only | assumption

theorem snapRing_kept {s0 s : State} (h : Kept s0 s) (n : ℕ) (v : RingView) (left : ℕ) : Kept s0 (snapRing n v left s).1 := by
  unfold snapRing
  repeat' first
    | with_reducible first
        | assumption | apply modRing_kept | apply event_kept | apply emit_kept | apply ite_kept | apply foldl_kept
        | fail_if_no_progress (apply Kept.mk)
    | split | exact fun k (hk : coreOk k = true) => hk | intro _ | dsimp only | assumption

theorem setEn_kept {s0 s : State} (h : Kept s0 s) (n : ℕ) (en : Bool) : Kept s0 (setEn n en s) := by
  unfold setEn
  repeat' first
    | with_reducible first
        | assumption | apply modRing_kept | apply ite_kept | apply foldl_kept | fail_if_no_progress (apply Kept.mk)
    | split | exact fun k (hk : coreOk k = true) => hk | intro _ | dsimp only | assumption

theorem outWrite_kept {s0 s : State} (h : Kept s0 s) (n : ℕ) (addr : ℕ) (toks : List ℕ) : Kept s0 (outWrite n addr toks s).1 := by
  unfold outWrite
  repeat' first
    | with_reducible first
        | assumption | apply emit_kept | apply modHost_kept | apply modRing_kept | apply ite_kept
        | apply foldl_kept | fail_if_no_progress (apply Kept.mk)
    | split | exact fun k (hk : coreOk k = true) => hk | intro _ | dsimp only | assumption

theorem flushOut_kept {s0 s : State} (h : Kept s0 s) (n : ℕ) : Kept s0 (flushOut n s) := by
  unfold flushOut
  repeat' first
    | with_reducible first
        | assumption | apply forEach_kept | apply emit_kept | apply modHost_kept | apply modRing_kept
        | apply ite_kept | apply foldl_kept | fail_if_no_progress (apply Kept.mk)
    | split | exact fun k (hk : coreOk k = true) => hk | intro _ | dsimp only | assumption

theorem etxiaWrite_kept {s0 s : State} (h : Kept s0 s) (a : ℕ) (bs : List Byte) : Kept s0 (etxiaWrite a bs s) := by
  unfold etxiaWrite
  repeat' first
    | with_reducible first
        | assumption | apply writeBytes_kept | apply portTouch_kept | apply transferCharge_kept | apply ite_kept
        | apply foldl_kept | fail_if_no_progress (apply Kept.mk)
    | split | exact fun k (hk : coreOk k = true) => hk | intro _ | dsimp only | assumption

theorem setEntry_kept {s0 s : State} (h : Kept s0 s) (n : ℕ) (p : ℕ) (slot : ℕ) : Kept s0 (setEntry n p slot s) := by
  unfold setEntry
  repeat' first
    | with_reducible first
        | assumption | apply etxiaWrite_kept | apply ite_kept | apply foldl_kept
        | fail_if_no_progress (apply Kept.mk)
    | split | exact fun k (hk : coreOk k = true) => hk | intro _ | dsimp only | assumption

theorem freeSlot_kept {s0 s : State} (h : Kept s0 s) (n : ℕ) (decode : Bool) (wave : ℕ) (a : ℕ) : Kept s0 (freeSlot n decode wave a s) := by
  unfold freeSlot
  repeat' first
    | with_reducible first
        | assumption | apply modServe_kept | apply ite_kept | apply foldl_kept
        | fail_if_no_progress (apply Kept.mk)
    | split | exact fun k (hk : coreOk k = true) => hk | intro _ | dsimp only | assumption

theorem noteWritten_kept {s0 s : State} (h : Kept s0 s) (n : ℕ) (len : ℕ) : Kept s0 (noteWritten n len s) := by
  unfold noteWritten
  repeat' first
    | with_reducible first
        | assumption | apply modServe_kept | apply ite_kept | apply foldl_kept
        | fail_if_no_progress (apply Kept.mk)
    | split | exact fun k (hk : coreOk k = true) => hk | intro _ | dsimp only | assumption

theorem closeSlot_kept {s0 s : State} (h : Kept s0 s) (n : ℕ) (p : ℕ) (a : ℕ) : Kept s0 (closeSlot n p a s) := by
  unfold closeSlot
  repeat' first
    | with_reducible first
        | assumption | apply modServe_kept | apply ite_kept | apply foldl_kept
        | fail_if_no_progress (apply Kept.mk)
    | split | exact fun k (hk : coreOk k = true) => hk | intro _ | dsimp only | assumption

theorem allocSlot_kept {s0 s : State} (h : Kept s0 s) (v : Serving) (tier : ℕ) : Kept s0 (allocSlot v tier s).1 := by
  unfold allocSlot
  repeat' first
    | with_reducible first
        | assumption | apply modServe_kept | apply modTiers_kept | apply ite_kept | apply foldl_kept
        | fail_if_no_progress (apply Kept.mk)
    | split | exact fun k (hk : coreOk k = true) => hk | intro _ | dsimp only | assumption

theorem allocSlots_kept {s0 s : State} (h : Kept s0 s) (v : Serving) (tier n : Nat) (l : List Nat) :
    Kept s0 (allocSlots v tier n l s).1 := by
  induction n generalizing s l with
  | zero => exact h
  | succ n ih =>
    have ha := allocSlot_kept h v tier
    unfold allocSlots
    split
    · rename_i t a hq
      rw [hq] at ha
      exact ih ha _
    · rename_i t c d hq
      rw [hq] at ha
      exact modServe_kept ha _

theorem dropStep_kept {s0 s : State} (h : Kept s0 s) (n : ℕ) (q : Request) : Kept s0 (dropStep n q s) := by
  unfold dropStep
  repeat' first
    | with_reducible first
        | assumption | apply forEach_kept | apply freeSlot_kept | apply setEntry_kept | apply modServe_kept
        | apply ite_kept | apply foldl_kept | fail_if_no_progress (apply Kept.mk)
    | split | exact fun k (hk : coreOk k = true) => hk | intro _ | dsimp only | assumption

theorem sessIdle_kept {s0 s : State} (h : Kept s0 s) (n : ℕ) : Kept s0 (sessIdle n s) := by
  unfold sessIdle
  repeat' first
    | with_reducible first
        | assumption | apply modServe_kept | apply modSess_kept | apply ite_kept | apply foldl_kept
        | fail_if_no_progress (apply Kept.mk)
    | split | exact fun k (hk : coreOk k = true) => hk | intro _ | dsimp only | assumption

theorem startReq_kept {s0 s : State} (h : Kept s0 s) (n : ℕ) (q : Request) : Kept s0 (startReq n q s) := by
  unfold startReq
  repeat' first
    | with_reducible first
        | assumption | apply modServe_kept | apply modSess_kept | apply ite_kept | apply foldl_kept
        | fail_if_no_progress (apply Kept.mk)
    | split | exact fun k (hk : coreOk k = true) => hk | intro _ | dsimp only | assumption

theorem faultDone_kept {s0 s : State} (h : Kept s0 s) (n : ℕ) (q : Request) (code : ℕ) : Kept s0 (faultDone n q code s) := by
  unfold faultDone
  repeat' first
    | with_reducible first
        | assumption | apply remember_kept | apply serveCompletion_kept | apply lastFault_kept | apply ite_kept
        | apply foldl_kept | fail_if_no_progress (apply Kept.mk)
    | split | exact fun k (hk : coreOk k = true) => hk | intro _ | dsimp only | assumption

theorem startNext_kept {s0 s : State} (h : Kept s0 s) (n k : Nat) : Kept s0 (startNext n k s) := by
  induction k generalizing s with
  | zero => exact h
  | succ k ih =>
    unfold startNext
    split
    · exact h
    · dsimp only
      split
      · apply ih
        apply faultDone_kept
        apply requestFault_kept
        exact modServe_kept h _
      · apply startReq_kept
        exact modServe_kept h _

theorem endReq_kept {s0 s : State} (h : Kept s0 s) (n kind code reason : Nat) : Kept s0 (endReq n kind code reason s) := by
  unfold endReq
  split
  · exact h
  · dsimp only
    apply startNext_kept
    apply sessIdle_kept
    apply modSess_kept
    apply remember_kept
    apply serveCompletion_kept
    split
    · exact h
    · exact dropStep_kept h _ _

theorem rejectReq_kept {s0 s : State} (h : Kept s0 s) (r : ServeReq) (x : Reject) : Kept s0 (rejectReq r x s) := by
  unfold rejectReq
  repeat' first
    | with_reducible first
        | assumption | apply serveRefuse_kept | apply ite_kept | apply foldl_kept
        | fail_if_no_progress (apply Kept.mk)
    | split | exact fun k (hk : coreOk k = true) => hk | intro _ | dsimp only | assumption

theorem enqueue_kept {s0 s : State} (h : Kept s0 s) (n : ℕ) (q : Request) : Kept s0 (enqueue n q s) := by
  unfold enqueue
  repeat' first
    | with_reducible first
        | assumption | apply modServe_kept | apply faultDone_kept | apply requestFault_kept | apply startReq_kept
        | apply ite_kept | apply foldl_kept | fail_if_no_progress (apply Kept.mk)
    | split | exact fun k (hk : coreOk k = true) => hk | intro _ | dsimp only | assumption

theorem openEntry_kept {s0 s : State} (h : Kept s0 s) (n : ℕ) (v : Serving) (r : ServeReq) : Kept s0 (openEntry n v r s) := by
  unfold openEntry
  repeat' first
    | with_reducible first
        | assumption | apply zeroFill_kept | apply portTouch_kept | apply transferCharge_kept | apply modServe_kept
        | apply modSess_kept | apply ite_kept | apply foldl_kept | fail_if_no_progress (apply Kept.mk)
    | split | exact fun k (hk : coreOk k = true) => hk | intro _ | dsimp only | assumption

theorem admitEnd_kept {s0 s : State} (h : Kept s0 s) (close : Bool) (r : ServeReq) : Kept s0 (admitEnd close r s) := by
  unfold admitEnd
  repeat' first
    | with_reducible first
        | assumption | apply admitEntry_kept | apply serveRefuse_kept | apply modServe_kept | apply ite_kept
        | apply foldl_kept | fail_if_no_progress (apply Kept.mk)
    | split | exact fun k (hk : coreOk k = true) => hk | intro _ | dsimp only | assumption

theorem dirSet_kept {s0 s : State} (h : Kept s0 s) (id : ℕ) (f : DirEntry → DirEntry) : Kept s0 (dirSet id f s) := by
  unfold dirSet
  repeat' first
    | with_reducible first
        | assumption | apply modWeights_kept | apply ite_kept | apply foldl_kept
        | fail_if_no_progress (apply Kept.mk)
    | split | exact fun k (hk : coreOk k = true) => hk | intro _ | dsimp only | assumption

theorem useAdapter_kept {s0 s : State} (h : Kept s0 s) (v : Serving) (n : ℕ) (k : ℕ) : Kept s0 (useAdapter v n k s) := by
  unfold useAdapter
  repeat' first
    | with_reducible first
        | assumption | apply modTiers_kept | apply dirSet_kept | apply etxiaWrite_kept | apply modWeights_kept
        | apply ite_kept | apply foldl_kept | fail_if_no_progress (apply Kept.mk)
    | split | exact fun k (hk : coreOk k = true) => hk | intro _ | dsimp only | assumption

theorem setRowAdapter_kept {s0 s : State} (h : Kept s0 s) (v : Serving) (slots row k : Nat) :
    Kept s0 (setRowAdapter v slots row k s) := by
  unfold setRowAdapter
  split
  · exact h
  · exact forEach_kept (etxiaWrite_kept h _ _) (fun j t ht => etxiaWrite_kept ht _ _)

theorem fillRow_kept {s0 s : State} (h : Kept s0 s) (v : Serving) (row : ℕ) (pos : ℕ) (node : ℕ) (prefill : Bool) (n : ℕ) (token : ℕ) (mask : ℕ) (aslot : ℕ) (wave : ℕ) : Kept s0 (fillRow v row pos node prefill n token mask aslot wave s) := by
  unfold fillRow
  repeat' first
    | with_reducible first
        | assumption | apply etxiaWrite_kept | apply modServe_kept | apply setRowAdapter_kept | apply ite_kept
        | apply foldl_kept | fail_if_no_progress (apply Kept.mk)
    | split | exact fun k (hk : coreOk k = true) => hk | intro _ | dsimp only | assumption

theorem waveFault_kept {s0 s : State} (h : Kept s0 s) (n : ℕ) (code : ℕ) (detail : List Byte) : Kept s0 (waveFault n code detail s) := by
  unfold waveFault
  repeat' first
    | with_reducible first
        | assumption | apply endReq_kept | apply requestFault_kept | apply ite_kept | apply foldl_kept
        | fail_if_no_progress (apply Kept.mk)
    | split | exact fun k (hk : coreOk k = true) => hk | intro _ | dsimp only | assumption

theorem fillPrefill_kept {s0 s : State} (h : Kept s0 s) (v : Serving) (wave n : Nat) : Kept s0 (fillPrefill v wave n s).1 := by
  unfold fillPrefill
  split
  · exact h
  · dsimp only
    split
    · exact h
    split
    · exact h
    · exact waveFault_kept h _ _ _
    · have ha := fun k => allocSlots_kept h v (sessOf s n).kvTier k []
      split
      · rename_i t x hq
        have hb : Kept s0 t := by
          rw [← (show _ = t from congrArg Prod.fst hq)]
          exact ha _
        exact waveFault_kept hb _ _ _
      · rename_i t x hq
        have hb : Kept s0 t := by
          rw [← (show _ = t from congrArg Prod.fst hq)]
          exact ha _
        dsimp only
        apply modSess_kept
        apply modReq_kept
        apply forEach_kept
        · exact useAdapter_kept hb _ _ _
        · intro p u hu
          apply setEntry_kept
          exact fillRow_kept hu _ _ _ _ _ _ _ _ _ _

theorem fillDecode_kept {s0 s : State} (h : Kept s0 s) (v : Serving) (wave n : Nat) : Kept s0 (fillDecode v wave n s).1 := by
  unfold fillDecode
  split
  · exact h
  · dsimp only
    split
    · exact h
    split
    · exact h
    · exact waveFault_kept h _ _ _
    · have ha := fun k => allocSlots_kept h v (sessOf s n).kvTier k []
      split
      · rename_i t x hq
        have hb : Kept s0 t := by
          rw [← (show _ = t from congrArg Prod.fst hq)]
          exact ha _
        exact waveFault_kept hb _ _ _
      · rename_i t x hq
        have hb : Kept s0 t := by
          rw [← (show _ = t from congrArg Prod.fst hq)]
          exact ha _
        dsimp only
        apply modSess_kept
        apply modReq_kept
        apply forEach_kept
        · exact useAdapter_kept hb _ _ _
        · intro p u hu
          apply setEntry_kept
          exact fillRow_kept hu _ _ _ _ _ _ _ _ _ _

theorem fillAll_kept {s0 s : State} (h : Kept s0 s) {f : Nat → State → State × Bool}
    (hf : ∀ n t, Kept s0 t → Kept s0 (f n t).1) (l : List Nat) : Kept s0 (fillAll f l s) := by
  induction l generalizing s with
  | nil => exact h
  | cons n l ih =>
    unfold fillAll
    dsimp only
    split
    · exact ih (hf n s h)
    · exact hf n s h

theorem stuckNow_kept {s0 s : State} (h : Kept s0 s) (l : List ℕ) : Kept s0 (stuckNow l s) := by
  unfold stuckNow
  repeat' first
    | with_reducible first
        | assumption | apply modServe_kept | apply ite_kept | apply foldl_kept
        | fail_if_no_progress (apply Kept.mk)
    | split | exact fun k (hk : coreOk k = true) => hk | intro _ | dsimp only | assumption

theorem clearRows_kept {s0 s : State} (h : Kept s0 s) (v : Serving) (lo : ℕ) (n : ℕ) : Kept s0 (clearRows v lo n s) := by
  unfold clearRows
  repeat' first
    | with_reducible first
        | assumption | apply forEach_kept | apply setRowAdapter_kept | apply etxiaWrite_kept | apply ite_kept
        | apply foldl_kept | fail_if_no_progress (apply Kept.mk)
    | split | exact fun k (hk : coreOk k = true) => hk | intro _ | dsimp only | assumption

theorem chargeResult_kept {s0 s : State} (h : Kept s0 s) (v : Serving) (r : ℕ) : Kept s0 (chargeResult v r s) := by
  unfold chargeResult
  repeat' first
    | with_reducible first
        | assumption | apply portTouch_kept | apply transferCharge_kept | apply ite_kept | apply foldl_kept
        | fail_if_no_progress (apply Kept.mk)
    | split | exact fun k (hk : coreOk k = true) => hk | intro _ | dsimp only | assumption

theorem stepDone_kept {s0 s : State} (h : Kept s0 s) (n : ℕ) : Kept s0 (stepDone n s) := by
  unfold stepDone
  repeat' first
    | with_reducible first
        | assumption | apply modServe_kept | apply modReq_kept | apply modSess_kept | apply ite_kept
        | apply foldl_kept | fail_if_no_progress (apply Kept.mk)
    | split | exact fun k (hk : coreOk k = true) => hk | intro _ | dsimp only | assumption

theorem emitTokens_kept {s0 s : State} (h : Kept s0 s) (n : ℕ) (toks : List ℕ) : Kept s0 (emitTokens n toks s).1 := by
  unfold emitTokens
  repeat' first
    | with_reducible first
        | assumption | apply modSess_kept | apply modReq_kept | apply outWrite_kept | apply ite_kept
        | apply foldl_kept | fail_if_no_progress (apply Kept.mk)
    | split | exact fun k (hk : coreOk k = true) => hk | intro _ | dsimp only | assumption

theorem afterCommit_kept {s0 s : State} (h : Kept s0 s) (n : ℕ) (v : Serving) (last : Option ℕ) (ended : Bool) (fits : Bool) : Kept s0 (afterCommit n v last ended fits s) := by
  unfold afterCommit
  repeat' first
    | with_reducible first
        | assumption | apply endReq_kept | apply requestFault_kept | apply ite_kept | apply foldl_kept
        | fail_if_no_progress (apply Kept.mk)
    | split | exact fun k (hk : coreOk k = true) => hk | intro _ | dsimp only | assumption

theorem commitStep_kept {s0 s : State} (h : Kept s0 s) (n : ℕ) (v : Serving) (q : Request) : Kept s0 (commitStep n v q s) := by
  unfold commitStep
  repeat' first
    | with_reducible first
        | assumption | apply forEach_kept | apply setEntry_kept | apply freeSlot_kept | apply modSess_kept
        | apply noteWritten_kept | apply modReq_kept | apply stepDone_kept | apply emitTokens_kept
        | apply afterCommit_kept | apply ite_kept | apply foldl_kept | fail_if_no_progress (apply Kept.mk)
    | split | exact fun k (hk : coreOk k = true) => hk | intro _ | dsimp only | assumption

theorem commitChunk_kept {s0 s : State} (h : Kept s0 s) (n : ℕ) (v : Serving) (q : Request) : Kept s0 (commitChunk n v q s) := by
  unfold commitChunk
  repeat' first
    | with_reducible first
        | assumption | apply modSess_kept | apply noteWritten_kept | apply modReq_kept | apply stepDone_kept
        | apply emitTokens_kept | apply afterCommit_kept | apply ite_kept | apply foldl_kept
        | fail_if_no_progress (apply Kept.mk)
    | split | exact fun k (hk : coreOk k = true) => hk | intro _ | dsimp only | assumption

theorem rangeEnd_kept {s0 s : State} (h : Kept s0 s) (n : ℕ) (q : Request) (row : ℕ) (y : ℕ) : Kept s0 (rangeEnd n q row y s) := by
  unfold rangeEnd
  repeat' first
    | with_reducible first
        | assumption | apply endReq_kept | apply requestFault_kept | apply ite_kept | apply foldl_kept
        | fail_if_no_progress (apply Kept.mk)
    | split | exact fun k (hk : coreOk k = true) => hk | intro _ | dsimp only | assumption

theorem faultEnd_kept {s0 s : State} (h : Kept s0 s) (n : ℕ) : Kept s0 (faultEnd n s) := by
  unfold faultEnd
  repeat' first
    | with_reducible first
        | assumption | apply rangeEnd_kept | apply endReq_kept | apply ite_kept | apply foldl_kept
        | fail_if_no_progress (apply Kept.mk)
    | split | exact fun k (hk : coreOk k = true) => hk | intro _ | dsimp only | assumption

theorem lastDone_kept {s0 s : State} (h : Kept s0 s) (n : ℕ) (kind : ℕ) : Kept s0 (lastDone n kind s) := by
  unfold lastDone
  repeat' first
    | with_reducible first
        | assumption | apply modSess_kept | apply ite_kept | apply foldl_kept | fail_if_no_progress (apply Kept.mk)
    | split | exact fun k (hk : coreOk k = true) => hk | intro _ | dsimp only | assumption

theorem cancelQueued_kept {s0 s : State} (h : Kept s0 s) (n : ℕ) (q : Request) : Kept s0 (cancelQueued n q s) := by
  unfold cancelQueued
  repeat' first
    | with_reducible first
        | assumption | apply lastDone_kept | apply remember_kept | apply serveCompletion_kept | apply modServe_kept
        | apply ite_kept | apply foldl_kept | fail_if_no_progress (apply Kept.mk)
    | split | exact fun k (hk : coreOk k = true) => hk | intro _ | dsimp only | assumption

theorem cancelRunning_kept {s0 s : State} (h : Kept s0 s) (n : ℕ) : Kept s0 (cancelRunning n s) := by
  unfold cancelRunning
  repeat' first
    | with_reducible first
        | assumption | apply endReq_kept | apply hitchCancel_kept | apply ite_kept | apply foldl_kept
        | fail_if_no_progress (apply Kept.mk)
    | split | exact fun k (hk : coreOk k = true) => hk | intro _ | dsimp only | assumption

theorem endDone_kept {s0 s : State} (h : Kept s0 s) (n : ℕ) (kind : ℕ) (r : ServeReq) : Kept s0 (endDone n kind r s) := by
  unfold endDone
  repeat' first
    | with_reducible first
        | assumption | apply lastDone_kept | apply serveCompletion_kept | apply ite_kept | apply foldl_kept
        | fail_if_no_progress (apply Kept.mk)
    | split | exact fun k (hk : coreOk k = true) => hk | intro _ | dsimp only | assumption

theorem applyCancel_kept {s0 s : State} (h : Kept s0 s) (r : ServeReq) : Kept s0 (applyCancel r s) := by
  unfold applyCancel
  repeat' first
    | with_reducible first
        | assumption | apply endDone_kept | apply serveCompletion_kept | apply cancelQueued_kept
        | apply cancelRunning_kept | apply ite_kept | apply foldl_kept | fail_if_no_progress (apply Kept.mk)
    | split | exact fun k (hk : coreOk k = true) => hk | intro _ | dsimp only | assumption

theorem applyClose_kept {s0 s : State} (h : Kept s0 s) (r : ServeReq) : Kept s0 (applyClose r s) := by
  unfold applyClose
  repeat' first
    | with_reducible first
        | assumption | apply serveCompletion_kept | apply forEach_kept | apply cancelQueued_kept
        | apply cancelRunning_kept | apply closeSlot_kept | apply setEntry_kept | apply modServe_kept
        | apply modSess_kept | apply ite_kept | apply foldl_kept | fail_if_no_progress (apply Kept.mk)
    | split | exact fun k (hk : coreOk k = true) => hk | intro _ | dsimp only | assumption

theorem jobEnded_kept {s0 s : State} (h : Kept s0 s) (code : ℕ) (detail : List Byte) : Kept s0 (jobEnded code detail s) := by
  unfold jobEnded
  repeat' first
    | with_reducible first
        | assumption | apply requestFault_kept | apply ite_kept | apply foldl_kept
        | fail_if_no_progress (apply Kept.mk)
    | split | exact fun k (hk : coreOk k = true) => hk | intro _ | dsimp only | assumption

theorem endClosing_kept {s0 s : State} (h : Kept s0 s) (code : ℕ) (n : ℕ) : Kept s0 (endClosing code n s) := by
  unfold endClosing
  repeat' first
    | with_reducible first
        | assumption | apply forEach_kept | apply lastFault_kept | apply serveCompletion_kept | apply jobEnded_kept
        | apply modServe_kept | apply modSess_kept | apply setEntry_kept | apply ite_kept | apply foldl_kept
        | fail_if_no_progress (apply Kept.mk)
    | split | exact fun k (hk : coreOk k = true) => hk | intro _ | dsimp only | assumption

theorem endCloseReq_kept {s0 s : State} (h : Kept s0 s) (code : ℕ) (r : ServeReq) : Kept s0 (endCloseReq code r s) := by
  unfold endCloseReq
  repeat' first
    | with_reducible first
        | assumption | apply lastFault_kept | apply serveCompletion_kept | apply jobEnded_kept | apply ite_kept
        | apply foldl_kept | fail_if_no_progress (apply Kept.mk)
    | split | exact fun k (hk : coreOk k = true) => hk | intro _ | dsimp only | assumption

theorem endRequests_kept {s0 s : State} (h : Kept s0 s) (code : ℕ) : Kept s0 (endRequests code s) := by
  unfold endRequests
  repeat' first
    | with_reducible first
        | assumption | apply forEach_kept | apply faultDone_kept | apply jobEnded_kept | apply modServe_kept
        | apply endReq_kept | apply endClosing_kept | apply endCloseReq_kept | apply ite_kept | apply foldl_kept
        | fail_if_no_progress (apply Kept.mk)
    | split | exact fun k (hk : coreOk k = true) => hk | intro _ | dsimp only | assumption

theorem quietTick_kept {s0 s : State} (h : Kept s0 s)  : Kept s0 (quietTick s) := by
  unfold quietTick
  repeat' first
    | with_reducible first
        | assumption | apply modServe_kept | apply ite_kept | apply foldl_kept
        | fail_if_no_progress (apply Kept.mk)
    | split | exact fun k (hk : coreOk k = true) => hk | intro _ | dsimp only | assumption

theorem dirAdd_kept {s0 s : State} (h : Kept s0 s) (objId : ℕ) (tier : ℕ) (die : ℕ) (kind : ℕ) (bytes : ℕ) (modelId : ℕ) (stored : Bool) : Kept s0 (dirAdd objId tier die kind bytes modelId stored s) := by
  unfold dirAdd
  repeat' first
    | with_reducible first
        | assumption | apply modWeights_kept | apply ite_kept | apply foldl_kept
        | fail_if_no_progress (apply Kept.mk)
    | split | exact fun k (hk : coreOk k = true) => hk | intro _ | dsimp only | assumption

theorem dirStored_kept {s0 s : State} (h : Kept s0 s) (id : ℕ) : Kept s0 (dirStored id s) := by
  unfold dirStored
  repeat' first
    | with_reducible first
        | assumption | apply dirSet_kept | apply ite_kept | apply foldl_kept | fail_if_no_progress (apply Kept.mk)
    | split | exact fun k (hk : coreOk k = true) => hk | intro _ | dsimp only | assumption

theorem loadGo_kept {s0 s : State} (h : Kept s0 s) (x : Load) : Kept s0 (loadGo x s) := by
  unfold loadGo
  repeat' first
    | with_reducible first
        | assumption | apply weightRefused_kept | apply modWeights_kept | apply moveUnits_kept
        | apply weightDone_kept | apply dirStored_kept | apply portTouch_kept | apply writeBytes_kept
        | apply ite_kept | apply foldl_kept | fail_if_no_progress (apply Kept.mk)
    | split | exact fun k (hk : coreOk k = true) => hk | intro _ | dsimp only | assumption

theorem loadsGo_kept {s0 s : State} (h : Kept s0 s)  : Kept s0 (loadsGo s) := by
  unfold loadsGo
  repeat' first
    | with_reducible first
        | assumption | apply forEach_kept | apply loadGo_kept | apply modWeights_kept | apply ite_kept
        | apply foldl_kept | fail_if_no_progress (apply Kept.mk)
    | split | exact fun k (hk : coreOk k = true) => hk | intro _ | dsimp only | assumption

theorem setSlot_kept {s0 s : State} (h : Kept s0 s) (k : Fin 2) (c : CacheSlot) : Kept s0 (setSlot k c s) := by
  unfold setSlot
  repeat' first
    | with_reducible first
        | assumption | apply modWeights_kept | apply ite_kept | apply foldl_kept
        | fail_if_no_progress (apply Kept.mk)
    | split | exact fun k (hk : coreOk k = true) => hk | intro _ | dsimp only | assumption

theorem dirRemove_kept {s0 s : State} (h : Kept s0 s) (d : DirEntry) : Kept s0 (dirRemove d s) := by
  unfold dirRemove
  repeat' first
    | with_reducible first
        | assumption | apply poolReleased_kept | apply modTiers_kept | apply modWeights_kept | apply ite_kept
        | apply foldl_kept | fail_if_no_progress (apply Kept.mk)
    | split | exact fun k (hk : coreOk k = true) => hk | intro _ | dsimp only | assumption

theorem setRelay_kept {s0 s : State} (h : Kept s0 s) (k : Fin 2) (r : Option Relay) : Kept s0 (setRelay k r s) := by
  unfold setRelay
  repeat' first
    | with_reducible first
        | assumption | apply modWeights_kept | apply ite_kept | apply foldl_kept
        | fail_if_no_progress (apply Kept.mk)
    | split | exact fun k (hk : coreOk k = true) => hk | intro _ | dsimp only | assumption

theorem relayBegin_kept {s0 s : State} (h : Kept s0 s) (k : Fin 2) (r : Relay) : Kept s0 (relayBegin k r s) := by
  unfold relayBegin
  repeat' first
    | with_reducible first
        | assumption | apply setRelay_kept | apply dirAdd_kept | apply ite_kept | apply foldl_kept
        | fail_if_no_progress (apply Kept.mk)
    | split | exact fun k (hk : coreOk k = true) => hk | intro _ | dsimp only | assumption

theorem relayNote_kept {s0 s : State} (h : Kept s0 s) (chip : ℕ) (slot : Fin 2) (kind : NoteKind) (chunk : ℕ) : Kept s0 (relayNote chip slot kind chunk s) := by
  unfold relayNote
  repeat' first
    | with_reducible first
        | assumption | apply packetOut_kept | apply linkDiscard_kept | apply ite_kept | apply foldl_kept
        | fail_if_no_progress (apply Kept.mk)
    | split | exact fun k (hk : coreOk k = true) => hk | intro _ | dsimp only | assumption

theorem relayCut_kept {s0 s : State} (h : Kept s0 s) (slot : Fin 2) : Kept s0 (relayCut slot s) := by
  unfold relayCut
  repeat' first
    | with_reducible first
        | assumption | apply forEach_kept | apply relayNote_kept | apply setRelay_kept | apply ite_kept
        | apply foldl_kept | fail_if_no_progress (apply Kept.mk)
    | split | exact fun k (hk : coreOk k = true) => hk | intro _ | dsimp only | assumption

theorem relayAskFrom_kept {s0 s : State} (h : Kept s0 s) (slot : Fin 2) (l : List Nat) : Kept s0 (relayAskFrom slot l s) := by
  induction l generalizing s with
  | nil => exact relayCut_kept h _
  | cons i l ih =>
    unfold relayAskFrom
    split
    · exact h
    split
    · exact ih (countUnreach_kept (setRelay_kept h _ _))
    · exact relayNote_kept (setRelay_kept h _ _) _ _ _ _

theorem relayBreak_kept {s0 s : State} (h : Kept s0 s) (slot : Fin 2) (i : ℕ) : Kept s0 (relayBreak slot i s) := by
  unfold relayBreak
  repeat' first
    | with_reducible first
        | assumption | apply relayAskFrom_kept | apply setRelay_kept | apply ite_kept | apply foldl_kept
        | fail_if_no_progress (apply Kept.mk)
    | split | exact fun k (hk : coreOk k = true) => hk | intro _ | dsimp only | assumption

theorem relayForwardOne_kept {s0 s : State} (h : Kept s0 s) (slot : Fin 2) : Kept s0 (relayForwardOne slot s) := by
  unfold relayForwardOne
  repeat' first
    | with_reducible first
        | assumption | apply segmentsOut_kept | apply relayBreak_kept | apply setRelay_kept | apply ite_kept
        | apply foldl_kept | fail_if_no_progress (apply Kept.mk)
    | split | exact fun k (hk : coreOk k = true) => hk | intro _ | dsimp only | assumption

theorem relayForward_kept {s0 s : State} (h : Kept s0 s) (slot : Fin 2) : Kept s0 (relayForward slot s) := by
  unfold relayForward
  repeat' first
    | with_reducible first
        | assumption | apply forEach_kept | apply relayForwardOne_kept | apply ite_kept | apply foldl_kept
        | fail_if_no_progress (apply Kept.mk)
    | split | exact fun k (hk : coreOk k = true) => hk | intro _ | dsimp only | assumption

theorem relayAgain_kept {s0 s : State} (h : Kept s0 s) (slot : Fin 2) (c : ℕ) : Kept s0 (relayAgain slot c s) := by
  unfold relayAgain
  repeat' first
    | with_reducible first
        | assumption | apply segmentsOut_kept | apply relayBreak_kept | apply ite_kept | apply foldl_kept
        | fail_if_no_progress (apply Kept.mk)
    | split | exact fun k (hk : coreOk k = true) => hk | intro _ | dsimp only | assumption

theorem relayAckBack_kept {s0 s : State} (h : Kept s0 s) (slot : Fin 2) (c : ℕ) : Kept s0 (relayAckBack slot c s) := by
  unfold relayAckBack
  repeat' first
    | with_reducible first
        | assumption | apply relayNote_kept | apply setRelay_kept | apply ite_kept | apply foldl_kept
        | fail_if_no_progress (apply Kept.mk)
    | split | exact fun k (hk : coreOk k = true) => hk | intro _ | dsimp only | assumption

theorem relayStore_kept {s0 s : State} (h : Kept s0 s) (r : Relay) (c : ℕ) (data : List Byte) : Kept s0 (relayStore r c data s) := by
  unfold relayStore
  repeat' first
    | with_reducible first
        | assumption | apply portTouch_kept | apply chargePage_kept | apply writeBytes_kept | apply ite_kept
        | apply foldl_kept | fail_if_no_progress (apply Kept.mk)
    | split | exact fun k (hk : coreOk k = true) => hk | intro _ | dsimp only | assumption

theorem relayFail_kept {s0 s : State} (h : Kept s0 s) (slot : Fin 2) (r : Relay) : Kept s0 (relayFail slot r s) := by
  unfold relayFail
  repeat' first
    | with_reducible first
        | assumption | apply modWeights_kept | apply weightFault_kept | apply setRelay_kept | apply ite_kept
        | apply foldl_kept | fail_if_no_progress (apply Kept.mk)
    | split | exact fun k (hk : coreOk k = true) => hk | intro _ | dsimp only | assumption

theorem relayBad_kept {s0 s : State} (h : Kept s0 s) (slot : Fin 2) (r : Relay) (c : ℕ) : Kept s0 (relayBad slot r c s) := by
  unfold relayBad
  repeat' first
    | with_reducible first
        | assumption | apply relayFail_kept | apply relayNote_kept | apply setRelay_kept | apply ite_kept
        | apply foldl_kept | fail_if_no_progress (apply Kept.mk)
    | split | exact fun k (hk : coreOk k = true) => hk | intro _ | dsimp only | assumption

theorem relayStored_kept {s0 s : State} (h : Kept s0 s) (r : Relay) : Kept s0 (relayStored r s) := by
  unfold relayStored
  repeat' first
    | with_reducible first
        | assumption | apply dirStored_kept | apply ite_kept | apply foldl_kept
        | fail_if_no_progress (apply Kept.mk)
    | split | exact fun k (hk : coreOk k = true) => hk | intro _ | dsimp only | assumption

theorem relayGood_kept {s0 s : State} (h : Kept s0 s) (slot : Fin 2) (r : Relay) (c : ℕ) (data : List Byte) : Kept s0 (relayGood slot r c data s) := by
  unfold relayGood
  repeat' first
    | with_reducible first
        | assumption | apply setRelay_kept | apply relayStored_kept | apply relayStore_kept | apply relayNote_kept
        | apply relayForward_kept | apply relayAckBack_kept | apply ite_kept | apply foldl_kept
        | fail_if_no_progress (apply Kept.mk)
    | split | exact fun k (hk : coreOk k = true) => hk | intro _ | dsimp only | assumption

theorem relayIntro_kept {s0 s : State} (h : Kept s0 s) (slot : Fin 2) (x : RelayIntro) : Kept s0 (relayIntro slot x s) := by
  unfold relayIntro
  repeat' first
    | with_reducible first
        | assumption | apply relayBegin_kept | apply segmentsOut_kept | apply relayBreak_kept | apply ite_kept
        | apply foldl_kept | fail_if_no_progress (apply Kept.mk)
    | split | exact fun k (hk : coreOk k = true) => hk | intro _ | dsimp only | assumption

theorem relayChunk_kept {s0 s : State} (h : Kept s0 s) (slot : Fin 2) (intro : Option RelayIntro) (c : ℕ) (crc : Option (BitVec 32)) (data : List Byte) : Kept s0 (relayChunk slot intro c crc data s) := by
  unfold relayChunk
  repeat' first
    | with_reducible first
        | assumption | apply relayIntro_kept | apply relayBad_kept | apply relayGood_kept | apply ite_kept
        | apply foldl_kept | fail_if_no_progress (apply Kept.mk)
    | split | exact fun k (hk : coreOk k = true) => hk | intro _ | dsimp only | assumption

theorem relayThere_kept {s0 s : State} (h : Kept s0 s) (slot : Fin 2) (acked : Bool) (c : ℕ) : Kept s0 (relayThere slot acked c s) := by
  unfold relayThere
  repeat' first
    | with_reducible first
        | assumption | apply relayForward_kept | apply relayAckBack_kept | apply setRelay_kept | apply ite_kept
        | apply foldl_kept | fail_if_no_progress (apply Kept.mk)
    | split | exact fun k (hk : coreOk k = true) => hk | intro _ | dsimp only | assumption

theorem relayAnswered_kept {s0 s : State} (h : Kept s0 s) (slot : Fin 2) (i : ℕ) (n : ℕ) : Kept s0 (relayAnswered slot i n s) := by
  unfold relayAnswered
  repeat' first
    | with_reducible first
        | assumption | apply relayAskFrom_kept | apply setRelay_kept | apply relayForward_kept | apply forEach_kept
        | apply relayAckBack_kept | apply ite_kept | apply foldl_kept | fail_if_no_progress (apply Kept.mk)
    | split | exact fun k (hk : coreOk k = true) => hk | intro _ | dsimp only | assumption

theorem relayNoted_kept {s0 s : State} (h : Kept s0 s) (slot : Fin 2) (kind : NoteKind) (src : ℕ) (c : ℕ) : Kept s0 (relayNoted slot kind src c s) := by
  unfold relayNoted
  repeat' first
    | with_reducible first
        | assumption | apply relayNote_kept | apply relayAnswered_kept | apply relayThere_kept
        | apply relayAgain_kept | apply relayBreak_kept | apply ite_kept | apply foldl_kept
        | fail_if_no_progress (apply Kept.mk)
    | split | exact fun k (hk : coreOk k = true) => hk | intro _ | dsimp only | assumption

theorem epochAdvance_kept {s0 s : State} (h : Kept s0 s)  : Kept s0 (epochAdvance s) := by
  unfold epochAdvance
  repeat' first
    | with_reducible first
        | assumption | apply forEach_kept | apply modCore_kept | apply modJob_kept | apply ite_kept
        | apply foldl_kept | fail_if_no_progress (apply Kept.mk)
    | split | exact fun k (hk : coreOk k = true) => hk | intro _ | dsimp only | assumption

theorem coreLeaves_kept {s0 s : State} (h : Kept s0 s) (c : ℕ) : Kept s0 (coreLeaves c s) := by
  unfold coreLeaves
  repeat' first
    | with_reducible first
        | assumption | apply modCore_kept | apply event_kept | apply ite_kept | apply foldl_kept
        | fail_if_no_progress (apply Kept.mk)
    | split | exact fun k (hk : coreOk k = true) => hk | intro _ | dsimp only | assumption

theorem retireCore_kept {s0 s : State} (h : Kept s0 s) (c : Nat) : Kept s0 (retireCore c s) := by
  unfold retireCore
  dsimp only
  have hb : Kept s0 { s with fuses := { s.fuses with retired := s.fuses.retired ++ [(c / 144, (bindingOf s c).phys)] } } :=
    Kept.burn h (FusesRise.refl s.fuses)
  have hl := coreLeaves_kept (modCore_kept hb c
    (fun k => { k with far := { k.far with retire := false, hold := false, spares := [], region := 0 } }) (fun _ hk => hk)) c
  split
  · exact Kept.mk hl
  · exact Kept.mk hl

theorem recordRows_kept {s0 s : State} (h : Kept s0 s) : Kept s0 (recordRows s) := by
  unfold recordRows
  exact Kept.burn h (FusesRise.refl _)

theorem retireAll_kept {s0 s : State} (h : Kept s0 s)  : Kept s0 (retireAll s) := by
  unfold retireAll
  repeat' first
    | with_reducible first
        | assumption | apply recordRows_kept | apply forEach_kept | apply retireCore_kept | apply ite_kept
        | apply foldl_kept | fail_if_no_progress (apply Kept.mk)
    | split | exact fun k (hk : coreOk k = true) => hk | intro _ | dsimp only | assumption

theorem keepObject_kept {s0 s : State} (h : Kept s0 s) (o : Placed) : Kept s0 (keepObject o s) := by
  unfold keepObject
  repeat' first
    | with_reducible first
        | assumption | apply modTiers_kept | apply modWeights_kept | apply ite_kept | apply foldl_kept
        | fail_if_no_progress (apply Kept.mk)
    | split | exact fun k (hk : coreOk k = true) => hk | intro _ | dsimp only | assumption

theorem releaseObjects_kept {s0 s : State} (h : Kept s0 s)  : Kept s0 (releaseObjects s) := by
  unfold releaseObjects
  repeat' first
    | with_reducible first
        | assumption | apply forEach_kept | apply pageReadDrop_kept | apply modTiers_kept | apply modWeights_kept
        | apply keepObject_kept | apply ite_kept | apply foldl_kept | fail_if_no_progress (apply Kept.mk)
    | split | exact fun k (hk : coreOk k = true) => hk | intro _ | dsimp only | assumption

theorem slotRetire_kept {s0 s : State} (h : Kept s0 s)  : Kept s0 (slotRetire s) := by
  unfold slotRetire
  repeat' first
    | with_reducible first
        | assumption | apply modWeights_kept | apply ite_kept | apply foldl_kept
        | fail_if_no_progress (apply Kept.mk)
    | split | exact fun k (hk : coreOk k = true) => hk | intro _ | dsimp only | assumption

theorem modClient_kept {s0 s : State} (h : Kept s0 s) (n : ℕ) (f : Client → Client) : Kept s0 (modClient n f s) := by
  unfold modClient
  repeat' first
    | with_reducible first
        | assumption | apply modJob_kept | apply ite_kept | apply foldl_kept | fail_if_no_progress (apply Kept.mk)
    | split | exact fun k (hk : coreOk k = true) => hk | intro _ | dsimp only | assumption

theorem quietCores_kept {s0 s : State} (h : Kept s0 s) : Kept s0 (quietCores s) := by
  refine Kept.cores h (f := fun _ k => { k with threads := smap {} (fun _ h => { h with en := false, wait := .none }) k.threads
                                                snaps := [], seen := [], claim := false }) (fun _ k hk => ?_) rfl rfl rfl rfl
  simp only [coreOk, Bool.and_eq_true] at hk ⊢
  exact ⟨hk.1, scanon_smap _ hk.2⟩

theorem domainAlone_kept {s0 s : State} (h : Kept s0 s)  : Kept s0 (domainAlone s) := by
  unfold domainAlone
  repeat' first
    | with_reducible first
        | assumption | apply modStride_kept | apply ite_kept | apply foldl_kept
        | fail_if_no_progress (apply Kept.mk)
    | split | exact fun k (hk : coreOk k = true) => hk | intro _ | dsimp only | assumption

theorem jobOver_kept {s0 s : State} (h : Kept s0 s)  : Kept s0 (jobOver s) := by
  unfold jobOver
  repeat' first
    | with_reducible first
        | assumption | apply endRequests_kept | apply jobCompletion_kept | apply modClient_kept
        | apply retireAll_kept | apply slotRetire_kept | apply releaseObjects_kept | apply quietCores_kept
        | apply measChange_kept | apply domainAlone_kept | apply modJob_kept | apply ite_kept | apply foldl_kept
        | fail_if_no_progress (apply Kept.mk)
    | split | exact fun k (hk : coreOk k = true) => hk | intro _ | dsimp only | assumption

theorem linkWriteOff_kept {s0 s : State} (h : Kept s0 s) : Kept s0 (linkWriteOff s) := by
  unfold linkWriteOff
  split
  · exact h
  apply Kept.mk
  refine forEach_kept h (fun e t ht => ?_)
  exact forEach_kept (earlyEmpty_kept ht _) (fun q u hu => queueFree_kept hu _ _ _)

theorem stopEngine_kept {s0 s : State} (h : Kept s0 s) (e : ℕ) : Kept s0 (stopEngine e s) := by
  unfold stopEngine
  repeat' first
    | with_reducible first
        | assumption | apply forEach_kept | apply queueFree_kept | apply earlyEmpty_kept | apply modRout_kept
        | apply modEng_kept | apply ite_kept | apply foldl_kept | fail_if_no_progress (apply Kept.mk)
    | split | exact fun k (hk : coreOk k = true) => hk | intro _ | dsimp only | assumption

theorem requestChangeover_kept {s0 s : State} (h : Kept s0 s) (tenant : BitVec 16) : Kept s0 (requestChangeover tenant s) := by
  unfold requestChangeover
  repeat' first
    | with_reducible first
        | assumption | apply forEach_kept | apply jobRefuse_kept | apply modJob_kept | apply modRun_kept
        | apply ite_kept | apply foldl_kept | fail_if_no_progress (apply Kept.mk)
    | split | exact fun k (hk : coreOk k = true) => hk | intro _ | dsimp only | assumption

theorem tenantWrite_kept {s0 s : State} (h : Kept s0 s) (value : BitVec 16) : Kept s0 (tenantWrite value s) := by
  unfold tenantWrite
  repeat' first
    | with_reducible first
        | assumption | apply modMgmt_kept | apply requestFault_kept | apply requestChangeover_kept | apply ite_kept
        | apply foldl_kept | fail_if_no_progress (apply Kept.mk)
    | split | exact fun k (hk : coreOk k = true) => hk | intro _ | dsimp only | assumption

theorem raiseUsed_kept {s0 s : State} (h : Kept s0 s)  : Kept s0 (raiseUsed s) := by
  unfold raiseUsed
  repeat' first
    | with_reducible first
        | assumption | apply forEach_kept | apply modJob_kept | apply ite_kept | apply foldl_kept
        | fail_if_no_progress (apply Kept.mk)
    | split | exact fun k (hk : coreOk k = true) => hk | intro _ | dsimp only | assumption

theorem endRunning_kept {s0 s : State} (h : Kept s0 s)  : Kept s0 (endRunning s) := by
  unfold endRunning
  repeat' first
    | with_reducible first
        | assumption | apply modRun_kept | apply ite_kept | apply foldl_kept | fail_if_no_progress (apply Kept.mk)
    | split | exact fun k (hk : coreOk k = true) => hk | intro _ | dsimp only | assumption

theorem chooseNow_kept {s0 s : State} (h : Kept s0 s) (j : Option JobCmd) : Kept s0 (chooseNow j s) := by
  unfold chooseNow
  repeat' first
    | with_reducible first
        | assumption | apply modJob_kept | apply ite_kept | apply foldl_kept | fail_if_no_progress (apply Kept.mk)
    | split | exact fun k (hk : coreOk k = true) => hk | intro _ | dsimp only | assumption

theorem announceJob_kept {s0 s : State} (h : Kept s0 s) (id : ℕ) : Kept s0 (announceJob id s) := by
  unfold announceJob
  repeat' first
    | with_reducible first
        | assumption | apply modRun_kept | apply modStride_kept | apply ite_kept | apply foldl_kept
        | fail_if_no_progress (apply Kept.mk)
    | split | exact fun k (hk : coreOk k = true) => hk | intro _ | dsimp only | assumption

theorem choose_kept {s0 s : State} (h : Kept s0 s) (j : Option JobCmd) : Kept s0 (choose j s) := by
  unfold choose
  repeat' first
    | with_reducible first
        | assumption | apply endRunning_kept | apply announceJob_kept | apply chooseNow_kept | apply ite_kept
        | apply foldl_kept | fail_if_no_progress (apply Kept.mk)
    | split | exact fun k (hk : coreOk k = true) => hk | intro _ | dsimp only | assumption

theorem renew_kept {s0 s : State} (h : Kept s0 s)  : Kept s0 (renew s) := by
  unfold renew
  repeat' first
    | with_reducible first
        | assumption | apply modRun_kept | apply ite_kept | apply foldl_kept | fail_if_no_progress (apply Kept.mk)
    | split | exact fun k (hk : coreOk k = true) => hk | intro _ | dsimp only | assumption

theorem selectGroup_kept {s0 s : State} (h : Kept s0 s) (r : Running) : Kept s0 (selectGroup r s) := by
  unfold selectGroup
  repeat' first
    | with_reducible first
        | assumption | apply endRunning_kept | apply openNine_kept | apply announceJob_kept | apply raiseUsed_kept
        | apply ite_kept | apply foldl_kept | fail_if_no_progress (apply Kept.mk)
    | split | exact fun k (hk : coreOk k = true) => hk | intro _ | dsimp only | assumption

theorem selectJob_selectOne_kept {s0 s : State} (h : Kept s0 s) : Kept s0 (selectJob.selectOne s) := by
  unfold selectJob.selectOne
  split
  · exact endRunning_kept h
  · exact renew_kept h
  · exact choose_kept h _

theorem selectJob_kept {s0 s : State} (h : Kept s0 s) : Kept s0 (selectJob s) := by
  unfold selectJob
  split
  · exact h
  split
  · split
    · exact selectGroup_kept h _
    · exact selectJob_selectOne_kept (raiseUsed_kept (openNine_kept h))
  · exact selectJob_selectOne_kept (raiseUsed_kept (openNine_kept h))



theorem markerChoice_kept {s0 s : State} (h : Kept s0 s)  : Kept s0 (markerChoice s) := by
  unfold markerChoice
  repeat' first
    | with_reducible first
        | assumption | apply renew_kept | apply openNine_kept | apply chooseNow_kept | apply endRunning_kept
        | apply ite_kept | apply foldl_kept | fail_if_no_progress (apply Kept.mk)
    | split | exact fun k (hk : coreOk k = true) => hk | intro _ | dsimp only | assumption

theorem loadEngine_kept {s0 s : State} (h : Kept s0 s) (x : EngineCfg) : Kept s0 (loadEngine x s) := by
  unfold loadEngine
  repeat' first
    | with_reducible first
        | assumption | apply modEng_kept | apply ite_kept | apply foldl_kept | fail_if_no_progress (apply Kept.mk)
    | split | exact fun k (hk : coreOk k = true) => hk | intro _ | dsimp only | assumption

theorem clearEngines_kept {s0 s : State} (h : Kept s0 s)  : Kept s0 (clearEngines s) := by
  unfold clearEngines
  repeat' first
    | with_reducible first
        | assumption | apply ite_kept | apply foldl_kept | fail_if_no_progress (apply Kept.mk)
    | split | exact fun k (hk : coreOk k = true) => hk | intro _ | dsimp only | assumption

theorem loadReins_kept {s0 s : State} (h : Kept s0 s) (k : Tack) : Kept s0 (loadReins k s) := by
  unfold loadReins
  repeat' first
    | with_reducible first
        | assumption | apply ite_kept | apply foldl_kept | fail_if_no_progress (apply Kept.mk)
    | split | exact fun k (hk : coreOk k = true) => hk | intro _ | dsimp only | assumption

theorem loadSync_kept {s0 s : State} (h : Kept s0 s) (k : Tack) : Kept s0 (loadSync k s) := by
  unfold loadSync
  repeat' first
    | with_reducible first
        | assumption | apply modSync_kept | apply ite_kept | apply foldl_kept | fail_if_no_progress (apply Kept.mk)
    | split | exact fun k (hk : coreOk k = true) => hk | intro _ | dsimp only | assumption

theorem loadHitch_kept {s0 s : State} (h : Kept s0 s) (k : Tack) (chips : ℕ) : Kept s0 (loadHitch k chips s) := by
  unfold loadHitch
  repeat' first
    | with_reducible first
        | assumption | apply forEach_kept | apply modHitch_kept | apply ite_kept | apply foldl_kept
        | fail_if_no_progress (apply Kept.mk)
    | split | exact fun k (hk : coreOk k = true) => hk | intro _ | dsimp only | assumption

theorem clearCurbs_kept {s0 s : State} (h : Kept s0 s)  : Kept s0 (clearCurbs s) := by
  unfold clearCurbs
  repeat' first
    | with_reducible first
        | assumption | apply modTiers_kept | apply ite_kept | apply foldl_kept
        | fail_if_no_progress (apply Kept.mk)
    | split | exact fun k (hk : coreOk k = true) => hk | intro _ | dsimp only | assumption

theorem loadRoutes_kept {s0 s : State} (h : Kept s0 s) (k : Tack) (g : List ℕ) : Kept s0 (loadRoutes k g s) := by
  unfold loadRoutes
  repeat' first
    | with_reducible first
        | assumption | apply modLinks_kept | apply ite_kept | apply foldl_kept
        | fail_if_no_progress (apply Kept.mk)
    | split | exact fun k (hk : coreOk k = true) => hk | intro _ | dsimp only | assumption

theorem clearCores_kept {s0 s : State} (h : Kept s0 s) : Kept s0 (clearCores s) := by
  unfold clearCores
  apply forEach_kept
  · exact Kept.cores h (f := fun _ c => ({ retCount := c.retCount, spad := c.spad, svc := c.svc
                                           loaded := c.svc, far := c.far, dbgHalt := c.dbgHalt } : Core)) (fun _ k hk => rfl) rfl rfl rfl rfl
  · intro c t ht
    exact event_kept ht _ _

theorem loadObjects_kept {s0 s : State} (h : Kept s0 s) (k : Tack) : Kept s0 (loadObjects k s) := by
  unfold loadObjects
  repeat' first
    | with_reducible first
        | assumption | apply modTiers_kept | apply forEach_kept | apply dirSet_kept | apply ite_kept
        | apply foldl_kept | fail_if_no_progress (apply Kept.mk)
    | split | exact fun k (hk : coreOk k = true) => hk | intro _ | dsimp only | assumption

theorem installControl_kept {s0 s : State} (h : Kept s0 s) (k : Tack) (g : List ℕ) : Kept s0 (installControl k g s) := by
  unfold installControl
  repeat' first
    | with_reducible first
        | assumption | apply loadObjects_kept | apply loadRoutes_kept | apply clearCores_kept
        | apply clearCurbs_kept | apply loadHitch_kept | apply loadSync_kept | apply loadReins_kept
        | apply forEach_kept | apply loadEngine_kept | apply clearEngines_kept | apply earlyJoin_kept
        | apply ite_kept | apply foldl_kept | fail_if_no_progress (apply Kept.mk)
    | split | exact fun k (hk : coreOk k = true) => hk | intro _ | dsimp only | assumption

theorem installRefused_kept {s0 s : State} (h : Kept s0 s) (j : JobCmd) (x : ℕ × List Byte) : Kept s0 (installRefused j x s) := by
  unfold installRefused
  repeat' first
    | with_reducible first
        | assumption | apply record_kept | apply jobCompletion_kept | apply modJob_kept | apply modClient_kept
        | apply ite_kept | apply foldl_kept | fail_if_no_progress (apply Kept.mk)
    | split | exact fun k (hk : coreOk k = true) => hk | intro _ | dsimp only | assumption

theorem slotActivate_kept {s0 s : State} (h : Kept s0 s) (n : Fin 2) : Kept s0 (slotActivate n s) := by
  unfold slotActivate
  repeat' first
    | with_reducible first
        | assumption | apply slotRetire_kept | apply setSlot_kept | apply ite_kept | apply foldl_kept
        | fail_if_no_progress (apply Kept.mk)
    | split | exact fun k (hk : coreOk k = true) => hk | intro _ | dsimp only | assumption

theorem installBegin_kept {s0 s : State} (h : Kept s0 s) (j : JobCmd) (k : Tack) (n : Fin 2) : Kept s0 (installBegin j k n s) := by
  unfold installBegin
  repeat' first
    | with_reducible first
        | assumption | apply epochAdvance_kept | apply slotActivate_kept | apply modClient_kept | apply modJob_kept
        | apply modMgmt_kept | apply modStride_kept | apply measChange_kept | apply modSec_kept
        | apply installControl_kept | apply ite_kept | apply foldl_kept | fail_if_no_progress (apply Kept.mk)
    | split | exact fun k (hk : coreOk k = true) => hk | intro _ | dsimp only | assumption

theorem learnGroup_kept {s0 s : State} (h : Kept s0 s) (v : GroupView) (k : Tack) : Kept s0 (learnGroup v k s) := by
  unfold learnGroup
  repeat' first
    | with_reducible first
        | assumption | apply modSync_kept | apply modJob_kept | apply modLinks_kept | apply setAct_kept
        | apply ite_kept | apply foldl_kept | fail_if_no_progress (apply Kept.mk)
    | split | exact fun k (hk : coreOk k = true) => hk | intro _ | dsimp only | assumption

theorem zeroObject_kept {s0 s : State} (h : Kept s0 s) (o : Placed) : Kept s0 (zeroObject o s) := by
  unfold zeroObject
  repeat' first
    | with_reducible first
        | assumption | apply chargePage_kept | apply portTouch_kept | apply zeroFill_kept | apply ite_kept
        | apply foldl_kept | fail_if_no_progress (apply Kept.mk)
    | split | exact fun k (hk : coreOk k = true) => hk | intro _ | dsimp only | assumption

theorem installImage_kept {s0 s : State} (h : Kept s0 s) (k : Tack) : Kept s0 (installImage k s) := by
  unfold installImage
  repeat' first
    | with_reducible first
        | assumption | apply forEach_kept | apply curbCharge_kept | apply zeroBytes_kept | apply writeSpad_kept
        | apply zeroObject_kept | apply ite_kept | apply foldl_kept | fail_if_no_progress (apply Kept.mk)
    | split | exact fun k (hk : coreOk k = true) => hk | intro _ | dsimp only | assumption

theorem installLower_kept {s0 s : State} (h : Kept s0 s)  : Kept s0 (installLower s) := by
  unfold installLower
  repeat' first
    | with_reducible first
        | assumption | apply forEach_kept | apply zeroObject_kept | apply chargePage_kept | apply copyBytes_kept
        | apply ite_kept | apply foldl_kept | fail_if_no_progress (apply Kept.mk)
    | split | exact fun k (hk : coreOk k = true) => hk | intro _ | dsimp only | assumption

theorem readyBudgets_kept {s0 s : State} (h : Kept s0 s) (k : Tack) : Kept s0 (readyBudgets k s) := by
  unfold readyBudgets
  repeat' first
    | with_reducible first
        | assumption | apply modTiers_kept | apply ite_kept | apply foldl_kept
        | fail_if_no_progress (apply Kept.mk)
    | split | exact fun k (hk : coreOk k = true) => hk | intro _ | dsimp only | assumption

theorem entryPcs_kept {s0 s : State} (h : Kept s0 s) (x : CoreImage) : Kept s0 (entryPcs x s) := by
  unfold entryPcs
  repeat' first
    | with_reducible first
        | assumption | apply forEach_kept | apply modThread_kept | apply ite_kept | apply foldl_kept
        | fail_if_no_progress (apply Kept.mk)
    | split | exact fun k (hk : coreOk k = true) => hk | intro _ | dsimp only | assumption

theorem armAdapters_kept {s0 s : State} (h : Kept s0 s) (k : Tack) : Kept s0 (armAdapters k s) := by
  unfold armAdapters
  repeat' first
    | with_reducible first
        | assumption | apply zeroFill_kept | apply portTouch_kept | apply transferCharge_kept | apply ite_kept
        | apply foldl_kept | fail_if_no_progress (apply Kept.mk)
    | split | exact fun k (hk : coreOk k = true) => hk | intro _ | dsimp only | assumption

theorem installArm_kept {s0 s : State} (h : Kept s0 s) (k : Tack) : Kept s0 (installArm k s) := by
  unfold installArm
  dsimp only
  apply readyBudgets_kept
  apply armAdapters_kept
  refine Kept.cores (f := fun _ c => { c with snaps := if c.sreg.isEmpty then [] else [(0, some c.sreg)] })
    (forEach_kept (forEach_kept h ?_) ?_) (fun _ k hk => hk) rfl rfl rfl rfl
  · intro c t ht
    apply entryPcs_kept
    apply forEach_kept ht
    intro r u hu
    exact setSreg_kept hu _ _ _
  · intro c t ht
    apply forEach_kept ht
    intro o u hu
    exact setSreg_kept hu _ _ _

theorem phaseWork_kept {s0 s : State} (h : Kept s0 s) (phase : ℕ) (k : Tack) : Kept s0 (phaseWork phase k s) := by
  unfold phaseWork
  repeat' first
    | with_reducible first
        | assumption | apply installImage_kept | apply installLower_kept | apply installArm_kept | apply ite_kept
        | apply foldl_kept | fail_if_no_progress (apply Kept.mk)
    | split | exact fun k (hk : coreOk k = true) => hk | intro _ | dsimp only | assumption

theorem tellStaged_kept {s0 s : State} (h : Kept s0 s) (t : Tack) : Kept s0 (tellStaged t s) := by
  unfold tellStaged
  repeat' first
    | with_reducible first
        | assumption | apply sendStride_kept | apply ite_kept | apply foldl_kept
        | fail_if_no_progress (apply Kept.mk)
    | split | exact fun k (hk : coreOk k = true) => hk | intro _ | dsimp only | assumption

theorem stageGo_kept {s0 s : State} (h : Kept s0 s) (k : Fin 2) : Kept s0 (stageGo k s) := by
  unfold stageGo
  repeat' first
    | with_reducible first
        | assumption | apply moveUnits_kept | apply setSlot_kept | apply weightFault_kept | apply tellStaged_kept
        | apply weightDone_kept | apply ite_kept | apply foldl_kept | fail_if_no_progress (apply Kept.mk)
    | split | exact fun k (hk : coreOk k = true) => hk | intro _ | dsimp only | assumption

theorem stagesGo_kept {s0 s : State} (h : Kept s0 s)  : Kept s0 (stagesGo s) := by
  unfold stagesGo
  repeat' first
    | with_reducible first
        | assumption | apply stageGo_kept | apply ite_kept | apply foldl_kept | fail_if_no_progress (apply Kept.mk)
    | split | exact fun k (hk : coreOk k = true) => hk | intro _ | dsimp only | assumption

theorem debugShut_kept {s0 s : State} (h : Kept s0 s) : Kept s0 (debugShut s) := by
  unfold debugShut
  split
  · exact h
  · dsimp only
    have hc : Kept s0 { s with cores := smap {} (fun _ k => { k with dbgHalt := false }) s.cores } :=
      Kept.cores h (f := fun _ k => { k with dbgHalt := false }) (fun _ k hk => hk) rfl rfl rfl rfl
    apply ite_kept
    · apply jobFault_kept
      apply measChange_kept
      apply event_kept
      exact modSec_kept hc _
    · apply measChange_kept
      apply event_kept
      exact modSec_kept hc _

theorem chgPhase_kept {s0 s : State} (h : Kept s0 s) (n : ℕ) : Kept s0 (chgPhase n s) := by
  unfold chgPhase
  repeat' first
    | with_reducible first
        | assumption | apply measChange_kept | apply modJob_kept | apply ite_kept | apply foldl_kept
        | fail_if_no_progress (apply Kept.mk)
    | split | exact fun k (hk : coreOk k = true) => hk | intro _ | dsimp only | assumption

theorem changeoverFailed_kept {s0 s : State} (h : Kept s0 s) (op : ℕ) : Kept s0 (changeoverFailed op s) := by
  unfold changeoverFailed
  repeat' first
    | with_reducible first
        | assumption | apply chipStop_kept | apply ite_kept | apply foldl_kept
        | fail_if_no_progress (apply Kept.mk)
    | split | exact fun k (hk : coreOk k = true) => hk | intro _ | dsimp only | assumption

theorem replaceKeys_kept {s0 s : State} (h : Kept s0 s)  : Kept s0 (replaceKeys s) := by
  unfold replaceKeys
  repeat' first
    | with_reducible first
        | assumption | apply modTiers_kept | apply newKey_kept | apply ite_kept | apply foldl_kept
        | fail_if_no_progress (apply Kept.mk)
    | split | exact fun k (hk : coreOk k = true) => hk | intro _ | dsimp only | assumption

theorem clearTenant_kept {s0 s : State} (h : Kept s0 s)  : Kept s0 (clearTenant s) := by
  unfold clearTenant
  repeat' first
    | with_reducible first
        | assumption | apply forEach_kept | apply applyClose_kept | apply applyCancel_kept
        | apply serveCompletion_kept | apply weightRefused_kept | apply modWeights_kept | apply modTiers_kept
        | apply modJob_kept | apply ite_kept | apply foldl_kept | fail_if_no_progress (apply Kept.mk)
    | split | exact fun k (hk : coreOk k = true) => hk | intro _ | dsimp only | assumption

theorem zeroStores_kept {s0 s : State} (h : Kept s0 s) : Kept s0 (zeroStores s) := by
  unfold zeroStores
  apply modSync_kept
  exact Kept.cores (s := zeroBytes 0xF00000000000 0x90000000 s) (zeroBytes_kept h _ _)
    (f := fun _ c => ({ spad := c.spad, svc := c.svc, loaded := c.loaded, far := c.far } : Core))
    (fun _ _ _ => rfl) rfl rfl rfl rfl

theorem defaultBudgets_kept {s0 s : State} (h : Kept s0 s)  : Kept s0 (defaultBudgets s) := by
  unfold defaultBudgets
  repeat' first
    | with_reducible first
        | assumption | apply modTiers_kept | apply ite_kept | apply foldl_kept
        | fail_if_no_progress (apply Kept.mk)
    | split | exact fun k (hk : coreOk k = true) => hk | intro _ | dsimp only | assumption

theorem endTenancy_kept {s0 s : State} (h : Kept s0 s)  : Kept s0 (endTenancy s) := by
  unfold endTenancy
  repeat' first
    | with_reducible first
        | assumption | apply modHost_kept | apply modSec_kept | apply measChange_kept | apply ite_kept
        | apply foldl_kept | fail_if_no_progress (apply Kept.mk)
    | split | exact fun k (hk : coreOk k = true) => hk | intro _ | dsimp only | assumption

theorem changeoverEnd_kept {s0 s : State} (h : Kept s0 s)  : Kept s0 (changeoverEnd s) := by
  unfold changeoverEnd
  repeat' first
    | with_reducible first
        | assumption | apply modJob_kept | apply endTenancy_kept | apply modSync_kept | apply defaultBudgets_kept
        | apply chgPhase_kept | apply measChange_kept | apply modSec_kept | apply ite_kept | apply foldl_kept
        | fail_if_no_progress (apply Kept.mk)
    | split | exact fun k (hk : coreOk k = true) => hk | intro _ | dsimp only | assumption

theorem relayLost_kept {s0 s : State} (h : Kept s0 s) (p : Packet) : Kept s0 (relayLost p s) := by
  unfold relayLost
  repeat' first
    | with_reducible first
        | assumption | apply linkDiscard_kept | apply relayBreak_kept | apply ite_kept | apply foldl_kept
        | fail_if_no_progress (apply Kept.mk)
    | split | exact fun k (hk : coreOk k = true) => hk | intro _ | dsimp only | assumption

theorem unreachAct_kept {s0 s : State} (h : Kept s0 s) (p : Packet) (reason : ℕ) : Kept s0 (unreachAct p reason s) := by
  unfold unreachAct
  repeat' first
    | with_reducible first
        | assumption | apply lostJob_kept | apply syncAgain_kept | apply relayLost_kept | apply linkDiscard_kept
        | apply ite_kept | apply foldl_kept | fail_if_no_progress (apply Kept.mk)
    | split | exact fun k (hk : coreOk k = true) => hk | intro _ | dsimp only | assumption

theorem sendUnreach_kept {s0 s : State} (h : Kept s0 s) (reason : ℕ) (p : Packet) : Kept s0 (sendUnreach reason p s) := by
  unfold sendUnreach
  repeat' first
    | with_reducible first
        | assumption | apply packetOut_kept | apply linkDiscard_kept | apply countUnreach_kept | apply ite_kept
        | apply foldl_kept | fail_if_no_progress (apply Kept.mk)
    | split | exact fun k (hk : coreOk k = true) => hk | intro _ | dsimp only | assumption

theorem packetLost_kept {s0 s : State} (h : Kept s0 s) (reason : ℕ) (p : Packet) : Kept s0 (packetLost reason p s) := by
  unfold packetLost
  repeat' first
    | with_reducible first
        | assumption | apply linkDiscard_kept | apply unreachAct_kept | apply countUnreach_kept
        | apply sendUnreach_kept | apply ite_kept | apply foldl_kept | fail_if_no_progress (apply Kept.mk)
    | split | exact fun k (hk : coreOk k = true) => hk | intro _ | dsimp only | assumption

theorem tellLinkDown_kept {s0 s : State} (h : Kept s0 s) (l : ℕ) : Kept s0 (tellLinkDown l s) := by
  unfold tellLinkDown
  repeat' first
    | with_reducible first
        | assumption | apply modRun_kept | apply modStride_kept | apply sendStride_kept | apply ite_kept
        | apply foldl_kept | fail_if_no_progress (apply Kept.mk)
    | split | exact fun k (hk : coreOk k = true) => hk | intro _ | dsimp only | assumption

theorem linkFalls_kept {s0 s : State} (h : Kept s0 s) (l : ℕ) : Kept s0 (linkFalls l s) := by
  unfold linkFalls
  repeat' first
    | with_reducible first
        | assumption | apply modLinks_kept | apply modLink_kept | apply tellLinkDown_kept | apply forEach_kept
        | apply packetLost_kept | apply ite_kept | apply foldl_kept | fail_if_no_progress (apply Kept.mk)
    | split | exact fun k (hk : coreOk k = true) => hk | intro _ | dsimp only | assumption

theorem linkComesUp_kept {s0 s : State} (h : Kept s0 s) (l : ℕ) (t : LinkTrain) (c : LinkCtl) : Kept s0 (linkComesUp l t c s) := by
  unfold linkComesUp
  repeat' first
    | with_reducible first
        | assumption | apply modLink_kept | apply ite_kept | apply foldl_kept | fail_if_no_progress (apply Kept.mk)
    | split | exact fun k (hk : coreOk k = true) => hk | intro _ | dsimp only | assumption

theorem sendIdent_kept {s0 s : State} (h : Kept s0 s) (l : ℕ) (t : LinkTrain) (c : LinkCtl) : Kept s0 (sendIdent l t c s) := by
  unfold sendIdent
  repeat' first
    | with_reducible first
        | assumption | apply ctlOut_kept | apply ite_kept | apply foldl_kept | fail_if_no_progress (apply Kept.mk)
    | split | exact fun k (hk : coreOk k = true) => hk | intro _ | dsimp only | assumption

theorem linkTrained_kept {s0 s : State} (h : Kept s0 s) (l : ℕ) (t : LinkTrain) : Kept s0 (linkTrained l t s) := by
  unfold linkTrained
  repeat' first
    | with_reducible first
        | assumption | apply sendIdent_kept | apply linkFalls_kept | apply linkComesUp_kept | apply event_kept
        | apply modLink_kept | apply ite_kept | apply foldl_kept | fail_if_no_progress (apply Kept.mk)
    | split | exact fun k (hk : coreOk k = true) => hk | intro _ | dsimp only | assumption

theorem execLinkRetrain_kept {s0 s : State} (h : Kept s0 s) (l : LinkId) : OutKept s0 (execLinkRetrain l s) := by
  unfold execLinkRetrain
  apply outKept_next
  repeat' first
    | with_reducible first
        | assumption | apply modLink_kept | apply ite_kept | apply foldl_kept | fail_if_no_progress (apply Kept.mk)
    | split | exact fun k (hk : coreOk k = true) => hk | intro _ | dsimp only | assumption

theorem laneOut_kept {s0 s : State} (h : Kept s0 s) (l : ℕ) (k : Fin 8) : Kept s0 (laneOut l k s) := by
  unfold laneOut
  repeat' first
    | with_reducible first
        | assumption | apply linkFalls_kept | apply modLink_kept | apply ite_kept | apply foldl_kept
        | fail_if_no_progress (apply Kept.mk)
    | split | exact fun k (hk : coreOk k = true) => hk | intro _ | dsimp only | assumption

theorem laneRemove_kept {s0 s : State} (h : Kept s0 s) (l : ℕ) (k : Fin 8) : Kept s0 (laneRemove l k s) := by
  unfold laneRemove
  repeat' first
    | with_reducible first
        | assumption | apply linkFalls_kept | apply ctlOut_kept | apply laneOut_kept | apply ite_kept
        | apply foldl_kept | fail_if_no_progress (apply Kept.mk)
    | split | exact fun k (hk : coreOk k = true) => hk | intro _ | dsimp only | assumption

theorem laneTurn_kept {s0 s : State} (h : Kept s0 s) (l : ℕ) : Kept s0 (laneTurn l s) := by
  unfold laneTurn
  repeat' first
    | with_reducible first
        | assumption | apply laneRemove_kept | apply modLink_kept | apply ite_kept | apply foldl_kept
        | fail_if_no_progress (apply Kept.mk)
    | split | exact fun k (hk : coreOk k = true) => hk | intro _ | dsimp only | assumption

theorem execLinkRecal_kept {s0 s : State} (h : Kept s0 s) (l : LinkId) : OutKept s0 (execLinkRecal l s) := by
  unfold execLinkRecal
  apply outKept_next
  repeat' first
    | with_reducible first
        | assumption | apply laneTurn_kept | apply ite_kept | apply foldl_kept
        | fail_if_no_progress (apply Kept.mk)
    | split | exact fun k (hk : coreOk k = true) => hk | intro _ | dsimp only | assumption

theorem laneBack_kept {s0 s : State} (h : Kept s0 s) (l : ℕ) (k : Fin 8) : Kept s0 (laneBack l k s) := by
  unfold laneBack
  repeat' first
    | with_reducible first
        | assumption | apply modLink_kept | apply ite_kept | apply foldl_kept | fail_if_no_progress (apply Kept.mk)
    | split | exact fun k (hk : coreOk k = true) => hk | intro _ | dsimp only | assumption

theorem resendAll_kept {s0 s : State} (h : Kept s0 s) (l : ℕ) : Kept s0 (resendAll l s) := by
  unfold resendAll
  repeat' first
    | with_reducible first
        | assumption | apply forEach_kept | apply flitOut_kept | apply ite_kept | apply foldl_kept
        | fail_if_no_progress (apply Kept.mk)
    | split | exact fun k (hk : coreOk k = true) => hk | intro _ | dsimp only | assumption

theorem linkReplay_kept {s0 s : State} (h : Kept s0 s) (l : ℕ) : Kept s0 (linkReplay l s) := by
  unfold linkReplay
  repeat' first
    | with_reducible first
        | assumption | apply linkFalls_kept | apply modLink_kept | apply resendAll_kept | apply ite_kept
        | apply foldl_kept | fail_if_no_progress (apply Kept.mk)
    | split | exact fun k (hk : coreOk k = true) => hk | intro _ | dsimp only | assumption

theorem vcFreed_kept {s0 s : State} (h : Kept s0 s) (l : ℕ) (v : ℕ) (n : ℕ) : Kept s0 (vcFreed l v n s) := by
  unfold vcFreed
  repeat' first
    | with_reducible first
        | assumption | apply ctlOut_kept | apply ite_kept | apply foldl_kept | fail_if_no_progress (apply Kept.mk)
    | split | exact fun k (hk : coreOk k = true) => hk | intro _ | dsimp only | assumption

theorem dataTake_kept {s0 s : State} (h : Kept s0 s) (l : ℕ) (f : Flit) : Kept s0 (dataTake l f s) := by
  unfold dataTake
  repeat' first
    | with_reducible first
        | assumption | apply vcFreed_kept | apply modMgmt_kept | apply modLink_kept | apply idleOut_kept
        | apply ite_kept | apply foldl_kept | fail_if_no_progress (apply Kept.mk)
    | split | exact fun k (hk : coreOk k = true) => hk | intro _ | dsimp only | assumption

theorem nakOut_kept {s0 s : State} (h : Kept s0 s) (l : ℕ) : Kept s0 (nakOut l s) := by
  unfold nakOut
  repeat' first
    | with_reducible first
        | assumption | apply ctlOut_kept | apply ite_kept | apply foldl_kept | fail_if_no_progress (apply Kept.mk)
    | split | exact fun k (hk : coreOk k = true) => hk | intro _ | dsimp only | assumption

theorem linkControl_kept {s0 s : State} (h : Kept s0 s) (l : ℕ) (c : LinkCtl) : Kept s0 (linkControl l c s) := by
  unfold linkControl
  repeat' first
    | with_reducible first
        | assumption | apply linkFalls_kept | apply linkFlush_kept | apply modLink_kept | apply whenB_kept
        | apply linkReplay_kept | apply laneOut_kept | apply laneBack_kept | apply ite_kept | apply foldl_kept
        | fail_if_no_progress (apply Kept.mk)
    | split | exact fun k (hk : coreOk k = true) => hk | intro _ | dsimp only | assumption

theorem flitGood_kept {s0 s : State} (h : Kept s0 s) (l : ℕ) (f : Flit) : Kept s0 (flitGood l f s) := by
  unfold flitGood
  repeat' first
    | with_reducible first
        | assumption | apply linkFlush_kept | apply modLink_kept | apply dataTake_kept | apply nakOut_kept
        | apply linkControl_kept | apply ite_kept | apply foldl_kept | fail_if_no_progress (apply Kept.mk)
    | split | exact fun k (hk : coreOk k = true) => hk | intro _ | dsimp only | assumption

theorem linkDownJob_kept {s0 s : State} (h : Kept s0 s)  : Kept s0 (linkDownJob s) := by
  unfold linkDownJob
  repeat' first
    | with_reducible first
        | assumption | apply forEach_kept | apply jobFault_kept | apply setAct_kept | apply modRun_kept
        | apply jobOver_kept | apply modTiers_kept | apply ite_kept | apply foldl_kept
        | fail_if_no_progress (apply Kept.mk)
    | split | exact fun k (hk : coreOk k = true) => hk | intro _ | dsimp only | assumption

theorem bar2Refuse_kept {s0 s : State} (h : Kept s0 s) (a : ℕ) : Kept s0 (bar2Refuse a s) := by
  unfold bar2Refuse
  repeat' first
    | with_reducible first
        | assumption | apply event_kept | apply modHost_kept | apply ite_kept | apply foldl_kept
        | fail_if_no_progress (apply Kept.mk)
    | split | exact fun k (hk : coreOk k = true) => hk | intro _ | dsimp only | assumption

theorem bar2Poison_kept {s0 s : State} (h : Kept s0 s) (a : ℕ) (code : ℕ) : Kept s0 (bar2Poison a code s) := by
  unfold bar2Poison
  repeat' first
    | with_reducible first
        | assumption | apply event_kept | apply modHost_kept | apply ite_kept | apply foldl_kept
        | fail_if_no_progress (apply Kept.mk)
    | split | exact fun k (hk : coreOk k = true) => hk | intro _ | dsimp only | assumption

theorem hostReturn_kept {s0 s : State} (h : Kept s0 s) (data : List Byte) (status : ℕ) : Kept s0 (hostReturn data status s) := by
  unfold hostReturn
  repeat' first
    | with_reducible first
        | assumption | apply modHost_kept | apply ite_kept | apply foldl_kept | fail_if_no_progress (apply Kept.mk)
    | split | exact fun k (hk : coreOk k = true) => hk | intro _ | dsimp only | assumption

theorem hostZero_kept {s0 s : State} (h : Kept s0 s) (size : ℕ) : Kept s0 (hostZero size s) := by
  unfold hostZero
  repeat' first
    | with_reducible first
        | assumption | apply hostReturn_kept | apply ite_kept | apply foldl_kept
        | fail_if_no_progress (apply Kept.mk)
    | split | exact fun k (hk : coreOk k = true) => hk | intro _ | dsimp only | assumption

theorem hostCharge_kept {s0 s : State} (h : Kept s0 s) (a : ℕ) (n : ℕ) : Kept s0 (hostCharge a n s) := by
  unfold hostCharge
  repeat' first
    | with_reducible first
        | assumption | apply portTouch_kept | apply transferCharge_kept | apply ite_kept | apply foldl_kept
        | fail_if_no_progress (apply Kept.mk)
    | split | exact fun k (hk : coreOk k = true) => hk | intro _ | dsimp only | assumption

theorem bar2Answer_kept {s0 s : State} (h : Kept s0 s) (a : ℕ) (size : ℕ) (bad : Option (ℕ × Ecc × ℕ)) : Kept s0 (bar2Answer a size bad s) := by
  unfold bar2Answer
  repeat' first
    | with_reducible first
        | assumption | apply takeFree_kept | apply hostReturn_kept | apply bar2Poison_kept | apply ite_kept
        | apply foldl_kept | fail_if_no_progress (apply Kept.mk)
    | split | exact fun k (hk : coreOk k = true) => hk | intro _ | dsimp only | assumption

theorem aliasWord_kept {s0 s : State} (h : Kept s0 s) (set : Bool) (c : ℕ) (errs : List (BitVec 48 × UnitErr)) (o : ℕ) (v : Word) : Kept s0 (aliasWord set c errs o v s) := by
  unfold aliasWord
  repeat' first
    | with_reducible first
        | assumption | apply forEach_kept | apply unitFound_kept | apply bar2Poison_kept | apply atomicWrite_kept
        | apply ite_kept | apply foldl_kept | fail_if_no_progress (apply Kept.mk)
    | split | exact fun k (hk : coreOk k = true) => hk | intro _ | dsimp only | assumption

theorem urReport_kept {s0 s : State} (h : Kept s0 s) (on : Bool) (a : ℕ) : Kept s0 (urReport on a s) := by
  unfold urReport
  repeat' first
    | with_reducible first
        | assumption | apply whenB_kept | apply emit_kept | apply ite_kept | apply foldl_kept
        | fail_if_no_progress (apply Kept.mk)
    | split | exact fun k (hk : coreOk k = true) => hk | intro _ | dsimp only | assumption

theorem ringCfgWrite_kept {s0 s : State} (h : Kept s0 s) (r : ℕ) (w : Word) : Kept s0 (ringCfgWrite r w s) := by
  unfold ringCfgWrite
  repeat' first
    | with_reducible first
        | assumption | apply setEn_kept | apply modRing_kept | apply ite_kept | apply foldl_kept
        | fail_if_no_progress (apply Kept.mk)
    | split | exact fun k (hk : coreOk k = true) => hk | intro _ | dsimp only | assumption

theorem outState_kept {s0 s : State} (h : Kept s0 s) {o : Out} (ho : OutKept s0 o) : Kept s0 (outState o s) := by
  unfold outState
  split
  · exact ho _ rfl
  · exact h

theorem sftCtrlWrite_kept {s0 s : State} (h : Kept s0 s) (x : RegAccess) : Kept s0 (sftCtrlWrite x s) := by
  unfold sftCtrlWrite
  repeat' first
    | with_reducible first
        | assumption | apply outState_kept | apply execSftLoad_kept | apply execSftCancel_kept | apply ite_kept
        | apply foldl_kept | fail_if_no_progress (apply Kept.mk)
    | split | exact fun k (hk : coreOk k = true) => hk | intro _ | dsimp only | assumption

theorem sftStageWrite_kept {s0 s : State} (h : Kept s0 s) (w : ℕ) (x : RegAccess) : Kept s0 (sftStageWrite w x s) := by
  unfold sftStageWrite
  repeat' first
    | with_reducible first
        | assumption | apply modSft_kept | apply ite_kept | apply foldl_kept | fail_if_no_progress (apply Kept.mk)
    | split | exact fun k (hk : coreOk k = true) => hk | intro _ | dsimp only | assumption

theorem linkCtrlWrite_kept {s0 s : State} (h : Kept s0 s) (l : ℕ) (x : RegAccess) : Kept s0 (linkCtrlWrite l x s) := by
  unfold linkCtrlWrite
  repeat' first
    | with_reducible first
        | assumption | apply outState_kept | apply execLinkRecal_kept | apply execLinkRetrain_kept | apply ite_kept
        | apply foldl_kept | fail_if_no_progress (apply Kept.mk)
    | split | exact fun k (hk : coreOk k = true) => hk | intro _ | dsimp only | assumption

theorem deadlineWrite_kept {s0 s : State} (h : Kept s0 s) (w : Word) : Kept s0 (deadlineWrite w s) := by
  unfold deadlineWrite
  repeat' first
    | with_reducible first
        | assumption | apply modTiers_kept | apply ite_kept | apply foldl_kept
        | fail_if_no_progress (apply Kept.mk)
    | split | exact fun k (hk : coreOk k = true) => hk | intro _ | dsimp only | assumption

theorem routeWrite_kept {s0 s : State} (h : Kept s0 s) (i : ℕ) (w : Word) : Kept s0 (routeWrite i w s) := by
  unfold routeWrite
  repeat' first
    | with_reducible first
        | assumption | apply modLinks_kept | apply ite_kept | apply foldl_kept
        | fail_if_no_progress (apply Kept.mk)
    | split | exact fun k (hk : coreOk k = true) => hk | intro _ | dsimp only | assumption

theorem tallyFree_kept {s0 s : State} (h : Kept s0 s)  : Kept s0 (tallyFree s) := by
  unfold tallyFree
  repeat' first
    | with_reducible first
        | assumption | apply tallyHand_kept | apply modTally_kept | apply ite_kept | apply foldl_kept
        | fail_if_no_progress (apply Kept.mk)
    | split | exact fun k (hk : coreOk k = true) => hk | intro _ | dsimp only | assumption

theorem tallyCtrlWrite_kept {s0 s : State} (h : Kept s0 s) (x : RegAccess) : Kept s0 (tallyCtrlWrite x s) := by
  unfold tallyCtrlWrite
  repeat' first
    | with_reducible first
        | assumption | apply modTally_kept | apply tallyFree_kept | apply ite_kept | apply foldl_kept
        | fail_if_no_progress (apply Kept.mk)
    | split | exact fun k (hk : coreOk k = true) => hk | intro _ | dsimp only | assumption

theorem regWrite_kept {s0 s : State} (h : Kept s0 s) (r : Reg) (x : RegAccess) : Kept s0 (regWrite r x s) := by
  unfold regWrite
  repeat' first
    | with_reducible first
        | assumption | apply modHost_kept | apply whenB_kept | apply modRing_kept | apply ringCfgWrite_kept
        | apply msixUnmask_kept | apply outState_kept | apply execAgResume_kept | apply modCurb_kept
        | apply deadlineWrite_kept | apply modTiers_kept | apply modPort_kept | apply modLink_kept
        | apply linkCtrlWrite_kept | apply routeWrite_kept | apply modHitch_kept | apply modSync_kept
        | apply sftStageWrite_kept | apply modSft_kept | apply sftCtrlWrite_kept | apply modRin_kept
        | apply modEng_kept | apply modCore_kept | apply tallyCtrlWrite_kept | apply ite_kept | apply foldl_kept
        | fail_if_no_progress (apply Kept.mk)
    | split | exact fun k (hk : coreOk k = true) => hk | intro _ | dsimp only | assumption

theorem debugOpen_kept {s0 s : State} (h : Kept s0 s) (p : DbgPath) (level : ℕ) : Kept s0 (debugOpen p level s) := by
  unfold debugOpen
  repeat' first
    | with_reducible first
        | assumption | apply modSec_kept | apply measChange_kept | apply event_kept | apply ite_kept
        | apply foldl_kept | fail_if_no_progress (apply Kept.mk)
    | split | exact fun k (hk : coreOk k = true) => hk | intro _ | dsimp only | assumption

theorem debugCtrl_kept {s0 s : State} (h : Kept s0 s) (p : DbgPath) (act : State → State) (hact : ∀ t, Kept s0 t → Kept s0 (act  t)) : Kept s0 (debugCtrl p act s) := by
  unfold debugCtrl
  repeat' first
    | with_reducible first
        | assumption | apply event_kept | apply modHost_kept | apply hact | apply ite_kept | apply foldl_kept
        | fail_if_no_progress (apply Kept.mk)
    | split | exact fun k (hk : coreOk k = true) => hk | intro _ | dsimp only | assumption

theorem debugClose_kept {s0 s : State} (h : Kept s0 s) (p : DbgPath) : Kept s0 (debugClose p s) := by
  unfold debugClose
  repeat' first
    | with_reducible first
        | assumption | apply debugShut_kept | apply ite_kept | apply foldl_kept
        | fail_if_no_progress (apply Kept.mk)
    | split | exact fun k (hk : coreOk k = true) => hk | intro _ | dsimp only | assumption

theorem debugHalt_kept {s0 s : State} (h : Kept s0 s)  : Kept s0 (debugHalt s) := by
  unfold debugHalt
  repeat' first
    | with_reducible first
        | assumption | apply whenB_kept | apply uncheckSteps_kept | apply modCore_kept | apply ite_kept
        | apply foldl_kept | fail_if_no_progress (apply Kept.mk)
    | split | exact fun k (hk : coreOk k = true) => hk | intro _ | dsimp only | assumption

theorem debugResume_kept {s0 s : State} (h : Kept s0 s)  : Kept s0 (debugResume s) := by
  unfold debugResume
  repeat' first
    | with_reducible first
        | assumption | apply modCore_kept | apply ite_kept | apply foldl_kept | fail_if_no_progress (apply Kept.mk)
    | split | exact fun k (hk : coreOk k = true) => hk | intro _ | dsimp only | assumption

theorem groomScalar_kept {s0 s : State} (h : Kept s0 s) (opc : Nat) (c : CoreId) (t : ThreadId) (f : ScalarF) {x : Out}
    (hx : groomScalar opc c t f s = some x) : OutKept s0 x := by
  unfold groomScalar at hx
  split at hx
  · cases hx; exact execLi_kept h c t f
  · cases hx; exact execLui_kept h c t f
  · cases hx; exact execAdd_kept h c t f
  · cases hx; exact execSub_kept h c t f
  · cases hx; exact execMul_kept h c t f
  · cases hx; exact execShl_kept h c t f
  · cases hx; exact execShr_kept h c t f
  · cases hx; exact execSar_kept h c t f
  · cases hx; exact execAnd_kept h c t f
  · cases hx; exact execOr_kept h c t f
  · cases hx; exact execXor_kept h c t f
  · cases hx; exact execMin_kept h c t f
  · cases hx; exact execMax_kept h c t f
  · cases hx; exact execLd_kept h c t f
  · cases hx; exact execSt_kept h c t f
  · cases hx; exact execBeq_kept h c t f
  · cases hx; exact execBne_kept h c t f
  · cases hx; exact execBlt_kept h c t f
  · cases hx; exact execJmp_kept h c t f
  · cases hx; exact execTwait_kept h c t f
  · cases hx; exact execStepEnd_kept h c t f
  · cases hx

theorem groomExec_kept {s0 s : State} (h : Kept s0 s) (c : CoreId) (t : ThreadId) : Kept s0 (groomExec c t s) := by
  unfold groomExec
  dsimp only
  split
  · exact groomRefuse_kept h _ _ _ _ _ _ _
  · split
    · rename_i x hq
      apply outState_kept h
      split at hq
      · cases hq; exact execTmac_kept h _ _ _
      split at hq
      · cases hq; exact execTout_kept h _ _ _
      split at hq
      · cases hq; exact execResload_kept h _ _ _
      · exact groomScalar_kept h _ _ _ _ hq
    · exact groomRefuse_kept h _ _ _ _ _ _ _

theorem debugStep_kept {s0 s : State} (h : Kept s0 s)  : Kept s0 (debugStep s) := by
  unfold debugStep
  repeat' first
    | with_reducible first
        | assumption | apply whenB_kept | apply uncheckSteps_kept | apply modCore_kept | apply groomExec_kept
        | apply ite_kept | apply foldl_kept | fail_if_no_progress (apply Kept.mk)
    | split | exact fun k (hk : coreOk k = true) => hk | intro _ | dsimp only | assumption

theorem debugAdvance_kept {s0 s : State} (h : Kept s0 s)  : Kept s0 (debugAdvance s) := by
  unfold debugAdvance
  repeat' first
    | with_reducible first
        | assumption | apply modSec_kept | apply ite_kept | apply foldl_kept | fail_if_no_progress (apply Kept.mk)
    | split | exact fun k (hk : coreOk k = true) => hk | intro _ | dsimp only | assumption

theorem debugRead_kept {s0 s : State} (h : Kept s0 s)  : Kept s0 (debugRead s).2 := by
  unfold debugRead
  repeat' first
    | with_reducible first
        | assumption | apply debugAdvance_kept | apply ite_kept | apply foldl_kept
        | fail_if_no_progress (apply Kept.mk)
    | split | exact fun k (hk : coreOk k = true) => hk | intro _ | dsimp only | assumption

theorem debugRegWrite_kept {s0 s : State} (h : Kept s0 s) (o : ℕ) (v : Word) : Kept s0 (debugRegWrite o v s) := by
  unfold debugRegWrite
  repeat' first
    | with_reducible first
        | assumption | apply setSreg_kept | apply regWrite_kept | apply ite_kept | apply foldl_kept
        | fail_if_no_progress (apply Kept.mk)
    | split | exact fun k (hk : coreOk k = true) => hk | intro _ | dsimp only | assumption

theorem debugSyncWrite_kept {s0 s : State} (h : Kept s0 s) (n : ℕ) (off : ℕ) (v : Word) : Kept s0 (debugSyncWrite n off v s) := by
  unfold debugSyncWrite
  repeat' first
    | with_reducible first
        | assumption | apply opSet_kept | apply opArrive_kept | apply opAdd_kept | apply ite_kept
        | apply foldl_kept | fail_if_no_progress (apply Kept.mk)
    | split | exact fun k (hk : coreOk k = true) => hk | intro _ | dsimp only | assumption

theorem debugStore_kept {s0 s : State} (h : Kept s0 s) (a : ℕ) (v : Word) : Kept s0 (debugStore a v s) := by
  unfold debugStore
  repeat' first
    | with_reducible first
        | assumption | apply debugRegWrite_kept | apply debugSyncWrite_kept | apply writeWord_kept
        | apply atomicWrite_kept | apply ite_kept | apply foldl_kept | fail_if_no_progress (apply Kept.mk)
    | split | exact fun k (hk : coreOk k = true) => hk | intro _ | dsimp only | assumption

theorem debugWrite_kept {s0 s : State} (h : Kept s0 s) (v : Word) : Kept s0 (debugWrite v s) := by
  unfold debugWrite
  repeat' first
    | with_reducible first
        | assumption | apply debugStore_kept | apply measChange_kept | apply modSec_kept | apply debugAdvance_kept
        | apply ite_kept | apply foldl_kept | fail_if_no_progress (apply Kept.mk)
    | split | exact fun k (hk : coreOk k = true) => hk | intro _ | dsimp only | assumption

theorem dumpRead_kept {s0 s : State} (h : Kept s0 s)  : Kept s0 (dumpRead s) := by
  unfold dumpRead
  repeat' first
    | with_reducible first
        | assumption | apply modMgmt_kept | apply modDumps_kept | apply ite_kept | apply foldl_kept
        | fail_if_no_progress (apply Kept.mk)
    | split | exact fun k (hk : coreOk k = true) => hk | intro _ | dsimp only | assumption

theorem dbgRegRead_kept {s0 s : State} (h : Kept s0 s) (r : Reg) : Kept s0 (dbgRegRead r s).2 := by
  unfold dbgRegRead
  repeat' first
    | with_reducible first
        | assumption | apply debugRead_kept | apply ite_kept | apply foldl_kept
        | fail_if_no_progress (apply Kept.mk)
    | split | exact fun k (hk : coreOk k = true) => hk | intro _ | dsimp only | assumption

theorem dbgRegWrite_kept {s0 s : State} (h : Kept s0 s) (p : DbgPath) (r : Reg) (x : RegAccess) : Kept s0 (dbgRegWrite p r x s) := by
  unfold dbgRegWrite
  repeat' first
    | with_reducible first
        | assumption | apply debugOpen_kept | apply debugClose_kept | apply modSec_kept | apply debugWrite_kept
        | apply debugHalt_kept | apply debugResume_kept | apply debugStep_kept | apply ite_kept | apply foldl_kept
        | fail_if_no_progress (apply Kept.mk)
    | split | exact fun k (hk : coreOk k = true) => hk | intro _ | dsimp only | assumption

theorem bar0Refuse_kept {s0 s : State} (h : Kept s0 s) (off : ℕ) : Kept s0 (bar0Refuse off s) := by
  unfold bar0Refuse
  repeat' first
    | with_reducible first
        | assumption | apply event_kept | apply modHost_kept | apply ite_kept | apply foldl_kept
        | fail_if_no_progress (apply Kept.mk)
    | split | exact fun k (hk : coreOk k = true) => hk | intro _ | dsimp only | assumption

theorem setLatch_kept {s0 s : State} (h : Kept s0 s) (slot : ℕ) (v : Option ℕ) : Kept s0 (setLatch slot v s) := by
  unfold setLatch
  repeat' first
    | with_reducible first
        | assumption | apply modHost_kept | apply ite_kept | apply foldl_kept | fail_if_no_progress (apply Kept.mk)
    | split | exact fun k (hk : coreOk k = true) => hk | intro _ | dsimp only | assumption

theorem regReadAt_kept {s0 s : State} (h : Kept s0 s) (r : Reg) (off : ℕ) (size : ℕ) : Kept s0 (regReadAt r off size s) := by
  unfold regReadAt
  repeat' first
    | with_reducible first
        | assumption | apply hostReturn_kept | apply dbgRegRead_kept | apply setLatch_kept | apply ite_kept
        | apply foldl_kept | fail_if_no_progress (apply Kept.mk)
    | split | exact fun k (hk : coreOk k = true) => hk | intro _ | dsimp only | assumption

theorem regWriteAt_kept {s0 s : State} (h : Kept s0 s) (p : DbgPath) (r : Reg) (x : RegAccess) : Kept s0 (regWriteAt p r x s) := by
  unfold regWriteAt
  repeat' first
    | with_reducible first
        | assumption | apply dbgRegWrite_kept | apply regWrite_kept | apply ite_kept | apply foldl_kept
        | fail_if_no_progress (apply Kept.mk)
    | split | exact fun k (hk : coreOk k = true) => hk | intro _ | dsimp only | assumption

theorem reply_kept {s0 s : State} (h : Kept s0 s) (l : List ℕ) : Kept s0 (reply l s) := by
  unfold reply
  repeat' first
    | with_reducible first
        | assumption | apply modSec_kept | apply ite_kept | apply foldl_kept | fail_if_no_progress (apply Kept.mk)
    | split | exact fun k (hk : coreOk k = true) => hk | intro _ | dsimp only | assumption

theorem spdmError_kept {s0 s : State} (h : Kept s0 s) (code : ℕ) : Kept s0 (spdmError code s) := by
  unfold spdmError
  repeat' first
    | with_reducible first
        | assumption | apply reply_kept | apply ite_kept | apply foldl_kept | fail_if_no_progress (apply Kept.mk)
    | split | exact fun k (hk : coreOk k = true) => hk | intro _ | dsimp only | assumption

theorem spdm_kept {s0 s : State} (h : Kept s0 s) (act : State → State) (hact : ∀ t, Kept s0 t → Kept s0 (act  t)) : Kept s0 (spdm act s) := by
  unfold spdm
  repeat' first
    | with_reducible first
        | assumption | apply spdmError_kept | apply hact | apply ite_kept | apply foldl_kept
        | fail_if_no_progress (apply Kept.mk)
    | split | exact fun k (hk : coreOk k = true) => hk | intro _ | dsimp only | assumption

theorem modSpdm_kept {s0 s : State} (h : Kept s0 s) (n : ℕ) (f : SpdmSess → SpdmSess) : Kept s0 (modSpdm n f s) := by
  unfold modSpdm
  repeat' first
    | with_reducible first
        | assumption | apply modSec_kept | apply ite_kept | apply foldl_kept | fail_if_no_progress (apply Kept.mk)
    | split | exact fun k (hk : coreOk k = true) => hk | intro _ | dsimp only | assumption

theorem inSession_kept {s0 s : State} (h : Kept s0 s) (n : ℕ) (act : State → State) (hact : ∀ t, Kept s0 t → Kept s0 (act  t)) : Kept s0 (inSession n act s) := by
  unfold inSession
  repeat' first
    | with_reducible first
        | assumption | apply spdm_kept | apply spdmError_kept | apply hact | apply ite_kept | apply foldl_kept
        | fail_if_no_progress (apply Kept.mk)
    | split | exact fun k (hk : coreOk k = true) => hk | intro _ | dsimp only | assumption

theorem setIde_kept {s0 s : State} (h : Kept s0 s) (n : ℕ) : Kept s0 (setIde n s) := by
  unfold setIde
  repeat' first
    | with_reducible first
        | assumption | apply measChange_kept | apply modHost_kept | apply ite_kept | apply foldl_kept
        | fail_if_no_progress (apply Kept.mk)
    | split | exact fun k (hk : coreOk k = true) => hk | intro _ | dsimp only | assumption

theorem sdoAnswer_kept {s0 s : State} (h : Kept s0 s) (abort : ℕ) : Kept s0 (sdoAnswer abort s) := by
  unfold sdoAnswer
  repeat' first
    | with_reducible first
        | assumption | apply modMgmt_kept | apply ite_kept | apply foldl_kept | fail_if_no_progress (apply Kept.mk)
    | split | exact fun k (hk : coreOk k = true) => hk | intro _ | dsimp only | assumption

theorem newNonce_kept {s0 s : State} (h : Kept s0 s)  : Kept s0 (newNonce s) := by
  unfold newNonce
  repeat' first
    | with_reducible first
        | assumption | apply modSec_kept | apply ite_kept | apply foldl_kept | fail_if_no_progress (apply Kept.mk)
    | split | exact fun k (hk : coreOk k = true) => hk | intro _ | dsimp only | assumption

theorem authRefuse_kept {s0 s : State} (h : Kept s0 s)  : Kept s0 (authRefuse s) := by
  unfold authRefuse
  repeat' first
    | with_reducible first
        | assumption | apply sdoAnswer_kept | apply event_kept | apply modSec_kept | apply ite_kept
        | apply foldl_kept | fail_if_no_progress (apply Kept.mk)
    | split | exact fun k (hk : coreOk k = true) => hk | intro _ | dsimp only | assumption

theorem wardStart_kept {s0 s : State} (h : Kept s0 s) (w : Ward) (v : ℕ) : Kept s0 (wardStart w v s) := by
  unfold wardStart
  repeat' first
    | with_reducible first
        | assumption | apply sdoAnswer_kept | apply modMgmt_kept | apply ite_kept | apply foldl_kept
        | fail_if_no_progress (apply Kept.mk)
    | split | exact fun k (hk : coreOk k = true) => hk | intro _ | dsimp only | assumption

theorem wardPass_kept {s0 s : State} (h : Kept s0 s) (w : Ward) (v : ℕ) : Kept s0 (wardPass w v s) := by
  unfold wardPass
  repeat' first
    | with_reducible first
        | assumption | apply sdoAnswer_kept | apply wardStart_kept | apply ite_kept | apply foldl_kept
        | fail_if_no_progress (apply Kept.mk)
    | split | exact fun k (hk : coreOk k = true) => hk | intro _ | dsimp only | assumption

theorem wardWrite_kept {s0 s : State} (h : Kept s0 s) (w : Ward) (v : ℕ) : Kept s0 (wardWrite w v s) := by
  unfold wardWrite
  repeat' first
    | with_reducible first
        | assumption | apply newNonce_kept | apply modSec_kept | apply wardPass_kept | apply sdoAnswer_kept
        | apply authRefuse_kept | apply ite_kept | apply foldl_kept | fail_if_no_progress (apply Kept.mk)
    | split | exact fun k (hk : coreOk k = true) => hk | intro _ | dsimp only | assumption

theorem burnEnd_kept {s0 s : State} (h : Kept s0 s) (w : Ward) (old : ℕ) (abort : ℕ) : Kept s0 (burnEnd w old abort s) := by
  unfold burnEnd
  repeat' first
    | with_reducible first
        | assumption | apply sdoAnswer_kept | apply event_kept | apply modMgmt_kept | apply ite_kept
        | apply foldl_kept | fail_if_no_progress (apply Kept.mk)
    | split | exact fun k (hk : coreOk k = true) => hk | intro _ | dsimp only | assumption

theorem tallyPop_kept {s0 s : State} (h : Kept s0 s)  : Kept s0 (tallyPop s) := by
  unfold tallyPop
  repeat' first
    | with_reducible first
        | assumption | apply modMgmt_kept | apply tallyFree_kept | apply modTally_kept | apply ite_kept
        | apply foldl_kept | fail_if_no_progress (apply Kept.mk)
    | split | exact fun k (hk : coreOk k = true) => hk | intro _ | dsimp only | assumption

theorem tallyReader_kept {s0 s : State} (h : Kept s0 s) (value : ℕ) : Kept s0 (tallyReader value s) := by
  unfold tallyReader
  repeat' first
    | with_reducible first
        | assumption | apply sdoAnswer_kept | apply modTally_kept | apply ite_kept | apply foldl_kept
        | fail_if_no_progress (apply Kept.mk)
    | split | exact fun k (hk : coreOk k = true) => hk | intro _ | dsimp only | assumption

theorem ovfClear_kept {s0 s : State} (h : Kept s0 s) (index : ℕ) (sub : ℕ) (sat : BitVec 16) : Kept s0 (ovfClear index sub sat s) := by
  unfold ovfClear
  repeat' first
    | with_reducible first
        | assumption | apply modMgmt_kept | apply modStride_kept | apply modSync_kept | apply modLinks_kept
        | apply modJob_kept | apply modSec_kept | apply ite_kept | apply foldl_kept
        | fail_if_no_progress (apply Kept.mk)
    | split | exact fun k (hk : coreOk k = true) => hk | intro _ | dsimp only | assumption

theorem ovfWrite_kept {s0 s : State} (h : Kept s0 s) (index : ℕ) (sub : ℕ) (value : ℕ) (sat : BitVec 16) : Kept s0 (ovfWrite index sub value sat s) := by
  unfold ovfWrite
  repeat' first
    | with_reducible first
        | assumption | apply sdoAnswer_kept | apply ovfClear_kept | apply ite_kept | apply foldl_kept
        | fail_if_no_progress (apply Kept.mk)
    | split | exact fun k (hk : coreOk k = true) => hk | intro _ | dsimp only | assumption

theorem inRange_kept {s0 s : State} (h : Kept s0 s) (ok : Bool) (act : State → State) (hact : ∀ t, Kept s0 t → Kept s0 (act  t)) : Kept s0 (inRange ok act s) := by
  unfold inRange
  repeat' first
    | with_reducible first
        | assumption | apply sdoAnswer_kept | apply hact | apply ite_kept | apply foldl_kept
        | fail_if_no_progress (apply Kept.mk)
    | split | exact fun k (hk : coreOk k = true) => hk | intro _ | dsimp only | assumption

theorem setRack_kept {s0 s : State} (h : Kept s0 s) (v : BitVec 8) : Kept s0 (setRack v s) := by
  unfold setRack
  repeat' first
    | with_reducible first
        | assumption | apply event_kept | apply modMgmt_kept | apply ite_kept | apply foldl_kept
        | fail_if_no_progress (apply Kept.mk)
    | split | exact fun k (hk : coreOk k = true) => hk | intro _ | dsimp only | assumption

theorem measIf_kept {s0 s : State} (h : Kept s0 s) (changed : Bool) : Kept s0 (measIf changed s) := by
  unfold measIf
  repeat' first
    | with_reducible first
        | assumption | apply measChange_kept | apply ite_kept | apply foldl_kept
        | fail_if_no_progress (apply Kept.mk)
    | split | exact fun k (hk : coreOk k = true) => hk | intro _ | dsimp only | assumption

theorem shareBudgets_kept {s0 s : State} (h : Kept s0 s)  : Kept s0 (shareBudgets s) := by
  unfold shareBudgets
  repeat' first
    | with_reducible first
        | assumption | apply modTiers_kept | apply ite_kept | apply foldl_kept
        | fail_if_no_progress (apply Kept.mk)
    | split | exact fun k (hk : coreOk k = true) => hk | intro _ | dsimp only | assumption

theorem setShare_kept {s0 s : State} (h : Kept s0 s) (sub : ℕ) (v : ℕ) : Kept s0 (setShare sub v s) := by
  unfold setShare
  repeat' first
    | with_reducible first
        | assumption | apply inRange_kept | apply shareBudgets_kept | apply modTiers_kept | apply ite_kept
        | apply foldl_kept | fail_if_no_progress (apply Kept.mk)
    | split | exact fun k (hk : coreOk k = true) => hk | intro _ | dsimp only | assumption

theorem setCoord_kept {s0 s : State} (h : Kept s0 s) (v : ℕ) (limit : ℕ) (f : Links → Links) : Kept s0 (setCoord v limit f s) := by
  unfold setCoord
  repeat' first
    | with_reducible first
        | assumption | apply sdoAnswer_kept | apply inRange_kept | apply modLinks_kept | apply ite_kept
        | apply foldl_kept | fail_if_no_progress (apply Kept.mk)
    | split | exact fun k (hk : coreOk k = true) => hk | intro _ | dsimp only | assumption

theorem write2100_kept {s0 s : State} (h : Kept s0 s) (sub : ℕ) (v : ℕ) : Kept s0 (write2100 sub v s) := by
  unfold write2100
  repeat' first
    | with_reducible first
        | assumption | apply sdoAnswer_kept | apply inRange_kept | apply noteChange_kept | apply modMgmt_kept
        | apply setRack_kept | apply ite_kept | apply foldl_kept | fail_if_no_progress (apply Kept.mk)
    | split | exact fun k (hk : coreOk k = true) => hk | intro _ | dsimp only | assumption

theorem write2200_kept {s0 s : State} (h : Kept s0 s) (sub : ℕ) (v : ℕ) : Kept s0 (write2200 sub v s) := by
  unfold write2200
  repeat' first
    | with_reducible first
        | assumption | apply inRange_kept | apply modStride_kept | apply measIf_kept | apply ite_kept
        | apply foldl_kept | fail_if_no_progress (apply Kept.mk)
    | split | exact fun k (hk : coreOk k = true) => hk | intro _ | dsimp only | assumption

theorem write2300_kept {s0 s : State} (h : Kept s0 s) (sub : ℕ) (v : ℕ) : Kept s0 (write2300 sub v s) := by
  unfold write2300
  repeat' first
    | with_reducible first
        | assumption | apply inRange_kept | apply modTiers_kept | apply portRestore_kept | apply setShare_kept
        | apply ite_kept | apply foldl_kept | fail_if_no_progress (apply Kept.mk)
    | split | exact fun k (hk : coreOk k = true) => hk | intro _ | dsimp only | assumption

theorem write2400_kept {s0 s : State} (h : Kept s0 s) (sub : ℕ) (v : ℕ) : Kept s0 (write2400 sub v s) := by
  unfold write2400
  repeat' first
    | with_reducible first
        | assumption | apply setCoord_kept | apply inRange_kept | apply modLinks_kept | apply ite_kept
        | apply foldl_kept | fail_if_no_progress (apply Kept.mk)
    | split | exact fun k (hk : coreOk k = true) => hk | intro _ | dsimp only | assumption

theorem write2500_kept {s0 s : State} (h : Kept s0 s) (sub : ℕ) (v : ℕ) : Kept s0 (write2500 sub v s) := by
  unfold write2500
  repeat' first
    | with_reducible first
        | assumption | apply tenantWrite_kept | apply sdoAnswer_kept | apply inRange_kept | apply modJob_kept
        | apply ite_kept | apply foldl_kept | fail_if_no_progress (apply Kept.mk)
    | split | exact fun k (hk : coreOk k = true) => hk | intro _ | dsimp only | assumption

theorem write2800_kept {s0 s : State} (h : Kept s0 s) (sub : ℕ) (v : ℕ) : Kept s0 (write2800 sub v s) := by
  unfold write2800
  repeat' first
    | with_reducible first
        | assumption | apply inRange_kept | apply modSync_kept | apply ite_kept | apply foldl_kept
        | fail_if_no_progress (apply Kept.mk)
    | split | exact fun k (hk : coreOk k = true) => hk | intro _ | dsimp only | assumption

theorem write2F00_kept {s0 s : State} (h : Kept s0 s) (sub : ℕ) (v : ℕ) : Kept s0 (write2F00 sub v s) := by
  unfold write2F00
  repeat' first
    | with_reducible first
        | assumption | apply sdoAnswer_kept | apply dbgRegWrite_kept | apply inRange_kept | apply modSec_kept
        | apply modDumps_kept | apply ite_kept | apply foldl_kept | fail_if_no_progress (apply Kept.mk)
    | split | exact fun k (hk : coreOk k = true) => hk | intro _ | dsimp only | assumption

theorem write2001_kept {s0 s : State} (h : Kept s0 s) (sub : ℕ) (v : ℕ) : Kept s0 (write2001 sub v s) := by
  unfold write2001
  repeat' first
    | with_reducible first
        | assumption | apply inRange_kept | apply modBoot_kept | apply modDumps_kept | apply ite_kept
        | apply foldl_kept | fail_if_no_progress (apply Kept.mk)
    | split | exact fun k (hk : coreOk k = true) => hk | intro _ | dsimp only | assumption

theorem odWrite_kept {s0 s : State} (h : Kept s0 s) (index : ℕ) (sub : ℕ) (v : ℕ) : Kept s0 (odWrite index sub v s) := by
  unfold odWrite
  repeat' first
    | with_reducible first
        | assumption | apply ovfWrite_kept | apply wardWrite_kept | apply write2001_kept | apply write2100_kept
        | apply write2200_kept | apply write2300_kept | apply write2400_kept | apply write2500_kept
        | apply tallyReader_kept | apply write2800_kept | apply write2F00_kept | apply ite_kept | apply foldl_kept
        | fail_if_no_progress (apply Kept.mk)
    | split | exact fun k (hk : coreOk k = true) => hk | intro _ | dsimp only | assumption

theorem alTo_kept {s0 s : State} (h : Kept s0 s) (a : AlState) (code : ℕ) : Kept s0 (alTo a code s) := by
  unfold alTo
  repeat' first
    | with_reducible first
        | assumption | apply modMgmt_kept | apply ite_kept | apply foldl_kept | fail_if_no_progress (apply Kept.mk)
    | split | exact fun k (hk : coreOk k = true) => hk | intro _ | dsimp only | assumption

theorem alOp_kept {s0 s : State} (h : Kept s0 s)  : Kept s0 (alOp s) := by
  unfold alOp
  repeat' first
    | with_reducible first
        | assumption | apply modMgmt_kept | apply ite_kept | apply foldl_kept | fail_if_no_progress (apply Kept.mk)
    | split | exact fun k (hk : coreOk k = true) => hk | intro _ | dsimp only | assumption

theorem takeBudget_kept {s0 s : State} (h : Kept s0 s) (b : ℕ) : Kept s0 (takeBudget b s) := by
  unfold takeBudget
  repeat' first
    | with_reducible first
        | assumption | apply modMgmt_kept | apply noteChange_kept | apply ite_kept | apply foldl_kept
        | fail_if_no_progress (apply Kept.mk)
    | split | exact fun k (hk : coreOk k = true) => hk | intro _ | dsimp only | assumption

theorem loseMaster_kept {s0 s : State} (h : Kept s0 s)  : Kept s0 (loseMaster s) := by
  unfold loseMaster
  repeat' first
    | with_reducible first
        | assumption | apply event_kept | apply modMgmt_kept | apply ite_kept | apply foldl_kept
        | fail_if_no_progress (apply Kept.mk)
    | split | exact fun k (hk : coreOk k = true) => hk | intro _ | dsimp only | assumption

theorem slipStatus_kept {s0 s : State} (h : Kept s0 s) (r : Running) : Kept s0 (slipStatus r s) := by
  unfold slipStatus
  repeat' first
    | with_reducible first
        | assumption | apply event_kept | apply modStride_kept | apply ite_kept | apply foldl_kept
        | fail_if_no_progress (apply Kept.mk)
    | split | exact fun k (hk : coreOk k = true) => hk | intro _ | dsimp only | assumption

theorem ledgerMismatch_kept {s0 s : State} (h : Kept s0 s) (r : Running) (n : ℕ) (f : Figure) : Kept s0 (ledgerMismatch r n f s) := by
  unfold ledgerMismatch
  repeat' first
    | with_reducible first
        | assumption | apply modStride_kept | apply jobFault_kept | apply event_kept | apply ite_kept
        | apply foldl_kept | fail_if_no_progress (apply Kept.mk)
    | split | exact fun k (hk : coreOk k = true) => hk | intro _ | dsimp only | assumption

theorem ledgerCheck_kept {s0 s : State} (h : Kept s0 s) (r : Running) (n : ℕ) : Kept s0 (ledgerCheck r n s) := by
  unfold ledgerCheck
  repeat' first
    | with_reducible first
        | assumption | apply modRun_kept | apply ledgerMismatch_kept | apply ite_kept | apply foldl_kept
        | fail_if_no_progress (apply Kept.mk)
    | split | exact fun k (hk : coreOk k = true) => hk | intro _ | dsimp only | assumption

theorem watchTick_kept {s0 s : State} (h : Kept s0 s)  : Kept s0 (watchTick s) := by
  unfold watchTick
  repeat' first
    | with_reducible first
        | assumption | apply modRun_kept | apply ite_kept | apply foldl_kept | fail_if_no_progress (apply Kept.mk)
    | split | exact fun k (hk : coreOk k = true) => hk | intro _ | dsimp only | assumption

theorem markerFault_kept {s0 s : State} (h : Kept s0 s)  : Kept s0 (markerFault s) := by
  unfold markerFault
  repeat' first
    | with_reducible first
        | assumption | apply modStride_kept | apply jobFault_kept | apply jobOver_kept | apply modTiers_kept
        | apply ite_kept | apply foldl_kept | fail_if_no_progress (apply Kept.mk)
    | split | exact fun k (hk : coreOk k = true) => hk | intro _ | dsimp only | assumption

theorem closeStarted_kept {s0 s : State} (h : Kept s0 s)  : Kept s0 (closeStarted s) := by
  unfold closeStarted
  repeat' first
    | with_reducible first
        | assumption | apply slipStatus_kept | apply forEach_kept | apply ledgerCheck_kept | apply watchTick_kept
        | apply ite_kept | apply foldl_kept | fail_if_no_progress (apply Kept.mk)
    | split | exact fun k (hk : coreOk k = true) => hk | intro _ | dsimp only | assumption

theorem strideClose_kept {s0 s : State} (h : Kept s0 s)  : Kept s0 (strideClose s) := by
  unfold strideClose
  repeat' first
    | with_reducible first
        | assumption | apply markerFault_kept | apply closeStarted_kept | apply ite_kept | apply foldl_kept
        | fail_if_no_progress (apply Kept.mk)
    | split | exact fun k (hk : coreOk k = true) => hk | intro _ | dsimp only | assumption

theorem strideInForce_kept {s0 s : State} (h : Kept s0 s)  : Kept s0 (strideInForce s) := by
  unfold strideInForce
  repeat' first
    | with_reducible first
        | assumption | apply modStride_kept | apply ite_kept | apply foldl_kept
        | fail_if_no_progress (apply Kept.mk)
    | split | exact fun k (hk : coreOk k = true) => hk | intro _ | dsimp only | assumption

theorem odInForce_kept {s0 s : State} (h : Kept s0 s)  : Kept s0 (odInForce s) := by
  unfold odInForce
  repeat' first
    | with_reducible first
        | assumption | apply modSync_kept | apply modTiers_kept | apply ite_kept | apply foldl_kept
        | fail_if_no_progress (apply Kept.mk)
    | split | exact fun k (hk : coreOk k = true) => hk | intro _ | dsimp only | assumption

theorem curbLoad_kept {s0 s : State} (h : Kept s0 s)  : Kept s0 (curbLoad s) := by
  unfold curbLoad
  repeat' first
    | with_reducible first
        | assumption | apply modTiers_kept | apply ite_kept | apply foldl_kept
        | fail_if_no_progress (apply Kept.mk)
    | split | exact fun k (hk : coreOk k = true) => hk | intro _ | dsimp only | assumption

theorem usageCharge_kept {s0 s : State} (h : Kept s0 s)  : Kept s0 (usageCharge s) := by
  unfold usageCharge
  repeat' first
    | with_reducible first
        | assumption | apply modJob_kept | apply modRun_kept | apply ite_kept | apply foldl_kept
        | fail_if_no_progress (apply Kept.mk)
    | split | exact fun k (hk : coreOk k = true) => hk | intro _ | dsimp only | assumption

theorem jobAges_kept {s0 s : State} (h : Kept s0 s)  : Kept s0 (jobAges s) := by
  unfold jobAges
  repeat' first
    | with_reducible first
        | assumption | apply modRun_kept | apply modJob_kept | apply ite_kept | apply foldl_kept
        | fail_if_no_progress (apply Kept.mk)
    | split | exact fun k (hk : coreOk k = true) => hk | intro _ | dsimp only | assumption

theorem waitAges_kept {s0 s : State} (h : Kept s0 s)  : Kept s0 (waitAges s) := by
  unfold waitAges
  repeat' first
    | with_reducible first
        | assumption | apply modSync_kept | apply ite_kept | apply foldl_kept | fail_if_no_progress (apply Kept.mk)
    | split | exact fun k (hk : coreOk k = true) => hk | intro _ | dsimp only | assumption

theorem takeMeasures_kept {s0 s : State} (h : Kept s0 s) (b : BoundaryIn) : Kept s0 (takeMeasures b s) := by
  unfold takeMeasures
  repeat' first
    | with_reducible first
        | assumption | apply modStride_kept | apply tripIfHot_kept | apply noteChange_kept | apply ite_kept
        | apply foldl_kept | fail_if_no_progress (apply Kept.mk)
    | split | exact fun k (hk : coreOk k = true) => hk | intro _ | dsimp only | assumption

theorem openWindow_kept {s0 s : State} (h : Kept s0 s)  : Kept s0 (openWindow s) := by
  unfold openWindow
  repeat' first
    | with_reducible first
        | assumption | apply modStride_kept | apply ite_kept | apply foldl_kept
        | fail_if_no_progress (apply Kept.mk)
    | split | exact fun k (hk : coreOk k = true) => hk | intro _ | dsimp only | assumption

theorem laneAges_kept {s0 s : State} (h : Kept s0 s)  : Kept s0 (laneAges s) := by
  unfold laneAges
  repeat' first
    | with_reducible first
        | assumption | apply modLinks_kept | apply ite_kept | apply foldl_kept
        | fail_if_no_progress (apply Kept.mk)
    | split | exact fun k (hk : coreOk k = true) => hk | intro _ | dsimp only | assumption

theorem hostAges_kept {s0 s : State} (h : Kept s0 s)  : Kept s0 (hostAges s) := by
  unfold hostAges
  repeat' first
    | with_reducible first
        | assumption | apply modHost_kept | apply modSec_kept | apply ite_kept | apply foldl_kept
        | fail_if_no_progress (apply Kept.mk)
    | split | exact fun k (hk : coreOk k = true) => hk | intro _ | dsimp only | assumption

theorem etxiaGoes_kept {s0 s : State} (h : Kept s0 s)  : Kept s0 (etxiaGoes s) := by
  unfold etxiaGoes
  repeat' first
    | with_reducible first
        | assumption | apply stagesGo_kept | apply loadsGo_kept | apply portsZero_kept | apply dumpGo_kept
        | apply ite_kept | apply foldl_kept | fail_if_no_progress (apply Kept.mk)
    | split | exact fun k (hk : coreOk k = true) => hk | intro _ | dsimp only | assumption

theorem boundaryWork_kept {s0 s : State} (h : Kept s0 s)  : Kept s0 (boundaryWork s) := by
  unfold boundaryWork
  repeat' first
    | with_reducible first
        | assumption | apply strideClose_kept | apply odInForce_kept | apply waitAges_kept | apply jobAges_kept
        | apply usageCharge_kept | apply ostlersRetire_kept | apply raiseUsed_kept | apply quietTick_kept
        | apply etxiaGoes_kept | apply curbLoad_kept | apply laneAges_kept | apply ite_kept | apply foldl_kept
        | fail_if_no_progress (apply Kept.mk)
    | split | exact fun k (hk : coreOk k = true) => hk | intro _ | dsimp only | assumption

theorem stepOpen_kept {s0 s : State} (h : Kept s0 s)  : Kept s0 (stepOpen s) := by
  unfold stepOpen
  repeat' first
    | with_reducible first
        | assumption | apply modRun_kept | apply ite_kept | apply foldl_kept | fail_if_no_progress (apply Kept.mk)
    | split | exact fun k (hk : coreOk k = true) => hk | intro _ | dsimp only | assumption

theorem waitRecord_kept {s0 s : State} (h : Kept s0 s) (e : ℕ) : Kept s0 (waitRecord e s) := by
  unfold waitRecord
  repeat' first
    | with_reducible first
        | assumption | apply event_kept | apply ite_kept | apply foldl_kept | fail_if_no_progress (apply Kept.mk)
    | split | exact fun k (hk : coreOk k = true) => hk | intro _ | dsimp only | assumption

theorem markerForward_kept {s0 s : State} (h : Kept s0 s) (m : Marker) (g : List ℕ) (root : ℕ) : Kept s0 (markerForward m g root s) := by
  unfold markerForward
  repeat' first
    | with_reducible first
        | assumption | apply forEach_kept | apply linkSend_kept | apply emit_kept | apply ite_kept
        | apply foldl_kept | fail_if_no_progress (apply Kept.mk)
    | split | exact fun k (hk : coreOk k = true) => hk | intro _ | dsimp only | assumption

theorem markerSays_kept {s0 s : State} (h : Kept s0 s) (m : Marker) : Kept s0 (markerSays m s) := by
  unfold markerSays
  repeat' first
    | with_reducible first
        | assumption | apply modStride_kept | apply ite_kept | apply foldl_kept
        | fail_if_no_progress (apply Kept.mk)
    | split | exact fun k (hk : coreOk k = true) => hk | intro _ | dsimp only | assumption

theorem markerAlign_kept {s0 s : State} (h : Kept s0 s) (m : Marker) (phase : ℤ) : Kept s0 (markerAlign m phase s) := by
  unfold markerAlign
  repeat' first
    | with_reducible first
        | assumption | apply event_kept | apply modStride_kept | apply ite_kept | apply foldl_kept
        | fail_if_no_progress (apply Kept.mk)
    | split | exact fun k (hk : coreOk k = true) => hk | intro _ | dsimp only | assumption

theorem strideBody_kept {s0 s : State} (h : Kept s0 s) (kind : ℕ) (b : BitVec 256) (f : Marker → State → State) (hf : ∀ x0 t, Kept s0 t → Kept s0 (f x0 t)) : Kept s0 (strideBody kind b f s) := by
  unfold strideBody
  repeat' first
    | with_reducible first
        | assumption | apply modMgmt_kept | apply hf | apply ite_kept | apply foldl_kept
        | fail_if_no_progress (apply Kept.mk)
    | split | exact fun k (hk : coreOk k = true) => hk | intro _ | dsimp only | assumption

theorem takeMarker_kept {s0 s : State} (h : Kept s0 s) (phase : ℤ) (m : Marker) : Kept s0 (takeMarker phase m s) := by
  unfold takeMarker
  repeat' first
    | with_reducible first
        | assumption | apply markerForward_kept | apply markerAlign_kept | apply markerSays_kept | apply ite_kept
        | apply foldl_kept | fail_if_no_progress (apply Kept.mk)
    | split | exact fun k (hk : coreOk k = true) => hk | intro _ | dsimp only | assumption

theorem announce_kept {s0 s : State} (h : Kept s0 s) (code : ℕ) : Kept s0 (announce code s) := by
  unfold announce
  repeat' first
    | with_reducible first
        | assumption | apply modStride_kept | apply ite_kept | apply foldl_kept
        | fail_if_no_progress (apply Kept.mk)
    | split | exact fun k (hk : coreOk k = true) => hk | intro _ | dsimp only | assumption

theorem takeLenReq_kept {s0 s : State} (h : Kept s0 s) (chip : BitVec 16) (m : Marker) : Kept s0 (takeLenReq chip m s) := by
  unfold takeLenReq
  repeat' first
    | with_reducible first
        | assumption | apply modStride_kept | apply ite_kept | apply foldl_kept
        | fail_if_no_progress (apply Kept.mk)
    | split | exact fun k (hk : coreOk k = true) => hk | intro _ | dsimp only | assumption

theorem stagedReport_kept {s0 s : State} (h : Kept s0 s) (chip : ℕ) (tackId : ℕ) : Kept s0 (stagedReport chip tackId s) := by
  unfold stagedReport
  repeat' first
    | with_reducible first
        | assumption | apply modJob_kept | apply ite_kept | apply foldl_kept | fail_if_no_progress (apply Kept.mk)
    | split | exact fun k (hk : coreOk k = true) => hk | intro _ | dsimp only | assumption

theorem takeEvent_kept {s0 s : State} (h : Kept s0 s) (chip : BitVec 16) (m : Marker) : Kept s0 (takeEvent chip m s) := by
  unfold takeEvent
  repeat' first
    | with_reducible first
        | assumption | apply stagedReport_kept | apply announce_kept | apply ite_kept | apply foldl_kept
        | fail_if_no_progress (apply Kept.mk)
    | split | exact fun k (hk : coreOk k = true) => hk | intro _ | dsimp only | assumption

theorem streamReadEnd_kept {s0 s : State} (h : Kept s0 s) (e : ℕ) (ag : ℕ) (a : ℕ) (lost : Option (ℕ × List Byte)) : Kept s0 (streamReadEnd e ag a lost s) := by
  unfold streamReadEnd
  repeat' first
    | with_reducible first
        | assumption | apply reqEnd_kept | apply loadLost_kept | apply ite_kept | apply foldl_kept
        | fail_if_no_progress (apply Kept.mk)
    | split | exact fun k (hk : coreOk k = true) => hk | intro _ | dsimp only | assumption

theorem streamSpadLost_kept {s0 s : State} (h : Kept s0 s) (e : ℕ) (ag : ℕ) (post : Bool) (a : ℕ) : Kept s0 (streamSpadLost e ag post a s) := by
  unfold streamSpadLost
  repeat' first
    | with_reducible first
        | assumption | apply modAg_kept | apply spadRefuse_kept | apply ite_kept | apply foldl_kept
        | fail_if_no_progress (apply Kept.mk)
    | split | exact fun k (hk : coreOk k = true) => hk | intro _ | dsimp only | assumption

theorem scalarLost_kept {s0 s : State} (h : Kept s0 s) (c : ℕ) (t : ℕ) (a : ℕ) : Kept s0 (scalarLost c t a s) := by
  unfold scalarLost
  repeat' first
    | with_reducible first
        | assumption | apply haltCore_kept | apply jobFault_kept | apply modThread_kept | apply ite_kept
        | apply foldl_kept | fail_if_no_progress (apply Kept.mk)
    | split | exact fun k (hk : coreOk k = true) => hk | intro _ | dsimp only | assumption

theorem fetchLost_kept {s0 s : State} (h : Kept s0 s) (c : ℕ) (t : ℕ) (a : ℕ) : Kept s0 (fetchLost c t a s) := by
  unfold fetchLost
  repeat' first
    | with_reducible first
        | assumption | apply spadRefuse_kept | apply ite_kept | apply foldl_kept
        | fail_if_no_progress (apply Kept.mk)
    | split | exact fun k (hk : coreOk k = true) => hk | intro _ | dsimp only | assumption

theorem tileLost_kept {s0 s : State} (h : Kept s0 s) (e a : Nat) : Kept s0 (tileLost e a s) := by
  unfold tileLost
  split
  · exact h
  split
  · exact h
  split
  · exact h
  split
  · exact h
  · exact spadRefuse_kept (abandonFiring_kept (tileRunList_kept h _ _ _ _ _ _) _ _) _ _ _ _ _ _

theorem vectorAbandon_kept {s0 s : State} (h : Kept s0 s) (k : VecAt) (a : ℕ) : Kept s0 (vectorAbandon k a s) := by
  unfold vectorAbandon
  repeat' first
    | with_reducible first
        | assumption | apply spadRefuse_kept | apply abandonFiring_kept | apply ite_kept | apply foldl_kept
        | fail_if_no_progress (apply Kept.mk)
    | split | exact fun k (hk : coreOk k = true) => hk | intro _ | dsimp only | assumption

theorem vectorLost_kept {s0 s : State} (h : Kept s0 s) (e : ℕ) (a : ℕ) (op : VecOp) (v : VecF) : Kept s0 (vectorLost e a op v s) := by
  unfold vectorLost
  repeat' first
    | with_reducible first
        | assumption | apply vectorAbandon_kept | apply writeOutAll_kept | apply measAdd_kept | apply ite_kept
        | apply foldl_kept | fail_if_no_progress (apply Kept.mk)
    | split | exact fun k (hk : coreOk k = true) => hk | intro _ | dsimp only | assumption

theorem resloadReturn_kept {s0 s : State} (h : Kept s0 s) (e : ℕ) (a : ℕ) : Kept s0 (resloadReturn e a s) := by
  unfold resloadReturn
  repeat' first
    | with_reducible first
        | assumption | apply resloadLand_kept | apply modFiring_kept | apply ite_kept | apply foldl_kept
        | fail_if_no_progress (apply Kept.mk)
    | split | exact fun k (hk : coreOk k = true) => hk | intro _ | dsimp only | assumption

theorem resloadLost_kept {s0 s : State} (h : Kept s0 s) (e : ℕ) (a : ℕ) (code : ℕ) : Kept s0 (resloadLost e a code s) := by
  unfold resloadLost
  repeat' first
    | with_reducible first
        | assumption | apply resloadAbandon_kept | apply spadRefuse_kept | apply abandonFiring_kept
        | apply resloadLand_kept | apply ite_kept | apply foldl_kept | fail_if_no_progress (apply Kept.mk)
    | split | exact fun k (hk : coreOk k = true) => hk | intro _ | dsimp only | assumption

theorem ctrlLost_kept {s0 s : State} (h : Kept s0 s) (store : ℕ) (a : ℕ) : Kept s0 (ctrlLost store a s) := by
  unfold ctrlLost
  repeat' first
    | with_reducible first
        | assumption | apply chipStopBy_kept | apply ite_kept | apply foldl_kept
        | fail_if_no_progress (apply Kept.mk)
    | split | exact fun k (hk : coreOk k = true) => hk | intro _ | dsimp only | assumption

theorem readLost_kept {s0 s : State} (h : Kept s0 s) (r : Reader) (a : ℕ) (u : ℕ) (x : Ecc) (retries : ℕ) : Kept s0 (readLost r a u x retries s) := by
  unfold readLost
  repeat' first
    | with_reducible first
        | assumption | apply whenB_kept | apply streamReadEnd_kept | apply scalarLost_kept | apply fetchLost_kept
        | apply tileLost_kept | apply vectorLost_kept | apply streamSpadLost_kept | apply resloadLost_kept
        | apply ctrlLost_kept | apply hitchTableLost_kept | apply hitchRowLost_kept | apply ite_kept
        | apply foldl_kept | fail_if_no_progress (apply Kept.mk)
    | split | exact fun k (hk : coreOk k = true) => hk | intro _ | dsimp only | assumption

theorem readNote_kept {s0 s : State} (h : Kept s0 s) (r : Reader) (a : ℕ) (x : UnitErr) : Kept s0 (readNote r a x s) := by
  unfold readNote
  repeat' first
    | with_reducible first
        | assumption | apply noteSram_kept | apply countEcc_kept | apply unitFound_kept | apply ite_kept
        | apply foldl_kept | fail_if_no_progress (apply Kept.mk)
    | split | exact fun k (hk : coreOk k = true) => hk | intro _ | dsimp only | assumption

theorem readTouch_kept {s0 s : State} (h : Kept s0 s) (r : Reader) (a : ℕ) (how : ReadEnd) : Kept s0 (readTouch r a how s) := by
  unfold readTouch
  repeat' first
    | with_reducible first
        | assumption | apply pageReadDrop_kept | apply portTouch_kept | apply ite_kept | apply foldl_kept
        | fail_if_no_progress (apply Kept.mk)
    | split | exact fun k (hk : coreOk k = true) => hk | intro _ | dsimp only | assumption

theorem readPortFailed_kept {s0 s : State} (h : Kept s0 s) (r : Reader) (a : Nat) : Kept s0 (readPortFailed r a s) := by
  cases r with
  | streamLoad e ag => exact whenB_kept h (fun hk => streamReadEnd_kept hk _ _ _ _)
  | session => exact ctrlLost_kept h _ _
  | _ => exact h

theorem readGood_kept {s0 s : State} (h : Kept s0 s) (r : Reader) (a : ℕ) : Kept s0 (readGood r a s) := by
  unfold readGood
  repeat' first
    | with_reducible first
        | assumption | apply whenB_kept | apply streamReadEnd_kept | apply resloadReturn_kept | apply ite_kept
        | apply foldl_kept | fail_if_no_progress (apply Kept.mk)
    | split | exact fun k (hk : coreOk k = true) => hk | intro _ | dsimp only | assumption

theorem readEnd_kept {s0 s : State} (h : Kept s0 s) (r : Reader) (a : Nat) (how : ReadEnd) : Kept s0 (readEnd r a how s) := by
  cases how with
  | portFailed => exact readPortFailed_kept h _ _
  | data errs =>
    have hn := forEach_kept (l := unitsIn s (plainAddr s a) (readSize r a s) errs) h
      (fun u t ht => readNote_kept ht r u.1 u.2)
    unfold readEnd
    dsimp only
    split
    · exact readLost_kept hn _ _ _ _ _
    · exact readGood_kept hn _ _

theorem coldState_kept {s0 s : State} (h : Kept s0 s) : Kept s0 (coldState s) :=
  ⟨h.1, h.2.1, h.2.2.1, fun _ => rfl⟩

theorem coresOk_all {f : Core → Core} (hf : ∀ k, coreOk k = true → coreOk (f k) = true) (l : List Nat) {m : Sparse Core}
    (h1 : scanon {} none m = true) (h2 : m.all (fun p => coreOk p.2) = true) :
    scanon {} none (l.foldl (fun m c => smod {} m c f) m) = true ∧
      (l.foldl (fun m c => smod {} m c f) m).all (fun p => coreOk p.2) = true := by
  induction l generalizing m with
  | nil => exact ⟨h1, h2⟩
  | cons c l ih => exact ih (scanon_smod h1 c f) (all_smod coreOk_default h2 c hf)

theorem warmState_kept {s0 s : State} (h : Kept s0 s) : Kept s0 (warmState s) := by
  have hr := releaseObjects_kept h
  unfold warmState
  generalize releaseObjects s = u at hr
  refine ⟨hr.1, hr.2.1, hr.2.2.1, fun h0 => ?_⟩
  have hu := hr.2.2.2 h0
  simp only [coresOk, Bool.and_eq_true] at hu ⊢
  exact coresOk_all (fun _ _ => rfl) allCores hu.1 hu.2

theorem bindPass_kept {s0 s : State} (h : Kept s0 s) (die : ℕ) (courser : Bool) : Kept s0 (bindPass die courser s) := by
  unfold bindPass
  repeat' first
    | with_reducible first
        | assumption | apply forEach_kept | apply ite_kept | apply foldl_kept | fail_if_no_progress (apply Kept.mk)
    | split | exact fun k (hk : coreOk k = true) => hk | intro _ | dsimp only | assumption

theorem rebind_kept {s0 s : State} (h : Kept s0 s) (first : State) (x : ℕ × ℕ) : Kept s0 (rebind first x s) := by
  unfold rebind
  repeat' first
    | with_reducible first
        | assumption | apply ite_kept | apply foldl_kept | fail_if_no_progress (apply Kept.mk)
    | split | exact fun k (hk : coreOk k = true) => hk | intro _ | dsimp only | assumption

theorem bindCores_kept {s0 s : State} (h : Kept s0 s)  : Kept s0 (bindCores s) := by
  unfold bindCores
  repeat' first
    | with_reducible first
        | assumption | apply bindPass_kept | apply forEach_kept | apply rebind_kept | apply modCore_kept
        | apply ite_kept | apply foldl_kept | fail_if_no_progress (apply Kept.mk)
    | split | exact fun k (hk : coreOk k = true) => hk | intro _ | dsimp only | assumption

theorem bindOstlers_kept {s0 s : State} (h : Kept s0 s)  : Kept s0 (bindOstlers s) := by
  unfold bindOstlers
  repeat' first
    | with_reducible first
        | assumption | apply forEach_kept | apply modOstler_kept | apply ite_kept | apply foldl_kept
        | fail_if_no_progress (apply Kept.mk)
    | split | exact fun k (hk : coreOk k = true) => hk | intro _ | dsimp only | assumption

theorem startStop_kept {s0 s : State} (h : Kept s0 s) (stage : ℕ) (code : ℕ) (detail : List Byte) : Kept s0 (startStop stage code detail s) := by
  unfold startStop
  repeat' first
    | with_reducible first
        | assumption | apply chipStop_kept | apply modBoot_kept | apply reducedDump_kept | apply modMgmt_kept
        | apply ite_kept | apply foldl_kept | fail_if_no_progress (apply Kept.mk)
    | split | exact fun k (hk : coreOk k = true) => hk | intro _ | dsimp only | assumption

theorem stageFuses_kept {s0 s : State} (h : Kept s0 s)  : Kept s0 (stageFuses s) := by
  unfold stageFuses
  repeat' first
    | with_reducible first
        | assumption | apply modStride_kept | apply bindOstlers_kept | apply bindCores_kept | apply modTiers_kept
        | apply modSec_kept | apply ite_kept | apply foldl_kept | fail_if_no_progress (apply Kept.mk)
    | split | exact fun k (hk : coreOk k = true) => hk | intro _ | dsimp only | assumption

theorem stageTumbler_kept {s0 s : State} (h : Kept s0 s) (x : ℕ × Bool) : Kept s0 (stageTumbler x s) := by
  unfold stageTumbler
  repeat' first
    | with_reducible first
        | assumption | apply modBoot_kept | apply ite_kept | apply foldl_kept | fail_if_no_progress (apply Kept.mk)
    | split | exact fun k (hk : coreOk k = true) => hk | intro _ | dsimp only | assumption

theorem stageConfig_kept {s0 s : State} (h : Kept s0 s) (x : ℕ × Bool) : Kept s0 (stageConfig x s) := by
  unfold stageConfig
  repeat' first
    | with_reducible first
        | assumption | apply modBoot_kept | apply ite_kept | apply foldl_kept | fail_if_no_progress (apply Kept.mk)
    | split | exact fun k (hk : coreOk k = true) => hk | intro _ | dsimp only | assumption

theorem portZero_kept {s0 s : State} (h : Kept s0 s) (p : Nat) : Kept s0 (portZero p s) := by
  have hc := curbCharge_kept h p 4 (lHalf s / 8 / 64)
  unfold portZero
  dsimp only
  split
  · exact ⟨hc.1, fun hw => scanon_filter (hc.2.1 hw) _, hc.2.2⟩
  · exact forEach_kept hc (fun a t ht => writeBytes_kept ht _ _)

theorem portObjects_kept {s0 s : State} (h : Kept s0 s) (p : ℕ) : Kept s0 (portObjects p s) := by
  unfold portObjects
  repeat' first
    | with_reducible first
        | assumption | apply forEach_kept | apply dirRemove_kept | apply ite_kept | apply foldl_kept
        | fail_if_no_progress (apply Kept.mk)
    | split | exact fun k (hk : coreOk k = true) => hk | intro _ | dsimp only | assumption

theorem stageMemory_kept {s0 s : State} (h : Kept s0 s) (i : StartIn) : Kept s0 (stageMemory i s) := by
  unfold stageMemory
  repeat' first
    | with_reducible first
        | assumption | apply forEach_kept | apply modPort_kept | apply ite_kept | apply foldl_kept
        | fail_if_no_progress (apply Kept.mk)
    | split | exact fun k (hk : coreOk k = true) => hk | intro _ | dsimp only | assumption

theorem stageRelease_kept {s0 s : State} (h : Kept s0 s) (x : StartIn) : Kept s0 (stageRelease x s) := by
  unfold stageRelease
  repeat' first
    | with_reducible first
        | assumption | apply forEach_kept | apply event_kept | apply modOstler_kept | apply modSec_kept
        | apply modMgmt_kept | apply ite_kept | apply foldl_kept | fail_if_no_progress (apply Kept.mk)
    | split | exact fun k (hk : coreOk k = true) => hk | intro _ | dsimp only | assumption

theorem stageTables_kept {s0 s : State} (h : Kept s0 s) (i : StartIn) : Kept s0 (stageTables i s) := by
  unfold stageTables
  repeat' first
    | with_reducible first
        | assumption | apply modSft_kept | apply ite_kept | apply foldl_kept | fail_if_no_progress (apply Kept.mk)
    | split | exact fun k (hk : coreOk k = true) => hk | intro _ | dsimp only | assumption

theorem copyDump_kept {s0 s : State} (h : Kept s0 s)  : Kept s0 (copyDump s) := by
  unfold copyDump
  repeat' first
    | with_reducible first
        | assumption | apply dumpGo_kept | apply modDumps_kept | apply ite_kept | apply foldl_kept
        | fail_if_no_progress (apply Kept.mk)
    | split | exact fun k (hk : coreOk k = true) => hk | intro _ | dsimp only | assumption

theorem stageEtxia_kept {s0 s : State} (h : Kept s0 s) (i : StartIn) : Kept s0 (stageEtxia i s) := by
  unfold stageEtxia
  repeat' first
    | with_reducible first
        | assumption | apply stageTables_kept | apply defaultBudgets_kept | apply forEach_kept | apply modLink_kept
        | apply modJob_kept | apply modBoot_kept | apply copyDump_kept | apply ite_kept | apply foldl_kept
        | fail_if_no_progress (apply Kept.mk)
    | split | exact fun k (hk : coreOk k = true) => hk | intro _ | dsimp only | assumption

theorem startLate_kept {s0 s : State} (h : Kept s0 s) (i : StartIn) : Kept s0 (startLate i s) := by
  unfold startLate
  repeat' first
    | with_reducible first
        | assumption | apply startStop_kept | apply stageEtxia_kept | apply stageRelease_kept | apply modBoot_kept
        | apply ite_kept | apply foldl_kept | fail_if_no_progress (apply Kept.mk)
    | split | exact fun k (hk : coreOk k = true) => hk | intro _ | dsimp only | assumption

theorem startRun_kept {s0 s : State} (h : Kept s0 s) (i : StartIn) : Kept s0 (startRun i s) := by
  unfold startRun
  repeat' first
    | with_reducible first
        | assumption | apply startStop_kept | apply stageFuses_kept | apply modBoot_kept | apply stageTumbler_kept
        | apply startLate_kept | apply stageMemory_kept | apply stageConfig_kept | apply ite_kept
        | apply foldl_kept | fail_if_no_progress (apply Kept.mk)
    | split | exact fun k (hk : coreOk k = true) => hk | intro _ | dsimp only | assumption

theorem startAdmit_kept {s0 s : State} (h : Kept s0 s) (i : StartIn) : Kept s0 (startAdmit i s) := by
  unfold startAdmit
  repeat' first
    | with_reducible first
        | assumption | apply event_kept | apply modBoot_kept | apply setAct_kept | apply ite_kept
        | apply foldl_kept | fail_if_no_progress (apply Kept.mk)
    | split | exact fun k (hk : coreOk k = true) => hk | intro _ | dsimp only | assumption

theorem coreClear_kept {s0 s : State} (h : Kept s0 s) (c : Nat) : Kept s0 (coreClear c s) := by
  unfold coreClear
  apply forEach_kept
  · exact modCore_kept h _ _ (fun _ _ => rfl)
  · intro e t ht
    exact modEng_kept ht _ _

theorem coreWriteOff_kept {s0 s : State} (h : Kept s0 s) (c : ℕ) : Kept s0 (coreWriteOff c s) := by
  unfold coreWriteOff
  repeat' first
    | with_reducible first
        | assumption | apply ite_kept | apply foldl_kept | fail_if_no_progress (apply Kept.mk)
    | split | exact fun k (hk : coreOk k = true) => hk | intro _ | dsimp only | assumption

theorem imgStep_kept {s0 s : State} (h : Kept s0 s) (f : Boot → Boot) : Kept s0 (imgStep f s) := by
  unfold imgStep
  repeat' first
    | with_reducible first
        | assumption | apply modBoot_kept | apply event_kept | apply ite_kept | apply foldl_kept
        | fail_if_no_progress (apply Kept.mk)
    | split | exact fun k (hk : coreOk k = true) => hk | intro _ | dsimp only | assumption

theorem rollNext_kept {s0 s : State} (h : Kept s0 s) (n : ℕ) : Kept s0 (rollNext n s) := by
  unfold rollNext
  repeat' first
    | with_reducible first
        | assumption | apply imgStep_kept | apply modBoot_kept | apply ite_kept | apply foldl_kept
        | fail_if_no_progress (apply Kept.mk)
    | split | exact fun k (hk : coreOk k = true) => hk | intro _ | dsimp only | assumption

theorem imgRefuse_kept {s0 s : State} (h : Kept s0 s)  : Kept s0 (imgRefuse s) := by
  unfold imgRefuse
  repeat' first
    | with_reducible first
        | assumption | apply modMgmt_kept | apply modBoot_kept | apply ite_kept | apply foldl_kept
        | fail_if_no_progress (apply Kept.mk)
    | split | exact fun k (hk : coreOk k = true) => hk | intro _ | dsimp only | assumption

theorem sdoFine_kept {s0 s : State} (h : Kept s0 s)  : Kept s0 (sdoFine s) := by
  unfold sdoFine
  repeat' first
    | with_reducible first
        | assumption | apply modMgmt_kept | apply ite_kept | apply foldl_kept | fail_if_no_progress (apply Kept.mk)
    | split | exact fun k (hk : coreOk k = true) => hk | intro _ | dsimp only | assumption

theorem imgFail_kept {s0 s : State} (h : Kept s0 s) (e : ℕ) : Kept s0 (imgFail e s) := by
  unfold imgFail
  repeat' first
    | with_reducible first
        | assumption | apply sdoFine_kept | apply imgStep_kept | apply ite_kept | apply foldl_kept
        | fail_if_no_progress (apply Kept.mk)
    | split | exact fun k (hk : coreOk k = true) => hk | intro _ | dsimp only | assumption

theorem tumblerBack_kept {s0 s : State} (h : Kept s0 s)  : Kept s0 (tumblerBack s) := by
  unfold tumblerBack
  repeat' first
    | with_reducible first
        | assumption | apply modBoot_kept | apply noteChange_kept | apply modMgmt_kept | apply ite_kept
        | apply foldl_kept | fail_if_no_progress (apply Kept.mk)
    | split | exact fun k (hk : coreOk k = true) => hk | intro _ | dsimp only | assumption

theorem syncOp_kept {s0 s : State} (h : Kept s0 s) (r : SyncReq) (off : ℕ) (st : Bool) (data : Word) : Kept s0 (syncOp r off st data s).1 := by
  unfold syncOp
  repeat' first
    | with_reducible first
        | assumption | apply opSet_kept | apply opAdd_kept | apply opArrive_kept | apply opFetchInc_kept
        | apply opClaim_kept | apply opWait_kept | apply ite_kept | apply foldl_kept
        | fail_if_no_progress (apply Kept.mk)
    | split | exact fun k (hk : coreOk k = true) => hk | intro _ | dsimp only | assumption

theorem hitchDeliver_kept {s0 s : State} (h : Kept s0 s) (p : Packet) : Kept s0 (hitchDeliver p s).1 := by
  unfold hitchDeliver
  repeat' first
    | with_reducible first
        | assumption | apply modLinks_kept | apply hitchIn_kept | apply ite_kept | apply foldl_kept
        | fail_if_no_progress (apply Kept.mk)
    | split | exact fun k (hk : coreOk k = true) => hk | intro _ | dsimp only | assumption

theorem relayWhole_kept {s0 s : State} (h : Kept s0 s) (k : Fin 2) (c : ℕ) (b : List Byte) : Kept s0 (relayWhole k c b s).1 := by
  unfold relayWhole
  repeat' first
    | with_reducible first
        | assumption | apply modWeights_kept | apply relayIntro_kept | apply relayChunk_kept | apply ite_kept
        | apply foldl_kept | fail_if_no_progress (apply Kept.mk)
    | split | exact fun k (hk : coreOk k = true) => hk | intro _ | dsimp only | assumption

theorem relayDeliver_kept {s0 s : State} (h : Kept s0 s) (p : Packet) : Kept s0 (relayDeliver p s).1 := by
  unfold relayDeliver
  repeat' first
    | with_reducible first
        | assumption | apply relayNoted_kept | apply modWeights_kept | apply relayWhole_kept | apply ite_kept
        | apply foldl_kept | fail_if_no_progress (apply Kept.mk)
    | split | exact fun k (hk : coreOk k = true) => hk | intro _ | dsimp only | assumption

theorem freePhase_kept {s0 s : State} (h : Kept s0 s)  : Kept s0 (freePhase s).2 := by
  unfold freePhase
  repeat' first
    | with_reducible first
        | assumption | apply takeFree_kept | apply ite_kept | apply foldl_kept
        | fail_if_no_progress (apply Kept.mk)
    | split | exact fun k (hk : coreOk k = true) => hk | intro _ | dsimp only | assumption

theorem strideDeliver_kept {s0 s : State} (h : Kept s0 s) (p : Packet) : Kept s0 (strideDeliver p s) := by
  unfold strideDeliver
  repeat' first
    | with_reducible first
        | assumption | apply freePhase_kept | apply strideBody_kept | apply takeMarker_kept | apply takeLenReq_kept
        | apply takeEvent_kept | apply ite_kept | apply foldl_kept | fail_if_no_progress (apply Kept.mk)
    | split | exact fun k (hk : coreOk k = true) => hk | intro _ | dsimp only | assumption

theorem packetDeliver_kept {s0 s : State} (h : Kept s0 s) (p : Packet) : Kept s0 (packetDeliver p s).1 := by
  unfold packetDeliver
  repeat' first
    | with_reducible first
        | assumption | apply tokenArrive_kept | apply creditReturn_kept | apply syncServe_kept | apply syncOp_kept
        | apply syncReturn_kept | apply hitchDeliver_kept | apply hitchCredit_kept | apply relayDeliver_kept
        | apply strideDeliver_kept | apply unreachAct_kept | apply ite_kept | apply foldl_kept
        | fail_if_no_progress (apply Kept.mk)
    | split | exact fun k (hk : coreOk k = true) => hk | intro _ | dsimp only | assumption

theorem packetTake_kept {s0 s : State} (h : Kept s0 s) (l : LinkId) (v : ℕ) (p : Packet) : Kept s0 (packetTake l v p s).1 := by
  unfold packetTake
  repeat' first
    | with_reducible first
        | assumption | apply modMgmt_kept | apply packetDeliver_kept | apply linkSend_kept | apply packetLost_kept
        | apply ite_kept | apply foldl_kept | fail_if_no_progress (apply Kept.mk)
    | split | exact fun k (hk : coreOk k = true) => hk | intro _ | dsimp only | assumption

end Sys2Proof.Machine
end

