-- ==== Sys2Proof/Tests/Slice0.lean ====
section
/-!
SUPPORT. Tests: well-formedness, worked examples of the spec, and for each statement a state that meets its hypotheses.
-/
namespace Sys2Proof.Tests

set_option Elab.async false

open Sys2Proof Sys2Proof.Machine

/-! ## Small states -/

/-- The next state of a command, or the state as it was. -/
def ran (c : Instr) (s : State) : State :=
  match exec c s with
  | .next t => t
  | _ => s

/-- Started up, core 0 bound to physical core 0, its thread 0 enabled, S1 = 20 and S2 = 22. -/
def up : State := { State.reset with
  boot := { stage := 7 }, bindings := [(0, { phys := 0, unbacked := false })]
  cores := [(0, { threads := [(0, { en := true })], sreg := [(1, 20), (2, 22)] })] }

/-- In the boundary window, before action `k`. -/
def inWin (s : State) : State := modStride (fun t => { t with window := true, act := 1 }) s

/-- Address `off` of core 0's scratchpad, and of its aliases. -/
def spad0 : Word := 0xF00000000000
def set0 : Word := 0xF04000000000
def clr0 : Word := 0xF08000000000

/-! ## Well-formed commands -/

/-- One ill-formed command for each check of a register, stride or field-network operand; each is refused. -/
theorem test_wf_refuses_registers : ([
    .registerWrite (.host true) 0x4000000 8 0 0, .registerWrite .ostler 0 3 0 0, .readLowWordLatch 0x4000000 8 true,
    .readLowWordLatch 0 5 true, .bar0UnimplementedAccess true 0x4000000 8 true, .bar0UnimplementedAccess true 0 16 true,
    .strideBoundary { pMeasW := 65536 }, .strideBoundary { tailW := 65536 },
    .odOvfClear 65536 0 0 0, .odOvfClear 0 256 0 0, .sdoRead 65536 0, .sdoRead 0 256, .sdoWrite 65536 0 0, .sdoWrite 0 256 0,
    .outputImageAccept { budget := 65536 }, .bar2Read (2 ^ 36) 8 [] true, .bar2Read 0 0 [] true, .bar2Read 0 4097 [] true,
    .bar2Read 0 8 [(64, {}), (0, {})] true, .bar2Write (2 ^ 36) [1] [] true true, .bar2Write 0 [] [] true true,
    .bar2Write 0 (List.replicate 513 0) [] true true, .bar2Write 0 [1] [(0, {}), (0, {})] true true,
    .tierReadReturn .host 0 (.data [(64, {}), (0, {})]) false, .patrolScrub 0 [{}], .startUp { imageOk := [true] }, .startUp { failed := [40] }, .startUp { absent := [40] },
    .chipFault { code := 65536 }, .slotStagedReport 0 (2 ^ 64)] : List Instr).all (fun i => !i.wf) = true := by decide +kernel

/-- One ill-formed command for each check of a message, a ring entry, a packet or a link operand; each is refused. -/
theorem test_wf_refuses_messages : ([
    .hitchDispatchArrive 0 { src := 256 } 0 [] [], .hitchDispatchArrive 0 { token := 65536 } 0 [] [], .hitchEndMarker 0 { src := 256 },
    .expertReturnSend 0 0 65536, .hitchReturnArrive 0 { token := 65536 } 0 0 [], .hitchReturnArrive 0 {} 65536 0 [],
    .sessOpen { reqTag := 2 ^ 64 }, .sessOpen { session := 2 ^ 32 }, .sessOpen { kvTier := 2 }, .sessOpen { src := 2 ^ 64 },
    .sessAppend { client := 4096 }, .sessAppend { count := 2 ^ 24 }, .sessAppend { parentsAt := 2 ^ 64 }, .sessVerify { out := 2 ^ 64 },
    .sessVerify { maxNew := 2 ^ 32 }, .sessVerify { endToken := 2 ^ 32 }, .sessCancel { target := 2 ^ 64 },
    .sessCancel { tokens := [2 ^ 32] }, .sessClose { parents := [2 ^ 32] },
    .weightLoad { cmdTag := 2 ^ 64 } true [], .weightDrop { objId := 2 ^ 32 }, .weightStage { tier := 4 } true {} [], .weightBind { die := 2 },
    .weightList { modelId := 2 ^ 32 }, .weightList { src := 2 ^ 64 }, .weightList { bytes := 2 ^ 64 }, .weightList { session := 2 ^ 32 },
    .weightList { status := 2 ^ 64 }, .weightRelay { desc := 2 ^ 64 } true [], .weightRelay { hops := 2 ^ 13 } true [],
    .jobSubmit { cmdTag := 2 ^ 64 }, .jobSubmit { tackId := 2 ^ 64 }, .jobEnd { client := 4096 }, .jobEnd { target := 2 ^ 64 },
    .jobTenant { term := 2 ^ 21 }, .tackInstall { rootStrides := 2 ^ 32 },
    .unreachReceive 0 256] :
      List Instr).all (fun i => !i.wf) = true := by decide +kernel

/-- The empty operands are well-formed. -/
theorem test_wf_accepts : ([.registerWrite (.host true) 0 8 0 0, .strideBoundary {}, .sessOpen {}, .weightLoad {} true [], .jobSubmit {},
    .packetReceive 0 0, .bar2Read 0 8 [(0, {}), (64, {})] true, .tierReadReturn .host 0 (.data []) false, .startUp {}, .markerReceive 0 0] : List Instr).all Instr.wf = true := by decide

/-! ## Hypotheses of the statements about steps, scalar instructions and stores -/

/-- The machine answers a next state. -/
def answers (o : Host.Outcome State Fault Refusal) : Bool :=
  match o with
  | .next _ => true
  | _ => false

/-- The fault code of the running job, 0 for none. -/
def faultOf (s : State) : Nat := (s.job.run.map (fun r => r.code)).getD 0

theorem test_met_StepRunsFront : ({ up with pending := [.markerLoss, .coldReset] } : State).pending = .markerLoss :: [.coldReset] ∧
    up.pending = [] := by decide +kernel

theorem test_met_StepKeepsForm :
    let s : State := { up with pending := [.add 0 0 { dst := 3, src1 := 1 }] }
    answers (step s) = true ∧ Memory.wf s.mem = true ∧ coresOk s = true := by decide +kernel

theorem test_met_rules_over_all_commands :
    let s : State := { up with chipFault := some 0x0B02 }
    answers (exec .markerLoss s) = true ∧ s.chipFault = some 0x0B02 ∧ Instr.markerLoss ≠ .coldReset ∧ Instr.markerLoss ≠ .warmReset ∧
    Instr.markerLoss ≠ .changeoverClose := by decide +kernel

theorem test_met_RegisterFile : coresOk up = true := by decide +kernel

theorem test_met_ScalarResults :
    let f : ScalarF := { dst := 3, src1 := 1, src2 := 2 }
    groomReady up 0 0 = true ∧ (threadOf up 0 0).pc % 8 = 0 ∧ spadBacked up 0 (threadOf up 0 0).pc 8 = true ∧
    spadBacked up 0 ((threadOf up 0 0).pc + 8) 8 = true ∧ f.rsvd = 0 ∧ coresOk up = true := by decide +kernel

theorem test_add_writes : sreg (ran (.add 0 0 { dst := 3, src1 := 1, src2 := 2, imm := 1 }) up) 0 3 = 43 := by decide +kernel
theorem test_sub_wraps : sreg (ran (.sub 0 0 { dst := 3, src1 := 1, src2 := 2 }) up) 0 3 = 0xFFFFFFFFFFFFFFFE := by decide +kernel
theorem test_s0_stays : sreg (ran (.add 0 0 { dst := 0, src1 := 1, src2 := 2 }) up) 0 0 = 0 := by decide +kernel
theorem test_li_extends : sreg (ran (.li 0 0 { dst := 3, imm := 0xFFFFFFFF }) up) 0 3 = 0xFFFFFFFFFFFFFFFF := by decide +kernel
theorem test_lui_keeps_low : sreg (ran (.lui 0 0 { dst := 1, imm := 7 }) up) 0 1 = 0x700000014 := by decide +kernel
theorem test_sar_fills : sreg (ran (.sar 0 0 { dst := 3, src1 := 4, imm := 65 })
    (setSreg 0 4 0x8000000000000000 up)) 0 3 = 0xC000000000000000 := by decide +kernel

/-- A branch taken, one not taken to PC + 8, a target outside the scratchpad, and a reserved field. -/
theorem test_met_BranchTargets :
    let f : ScalarF := { src1 := 1, src2 := 2, imm := 16 }
    let g : ScalarF := { imm := 0x80000000 }
    spadBacked up 0 128 8 = true ∧ pcBacked up 0 (0 + g.imm.toInt * 8) = false ∧ tilesOpen up 0 0 = false ∧
    tilesOpen (modEng 0 (fun k => { k with held := [{ kind := .tmac, thread := 0, step := 0, pc := 0 }] }) up) 0 0 = true ∧
    (threadOf (ran (.blt 0 0 f) up) 0 0).pc = 128 ∧ (threadOf (ran (.beq 0 0 f) up) 0 0).pc = 8 ∧
    (coreOf (ran (.jmp 0 0 g) up) 0).fault.code = 0x0315 := by decide +kernel

/-- Core 0 with the write of `v` to the alias address `a` of its thread 0 on its way to the bank. -/
def atBank (a : Nat) (v : Word) (s : State) : State := modThread 0 0 (fun h => { h with wait := .bank a v }) s

theorem test_met_AliasWrites :
    let f : ScalarF := { src1 := 4, src2 := 2, imm := 8 }
    let s := setSreg 0 4 set0 up
    let t := setSreg 0 4 clr0 up
    let a := sreg s 0 f.src1 + f.imm.signExtend 64
    let b := sreg t 0 f.src1 + f.imm.signExtend 64
    a.toNat % 8 = 0 ∧ a.toNat < 2 ^ 48 ∧ regionOf s a.toNat = .setAlias 0 8 ∧ regionOf t b.toNat = .clrAlias 0 8 ∧
    Memory.wf up.mem = true ∧ fabricUp up = true ∧
    aliasNext (atBank 0xF04000000008 6 up) (.groom 0 0) = some (0xF04000000008, 6) ∧
    aliasTarget up 0xF04000000008 = some (true, 0, 8) ∧ aliasTarget up 0xF08000000008 = some (false, 0, 8) := by decide +kernel

theorem test_alias_sets : readWord (ran (.aliasWrite (.groom 0 0) {})
    (atBank 0xF04000000008 6 (writeWord 0xF00000000008 9 up))) 0xF00000000008 = 15 := by decide +kernel
theorem test_alias_clears : readWord (ran (.aliasWrite (.groom 0 0) {})
    (atBank 0xF08000000008 12 (writeWord 0xF00000000008 9 up))) 0xF00000000008 = 1 := by decide +kernel

/-- The last word of core 0's scratchpad. -/
theorem test_met_LoadsAndStores :
    let f : ScalarF := { dst := 3, src1 := 4, src2 := 2, imm := 0x2FFFF8 }
    let s := setSreg 0 4 spad0 up
    let a := sreg s 0 f.src1 + f.imm.signExtend 64
    a.toNat % 8 = 0 ∧ a.toNat < 2 ^ 48 ∧ regionOf s a.toNat = .spad 0 0x2FFFF8 := by decide +kernel

theorem test_st_then_ld :
    let s := ran (.st 0 0 { src1 := 4, src2 := 2 }) (setSreg 0 4 0xF00000000100 up)
    sreg (ran (.scalarLoadReturn 0 0) (ran (.ld 0 0 { dst := 3, src1 := 4 }) s)) 0 3 = 22 := by decide +kernel


/-! ## Synchronisation -/

/-- A part whose object 5 is `o`. -/
def withObj (o : SyncObj) : State := { up with sync := { objs := [(5, o)] } }

/-- A request of core 0, thread 0 for object 5. -/
def ask : SyncReq := { obj := 5 }

theorem test_met_CounterOperations :
    let s := withObj { type := 1, value := 3 }
    let d : Word := 4
    fabricUp s = true ∧ s.job.chgOpen = false ∧ ask.epoch = s.job.epoch ∧ (objOf s ask.obj.val).type = 1 ∧
    (objOf s 5).value < d.toInt ∧ (3 : Word).toInt ≤ (objOf s 5).value := by decide +kernel

theorem test_counter_clamps :
    let s := ran (.counterAdd ask 5) (withObj { type := 1, value := 2 ^ 63 - 2 })
    (objOf s 5).value = 2 ^ 63 - 1 ∧ (objOf s 5).ovf = true := by decide +kernel

/-- The last arrival and an arrival before it. -/
theorem test_met_BarrierOperations :
    let s := withObj { type := 2, param := 3, count := 2 }
    let t := withObj { type := 2, param := 3, count := 1 }
    fabricUp s = true ∧ (objOf s 5).type = 2 ∧ (objOf s 5).param = (objOf s 5).count + 1 ∧ (objOf t 5).type = 2 ∧
    (objOf t 5).count + 1 < (objOf t 5).param := by decide +kernel

theorem test_barrier_releases :
    let s := ran (.barrierArrive ask) (withObj { type := 2, param := 3, count := 2, gen := 0xFFFFFFFF })
    (objOf s 5).count = 0 ∧ (objOf s 5).gen = 0 := by decide +kernel

/-- A replay, the next sequence number with and without work left, one out of order, a first claim, and a core not listed. -/
theorem test_met_WorkctrClaims :
    let j : Claim := { chip := 0, core := 0, valid := true, seq := 0xFFFF, result := 7 }
    let s := withObj { type := 3, param := 2, next := 8, limit := 9, claims := [j] }
    let t := withObj { type := 3, param := 2, next := 9, limit := 9, claims := [{ j with valid := false }] }
    let o := objOf s 5
    o.type = 3 ∧ claimSlot o.claims 0 0 = some 0 ∧ o.claims[0]? = some j ∧ claimSlot o.claims 0 1 = none ∧
    (0xFFFF : BitVec 16) = j.seq ∧ (0 : BitVec 16) = j.seq + 1 ∧ (0 : BitVec 16) ≠ j.seq ∧ (1 : BitVec 16) ≠ j.seq + 1 ∧
    (1 : BitVec 16) ≠ j.seq ∧ o.next < o.limit ∧ (objOf t 5).limit ≤ (objOf t 5).next ∧ (objOf t 5).type = 3 := by decide +kernel

theorem test_workctr_grants :
    let s := ran (.workctrClaim ask 0) (withObj { type := 3, param := 4, next := 8, limit := 9,
                                                  claims := [{ chip := 0, core := 0, valid := true, seq := 0xFFFF }] })
    (objOf s 5).next = 12 ∧ (objOf s 5).claims.map (fun k => (k.seq, k.result)) = [(0, 8)] := by decide +kernel

/-- Core 0, thread 0 waits for object 5 of another chip, reissued `n` times. -/
def waiting (n : Nat) : State :=
  modThread 0 0 (fun h => { h with wait := .remote 3 (9 * 2 ^ 16 + 5 * 4 + 2) 1 true n }) up

theorem test_met_SyncWaitsEnd :
    let s := inWin (withObj { type := 1, waitLimit := 2, waiters := [{ chip := 0, core := 0, thread := 0, bound := 9, spans := 2 }] })
    fabricUp up = true ∧ (threadOf (waiting 2) 0 0).wait = .remote 3 (9 * 2 ^ 16 + 5 * 4 + 2) 1 true 2 ∧
    coreStale (waiting 2) 0 = false ∧ (threadOf (waiting 3) 0 0).wait = .remote 3 (9 * 2 ^ 16 + 5 * 4 + 2) 1 true 3 ∧
    ((objOf s 5).waiters.any (fun x => (objOf s 5).waitLimit ≤ x.spans)) = true ∧ mayAct s 1 = true := by decide +kernel

theorem test_sync_response_lands : sreg (ran (.syncResponse 0 0 77) (waiting 0)) 0 3 = 77 := by decide +kernel


/-! ## Tiles, reins and the end of a job -/

/-- A gait descriptor: VALID, ACC_COUNT 2, RES_LEN 4,096 (R131). -/
def gaitBits : BitVec 512 := BitVec.ofNat 512 (1 + 2 * 2 ^ 69 + 4096 * 2 ^ 128)
def gait0 : Gait := gaitDecode gaitBits

/-- The header of tack `id` for `n` chips with the given FLAGS and SFT_ID: TACK_VER 4, INSTALL_STRIDES 3 (R433). -/
def header (flags id sft n : Nat) : BitVec 2048 :=
  BitVec.ofNat 2048 (4 + flags * 2 ^ 32 + id * 2 ^ 64 + sft * 2 ^ 128 + n * 2 ^ 160 + 3 * 2 ^ 192)

/-- A tack of one engine with one gait, owned by thread 0; its schedule is one firing of slot 0 (R135). -/
def plan : Tack := {
  header := header 0 7 0 1
  engines := [{ engine := 0, gaits := [(0, gaitBits)], sched := [[(0x0001, true)]] }]
  cores := [{ core := 0, owners := [[(0, 0)]], entries := [[(0, 0)]] }] }

/-- The places of those fields, written out from R131, R135 and R433. -/
theorem test_tack_bits :
    gait0 = { valid := true, accCount := 2, resLen := 4096 } ∧ schedOf plan 0 0 = [{ slot := 0, firings := 1, tile := true }] ∧
    schedDecode (0xA005, false) = { slot := 5, firings := 5, tile := false } ∧
    plan.ver = 4 ∧ plan.tackId = 7 ∧ plan.serving = false ∧ plan.groupChips = 1 ∧ plan.installStrides = 3 ∧
    plan.headerRsvd = false := by decide +kernel

def run0 : Running := { cmd := { cmdTag := 1, tackId := 7 }, tack := plan, termLeft := 10, started := true, avail := 1 }

/-- The tack runs; S4 is the base of core 0's scratchpad, S5 = 32. -/
def busy : State := setSreg 0 5 32 (setSreg 0 4 spad0 { up with
  job := { run := some run0 }
  engines := [(0, { gaits := [(0, gait0)], wait := 0, entries := [{ slot := 0, firings := 1, tile := true }] })] })

def mac0 : TileF := { mExt := 1, nExt := 1, kExt := 32, aBase := 4, aPitch := 5, saBase := 4, swBase := 4, keep := true, init := true }
def out0 : TileF := { mExt := 1, nExt := 1, outBase := 4, outPitch := 5, rqBase := 4 }
def res0 : ResloadF := { src := 4, len := 64 }

def accepted (a : Accept) : Bool :=
  match a with
  | .ok _ => true
  | .refuse .. => false

def refusedAs (a : Accept) : Nat :=
  match a with
  | .ok _ => 0
  | .refuse code _ _ _ => code

/-- A full hold: four accepted instructions. -/
def full : State := modEng 0 (fun k => { k with held := List.replicate 4 { kind := .tmac, thread := 0, step := 0, pc := 0 } }) busy

/-- Each kind is accepted, waits at a full hold, and is refused where a reserved field is 1; PC 0 is aligned and backed. -/
theorem test_met_TileIssue :
    let s := writeBytes 0xF00000000000 (bytesLE 4 0x00010801) busy
    groomReady s 0 0 = true ∧ (threadOf s 0 0).pc % 32 = 0 ∧ spadBacked s 0 0 32 = true ∧ spadBacked s 0 32 8 = true ∧
    holdCount s 0 = 0 ∧ accepted (tileAccept s 0 0 false mac0) = true ∧ accepted (tileAccept s 0 0 true out0) = true ∧
    accepted (resloadAccept s 0 0 res0) = true ∧ 4 ≤ holdCount full 0 ∧ accepted (tileAccept full 0 0 false mac0) = true ∧
    refusedAs (tileAccept s 0 0 false { mac0 with rsvd := true }) = 0x0310 := by decide +kernel

/-- Queue 2 of engine 0 with 2 credits for tokens of chip 0, engine 8, port 1. -/
def queueState (n : Nat) : State := { busy with
  reinIn := [(2, { cfg := { srcEngine := 8, srcPort := 1, credits := 2, q := 1, en := true }, bound := 2
                   tokens := List.replicate n { dstQueue := 2 } })] }

def tok (tag : BitVec 16) (src : EngId) : TokenMsg := { srcEngine := src, srcPort := 1, dstQueue := 2, tag := tag }

/-- A free slot, the last free slot, none, a token of another source and one two epochs away. -/
theorem test_met_TokensArrive :
    let r := rinOf (queueState 1) 0 2
    fabricUp busy = true ∧ busy.job.chgOpen = false ∧ tagEpoch (tok 0x2000 8).tag ≠ busy.job.epoch ∧
    tagEpoch (tok 0x2000 8).tag ≠ busy.job.epoch + 1 ∧ tagEpoch (tok 0x0FFF 8).tag = busy.job.epoch ∧
    (coreOf busy 0).halted = false ∧ coreStale busy 0 = false ∧
    (r.cfg.en = true ∧ r.cfg.srcChip = 0 ∧ r.cfg.srcEngine = (tok 0 8).srcEngine.val ∧ r.cfg.srcPort = (tok 0 8).srcPort.val) ∧
    r.tokens.length < r.cfg.credits ∧ r.tokens.length + 1 ≤ r.bound ∧ r.cfg.srcEngine ≠ (tok 0 9).srcEngine.val ∧
    (rinOf (queueState 2) 0 2).cfg.credits ≤ (rinOf (queueState 2) 0 2).tokens.length := by decide +kernel

theorem test_token_joins :
    let s := ran (.tokenArrive (tok 0 8)) (queueState 1)
    (rinOf s 0 2).tokens.length = 2 ∧ (rinOf s 0 2).recvSeq = 1 := by decide +kernel

theorem test_token_of_another_source : faultOf (ran (.tokenArrive (tok 0 9)) (queueState 1)) = 0x0203 := by decide +kernel

theorem test_met_CreditsReturn :
    let s : State := { busy with reinOut := [(3, { cfg := { credits := 4, p := 1, en := true }, avail := 3 })]
                                 reinIn := [(2, { cfg := { srcEngine := 8, srcPort := 1 }, freed := [(0, 16)] })] }
    fabricUp s = true ∧ s.job.chgOpen = false ∧ (routOf s 0 3).avail + (1 : BitVec 5).toNat ≤ (routOf s 0 3).cfg.credits ∧
    (routOf s 0 3).cfg.credits < (routOf s 0 3).avail + (2 : BitVec 5).toNat ∧ (rinOf s 0 2).freed = (0, 16) :: [] ∧
    coreStale s 0 = false ∧ s.chipFault = none ∧ (routOf (ran (.creditReturn 0 3 1 0) s) 0 3).avail = 4 ∧
    faultOf (ran (.creditReturn 0 3 2 0) s) = 0x0201 := by decide +kernel

/-- The job `r` in the boundary window. -/
def ending (r : Running) : State := inWin { busy with job := { run := some r } }

/-- A drain that may begin, is complete, with and without stale tokens counted, times out one stride after its bound, and is hard-stopped;
credits written off after 64, all home and one still out. -/
theorem test_met_JobDrains :
    let a := modStride (fun t => { t with act := 9 }) (ending { run0 with reason := some 2 })
    let b := ending { run0 with draining := true }
    let c := inWin { queueState 1 with job := { run := some { run0 with draining := true, drainAge := 64 } } }
    let d := ending { run0 with draining := true, hardStop := true }
    let f : State := { inWin busy with job := { hardAge := some 64 } }
    let g := modCore 0 (fun k => { k with retCount := 1 }) f
    let h := modEng 0 (fun k => { k with stale := { n := 1 } }) b
    mayAct a 9 = true ∧ a.stride.act = 9 ∧ run0.started = true ∧ run0.draining = false ∧ run0.drainStart ≤ a.stride.count ∧
    mayAct b 6 = true ∧ drainDone b = true ∧ staleEngines (setAct 6 b) = [] ∧ run0.hardStop = false ∧
    drainDone h = true ∧ staleEngines (setAct 6 h) = [(0, 1)] ∧ mayAct h 6 = true ∧
    mayAct c 9 = true ∧ drainDone c = false ∧ run0.tack.ledger.drainDepth + 64 ≤ 64 ∧ mayAct d 7 = true ∧
    run0.drainStart ≤ d.stride.count ∧ stopNamed d = true ∧
    g.job.hardAge = some 64 ∧ mayAct g 7 = true ∧ g.cores.filter (fun c => c.2.retCount ≠ 0) ≠ [] ∧
    f.job.hardAge = some 64 ∧ mayAct f 7 = true ∧ f.cores.filter (fun c => c.2.retCount ≠ 0) = [] ∧
    faultOf (ran .drainTimeout c) = 0x0207 := by decide +kernel

/-- Tile work held; a second gait to switch to; a firing whose runs are committed, with and without tiles, and a RESLOAD. -/
theorem test_met_FiringsRun :
    let h : HeldTile := { kind := .tmac, thread := 0, step := 0, pc := 0, m := 1, n := 1, k := 32 }
    let s := modEng 0 (fun k => { k with held := [h] }) busy
    let t := modEng 0 (fun k => { k with active := 1 }) busy
    let x : Firing := { slot := 0, f := 0, step := 0, tile := some h }
    headEntry s 0 = some { slot := 0, firings := 1, tile := true } ∧ canFire s 0 = true ∧
    headEntry t 0 = some { slot := 0, firings := 1, tile := true } ∧ canSwitch t 0 = true ∧
    coreStale s 0 = false ∧ runsCommitted s 0 x = true ∧ tileEmpty h = false ∧ tileEmpty { h with m := 0 } = true ∧
    h.kind ≠ .resload ∧ ({ h with kind := .resload } : HeldTile).kind = .resload ∧
    (engOf (modEng 0 (fun k => { k with firing := some x }) busy) 0).firing = some x ∧ x.tile = some h ∧
    fabricUp busy = true := by decide +kernel

theorem test_gait_fires : ((engOf (ran (.gaitFire 0) (modEng 0 (fun k => { k with
    held := [{ kind := .tmac, thread := 0, step := 0, pc := 0 }] }) busy)) 0).firing.map (fun x => x.slot)) = some 0 := by decide +kernel


/-! ## Vector programs, rounding and table images -/

/-- The vector program of engine 0 is in progress, at its first instruction. -/
def vecState : State := modEng 0 (fun g => { g with firing := some {
  slot := 0, f := 0, step := 0, inVec := true } }) busy

/-- One element each: D at 0x100, A at 0x200, B at 0x300, all of format `f`. -/
def vec1 (f : BitVec 3) : VecF := { fd := f, fa := f, fb := f, d := { base := 0x100 }, a := { base := 0x200 }, b := { base := 0x300 } }

/-- An instruction of one operand. -/
def vecA : VecF := { vec1 2 with fb := 0, b := {} }

/-- The instruction passes every check of vecClear on engine 0. -/
def passes (s : State) (op : VecOp) (v : VecF) : Bool :=
  match vecAt s 0 with
  | some k => spadBacked s 0 (k.g.vec.off + 32 * k.x.vecIdx) 32 && decide (k.x.vecIdx < 256) && !vecInvalid k (runCompat s) op v &&
      (vecAddr s k op v).isNone
  | none => false

theorem test_met_VectorElements :
    ([(.add, vec1 2), (.sub, vec1 2), (.mul, vec1 2), (.mulsh, { vec1 2 with sh := 5 }), (.mulrs, { vec1 2 with fb := 4 }),
      (.min, vec1 0), (.max, vec1 1), (.abs, vecA), (.and, vec1 2), (.or, vec1 4), (.xor, vec1 0), (.shl, vec1 2), (.sar, vec1 2),
      (.srhe, vec1 2), (.cvt, vecA), (.emask, { vec1 2 with fb := 5 })] : List (VecOp × VecF)).all (fun p => passes vecState p.1 p.2)
      = true := by decide +kernel

theorem test_met_VectorReductions :
    let row : VecF := { vecA with d := { base := 0x100, bc := 1 }, dacc := true }
    let col : VecF := { vecA with d := { base := 0x100, bc := 2 } }
    ([(.rsum, row), (.rmax, row), (.rmin, row), (.csum, col), (.cmax, col), (.cmin, col)] : List (VecOp × VecF)).all
      (fun p => passes vecState p.1 p.2) = true := by decide +kernel

theorem test_met_VectorFunctionsAndLimbs :
    let v := vec1 4
    ([(.sfn, vecA), (.sfnmul, { vec1 2 with sh := 7 }), (.expsub, vec1 2), (.adc, { v with cin := true }), (.sbb, v), (.mulw, v),
      (.vend, {})] : List (VecOp × VecF)).all (fun p => passes vecState p.1 p.2) = true ∧
    vRows v = 1 ∧ vCols v = 1 ∧ ((vecAt vecState 0).map (fun k => (rowsOn vecState k v,
      (readByte vecState (spadAddr 0 (pargOff k v))).toNat))) = some ([0], 0) := by decide +kernel

/-- D in scratchpad and D in the accumulators. -/
theorem test_met_VectorWritesInD :
    let v := { vec1 2 with fd := 3, d := { space := 1 } }
    passes vecState .add (vec1 2) = true ∧ (vec1 2).d.space = 0 ∧ passes vecState .add v = true ∧ v.d.space = 1 ∧
    VecOp.add ≠ .vend ∧ VecOp.add.limb = false := by decide +kernel

theorem test_vec_add_saturates :
    let s := writeBytes 0xF00000000200 (bytesLE 4 0x7FFFFFFF) (writeBytes 0xF00000000300 (bytesLE 4 1) vecState)
    readNum (ran (.vecAdd 0 (vec1 2)) s) 0xF00000000100 4 = 0x7FFFFFFF := by decide +kernel

theorem test_vec_shl_moves :
    let s := writeBytes 0xF00000000200 (bytesLE 4 5) (writeBytes 0xF00000000300 (bytesLE 4 3) vecState)
    readNum (ran (.vecShl 0 (vec1 2)) s) 0xF00000000100 4 = 40 := by decide +kernel

/-- Halves go to the even neighbour (R115). -/
theorem test_rounding : rhe 5 1 = 2 ∧ rhe 7 1 = 4 ∧ rhe (-5) 1 = -2 ∧ rhe (-3) 1 = -2 ∧ rhe 6 2 = 2 ∧ rhe (2 ^ 39 - 1) 40 = 0 := by decide

/-- An image under copy, one refused, one pending and put off, one committed; a cancel before and in the window of its commit. -/
theorem test_met_SftImageLife :
    let busyS : State := { up with sft := { busy := true } }
    let pend : State := { up with sft := { pending := true, shadowId := 5 } }
    let held : State := { busy with
      job := { run := some { run0 with tack := { plan with header := header 0 7 4 1 } } }, sft := { pending := true, shadowId := 5 } }
    up.sft.busy = false ∧ up.sft.pending = false ∧ busyS.sft.busy = true ∧ pend.sft.pending = true ∧
    sftCommits pend = false ∧ sftCommits (inWin pend) = true ∧ pend.sft.busy = false ∧ mayAct (inWin pend) 5 = true ∧
    sftHeld (inWin pend) = false ∧ sftHeld (inWin held) = true ∧ mayAct (inWin held) 5 = true := by decide +kernel

/-! ### A table image that passes every check -/

/-- Byte `o` of an image of straight lines: SIGMOID at 1/2 everywhere, SILU and GELU rising from 0 to 16, the rest 0. -/
def lineByte (o : Nat) : Byte :=
  let slot := o / 1024
  if o % 16 = 3 then (if slot = 3 then (if o % 1024 < 512 then 0x20 else 0) else if 4 ≤ slot then BitVec.ofNat 8 (o % 1024 / 16) else 0)
  else if o % 16 = 7 && 4 ≤ slot then 1 else 0

def tab (a n : Nat) : SftBank := (List.range' a n).filterMap (fun o => if lineByte o = 0 then none else some (o, lineByte o))

def lines : SftBank := tab 0 6144

theorem sget_tab (a n k : Nat) : sget 0#8 (tab a n) k = if a ≤ k ∧ k < a + n then lineByte k else 0#8 := by
  induction n generalizing a with
  | zero => simp [tab, sget]
  | succ n ih =>
    have h := ih (a + 1)
    simp only [tab] at h
    by_cases hz : lineByte a = 0
    · simp only [tab, List.range'_succ, List.filterMap_cons, hz, if_true, h]
      by_cases hk : k = a
      · subst hk; simp [hz]
      · split <;> split <;> first | rfl | omega
    · simp only [tab, List.range'_succ, List.filterMap_cons, hz, if_false, sget, h]
      split
      · subst k; simp
      · split
        · rw [if_neg (by omega)]
        · split <;> split <;> first | rfl | omega

/-- The coefficients of the image, as its bytes give them. -/
theorem lines_coef (k : Fin 6) (j : Fin 64) (hj : j.val < sfnSegs k.val) (i : Fin 4) :
    coef lines k.val j.val i.val = if k.val < 3 || 2 ≤ i.val then 0
      else if i.val = 0 then (if k.val = 3 then 2 ^ 29 else 2 ^ 24 * (j.val : Int)) else if k.val = 3 then 0 else 2 ^ 24 := by
  have hb : ∀ b < 4, sget 0#8 lines (k.val * 1024 + 16 * j.val + 4 * i.val + b) = lineByte (k.val * 1024 + 16 * j.val + 4 * i.val + b) := by
    intro b hb
    have hi := i.isLt; have hk := k.isLt; have hl := j.isLt
    rw [lines, sget_tab, if_pos (by omega)]
  have hl : (List.range 4).map (fun b => sget 0#8 lines (k.val * 1024 + 16 * j.val + 4 * i.val + b)) =
      (List.range 4).map (fun b => lineByte (k.val * 1024 + 16 * j.val + 4 * i.val + b)) :=
    List.map_congr_left (fun b h => hb b (List.mem_range.1 h))
  simp only [coef, hl]
  clear hb hl
  revert k j i
  decide +kernel

theorem lines_poly (k : Fin 6) (j : Fin 64) (hj : j.val < sfnSegs k.val) (u : Nat) :
    sfnPoly lines k.val j.val u = if k.val < 3 then 0 else if k.val = 3 then 2 ^ 29 else rhe (2 ^ 24 * u) 11 + 2 ^ 24 * j.val := by
  have h := lines_coef k j hj
  have h0 := h 0; have h1 := h 1; have h2 := h 2; have h3 := h 3
  have z : rhe 0 11 = 0 := by decide
  simp only [show ((0 : Fin 4) : Nat) = 0 from rfl, show ((1 : Fin 4) : Nat) = 1 from rfl, show ((2 : Fin 4) : Nat) = 2 from rfl,
    show ((3 : Fin 4) : Nat) = 3 from rfl] at h0 h1 h2 h3
  unfold sfnPoly
  rw [h0, h1, h2, h3]
  by_cases a : k.val < 3
  · simp [a, z]
  · by_cases b : k.val = 3 <;> simp [a, b, z]

theorem slotSeam_none {b : SftBank} {k : Nat} (h1 : seamStart b k = true)
    (h2 : ∀ j, 1 ≤ j → j < sfnSegs k → seamOk b k j = true) (h3 : seamTop b k = true) : slotSeam b k = none := by
  have hf : ((List.range (sfnSegs k)).drop 1).find? (fun j => !seamOk b k j) = none := by
    rw [List.find?_eq_none]
    intro j hj
    rw [List.range_eq_range', List.drop_range', List.mem_range'_1] at hj
    simp [h2 j (by omega) (by omega)]
  simp only [slotSeam, h1, hf, h3]
  rfl

theorem lines_seams (k : Fin 6) : slotSeam lines k.val = none := by
  have p := fun (j u : Nat) (h : j < 64) (hj : j < sfnSegs k.val) => lines_poly k ⟨j, h⟩ hj u
  simp only at p
  have r0 : rhe (2 ^ 24 * ((0 : Nat) : Int)) 11 = 0 := by decide +kernel
  have r1 : rhe (2 ^ 24 * ((2048 : Nat) : Int)) 11 = 2 ^ 24 := by decide +kernel
  have y0 : ∀ j : Fin 65, seamY 4 (2 ^ 24 * (j.val : Int)) = 2 ^ 14 * (j.val : Int) ∧
  seamY 5 (2 ^ 24 * (j.val : Int)) = 2 ^ 14 * (j.val : Int) := by
    decide +kernel
  revert p
  match k with
  | 0 =>
    intro p
    have q : ∀ j u, j < 32 → sfnPoly lines 0 j u = 0 := fun j u h => p j u (by omega) h
    exact slotSeam_none rfl (fun j h1 h2 => by
      have h2 : j < 32 := h2
      simp [seamOk, q (j - 1) _ (by omega), q j _ h2]) (by simp [seamTop, q])
  | 1 =>
    intro p
    have q : ∀ j u, j < 32 → sfnPoly lines 1 j u = 0 := fun j u h => p j u (by omega) h
    exact slotSeam_none rfl (fun j h1 h2 => by
      have h2 : j < 32 := h2
      simp [seamOk, q (j - 1) _ (by omega), q j _ h2]) (by simp [seamTop, q])
  | 2 =>
    intro p
    have q : ∀ j u, j < 48 → sfnPoly lines 2 j u = 0 := fun j u h => p j u (by omega) h
    exact slotSeam_none rfl (fun j h1 h2 => by
      have h2 : j < 48 := h2
      simp [seamOk, q (j - 1) _ (by omega), q j _ h2]) (by simp [seamTop, q])
  | 3 =>
    intro p
    have q : ∀ j u, j < 32 → sfnPoly lines 3 j u = 2 ^ 29 := fun j u h => p j u (by omega) h
    refine slotSeam_none ?_ (fun j h1 h2 => ?_) ?_
    · simp [seamStart, q]
    · have h2 : j < 32 := h2
      simp [seamOk, q (j - 1) _ (by omega), q j _ h2]
    · simp [seamTop, q]; decide +kernel
  | 4 =>
    intro p
    have q0 : ∀ j, j < 64 → sfnPoly lines 4 j 0 = 2 ^ 24 * (j : Int) := fun j h =>
      (p j 0 h h).trans ((congrArg (· + 2 ^ 24 * (j : Int)) r0).trans (Int.zero_add _))
    have q1 : ∀ j, j < 64 → sfnPoly lines 4 j 2048 = 2 ^ 24 * ((j + 1 : Nat) : Int) := fun j h =>
      (p j 2048 h h).trans ((congrArg (· + 2 ^ 24 * (j : Int)) r1).trans (by push_cast; ring))
    have y : ∀ j : Nat, j < 65 → seamY 4 (2 ^ 24 * (j : Int)) = 2 ^ 14 * (j : Int) := fun j h => (y0 ⟨j, h⟩).1
    refine slotSeam_none ?_ (fun j h1 h2 => ?_) ?_
    · have e : seamY 4 (sfnPoly lines 4 0 0) = 2 ^ 14 * ((0 : Nat) : Int) := by rw [q0 0 (by omega), y 0 (by omega)]
      simp [seamStart, e]
    · have h2 : j < 64 := h2
      have e : seamY 4 (sfnPoly lines 4 (j - 1) 2048) = seamY 4 (sfnPoly lines 4 j 0) := by
        rw [q0 j h2, q1 (j - 1) (by omega), Nat.sub_add_cancel h1]
      simp [seamOk, e]
    · have e : seamY 4 (sfnPoly lines 4 63 2048) = 2 ^ 14 * ((64 : Nat) : Int) := by rw [q1 63 (by omega), y 64 (by omega)]
      simp [seamTop, e]
  | 5 =>
    intro p
    have q0 : ∀ j, j < 64 → sfnPoly lines 5 j 0 = 2 ^ 24 * (j : Int) := fun j h =>
      (p j 0 h h).trans ((congrArg (· + 2 ^ 24 * (j : Int)) r0).trans (Int.zero_add _))
    have q1 : ∀ j, j < 64 → sfnPoly lines 5 j 2048 = 2 ^ 24 * ((j + 1 : Nat) : Int) := fun j h =>
      (p j 2048 h h).trans ((congrArg (· + 2 ^ 24 * (j : Int)) r1).trans (by push_cast; ring))
    have y : ∀ j : Nat, j < 65 → seamY 5 (2 ^ 24 * (j : Int)) = 2 ^ 14 * (j : Int) := fun j h => (y0 ⟨j, h⟩).2
    refine slotSeam_none ?_ (fun j h1 h2 => ?_) ?_
    · have e : seamY 5 (sfnPoly lines 5 0 0) = 2 ^ 14 * ((0 : Nat) : Int) := by rw [q0 0 (by omega), y 0 (by omega)]
      simp [seamStart, e]
    · have h2 : j < 64 := h2
      have e : seamY 5 (sfnPoly lines 5 (j - 1) 2048) = seamY 5 (sfnPoly lines 5 j 0) := by
        rw [q0 j h2, q1 (j - 1) (by omega), Nat.sub_add_cancel h1]
      simp [seamOk, e]
    · have e : seamY 5 (sfnPoly lines 5 63 2048) = 2 ^ 14 * ((64 : Nat) : Int) := by rw [q1 63 (by omega), y 64 (by omega)]
      simp [seamTop, e]

theorem sftCheck_pass {b : SftBank} {id : BitVec 32} (h0 : ¬ id = 0#32) (h : b.find? (fun x => mustBeZero x.1) = none)
    (m : (List.range 6).find? (fun k => (slotSeam b k).isSome) = none) : sftCheck b (crc32ieee (bankImage b)) id = (0, 0, 0) := by
  simp [sftCheck, h0, h, m]

theorem lines_pass : sftCheck lines (crc32ieee (bankImage lines)) 9 = (0, 0, 0) := by
  apply sftCheck_pass (by decide)
  · rw [List.find?_eq_none]
    intro x hx
    obtain ⟨o, ho, hq⟩ := List.mem_filterMap.1 hx
    have hlt := (List.mem_range'_1.1 ho).2
    split at hq
    · cases hq
    · rename_i hz
      cases hq
      simp only [lineByte] at hz
      have hd : o / 1024 < 6 := by omega
      simp only [mustBeZero, sfnSegs, hd, if_true, decide_eq_true_eq, Nat.not_le]
      repeat' split at hz
      all_goals first
        | exact absurd rfl hz
        | (simp only [Bool.or_eq_true, Bool.and_eq_true, decide_eq_true_eq] at *
           repeat' split
           all_goals omega)
  · rw [List.find?_eq_none]
    intro k hk
    simp [lines_seams ⟨k, List.mem_range.1 hk⟩]

theorem image_under_copy {b : SftBank} {crc id : BitVec 32} (h : sftCheck b crc id = (0, 0, 0)) :
    ∃ s : State, s.sft.busy = true ∧ (sftCheck s.sft.stage s.sft.hdrCrc s.sft.hdrId).1 = 0 :=
  ⟨{ up with sft := { busy := true, stage := b, hdrCrc := crc, hdrId := id } }, rfl, by simp [h]⟩

/-- Under its own CRC the image passes every check (R222, R225). -/
theorem test_met_SftImageLife_pass :
    ∃ s : State, s.sft.busy = true ∧ (sftCheck s.sft.stage s.sft.hdrCrc s.sft.hdrId).1 = 0 := image_under_copy lines_pass

/-! ## Streams, Curbs and tiers -/

/-- A run of AG 0 of engine 0 with A0 = 0x100 in tier H and A1 the base of the scratchpad. -/
def runS (r : Run) : State := modAg 0 0 (fun g => { g with runs := [{ r with regs := [(0, 0x100), (1, spad0)] }] }) busy

def preR : Run := { slot := 0, f := 0, step := 0 }
def postR : Run := { preR with preDone := true, committed := true, fired := true, complete := true, post := true }

/-- A LOAD into scratchpad, a STORE from it, and tokens at A1. -/
def loadF : StreamF := { len := 64, sa := 0, da := 1 }
def storeF : StreamF := { len := 64, sa := 1, da := 0 }
def recvF : StreamF := { len := 1, da := 1, ta := 1 }
def sendF : StreamF := { len := 1, sa := 1, ta := 1, port := 3 }

/-- The run that may take an instruction. -/
def runIx (s : State) (post : Bool) : Option Nat := (streamRun 0 0 post s).map (fun x => x.2)

/-- A loop that ends, one that goes round, a count out of range, and none. -/
theorem test_met_StreamRegistersAndLoops :
    runIx (runS preR) false = some 0 ∧ runIx (runS postR) true = some 0 ∧ sget 0 ({ preR with loops := [(0, 1)] } : Run).loops 0 - 1 = 0 ∧
    sget 0 ({ preR with loops := [(0, 2)] } : Run).loops 0 - 1 ≠ 0 ∧ (65535 : BitVec 32).toNat ≤ 65535 ∧
    65535 < (65536 : BitVec 32).toNat := by decide +kernel

theorem test_seta_adds : runReg (ran (.seta 0 0 false { da := 2, imm := 0xFFFFFFFF }) (runS preR)) 0 0 0 2 = 0xFFFFFFFFFFFFFFFF := by
  decide +kernel

theorem test_met_StreamTransfers :
    let s := runS preR
    let t := runS postR
    loadBad s 0 0 0 loadF = none ∧ (loadBad s 0 0 0 { loadF with len := 63 }).isSome = true ∧ tokenBad s 0 0 0 recvF.da recvF = none ∧
    storeBad t 0 0 0 storeF = none ∧ (storeBad t 0 0 0 { storeF with len := 63 }).isSome = true ∧
    tokenBad t 0 0 0 sendF.sa sendF = none := by decide +kernel

/-- A RECV in the program whose queue wants a token: its count is short. -/
theorem test_met_StreamPhasesEnd :
    let s := runS preR
    let c := runS { preR with preDone := true }
    let m := runS { preR with miss := some 0x100 }
    recvCountBad s 0 0 0 = none ∧ sendCountBad (runS postR) 0 0 0 = none ∧ fabricUp s = true ∧ coreStale s 0 = false ∧
    (agOf c 0 0).runs.findIdx? (mayCommit c 0) = some 0 ∧ agMissed m 0 0 = true ∧ m.stride.window = false ∧
    -- RECV of queue 2, then FIN
    (recvCountBad (writeBytes 0xF00000000000 ([0x20, 0, 2] ++ List.replicate 13 0 ++ [0x3F])
      { s with reinIn := [(2, { cfg := { q := 1 } })] }) 0 0 0) = some (2, 1, 0) := by decide +kernel

def curbReq0 : CurbReq := { engine := 0, ag := 0, addr := 0x100, units := 1, order := 0 }

def curbState (k : Nat) (c : Curb) : State := modCurb 3 k (fun _ => c) busy

/-- Open, and closed at the budget; a turn in a class of streams and in one of transfers. -/
theorem test_met_CurbServes :
    let s := curbState 1 { waiting := [curbReq0] }
    let t := curbState 1 { admitted := [curbReq0] }
    let u := curbState 4 { admitted := [curbReq0] }
    fabricUp s = true ∧ curbOpen s 3 1 = true ∧ (curbOf s 3 1).waiting = curbReq0 :: [] ∧
    curbOpen (curbState 1 { budgetNow := 5, spent := 5 }) 3 1 = false ∧ curbOpen (curbState 1 { budgetNow := 5, spent := 4 }) 3 1 = true ∧
    classServed t 3 = some 1 ∧ turnCore (curbOf t 3 1) = some 0 ∧
    (curbOf t 3 1).admitted.find? (fun x => x.engine / 8 = 0) = some curbReq0 ∧ pageReadMay t curbReq0.addr = true ∧
    classServed u 3 = some 4 ∧ (curbOf u 3 4).admitted = curbReq0 :: [] := by decide +kernel

def req0 (st : ReqStage) (a : Nat) : Req :=
  { addr := a, bytes := 64, dst := 0, off := 0, total := 64, cov := 0, tags := 0, nrow := 0, stage := st }

/-- A read of a clean unit, of one whose code fails, and one past its deadline. -/
theorem test_met_StreamReadsReturn :
    let s := runS { preR with reqs := [req0 .served 0x100] }
    let u := portTouch 0x100 (readSize (.streamLoad 0 0) 0x100 s) s
    let bad := unitsIn u (plainAddr u 0x100) (readSize (.streamLoad 0 0) 0x100 u) [(0x100, { wrong := 3 })]
    let v := forEach bad (fun x v => unitFound x.2 x.1 v) u
    let t := runS { preR with reqs := [req0 .served 0x010000000000] }
    fabricUp s = true ∧ (req0 .served 0x100).stage = .served ∧ reqOut u 0 0 0x100 = some (0, req0 .served 0x100) ∧ badUnit u [] = none ∧
    badUnit u bad = some (0x100, .code, 0) ∧ reqOut v 0 0 0x100 = some (0, req0 .served 0x100) ∧
    reqOut t 0 0 0x010000000000 = some (0, req0 .served 0x010000000000) ∧ deadlineOf t 0x010000000000 = some 0x1000 := by decide +kernel

/-- A page of tier H that is ABSENT, one on its way in, one PRESENT and one on its way out. -/
theorem test_met_PagesMove :
    let o : Placed := { base := 0, entry := { objId := 1, bytes := 4096, backing := 0x400000000000, evict := true, writable := true } }
    let s : State := { busy with tiers := { pages := [(0, .absent 0x400000000000)], placed := [o] } }
    let i : State := { busy with tiers := { pages := [(0, .absent 0x400000000000)], placed := [o], pagingIn := [0] } }
    let p : State := { busy with tiers := { pages := [(0, .present 0x400000000000)], placed := [o] } }
    let v : State := { busy with tiers := { pages := [(0, .absent 0x400000000000)], placed := [o], evicting := [0] } }
    pageOf s 0x100 = 0 ∧ fabricUp s = true ∧ pageState s 0 = .absent 0x400000000000 ∧ s.tiers.pagingIn.contains 0 = false ∧
    s.tiers.evicting.contains 0 = false ∧ pageReadMay s 0x400000000000 = true ∧ pagePaid i 4 0 = true ∧
    pageOpen s 4 0 = true ∧ pageOpen s 4 0x400000000000 = true ∧ pagePaid i 4 0x400000000000 = true ∧
    pageOpen v 4 0 = true ∧ pageOpen v 4 0x400000000000 = true ∧ mayProgram v 0x400000000000 (pageSize v 0) = true ∧
    fabricUp v = true ∧ pageState v 0 = .absent 0x400000000000 ∧
    i.tiers.pagingIn.contains 0 = true ∧ mayAct (inWin i) 6 = true ∧ Memory.wf i.mem = true ∧
    mayAct (inWin p) 6 = true ∧ pageState p 0 = .present 0x400000000000 ∧ objectAt p 0 = some o ∧ o.entry.evict = true ∧
    o.entry.backing ≠ 0 ∧ o.entry.pin = false ∧ v.tiers.evicting.contains 0 = true ∧ pageQuiet v 0 = true ∧ objectAt v 0 = some o ∧
    o.entry.writable = true := by decide +kernel

/-- Ports of tiers H and L in use and out of training, a failed port, and one of tier F that is being restored. -/
theorem test_met_PortsTrain :
    let s := modPort 6 (fun k => { k with state := 2 }) (modPort 7 (fun k => { k with state := 3 }) (modPort 8 (fun k => { k with state := 3 }) up))
    let t := modPort 39 (fun k => { k with state := 4 }) up
    (portOf s 6).state = 2 ∧ (portOf s 7).state = 3 ∧ (portOf s 8).state = 3 ∧ (portOf t 39).state = 4 ∧ (portOf t 8).state ≠ 4 ∧
    fabricUp t = true ∧
    (portOf (inWin (modPort 39 (fun k => { k with state := 1, restoring := true }) up)) 39).restoring = true ∧
    (inWin up).stride.window = true := by decide +kernel

/-- A region due and one tested this stride; spares left and none; the Farrier of an Ostler core; the scrub of tier H and of tier L. -/
theorem test_met_FarrierWalks :
    let s : State := modStride (fun t => { t with count := 4096 }) { up with ostlers := [(2, { online := true })] }
    let done := modCore 0 (fun k => { k with far := { k.far with tested := 4096 } }) s
    let r := modCore 0 (fun k => { k with far := { k.far with spares := List.replicate 8 (3, 0) } }) s
    coresOk s = true ∧ testMay (.core 0) s = true ∧ testMay (.core 0) done = false ∧ testMay (.core 0) r = true ∧ coresOk r = true ∧
    spareFree (coreOf s 0).far.spares (63 % 32) = true ∧ spareFree (coreOf r 0).far.spares (3 % 32) = false ∧ testMay (.ostler 2) s = true ∧
    s.sync.farEnNow / 2 % 2 = 1 ∧ s.sync.farEnNow / 4 % 2 = 1 ∧ s.sync.farPaused = false ∧ fabricUp s = true ∧
    curbOpen s 0 6 = true ∧ curbOpen s 23 6 = true ∧ readsMay s (scrubAddr 0 0) 256 = true ∧ readsMay s (scrubAddr 23 0) 256 = true ∧
    eccPower s (scrubAddr 0 0) = 2 := by decide +kernel

/-! ## The Hitch -/

/-- A descriptor of one expert, VALID, CAP 8, rows and returns of 64 bytes, RET_WAIT 1, READY_OBJ 5, READY_ARR 2, the gather
area in core 0's scratchpad (R350). -/
def hldBits : BitVec 512 := BitVec.ofNat 512 (1 + 8 * 2 ^ 32 + 2 ^ 48 + 2 ^ 64 + 2 ^ 80 + 5 * 2 ^ 96 + 2 * 2 ^ 128 + 0xF00000001000 * 2 ^ 384)
def hld0 : Hld := hldDecode hldBits

/-- The places of those fields, written out from R350. -/
theorem test_hld_bits : hld0 = { valid := true, cap := 8, rowUnits := 1, retUnits := 1, retWait := 1, readyObj := 5, readyArr := 2,
                                  gatherBase := 0xF00000001000 } := by
  decide +kernel

/-- One live descriptor whose launch state is `t` and expert side `x`; object 5 stands at `v`. -/
def hitchState (t : HldState) (x : ExpSide) (v : Int) : State := { busy with
  sync := { objs := [(5, { type := 1, value := v })] }
  hitches := [(0, { hlds := [(0, hld0)], map := [(0, { outObj := 5 })], st := [(0, t)], exp := [(0, x)], owed := [(4, 3)] })] }

/-- A launch of one row that waits for its expert, and the same with its return in. -/
def waitHst (ret : Option (BitVec 16)) : HldState :=
  { isOpen := true, launch := 1, waited := 1, rows := [{ tag := 0, accepted := [{ expert := 0, weight := 1, slot := 0, ret := ret }] }] }

theorem test_met_HitchLaunches :
    let s := hitchState {} {} 2
    let w := modStride (fun t => { t with act := 4 }) (inWin (hitchState (waitHst none) {} 2))
    let d := modRun (fun r => { r with hardStop := true }) w
    fabricUp s = true ∧ (hitchOf s 0).halted = false ∧ hldLive s (hldOf s 0 0) = true ∧ (hstOf s 0 0).isOpen = false ∧
    ((((hstOf s 0 0).launch + 1) * (hldOf s 0 0).readyArr : Nat) : Int) ≤ (objOf s 5).value ∧
    (objOf (hitchState {} {} 1) 5).value < 2 ∧ mayAct w 4 = true ∧ w.stride.act = 4 ∧ stopDue w = false ∧ (hstOf w 0 0).isOpen = true ∧
    (hldOf w 0 0).retWait ≤ (hstOf w 0 0).waited ∧ retPending (hstOf w 0 0) ≠ 0 ∧ mayAct d 4 = true ∧ stopDue d = true := by decide +kernel

/-- A row waiting for its expert and one that has its return; a message of another epoch; credits within and beyond those owed; an
expert with a launch to return, with and without a row of this chip. -/
theorem test_met_HitchMessages :
    let s := hitchState (waitHst none) { ready := 1 } 1
    let g := hitchState (waitHst (some 0)) {} 1
    let f := hitchState (waitHst none) { ready := 1, filled := [{ batch := 0, expert := 0, slot := 0, chip := ownChip up, hitch := 0, token := 0 }] } 1
    let m : HitchHdr := {}
    let a := (hldOf s 0 0).gatherBase + (m.token * topK (hldOf s 0 0) + 0) * retBytes (hldOf s 0 0)
    let l := [(true, a, retBytes (hldOf s 0 0))]
    let x := ownGather f 0 0 (filledSlots (hldOf f 0 0) (expOf f 0 0) 0 0)
    fabricUp s = true ∧ s.job.chgOpen = false ∧ (hitchOf s 0).halted = false ∧ m.epoch = s.job.epoch ∧ (1 : BitVec 3) ≠ s.job.epoch ∧
    (hstOf s 0 0).isOpen = true ∧ (hstOf s 0 0).late = false ∧ m.batch.toNat = batchOf (hstOf s 0 0) ∧ (hstOf s 0 0).rows.length = 1 ∧
    ((hstOf s 0 0).rows.all (fun r => !r.cancelled && r.accepted.findIdx? (fun c => c.expert = 0) = some 0)) = true ∧
    ((hstOf g 0 0).rows.all (fun r => r.accepted.all (fun c => c.ret.isSome))) = true ∧
    hitchStop (hitchConsult 0 l s) l = none ∧ transferOpen (hitchConsult 0 l s) 3 a (retBytes (hldOf s 0 0)) = true ∧
    readsMay (hitchConsult 0 l s) a (retBytes (hldOf s 0 0)) = true ∧
    jobLoaded s = true ∧ 3 ≤ sget 0 (hitchOf s 0).owed 4 ∧ sget 0 (hitchOf s 0).owed 4 < 4 ∧ hldLive s (hldOf s 0 0) = true ∧
    (localExperts s 0 (hldOf s 0 0)).contains 0 = true ∧ sget 0 (expOf s 0 0).served 0 < (expOf s 0 0).ready ∧
    1 ≤ (objOf s (mapOf s 0 (hldOf s 0 0) 0).outObj).value ∧ (expOf s 0 0).filled = [] ∧
    x.length = 1 ∧ hitchStop (hitchConsult 0 x f) x = none ∧
    (x.all (fun y => transferOpen (hitchConsult 0 x f) 3 y.2.1 y.2.2 && readsMay (hitchConsult 0 x f) y.2.1 y.2.2)) = true := by decide +kernel

/-! ## Serving, weights and the switch-in -/

/-- The number with each value at its byte. -/
def laid (fs : List (Nat × Nat)) : Nat := fs.foldl (fun n f => n + f.2 * 2 ^ (8 * f.1)) 0

/-- A serving descriptor (R382): 4 and 4 rows, cadences 1, MAX_NODES 3, SESSIONS 1, VOCAB 100, SLOT_BYTES 64, MAX_CTX 64. -/
def serveBits : BitVec 512 := BitVec.ofNat 512
  (laid [(0, 4), (2, 4), (4, 1), (8, 1), (0x10, 3), (0x12, 1), (0x14, 100), (0x18, 64), (0x1C, 64)])
def serve0 : Serving := serveDecode serveBits
def plan1 : Tack := { plan with header := header 2 7 0 1, serve := some serveBits }

theorem test_serve_bits : serve0 = { prefillRows := 4, decodeRows := 4, sessions := 1, vocab := 100, maxCtx := 64, maxNodes := 3 } := by
  decide +kernel

/-- The serving job runs and the entry of ring 2 that is next is `e`. -/
def ringState (e : BitVec 512) : State := inWin { busy with
  job := { run := some { run0 with tack := plan1 } }
  host := { width := 5, rate := 5, rings := [(2, { fetched := [(e, 0)] })] } }

def sess0 : Session := { state := 1, gen := 3, client := 9, pendValid := true }

/-- A request of ring 2 for that session, one that opens a session, and one without fields of its own; the entry that gives it (R394). -/
def req1 : ServeReq := { ring := 2, reqTag := 11, session := 3 * 16384, client := 9, tokens := [5], count := 1 }
def reqV : ServeReq := { req1 with parents := [0], parentsAt := 64 }
def reqO : ServeReq := { req1 with session := 0 }
def reqC : ServeReq := { req1 with tokens := [], count := 0, endToken := 0 }
def reqBits (kind : Nat) (r : ServeReq) : BitVec 512 := BitVec.ofNat 512
  (laid [(1, kind), (2, r.client), (4, r.session), (8, r.reqTag), (0x18, r.count), (0x20, r.parentsAt), (0x30, r.endToken)])

def withSess (e : Session) (x : BitVec 512) : State := let s := ringState x
  { s with serve := { sessions := [(0, e)] } }

def refused (x : Except Reject Nat) : Bool :=
  match x with
  | .error _ => true
  | .ok _ => false

/-- A free entry and none; the session named, with a node pending, and another's. -/
theorem test_met_ServingAdmits :
    let s := ringState (reqBits 1 reqO)
    let o := withSess sess0 (reqBits 1 reqO)
    let u := admitEntry 2 s
    let w := admitEntry 2 (withSess sess0 (reqBits 2 req1))
    admitsServe s 1 reqO = true ∧ checkFields 1 reqO (some serve0.vocab) = none ∧ serving u = some serve0 ∧
    freeEntry u serve0 = some 0 ∧ reqO.count ≤ serve0.maxCtx ∧ reqO.count ≠ 0 ∧ admitsServe o 1 reqO = true ∧
    freeEntry (admitEntry 2 o) serve0 = none ∧ serving (admitEntry 2 o) = some serve0 ∧
    admitsServe (withSess sess0 (reqBits 2 req1)) 2 req1 = true ∧ checkFields 2 req1 (some serve0.vocab) = none ∧ serving w = some serve0 ∧
    checkSession w req1 true = .ok 0 ∧ refused (checkSession w { req1 with client := 8 } true) = true ∧
    admitsServe (withSess sess0 (reqBits 3 reqV)) 3 reqV = true ∧ checkFields 3 reqV (some serve0.vocab) = none ∧
    checkSession w reqV true = .ok 0 ∧ (sessOf w 0).pendValid = true ∧ reqV.count + 1 ≤ serve0.maxNodes ∧ badParent reqV = none ∧
    (sessOf w 0).len + reqV.count + 1 ≤ serve0.maxCtx ∧ admitsServe (withSess sess0 (reqBits 4 reqC)) 4 reqC = true ∧
    checkFields 4 reqC none = none ∧ admitsServe (withSess sess0 (reqBits 5 reqC)) 5 reqC = true ∧ checkFields 5 reqC none = none ∧
    checkSession w reqC false = .ok 0 := by decide +kernel

theorem test_open_takes_an_entry : (sessOf (ran (.sessOpen reqO) (ringState (reqBits 1 reqO))) 0).state ≠ 0 := by decide +kernel

/-- A chain of accepted drafts that a request's remaining tokens cut short. -/
theorem test_accepted_path :
    acceptPath [0, 7, 8, 9] [0, 1, 2] [7, 8, 9, 4] 0xFFFFFFFF 3 9 [0] 0 = [0, 1, 2] ∧
    acceptPath [0, 7, 8, 9] [0, 1, 2] [7, 5, 9, 4] 0xFFFFFFFF 9 9 [0] 0 = [0, 1] := by decide +kernel

/-- Waves due; a step and a chunk whose wave is complete; cancels due; a session closing; a slot free. -/
theorem test_met_ServingRuns :
    let s := withSess sess0 0
    let q : Request := { kind := .append, req := req1, handle := 3 * 16384, wave := some 0 }
    let dec : State := { s with serve := { sessions := [(0, { sess0 with state := 3 })], running := [(0, some q)] } }
    let pre : State := { s with serve := { sessions := [(0, { sess0 with state := 2 })], running := [(0, some q)] } }
    let f : Freeing := { addr := 64, sess := 0, decode := false, wave := 0, quiet := some 0 }
    let end_ : State := { s with stride := { s.stride with count := 4 }
                                 serve := { sessions := [(0, { sess0 with state := 4 })], cancels := [(true, req1, 3)], freeing := [f] } }
    serving s = some serve0 ∧ waveDue s serve0.prefillCadence s.serve.prefillAt = true ∧
    waveDue s serve0.decodeCadence s.serve.decodeAt = true ∧ mayAct s 2 = true ∧ stepReady dec 0 = some (serve0, q) ∧
    stepLame dec serve0 q = false ∧ badResult dec serve0 q = none ∧ (sessOf dec 0).state = 3 ∧ stepReady pre 0 = some (serve0, q) ∧
    (sessOf pre 0).state = 2 ∧ mayAct end_ 3 = true ∧ end_.serve.order = [] ∧ (end_.serve.cancels.all (fun c => c.2.2 < 4)) = true ∧
    (sessOf end_ 0).state = 4 ∧ (end_.serve.freeing.all (fun f => !(f.sess = 0 && f.byClose))) = true ∧
    sget [] end_.serve.closing 0 = [] ∧
    end_.serve.freeing.find? (fun g => g.addr = 64) = some f ∧ slotDue end_ f = true := by decide +kernel

/-- A weight command of ring 2, and the entry that gives it (R419). -/
def cmd0 : WeightCmd := { ring := 2, cmdTag := 11, objId := 5 }
def cmd1 : WeightCmd := { cmd0 with bytes := 0 }
def weightBits (cmd : Nat) (w : WeightCmd) : BitVec 512 := BitVec.ofNat 512
  (laid [(0, 1), (1, cmd), (4, w.objId), (8, w.cmdTag), (0x18, w.bytes), (0x34, w.session), (0x38, w.hops)])

/-- A tack of 100 INSTALL_STRIDES with every section it needs, empty (R433, R434). -/
def tack0 : Tack := { header := BitVec.ofNat 2048 (laid ([(0, 4), (8, 7), (0x14, 1), (0x18, 100)] ++
  [1, 2, 3, 4, 5, 6, 7, 11].zipIdx.flatMap (fun x => [(0x20 + 16 * x.2, x.1), (0x28 + 16 * x.2, 256)]))) }

def dirState (x : BitVec 512) (l : List DirEntry) : State := let s := ringState x
  { s with weights := { dir := l }, serve := { sessions := [(0, sess0)] } }
def dirE (id kind state : Nat) : DirEntry :=
  { objId := id, tier := 0, die := 0, kind := kind, state := state, bytes := 64, base := 0, modelId := 3 }
def staging (t : Tack) (w : WeightCmd) : State :=
  { up with weights := { slotA := { state := 1, tack := some t, bytes := 512, cmd := some w, left := stageUnits 512 } } }
/-- The Curbs of die 0's tier H ports with class 4 spent. -/
def spent4 (s : State) : State := (List.range 8).foldl (fun s p => modCurb p 4 (fun _ => { budgetNow := 1, spent := 1 }) s) s

/-- Room and none for an object, with class 4 open and spent. -/
theorem test_met_WeightCommands_load :
    let s := dirState (weightBits 1 cmd0) []
    let u := admitEntry 2 s
    let x := dirAdd 5 0 0 0 64 0 false u
    let y := dirAdd 5 0 0 0 64 0 false (admitEntry 2 (spent4 s))
    admitsWeight s 1 cmd0 = true ∧ weightFieldsOk 1 cmd0 = true ∧ cmd0.objId ≠ 0 ∧ cmd0.tier < 3 ∧ cmd0.bytes % 64 = 0 ∧
    64 ≤ cmd0.bytes ∧ placeFails u 5 0 0 64 = none ∧ (dirFind x 5).map (fun e => mayProgram x e.base e.bytes) = some true ∧
    (moveUnits (unitsOver (pagePorts 0 0) 64) x).1 = [] ∧ (dirFind y 5).isSome = true ∧ admitsWeight (spent4 s) 1 cmd0 = true ∧
    (moveUnits (unitsOver (pagePorts 0 0) 64) y).1 ≠ [] ∧
    (placeFails (admitEntry 2 (dirState (weightBits 1 cmd0) [dirE 5 0 1])) 5 0 0 64).isSome = true := by decide +kernel

/-- An object to drop; the default binding; an adapter for a session whose base is bound; a list; a stage into a free slot. -/
theorem test_met_WeightCommands :
    let b : WeightCmd := { cmd1 with session := 3 * 16384 }
    let a := admitEntry 2 (dirState (weightBits 5 b) [dirE 5 1 1, { dirE 6 0 2 with byJob := true }])
    let d := dirState (weightBits 3 cmd1) [dirE 5 0 1]
    let z : WeightCmd := { cmd1 with objId := 0 }
    let g : WeightCmd := { z with bytes := 512 }
    let u := admitEntry 2 (dirState (weightBits 4 g) [])
    admitsWeight d 3 cmd1 = true ∧ weightFieldsOk 3 cmd1 = true ∧ dirFind (admitEntry 2 d) 5 = some (dirE 5 0 1) ∧ (dirE 5 0 1).state ≠ 2 ∧
    (dirE 5 0 1).byJob = false ∧ (dirE 5 0 1).kind ≠ 1 ∧
    admitsWeight (dirState (weightBits 5 z) []) 5 z = true ∧ weightFieldsOk 5 z = true ∧ z.session = 0 ∧ weightFieldsOk 5 b = true ∧
    admitsWeight (dirState (weightBits 5 b) []) 5 b = true ∧ (sessOf a (b.session % 16384)).state ≠ 0 ∧
    handleOf (sessOf a 0) 0 = b.session ∧ dirFind a 5 = some (dirE 5 1 1) ∧ (dirE 5 1 1).kind = 1 ∧ (dirE 5 1 1).state = 1 ∧
    baseBound a 3 = true ∧ admitsWeight (dirState (weightBits 6 z) []) 6 z = true ∧ weightFieldsOk 6 z = true ∧
    admitsWeight (dirState (weightBits 4 g) []) 4 g = true ∧ weightFieldsOk 4 g = true ∧ g.bytes % 64 = 0 ∧ 64 ≤ g.bytes ∧
    (cacheSlot u 0).state ≠ 1 ∧ (cacheSlot u 0).state ≠ 3 := by decide +kernel

/-- An image of which all has come, part has come, and whose read failed; a tack that passes and one that does not. -/
theorem test_met_WeightCommands_stage :
    let g : WeightCmd := { cmd1 with objId := 0, bytes := 512 }
    let s := staging tack0 g
    let m := moveUnits (cacheSlot s 0).left s
    let bad := setSlot 0 { cacheSlot s 0 with readOk := false } s
    (cacheSlot s 0).cmd = some g ∧ (cacheSlot s 0).tack = some tack0 ∧ (cacheSlot s 0).state = 1 ∧ (cacheSlot s 0).readOk = true ∧
    m.1 = [] ∧ stageCheck m.2 tack0 512 = none ∧ (moveUnits (cacheSlot s 0).left (spent4 s)).1 ≠ [] ∧
    (cacheSlot bad 0).readOk = false ∧ (moveUnits (cacheSlot bad 0).left bad).1 = [] ∧
    (moveUnits (stageUnits 512) (staging {} g)).1 = [] ∧
    (stageCheck (moveUnits (stageUnits 512) (staging {} g)).2 {} 512).isSome = true := by decide +kernel

/-- A hop that keeps `k` bytes as object 5, and its 32 bytes (R423). -/
def hop1 (k : Nat) : Hop := { objId := 5, keepLen := k }
def hopBits (k : Nat) : BitVec 256 := BitVec.ofNat 256 (laid [(4, 5), (0x10, k)])
/-- The last hop of two, and the first, both keeping 64 bytes. -/
def relay0 : Relay := { hops := [hop1 64, hop1 64], me := 1, bytes := 64, next := 2 }
def relay1 : Relay := { relay0 with me := 0, next := 1 }
def relayState (r : Relay) : State := { up with weights := { relays := [(1, some r)] } }

/-- A relay that may begin; the only chunk at the last hop and at hop 0, with and without a later hop that needs it, and where its class
waits; four and five bad copies; a kept chunk, a lost hop; a relay that is over. -/
theorem test_met_RelaysMove :
    let c : WeightCmd := { cmd0 with objId := 0, hops := 1 }
    let s := dirState (weightBits 2 c) []
    let mid : Relay := { relay0 with hops := [hop1 64, hop1 64, hop1 64] }
    let alone : Relay := { relay1 with hops := [hop1 64] }
    let l : Relay := { relay1 with kept := [(0, [])], got := 1 }
    let whole : Relay := { relay0 with got := 1 }
    let full := spent4 { relayState relay0 with weights := { relays := [(1, some relay0)], dir := [dirE 5 0 0] } }
    admitsWeight s 2 c = true ∧ weightFieldsOk 2 c = true ∧ c.bytes % 64 = 0 ∧ 64 ≤ c.bytes ∧ c.hops ≤ 4096 ∧
    [hopBits 64].map hopDecode = [hop1 64] ∧ hopsOk [hop1 64] c.bytes = true ∧
    relayOf (admitEntry 2 s) 0 = none ∧ fabricUp (relayState relay0) = true ∧
    relayOf (relayState relay0) 1 = some relay0 ∧ relay0.failed = false ∧ chunkComes relay0 0 = true ∧ chunkHere relay0 0 = false ∧
    relay0.me ≠ 0 ∧ (List.replicate 64 0#8).length = chunkLen relay0 0 ∧
    relayWaits relay0 0 (relayState relay0) = false ∧ relayWaits relay0 0 full = true ∧ relayOf full 1 = some relay0 ∧
    laterNeeds relay0 0 = false ∧ laterNeeds mid 0 = true ∧ chunkComes mid 0 = true ∧
    chunkComes relay1 0 = true ∧ relay1.me = 0 ∧ 0 = relay1.got ∧ laterNeeds relay1 0 = true ∧
    relayWaits relay1 0 (relayState relay1) = false ∧ laterNeeds alone 0 = false ∧ relayWaits alone 0 (relayState alone) = false ∧
    sget 0 ({ relay0 with tries := [(0, 3)] } : Relay).tries 0 < 4 ∧ 4 ≤ sget 0 ({ relay0 with tries := [(0, 4)] } : Relay).tries 0 ∧
    l.asking = none ∧ l.next < l.hops.length ∧ (0 : BitVec 16).toNat = (hopAt l l.next).chip ∧ l.kept.any (fun x => x.1 = 0) = true ∧
    relayOver whole = true ∧ whole.cmd = none := by decide +kernel

/-- Objects to make READY at action 6, none of them RELEASING. -/
theorem test_met_RelaysMove_objects :
    let m : State := inWin { up with weights := { dir := [{ dirE 5 0 0 with stored := true }] } }
    mayAct m 6 = true ∧ ((setAct 6 m).weights.dir.all (fun d => d.state ≠ 3)) = true := by decide +kernel

/-! ## Jobs, changeover, links and the host -/

/-- A SUBMIT of the tack in slot A, an END and a TENANT; the entry that gives a job command (R444). -/
def sub0 : JobCmd := { ring := 2, cmdTag := 11, tackId := 7 }
def end0 : JobCmd := { ring := 2, cmdTag := 11, term := 0 }
def jobBits (cmd : Nat) (j : JobCmd) : BitVec 512 := BitVec.ofNat 512
  (laid [(0, 2), (1, cmd), (8, j.cmdTag), (0x10, j.tackId), (0x18, j.term), (0x20, j.target)])

def slotsOf (t : Tack) : Weights := { slotA := { state := 2, tack := some t } }

def installing (i : Install) : State := inWin { up with job := { run := some run0, install := some i } }

/-- A tack that may be installed and one that is refused; a phase that begins; the end of the install; bytes left over. -/
theorem test_met_SwitchIn :
    let s := inWin { up with job := { chosen := some sub0 }, weights := slotsOf tack0 }
    let bad := inWin { up with job := { chosen := some sub0 }, weights := slotsOf { tack0 with cores := [{ core := 1 }] } }
    let i : Install := { phase := 1, strides := 2, total := 3, slot := 0, tack := tack0, job := sub0 }
    let d : Install := { i with phase := 3, strides := 3 }
    s.job.chosen = some sub0 ∧ mayAct s 7 = true ∧ s.job.run = none ∧ retHome s = true ∧ s.job.chgOpen = false ∧
    slotWith s 7 false = some 0 ∧ (cacheSlot s 0).tack = some tack0 ∧ tack0.groupChips = 1 ∧
    (installRefusal {} (learnGroup {} tack0 (setAct 7 s)) tack0).isNone = true ∧
    slotWith bad 7 false = some 0 ∧
    (installRefusal {} (learnGroup {} { tack0 with cores := [{ core := 1 }] } (setAct 7 bad)) { tack0 with cores := [{ core := 1 }] }).isSome = true ∧
    ((learnGroup {} tack0 (setAct 7 s)).stride.act = 7) ∧
    (installing i).job.install = some i ∧ i.phase < 3 ∧ phaseStart (installing i) i (i.phase + 1) ≤ i.strides ∧
    installDue (installing d) = some d ∧ d.phase = 3 ∧ (installing d).job.run = some run0 := by decide +kernel

def jobRing (x : BitVec 512) (l : List JobCmd) : State := let s := ringState x
  { s with job := { s.job with pending := l }, weights := slotsOf tack0 }

/-- Fields that hold, a full list, a term of 0; an END of the running job and of one that waits; TENANT; TENANT_REQ; a term that
ended. -/
theorem test_met_JobCommands :
    let s := jobRing (jobBits 1 sub0) []
    let u := admitEntry 2 s
    let f := admitEntry 2 (jobRing (jobBits 1 sub0) (List.replicate 64 sub0))
    let e := jobRing (jobBits 2 end0) []
    let o : JobCmd := { sub0 with cmdTag := 4 }
    let n : JobCmd := { end0 with target := 4 }
    let w : State := { jobRing (jobBits 2 n) [o] with job := { pending := [o] } }
    admitsJob s 1 sub0 = true ∧ submitField u sub0 = none ∧ (pendingJobs u).length < 64 ∧ submitField f sub0 = none ∧
    64 ≤ (pendingJobs f).length ∧ submitField u { sub0 with term := 0 } = some 1 ∧ end0.rsvd = false ∧ end0.cmdTag ≠ 0 ∧
    admitsJob e 2 end0 = true ∧ jobUnused 2 end0 = false ∧
    ((admitEntry 2 e).job.run.map (fun r => r.endBy)) = some false ∧ end0.target = 0 ∧ admitsJob w 2 n = true ∧ jobUnused 2 n = false ∧
    (admitEntry 2 w).job.run = none ∧ n.target ≠ 0 ∧ (pendingJobs (admitEntry 2 w)).find? (fun q => q.cmdTag = 4) = some o ∧
    admitsJob (jobRing (jobBits 3 end0) []) 3 end0 = true ∧ jobUnused 3 end0 = false ∧
    fabricUp s = true ∧ changeoverPending s = false ∧ mayAct s 9 = true ∧ (s.job.run.map (fun r => r.termLeft)) = some 10 ∧
    (({ run0 with termLeft := 0 } : Running).termLeft = 0) ∧
    changeoverPending { s with job := { tenantReq := some 3 } } = true := by decide +kernel

def chgState (p n : Nat) : State := inWin { up with job := { chgOpen := true, chgStrides := n, chg := { phase := p, newTenant := 9 } } }

theorem test_met_ChangeoverRuns :
    let s := inWin { up with job := { tenantReq := some 9, chg := { phase := 0 } } }
    mayAct s 7 = true ∧ s.job.tenantReq = some 9 ∧ s.job.chgOpen = false ∧ s.job.run = none ∧ retHome s = true ∧ s.job.chg.phase = 0 ∧
    mayAct (chgState 1 1) 7 = true ∧ (chgState 1 1).job.chgOpen = true ∧ (chgState 1 1).job.chg.phase = 1 ∧
    1 ≤ (chgState 1 1).job.chgStrides ∧ Memory.wf (chgState 1 1).mem = true ∧ (chgState 2 3842).job.chg.phase = 2 ∧
    3842 ≤ (chgState 2 3842).job.chgStrides ∧ (chgState 3 3843).job.chg.phase = 3 ∧ 3843 ≤ (chgState 3 3843).job.chgStrides := by
  decide +kernel

theorem test_tenant_taken : (ran .changeoverClose (chgState 3 3843)).job.tenant = 9 := by decide +kernel

/-- Chip 5 of rack 0 (tray 1, slot 1); link 0 is `k`. -/
def placed (k : Link) : State := { up with links := { rack := 0, tray := 1, slot := 1, links := [(0, k)] } }

/-- A flit under its CRC (R476). -/
def flitOf (bits : Nat) : BitVec 2112 :=
  let b := BitVec.ofNat 2112 bits
  b ||| ((crc32c ((List.range 260).map (flitByte b))).zeroExtend 2112 <<< 2080)

/-- A data flit of sequence number `seq` that acknowledges 4095 (R476), and a LINKCTL of link `link` of chip `chip` (R477). -/
def flit0 (seq : Nat) : BitVec 2112 := flitOf (2 ^ 28 + seq * 2 ^ 16 + 4095 * 2 ^ 4)
def ident (chip link : Nat) : BitVec 2112 := flitOf (2 * 2 ^ 28 + (chip + link * 2 ^ 16) * 2 ^ 224)

/-- Link 0 untrained, its ring neighbour and another; a wrong peer, a fallen link; five lanes and four; a lane out; a link in use. -/
theorem test_met_LinksRun :
    let s := placed {}
    let x : LinkTrain := {}
    let u := placed { state := 2, lanesUp := 0x1F }
    let f := placed { state := 2, lanesUp := 0x0F }
    let w := placed { state := 2, lanesUp := 0x1F, turnAge := u.links.recalInterval, flits := 99999, laneFix := [(1, 1)] }
    let o := placed { state := 3, lane := some 2 }
    let d := placed { state := 4 }
    fabricUp s = true ∧ 6 ≤ s.boot.stage ∧ coordsSet s = true ∧ (linkOf s 0).state < 2 ∧ x.ok = true ∧ isZ 0 = false ∧ isZ 2 = true ∧
    4 ≤ laneCount (lanesBoth x (linkOf s 0)) ∧ laneCount (lanesBoth { x with peerLanes := 0x07 } (linkOf s 0)) < 4 ∧
    (linkOf (placed { state := 5 }) 0).state = 5 ∧ isDown d 0 = true ∧ 4 ≤ laneCount (lanesBoth x (linkOf d 0)) ∧
    (linkOf u 0).state = 2 ∧ (linkOf u 0).lanesUp.getLsbD 0 = true ∧ (linkOf u 0).nextLane = 0 ∧ 4 < laneCount (linkOf u 0).lanesUp ∧
    laneCount (linkOf f 0).lanesUp ≤ 4 ∧ (linkOf o 0).state = 3 ∧ (linkOf o 0).lane = some 2 ∧ linkLive u 0 = true ∧
    u.links.recalInterval ≤ (linkOf w 0).turnAge ∧ (linkOf w 0).nextLane = 0 ∧ (1 : Nat) ≠ (linkOf w 0).nextLane ∧
    lanePoor (linkOf w 0) 1 = true ∧ causeDown (.silence 4096) = true ∧ causeDown (.lockLoss 5 256) = true := by decide +kernel

/-- The 288 bytes of a flit: the 264 of `b`, then its parity. -/
def withParity (b : BitVec 2112) (p : List Byte) : BitVec 2304 :=
  BitVec.ofFnLE (fun j => if j.val < 2112 then b.getLsbD j.val else (p.getD ((j.val - 2112) / 8) 0#8).getLsbD (j.val % 8))

theorem flit_own (b : BitVec 2112) (p : List Byte) : (withParity b p).setWidth 2112 = b := by
  ext j hj
  have : j < 2304 := by omega
  simp [withParity, this, hj]

theorem flit_byte (b : BitVec 2112) (p : List Byte) (i : Nat) (hi : i < 264) : (withParity b p).extractLsb' (8 * i) 8 = flitByte b i := by
  ext j hj
  have h1 : 8 * i + j < 2304 := by omega
  have h2 : 8 * i + j < 2112 := by omega
  simp [withParity, flitByte, h1, h2]

theorem flit_parity (b : BitVec 2112) (p : List Byte) (i : Nat) (hi : 264 ≤ i) (h : i < 288) :
    (withParity b p).extractLsb' (8 * i) 8 = p.getD (i - 264) 0#8 := by
  ext j hj
  have h1 : 8 * i + j < 2304 := by omega
  have h2 : ¬ 8 * i + j < 2112 := by omega
  have h3 : (8 * i + j - 2112) / 8 = i - 264 := by omega
  have h4 : (8 * i + j) % 8 = j := by omega
  simp [withParity, h1, h2, h3, h4, hj]

/-- A flit with its own parity needs no correction. -/
theorem flit_sent (b : BitVec 2112) : ∃ raw, flitCorrect raw none = some (b, []) := by
  refine ⟨withParity b (flitParity ((List.range 264).map (flitByte b))), ?_⟩
  have h : flitDiffs (withParity b (flitParity ((List.range 264).map (flitByte b)))) b = [] := by
    simp only [flitDiffs, List.filter_eq_nil_iff, List.mem_range]
    intro i hi
    have k : (withParity b (flitParity ((List.range 264).map (flitByte b)))).extractLsb' (8 * i) 8 = (flitWhole b).getD i 0#8 := by
      by_cases h : i < 264
      · rw [flit_byte _ _ _ h, flitWhole, List.getD_append _ _ _ _ (by simpa using h)]; simp [h]
      · rw [flit_parity _ _ _ (by omega) hi, flitWhole, List.getD_append_right _ _ _ _ (by simp; omega)]; simp
    simp [k]
  simp [flitCorrect, flit_own, h]
set_option maxRecDepth 20000 in
/-- What the right neighbour of link 0, a wrong one and, on a Z link, another chip send; a flit in order and one out of order. -/
theorem test_met_LinksRun_flits :
    let s := placed {}
    let f := flitDecode (ident 6 1)
    let u := placed { state := 2, lanesUp := 0xFF }
    let k := fun (b : BitVec 2112) => linkOf (linkFlush 0 (modLink 0 (fun q => takeAck (flitDecode b).ack { q with flitAt := u.stride.count })
      (modLink 0 (countFixed []) u))) 0
    f.crcOk = true ∧ f.kind = 2 ∧ f.rsvd = false ∧ peerFits s 0 f.ctl = true ∧ (flitDecode (ident 7 1)).crcOk = true ∧
    (flitDecode (ident 7 1)).kind = 2 ∧ peerFits s 0 (flitDecode (ident 7 1)).ctl = false ∧ peerFits s 2 f.ctl = false ∧
    (flitDecode (flit0 0)).crcOk = true ∧ (flitDecode (flit0 0)).kind = 1 ∧ flitFits (k (flit0 0)) (flitDecode (flit0 0)) = true ∧
    (flitDecode (flit0 1)).crcOk = true ∧ (flitDecode (flit0 1)).kind = 1 ∧ flitFits (k (flit0 1)) (flitDecode (flit0 1)) = false ∧
    (flitDecode (flit0 0 ^^^ 2 ^ 40)).crcOk = false ∧ (flitDecode (flit0 0 ^^^ 2 ^ 40)).kind = 1 := by decide +kernel

/-- The header of a packet of TYPE `type` for chip `dst`, bit 1 of byte 5 as given (R481). -/
def pack (type dst rsvd : Nat) : BitVec 128 := BitVec.ofNat 128 (dst + type * 2 ^ 32 + rsvd * 2 ^ 41)

/-- A packet for this chip, one to pass on, with and without room, and one without a route; one with a reserved field; a job whose link
has fallen, with and without an install. -/
theorem test_met_PacketsMove :
    let i : InPacket := { vc := 4, pkt := packetDecode (pack 1 5 0) [], frees := 1 }
    let u := placed { state := 2, lanesUp := 0xFF, inPkts := [i] }
    let v := placed { state := 2, lanesUp := 0xFF, wait := [(4, packetDecode (pack 1 6 0) [])] }
    let n := { u with links := { u.links with routes := [(9, 0x10)] } }
    let d : State := inWin { placed { state := 4 } with job := { run := some { run0 with linkSet := [(5, 0)] } } }
    let k : Install := { phase := 1, strides := 2, total := 3, slot := 0, tack := tack0, job := sub0 }
    let e : State := { d with job := { d.job with install := some k } }
    fabricUp u = true ∧ (linkOf u 0).inPkts.find? (fun q => q.vc = 4) = some i ∧ i.pkt.type = 1 ∧ i.pkt.dstChip = 5 ∧ i.pkt.rsvd = false ∧
    routeNext u 5 0 (failsOver 1) = .here ∧ (packetDeliver i.pkt u).2 = true ∧
    (packetDecode (pack 1 6 0) []).dstChip = 6 ∧ routeNext u 6 0 (failsOver 1) = .link 0 ∧
    linkRoom u 0 (2 * packetClass 1 + dateline u (some 0) 0 0) = true ∧ linkRoom v 0 (2 * packetClass 1 + dateline v (some 0) 0 0) = false ∧
    (packetDecode (pack 1 5 1) []).rsvd = true ∧ 11 ≤ (packetDecode (pack 11 5 0) []).type ∧ (packetDecode (pack 4 5 0) []).type = 4 ∧
    routeNext n 9 0 (failsOver 1) = .nowhere 2 ∧ ownChip d = 5 ∧
    d.job.run = some { run0 with linkSet := [(ownChip d, 0)] } ∧ mayAct d 1 = true ∧ isDown d 0 = true ∧ d.job.install = none ∧
    (jobFault 0x0801 (downDetail (setAct 1 e) 0) (setAct 1 e)).job.install ≠ none := by decide +kernel

/-- The host's link is up at width 16 and rate 6, ring 2 is `r`. -/
def hosted (r : Ring) : State := { up with host := { width := 5, rate := 6, rings := [(2, r)], bar2Base := 0, bar2En := true } }

def comp0 : Completion := { space := 0, kind := 1, tag := 11 }

/-- A snapshot; the pins; an IDE stream; a completion that fits, without and with an interrupt, and one that finds its queue full. -/
theorem test_met_HostLinkRuns :
    let s := hosted { active := true, decided := [comp0] }
    let q := hosted { active := true, decided := [comp0], cqPi := 16 }
    let x : State := { s with host := { s.host with ide := 2 } }
    s.stride.window = false ∧ 7 ≤ s.boot.stage ∧ hostUp s = true ∧ admitOk s = true ∧ changeoverPending s = false ∧ s.host.polled = false ∧
    s.pins.perstN = true ∧ 4 ≤ s.boot.stage ∧ ((List.range 16).all (fun n => !(ringOf s n).active || (ringOf s n).heldOut.isEmpty) = true) ∧
    x.host.ide = 2 ∧ jobLoaded x = false ∧ jobLoaded busy = true ∧ fabricUp s = true ∧ ringUp s 2 = true ∧ (ringOf s 2).heldOut = [] ∧
    (ringOf s 2).decided = comp0 :: [] ∧ cqFull (ringOf s 2) = false ∧ postsFirst s comp0.order = false ∧ postsFirst s 1 = true ∧
    (ringOf s 2).irqEn = false ∧ cqFull (ringOf q 2) = true ∧ tlpHeard s false = true ∧
    (ringOf (hosted { active := true, decided := [comp0], irqEn := true }) 2).irqEn = true := by decide +kernel

/-- A register and an offset without one; register space; memory through BAR2 and a hole. -/
theorem test_met_WindowsAccess :
    let s : State := { hosted {} with ostlers := [(0, { online := true })] }
    bar0Heard s 0 8 = true ∧ tlpHeard s false = true ∧ 5 ≤ s.boot.stage ∧ hostReg s 0 8 = some .gctlId ∧ isDbgReg .gctlId = false ∧
    hostReg s 0x10 4 = some .bar2Base ∧ regHalf .bar2Base = false ∧ isDbgReg .bar2Base = false ∧ (hostReg s 0x3F8 8).isNone = true ∧
    ostlerReach s = true ∧
    regFor 0 8 = some .gctlId ∧ bar2Fits s 4096 0x100 8 = true ∧ bar2Fits s 512 0x100 8 = true ∧ hostOpen s (bar2Addr s 0x100) 8 = true ∧
    s.host.bar2En = true ∧
    readsMay s (bar2Addr s 0x100) 8 = true ∧
    bar2May s false (bar2Addr s 0x100) = true ∧ bar2May s false (bar2Addr s 0x100 + 7) = true ∧
    bar2May s true (bar2Addr s 0x100) = true ∧ bar2May s true (bar2Addr s 0x100 + 7) = true ∧ aliasTarget s (bar2Addr s 0x100) = none ∧
    Memory.wf s.mem = true ∧ bar2May { s with host := { s.host with bar2Base := 0x800 } } false 0x800000000100 = false ∧
    bar2May { s with host := { s.host with bar2Base := 0x800 } } true 0x800000000100 = false := by decide +kernel


/-! ## Board, management, security, service and strides -/

def alState (a : AlState) : State := { up with mgmt := { al := a } }

theorem test_met_BoardEvents :
    tempMax (noteChange { up with thermal := readSensors [(950, 0)] up.thermal }) < 1150 ∧
    up.thermal.tripped = false ∧ up.pins.porstN = true ∧ up.pins.powerFailN = true ∧
    ({ up with pins := { powerFailN := false } } : State).pins.powerFailN = false ∧ up.chipFault = none ∧
    (950 : Int) ≤ 950 ∧ (1150 : Int) ≤ 1150 ∧ (12 : Nat) < 13 ∧ (List.replicate 32 (900 : Int)).length = 32 ∧
    ((List.replicate 32 (900 : Int)).all (fun x => x ≤ 900)) = true ∧ scanon 0 none up.thermal.sensors = true := by decide +kernel

theorem test_throttle_at_95_degrees : (ran (.thermalThrottle 0 950) up).thermal.throttle = true := by decide +kernel

/-- Steps the AL state may take and may not; an output image in OP; the master lost, both ports down; SDO entries of each access. -/
theorem test_met_EthercatRuns :
    let op := alState .op
    up.boot.stopped = false ∧ 5 ≤ up.boot.stage ∧ up.mgmt.clockLost = false ∧ op.mgmt.clockLost = false ∧ AlState.preOp ≠ .boot ∧
    alStep .init .preOp = true ∧ AlState.preOp ≠ .op ∧
    (alState .safeOp).mgmt.al = .safeOp ∧ alStep .init .op = false ∧ op.mgmt.al = .op ∧ op.mgmt.masterLost = false ∧
    op.boot.restart = false ∧ (1150 : Nat) ≤ 1150 ∧ ({} : OutImage).rack = op.mgmt.rack ∧
    ({ op with mgmt := { op.mgmt with portA := false } } : State).mgmt.portA = false ∧
    (modStride (fun t => { t with sourceNow := 2 }) op).stride.sourceNow = 2 ∧ op.stride.fallback = false ∧ mailboxUp op = true ∧
    odMissing op 0x2200 1 = 0 ∧ odAccess 0x2200 1 ≠ .wo ∧ odAccess 0x2200 4 = .rw ∧ odAccess 0x2200 1 = .ro ∧
    odMissing op 0x2201 0 ≠ 0 ∧ isOvf 0x2700 0x0B = true ∧ odMissing op 0x2700 0x0B = 0 ∧ op.mgmt.watchdogNow ≤ 100 ∧ 99 < op.mgmt.watchdogNow := by decide +kernel

theorem test_master_lost_freezes :
    let s := ran (.masterLost 100 false) (alState .op)
    s.mgmt.al = .safeOp ∧ s.mgmt.alCode = 0x001B ∧ s.mgmt.frozen = true ∧ s.mgmt.losses = 1 := by decide +kernel

/-- A ward write that is not authorised, one that is shut out; the last bit, one before it, and one cut short; an authorisation with
another key; a bank to hand over, to release and to read. -/
theorem test_met_WardsAndTally :
    let s : State := { alState .op with fuses := { ownerHash := 7 } }
    let r : TallyRec := { type := 2, code := 0x0A83, seq := 0, stride := 0 }
    let b : State := { alState .op with tally := { bank0 := { recs := [r, r], handed := true }, next := 0, reader := 1 } }
    mailboxUp s = true ∧ s.boot.stopped = false ∧ wardShut s = false ∧ s.fuses.ownerHash ≠ 0 ∧ s.sec.auth = none ∧
    2 ≠ wardValue s.fuses .tumblerFloor ∧
    wardBeyond s.fuses .tumblerFloor 2 = false ∧ wardShut { s with pins := { powerFailN := false } } = true ∧
    wardValue (burnBit .tumblerFloor 1 s.fuses) .tumblerFloor = 1 ∧ wardValue (burnBit .tumblerFloor 2 s.fuses) .tumblerFloor ≠ 2 ∧
    s.pins.powerFailN = true ∧ s.chipFault = none ∧ (inWin s).stride.window = true ∧ s.tally.reader = 0 ∧
    nextRecord s = none ∧ nextRecord b = some r ∧ b.tally.popped + 1 < (bankOf b.tally b.tally.next).recs.length := by decide +kernel

theorem test_met_WardsAndTally_key (b : BitVec 1024) : authHash b ≠ ({ ownerHash := authHash b + 1 } : Fuses).ownerHash := by simp

/-- What a signature verifies and a key hashes to are free values: with a signature over the nonce that verifies, under a key whose hash is
not 0, the part below has an owner and an authorised write of 2 to the first floor. -/
theorem test_met_WardsAndTally_signed (b : BitVec 1024) (hk : authHash b ≠ 0)
    (hv : Config.verify (authKey b) (wardMessage .tumblerFloor 2 0 5) (b.extractLsb' 512 512) = true) :
    ∃ s : State, mailboxUp s = true ∧ s.boot.stopped = false ∧ wardShut s = false ∧ s.fuses.ownerHash ≠ 0 ∧
      authHash b = s.fuses.ownerHash ∧ authorised .tumblerFloor 2 s = true ∧ 2 ≠ wardValue s.fuses .tumblerFloor ∧
      wardBeyond s.fuses .tumblerFloor 2 = false ∧
      authorised .tumblerFloor 2 { s with pins := { powerFailN := false } } = true := by
  refine ⟨{ alState .op with fuses := { ownerHash := authHash b }, sec := { auth := some (b, 5) } }, rfl, rfl, rfl, hk, rfl, ?_, ?_, ?_, ?_⟩
  · simpa [authorised, authLife] using hv
  · show (2 : Nat) ≠ 0
    decide
  · rfl
  · simpa [authorised, authLife] using hv

theorem test_met_SpdmAnswers :
    let s : State := { up with host := { width := 5, rate := 6, ide := 1 } }
    let o : State := { s with sec := { sessions := [(0, { up := true }), (1, { up := true, fin := true })] } }
    spdmUp s = true ∧ s.chipFault ≠ some 0x0B01 ∧ (spdmSess s 0).up = false ∧ (spdmSess o 0).up = true ∧ (spdmSess o 0).fin = false ∧
    (spdmSess o 1).fin = true ∧ s.host.ide = 1 ∧ ({ s with chipFault := some 0x0B01 } : State).chipFault = some 0x0B01 ∧
    s.thermal.tripped = false ∧ s.job.chgOpen = false := by decide +kernel

/-- Level 3 on core 0, level 3 on scratchpad, level 1 on a register, and a dump unit at each end. -/
theorem test_met_DebugAccess :
    let s : State := { up with sec := { dbgOpen := true, level := 3, path := 1, core := 0, addr := 0xF00000000100 } }
    let h := modCore 0 (fun k => { k with dbgHalt := true }) s
    let j : State := { up with pins := { trstN := true } }
    pathUp j .jtag = true ∧ j.sec.dbgOpen = false ∧ j.job.chgOpen = false ∧ up.pins.trstN = false ∧ pathUp up .jtag = false ∧
    pathUp { s with pins := { trstN := true } } .jtag = true ∧ (3 : BitVec 2) ≠ 0 ∧ up.sec.dbgOpen = false ∧ up.job.chgOpen = false ∧
    s.sec.dbgOpen = true ∧
    s.sec.path = pathNo .jtag ∧ dbgControl s = true ∧ (jobCores s).contains s.sec.core = false ∧ s.sec.core < 288 ∧
    (coreOf h 0).dbgHalt = true ∧ nextThread h 0 = some 0 ∧ debugMay s false = true ∧ debugMay s true = true ∧
    regionOf s s.sec.addr = .spad 0 0x100 ∧ Memory.wf s.mem = true ∧ dumpOffsetOk 16 0x3FFFFFC0 = true ∧
    dumpOffsetOk 17 0xFFC0 = true ∧ dumpOffsetOk up.dumps.source up.dumps.offset = true := by decide +kernel

/-- Start-up that stops at its secret, fuses and images, and start-up that reaches tier H; the changeover closed at action 9. -/
theorem test_met_ResetsAndStartUp :
    let s := State.reset
    let i : StartIn := {}
    let u := stageMemory i (stageConfig (0, false) (stageTumbler (0, false) (stageFuses s)))
    let e : State := inWin { State.reset with boot := { stage := 6 }, job := { chg := { phase := 0 } }, sft := { activeId := 0x00040001 } }
    5 ≤ up.boot.stage ∧ s.boot.stopped = false ∧ s.boot.stage = 0 ∧ pickDir (stageFuses s).boot [false, false] = none ∧
    pickDir (stageFuses s).boot i.dirOk = some 0 ∧ pickImage (stageFuses s) 1 [false, false, true, true] = none ∧
    pickImage (stageFuses s) 1 i.imageOk = some (0, false) ∧ pickImage (stageTumbler (0, false) (stageFuses s)) 2 i.imageOk = some (0, false) ∧
    (∀ p, p < 8 → (portOf u p).state = 2) ∧ mayAct e 9 = true ∧ e.boot.stage = 6 ∧ e.job.chg.phase = 0 ∧ changeoverPending e = false ∧
    e.sft.pending = false ∧ e.sft.busy = false ∧ e.sft.activeId.toNat = i.sftId := by decide +kernel

/-- A core to leave and one that left under a job; an Ostler core to leave and to come back; a dump that Tumbler writes. -/
theorem test_met_PartsLeaveService :
    let s : State := { up with ostlers := [(2, { online := true }), (3, { regions := 256 })] }
    let l := modStride (fun t => { t with act := 1 }) (inWin (modCore 0 (fun k => { k with svc := 1 }) busy))
    let c := modStride (fun t => { t with act := 7 }) (inWin s)
    let d : State := { up with chipFault := some 0x0209, dumps := { tumblerOwns := true, writing := true } }
    up.chipFault = none ∧ 5 ≤ up.boot.stage ∧ (bindingOf up 0).unbacked = false ∧ mayAct l 1 = true ∧
    ((tackCores run0.tack).filter (fun k => coreStale l k && !run0.coresLost.contains k)) = [0] ∧ (ostlerOf s 2).online = true ∧
    mayAct c 7 = true ∧ c.stride.act = 7 ∧ l.stride.act = 1 ∧ 256 ≤ (ostlerOf c 3).regions ∧ (ostlerOf s 3).online = false ∧
    (ostlerOf s 3).retire = false ∧ s.boot.rolling = none ∧
    isChipFault 0x0B01 = true ∧ isChipFault 0x0801 = false ∧ d.chipFault.isSome = true ∧ d.dumps.tumblerOwns = true ∧
    d.dumps.writing = true ∧ d.boot.restart = false := by decide +kernel

theorem test_met_ImagesUpdate :
    let img : ImgSlot := { bytes := bytesLE 4 1 ++ bytesLE 4 0 ++ bytesLE 4 256 ++ List.replicate 500 0 }
    let s : State := { alState .op with boot := { stage := 7, target := 1, imgState := 1, segments := 1, tumB := img } }
    let r : State := { inWin s with boot := { stage := 7, restartDue := true } }
    let k : State := { inWin up with boot := { stage := 7, rolling := some (2, 0) }
                                     ostlers := (List.range 8).map (fun n => (n, { online := true })) }
    imgHeard s = true ∧ imgBusy s = false ∧ s.boot.target ≠ 0 ∧ s.boot.imgState = 1 ∧ imgCheck s true = 0 ∧
    imgCheck s false ≠ 0 ∧ (List.replicate 512 (0 : Byte)).length = 512 ∧ s.boot.target = 1 ∧ s.boot.imgState ≠ 2 ∧
    ({ s.boot with imgState := 2 } : Boot).imgState = 2 ∧ (s.boot.segments + 1) * 512 ≤ slotSize s.boot ∧
    slotSize s.boot < (2048 + 1) * 512 ∧ r.boot.restartDue = true ∧ r.stride.window = true ∧
    ({ r.boot with restart := true } : Boot).restart = true ∧ k.boot.rolling = some (2, 0) ∧ fabricUp k = true ∧
    k.stride.window = true ∧ 0 ≤ k.stride.count ∧ 8 ≤ ostlersUp k := by decide +kernel

/-- A boundary that is due, with and without a fault; the issue span; the watchdog; the markers of a root and a member; the edges and
limits of the other sources. -/
theorem test_met_StridesRun :
    let f : State := { up with chipFault := some 0x0209 }
    let w := modStride (fun t => { t with act := 1 }) (ending { run0 with quiet := 2 })
    let body := fun (kind code rsvd : Nat) => BitVec.ofNat 256 (laid [(8, 16384), (0x10, kind), (0x12, code), (0x1C, rsvd)])
    let g : Running := { run0 with tack := { plan with header := header 0 7 0 2 } }
    let root : State := { busy with job := { run := some g }, stride := { root := true } }
    let member : State := { busy with job := { run := some g } }
    let edge := modStride (fun t => { t with sourceNow := 3 }) up
    let late := modStride (fun t => { t with missing := 3 }) member
    let dist := modStride (fun t => { t with sourceNow := 1, missing := 4 }) member
    let group : State := { placed {} with job := { run := some { g with group := [4, 5] } } }
    boundaryDue up = true ∧ up.chipFault = none ∧ boundaryDue f = true ∧ f.chipFault.isSome = true ∧ (inWin f).stride.window = true ∧
    fabricUp f = false ∧ (inWin busy).stride.window = true ∧ fabricUp busy = true ∧ run0.openSteps.contains run0.stride = false ∧
    (coreOf up 0).halted = false ∧ coreStale up 0 = false ∧ mayAct w 1 = true ∧ w.stride.act = 1 ∧ w.job.run = some { run0 with quiet := 2 } ∧
    up.boot.restart = false ∧ 2 * up.stride.len + up.stride.leadNow < 34305 ∧ multiChip root = true ∧ root.stride.window = false ∧
    root.stride.sendTack = 0 ∧ root.job.chosen = none ∧ root.job.run = some g ∧ multiChip member = true ∧ member.stride.root = false ∧
    member.stride.sourceNow < 2 ∧ member.stride.missing < 3 ∧ member.stride.fallback = false ∧ member.stride.freeRun = false ∧
    3 ≤ late.stride.missing ∧ multiChip late = true ∧ late.stride.root = false ∧ late.stride.sourceNow = 0 ∧ late.stride.fallback = false ∧
    3 ≤ dist.stride.missing ∧ multiChip dist = true ∧ dist.stride.root = false ∧ dist.stride.sourceNow = 1 ∧ dist.stride.freeRun = false ∧
    2 ≤ (markerGroup group 0).length ∧ rootOf (markerGroup group 0) ≠ ownChip group ∧ fabricUp group = true ∧
    (markerGroup up 0).length < 2 ∧ up.job.groupReady.contains (0, 7) = false ∧ edge.stride.sourceNow = 3 ∧
    bodyRsvd (body 0 0 0) = false ∧ bodyKind (body 0 0 0) = 0 ∧ bodyRsvd (body 0 0 1) = true ∧ bodyKind (body 1 0 0) = 1 ∧
    bodyKind (body 2 0x0801 0) = 2 ∧ (bodyMarker (body 2 0x0801 0)).code = 0x0801 ∧ bodyRsvd (body 2 0x0801 0) = false ∧
    root.stride.root = true ∧ edge.thermal.tripped = false ∧ 4 * edge.stride.len ≤ 65536 := by decide +kernel


/-! ## Worked cases of the spec -/

/-- 05: word 0 of engine 3's TMAC. -/
theorem test_tmac_word_decodes :
    let f := tileFields 0x0000040611874340 0x000019000020000C 0 0
    (f.eng, f.gait, f.shift, f.wfmt, f.sgranA, f.sgranW) = (3, 0, 24, 1, 2, 1) ∧ f.init = true ∧ f.keep = false ∧ f.rqCol = true ∧
    (f.msrc, f.mExt, f.nExt, f.kExt) = (1, 12, 32, 6400) := by decide +kernel

/-- 03: the requantised element. -/
theorem test_requant_case : (requant (-1126312) 0xF0F11F01).1 = -32 := by decide +kernel

/-- 08: where local address 0x010001234567 lands. -/
theorem test_tier_l_lands :
    lLanding 0x010001234567 = (3, 1, 0x26D067, 0x26D3C0) ∧ portOfAddr 0x010001234567 = 11 := by decide +kernel

/-- 02: the power-following length at a budget of 600 W; 16: at 700 W. -/
theorem test_power_following :
    let s := modStride (fun t => { t with pMeasW := 1100, lastLen := 16384 }) up
    followLen 600 s = (39808, false) ∧
    followLen 700 s = (30976, false) := by decide +kernel

/-- 14: the longest path inside one rack. -/
theorem test_longest_path : rackPath 0 66 = 1468 := by decide +kernel


/-- The CRCs the spec names, over the nine digits by which each is known. -/
theorem test_crcs :
    let l := (List.range 9).map (fun i => BitVec.ofNat 8 (0x31 + i))
    crc32c l = 0xE3069283 ∧ crc32ieee l = 0xCBF43926 := by decide +kernel

end Sys2Proof.Tests
end

section
/-! # Rounding half to even (R115)

What `rhe` answers in each of the three positions of the remainder, and from it the one fact about its error that gives the rest:
the error is below half a unit, or just half of one with an even result. -/
namespace Sys2Proof.Machine

/-- `rhe` at a shift of 1 or more, with R115's remainder as `x % 2 ^ d`. -/
theorem rhe_of_pos (x : Int) {d : Nat} (hd : 1 ≤ d) :
    rhe x d = if (2 : Int) ^ (d - 1) < x % 2 ^ d then x / 2 ^ d + 1
      else if x % 2 ^ d = 2 ^ (d - 1) ∧ x / 2 ^ d % 2 = 1 then x / 2 ^ d + 1 else x / 2 ^ d := by
  have hr : x - x / 2 ^ d * 2 ^ d = x % 2 ^ d := by rw [Int.emod_def, mul_comm]
  simp [rhe, Nat.ne_of_gt hd, hr]

/-- The position of the remainder against half a unit decides the result: down, up, or to the even neighbour. -/
theorem rhe_cases (x : Int) {d : Nat} (hd : 1 ≤ d) :
    (x % 2 ^ d < 2 ^ (d - 1) ∧ rhe x d = x / 2 ^ d) ∨
    ((2 : Int) ^ (d - 1) < x % 2 ^ d ∧ rhe x d = x / 2 ^ d + 1) ∨
    (x % 2 ^ d = 2 ^ (d - 1) ∧ rhe x d % 2 = 0 ∧ (rhe x d = x / 2 ^ d ∨ rhe x d = x / 2 ^ d + 1)) := by
  rcases lt_trichotomy (x % 2 ^ d) (2 ^ (d - 1)) with hlow | htie | hhigh
  · exact .inl ⟨hlow, by rw [rhe_of_pos x hd, if_neg hlow.not_gt, if_neg fun h => hlow.ne h.1]⟩
  · have hrhe : rhe x d = if x / 2 ^ d % 2 = 1 then x / 2 ^ d + 1 else x / 2 ^ d := by
      simp [rhe_of_pos x hd, htie]
    refine .inr (.inr ⟨htie, ?_⟩)
    split at hrhe <;> omega
  · exact .inr (.inl ⟨hhigh, by rw [rhe_of_pos x hd, if_pos hhigh]⟩)

/-- The result is nearest to `x ÷ 2 ^ d`: its error is below half a unit, or half a unit with an even result. -/
theorem rhe_error (x : Int) {d : Nat} (hd : 1 ≤ d) :
    2 * |rhe x d * 2 ^ d - x| < 2 ^ d ∨ 2 * |rhe x d * 2 ^ d - x| = 2 ^ d ∧ rhe x d % 2 = 0 := by
  have hunit : (2 : Int) ^ d = 2 * 2 ^ (d - 1) := (mul_pow_sub_one (by omega) 2).symm
  have hdiv : x / 2 ^ d * 2 ^ d + x % 2 ^ d = x := Int.ediv_mul_add_emod x (2 ^ d)
  have hnonneg : 0 ≤ x % 2 ^ d := Int.emod_nonneg x (by positivity)
  have hlt : x % 2 ^ d < 2 ^ d := Int.emod_lt_of_pos x (by positivity)
  have hdown : rhe x d = x / 2 ^ d → |rhe x d * 2 ^ d - x| = x % 2 ^ d := fun h => by
    rw [h, abs_of_nonpos] <;> linarith
  have hup : rhe x d = x / 2 ^ d + 1 → |rhe x d * 2 ^ d - x| = 2 ^ d - x % 2 ^ d := fun h => by
    rw [h, add_one_mul, abs_of_nonneg] <;> linarith
  rcases rhe_cases x hd with ⟨hlow, hq⟩ | ⟨hhigh, hq⟩ | ⟨htie, heven, hq | hq⟩
  · exact .inl (by rw [hdown hq]; linarith)
  · exact .inl (by rw [hup hq]; linarith)
  · exact .inr ⟨by rw [hdown hq]; linarith, heven⟩
  · exact .inr ⟨by rw [hup hq]; linarith, heven⟩

theorem rhe_error_le (x : Int) {d : Nat} (hd : 1 ≤ d) : 2 * |rhe x d * 2 ^ d - x| ≤ 2 ^ d :=
  (rhe_error x hd).elim le_of_lt fun h => h.1.le

theorem rhe_even_of_tie {x : Int} {d : Nat} (hd : 1 ≤ d) (htie : 2 * |rhe x d * 2 ^ d - x| = 2 ^ d) : rhe x d % 2 = 0 :=
  (rhe_error x hd).elim (fun h => absurd htie h.ne) And.right

/-- A value below half a unit rounds to 0, for any other result would err by more than half a unit. -/
theorem rhe_eq_zero {x : Int} {d : Nat} (hd : 1 ≤ d) (hx : 2 * |x| < 2 ^ d) : rhe x d = 0 := by
  have hunit : (0 : Int) < 2 ^ d := by positivity
  have hlt : |rhe x d| * 2 ^ d < 1 * 2 ^ d :=
    calc |rhe x d| * 2 ^ d = |(rhe x d * 2 ^ d - x) + x| := by rw [sub_add_cancel, abs_mul, abs_of_pos hunit]
      _ ≤ |rhe x d * 2 ^ d - x| + |x| := abs_add_le _ _
      _ < 1 * 2 ^ d := by linarith [rhe_error_le x hd]
  exact Int.abs_lt_one_iff.mp (lt_of_mul_lt_mul_right hlt hunit.le)

/-- Requantisation rounds the product of element and multiplier by `rhe`, then clamps (R123). -/
theorem requant_fst (a : Int) (desc : Nat) :
    (requant a desc).1 = satInt (outBits (desc % 8)) (rhe (a * (desc / 65536 : Nat)) (desc / 256 % 64)) := rfl

/-- Settles O18: the bound and the tie follow from `rhe_error`, the zero term from `rhe_eq_zero`. -/
theorem roundsHalfToEven : Obligations.RoundsHalfToEven := by
  intro x d desc hd q r h
  have hr : r = x % 2 ^ d := by rw [Int.emod_def, mul_comm]
  have herr := rhe_error_le x hd
  have habove : rhe x d * 2 ^ d - x ≤ |rhe x d * 2 ^ d - x| := le_abs_self _
  have hbelow : x - rhe x d * 2 ^ d ≤ |rhe x d * 2 ^ d - x| := abs_sub_comm x _ ▸ le_abs_self _
  refine ⟨hr ▸ rhe_of_pos x hd, requant_fst x desc, by linarith, by linarith, ?_, ?_⟩
  · rintro (htie | htie) <;> exact rhe_even_of_tie hd (by linarith)
  · intro hd40 hlow hhigh
    have hpow : (2 : Int) ^ 40 ≤ 2 ^ d := pow_le_pow_right₀ (by norm_num) hd40
    have hx : |x| < 2 ^ 39 := abs_lt.mpr ⟨hlow, hhigh⟩
    exact rhe_eq_zero hd (by linarith)

end Sys2Proof.Machine
end

section
/-! # Frames of a Tally record and of a boundary action

A Tally record (R556 to R561), a measurement that changes (R576) and the boundary actions up to 5 (R68) each change few units of the
state. One lemma per operation names them, and what is left alone follows by rewriting with it. -/
namespace Sys2Proof.Machine

/-- Nothing but the Tally, the host interface and the effects differs. -/
def OnlyRecords (s t : State) : Prop := ∃ tally host out, t = { s with tally := tally, host := host, out := out }

theorem OnlyRecords.refl (s : State) : OnlyRecords s s := ⟨_, _, _, rfl⟩

theorem OnlyRecords.trans {s t u : State} (h : OnlyRecords s t) (k : OnlyRecords t u) : OnlyRecords s u := by
  obtain ⟨_, _, _, rfl⟩ := h
  obtain ⟨_, _, _, rfl⟩ := k
  exact ⟨_, _, _, rfl⟩

theorem onlyRecords_tally (s : State) (t : Tally) : OnlyRecords s { s with tally := t } := ⟨_, _, _, rfl⟩

theorem onlyRecords_raiseMsix (v : Nat) (s : State) : OnlyRecords s (raiseMsix v s) := by
  unfold raiseMsix
  split <;> exact ⟨_, _, _, rfl⟩

/-- A handover changes the Tally, and its interrupt the host interface or the effects. -/
theorem onlyRecords_tallyHand (s : State) : OnlyRecords s (tallyHand s) := by
  unfold tallyHand
  extract_lets t w b t1 s1
  have hs1 : OnlyRecords s s1 := onlyRecords_tally s _
  split
  · split
    · exact hs1.trans (onlyRecords_raiseMsix 16 s1)
    · exact hs1
  · exact .refl s

theorem onlyRecords_tallyPut (r : TallyRec) (s : State) : OnlyRecords s (tallyPut r s) := by
  unfold tallyPut
  extract_lets t r l last t b s1
  have hs1 : OnlyRecords s s1 := onlyRecords_tally s _
  split
  · exact onlyRecords_tally s _
  · split
    · split
      · exact hs1.trans (onlyRecords_tallyHand s1)
      · exact hs1
    · exact onlyRecords_tally s _

theorem onlyRecords_foldl_tallyPut (g : Nat → TallyRec) (l : List Nat) (s : State) :
    OnlyRecords s (l.foldl (fun t i => tallyPut (g i) t) s) := by
  induction l generalizing s with
  | nil => exact .refl s
  | cons i l ih => exact (onlyRecords_tallyPut (g i) s).trans (ih _)

theorem onlyRecords_event (code : Nat) (detail : List Byte) (s : State) : OnlyRecords s (event code detail s) :=
  onlyRecords_foldl_tallyPut _ _ s

@[simp] theorem event_sft (code : Nat) (detail : List Byte) (s : State) : (event code detail s).sft = s.sft := by
  obtain ⟨_, _, _, h⟩ := onlyRecords_event code detail s
  rw [h]
@[simp] theorem event_mem (code : Nat) (detail : List Byte) (s : State) : (event code detail s).mem = s.mem := by
  obtain ⟨_, _, _, h⟩ := onlyRecords_event code detail s
  rw [h]
@[simp] theorem event_scr (code : Nat) (detail : List Byte) (s : State) : (event code detail s).scr = s.scr := by
  obtain ⟨_, _, _, h⟩ := onlyRecords_event code detail s
  rw [h]
@[simp] theorem event_board (code : Nat) (detail : List Byte) (s : State) : (event code detail s).board = s.board := by
  obtain ⟨_, _, _, h⟩ := onlyRecords_event code detail s
  rw [h]

@[simp] theorem measChange_sft (s : State) : (measChange s).sft = s.sft := by simp [measChange]
@[simp] theorem measChange_mem (s : State) : (measChange s).mem = s.mem := by simp [measChange]
@[simp] theorem measChange_scr (s : State) : (measChange s).scr = s.scr := by simp [measChange]
@[simp] theorem measChange_board (s : State) : (measChange s).board = s.board := by simp [measChange]

theorem forEach_closeLaunches_eq (l : List Nat) (s : State) :
    ∃ hitches, forEach l closeLaunches s = { s with hitches := hitches } := by
  induction l generalizing s with
  | nil => exact ⟨s.hitches, rfl⟩
  | cons h l ih => exact ih (closeLaunches h s)

/-- The launches that close at a hard stop change the Hitches alone. -/
theorem stopLaunches_eq (s : State) : ∃ hitches, stopLaunches s = { s with hitches := hitches } := by
  unfold stopLaunches
  split
  · exact forEach_closeLaunches_eq _ s
  · exact ⟨s.hitches, rfl⟩

/-- Before action 6 the only action of R68 without a command of its own is 4. -/
theorem setAct_eq_of_lt_six {k : Nat} (hk : k < 6) (s : State) :
    ∃ hitches stride, setAct k s = { s with hitches := hitches, stride := stride } := by
  have hauto : autoActs k s = if s.stride.act < 4 && 4 ≤ k then stopLaunches s else s := by
    simp [autoActs, show ¬6 ≤ k by omega, show ¬7 ≤ k by omega, show ¬8 ≤ k by omega]
  obtain ⟨_, hstop⟩ := stopLaunches_eq s
  unfold setAct
  rw [hauto]
  split
  · rw [hstop]
    exact ⟨_, _, rfl⟩
  · exact ⟨s.hitches, _, rfl⟩

end Sys2Proof.Machine
end

section
/-! # The life of a special-function image (R225 to R228)

One equation per command and case, on the state the command finds. -/
namespace Sys2Proof.Machine

/-! ## LOAD and its check (R225, R230) -/

theorem exec_sftLoad_of_idle {s : State} (hbusy : s.sft.busy = false) (hpend : s.sft.pending = false) :
    exec .sftLoad s = .next { s with sft := { s.sft with err := 0, errSlot := 0, errSeam := 0, busy := true } } := by
  change execSftLoad s = _
  simp [execSftLoad, modSft, hbusy, hpend]

theorem exec_sftLoad_of_inProgress {s : State} (h : s.sft.busy = true ∨ s.sft.pending = true) :
    exec .sftLoad s = .next { s with sft := { s.sft with err := 5, errSlot := 0, errSeam := 0 } } := by
  have hprog : (s.sft.busy || s.sft.pending) = true := by simpa using h
  change execSftLoad s = _
  simp only [execSftLoad, modSft, hprog, if_true]

theorem exec_sftLoadDone_of_pass {s : State} (hbusy : s.sft.busy = true)
    (hpass : (sftCheck s.sft.stage s.sft.hdrCrc s.sft.hdrId).1 = 0) :
    exec .sftLoadDone s = .next { s with sft := { s.sft with
      busy := false, pending := true, shadow := s.sft.stage, shadowId := s.sft.hdrId } } := by
  change execSftLoadDone s = _
  simp [execSftLoadDone, modSft, hbusy, hpass]

/-! ## CANCEL (R228) -/

theorem exec_sftCancel_of_stoppable {s : State}
    (h : s.sft.busy = true ∨ (s.sft.pending = true ∧ sftCommits s = false)) :
    exec .sftCancel s = .next { s with sft := { s.sft with
      busy := false, pending := false, deferred := false, err := 6, shadow := [], shadowId := 0 } } := by
  have hstop : (s.sft.busy || (s.sft.pending && !sftCommits s)) = true := by simpa using h
  change execSftCancel s = _
  rw [execSftCancel, hstop, if_pos rfl]
  rfl

/-- Nothing is in progress, or the window of the commit has opened. -/
theorem exec_sftCancel_of_late {s : State} (hbusy : s.sft.busy = false)
    (h : s.sft.pending = false ∨ sftCommits s = true) : exec .sftCancel s = .next s := by
  have hlate : ¬(s.sft.busy || (s.sft.pending && !sftCommits s)) = true := by
    rcases h with hpend | hcommits
    · simp [hbusy, hpend]
    · simp [hbusy, hcommits]
  change execSftCancel s = _
  rw [execSftCancel, if_neg hlate]

/-! ## Boundary action 5 (R226, R227) -/

@[simp] theorem setAct_five_sft (s : State) : (setAct 5 s).sft = s.sft := by
  obtain ⟨_, _, h⟩ := setAct_eq_of_lt_six (k := 5) (by decide) s
  rw [h]

/-- Whether the running job holds the commit back is the same after action 5 as before. -/
@[simp] theorem sftHeld_setAct_five (s : State) : sftHeld (setAct 5 s) = sftHeld s := by
  obtain ⟨_, _, h⟩ := setAct_eq_of_lt_six (k := 5) (by decide) s
  rw [h]
  rfl

/-- The swap of the banks at a commit (R226). -/
def sftSwap (f : Sft) : Sft :=
  { f with active := f.shadow, shadow := f.active, activeId := f.shadowId, shadowId := f.activeId
           pending := false, deferred := false, commits := f.commits + 1 }

theorem exec_sftCommit_of_held {s : State} (hact : mayAct s 5 = true) (hpend : s.sft.pending = true)
    (hheld : sftHeld s = true) :
    exec .sftCommit s = .next (modSft (fun f => { f with deferred := true }) (setAct 5 s)) := by
  change execSftCommit s = _
  simp [execSftCommit, hact, hpend, hheld]

theorem exec_sftCommit_of_free {s : State} (hact : mayAct s 5 = true) (hpend : s.sft.pending = true)
    (hfree : sftHeld s = false) :
    exec .sftCommit s = .next (measChange (event 0x0380 (item 4 s.sft.activeId.toNat ++ item 4 s.sft.shadowId.toNat)
      (modSft sftSwap (setAct 5 s)))) := by
  change execSftCommit s = _
  simp only [execSftCommit, hact, hpend, Bool.and_self, if_true, sftHeld_setAct_five, hfree, setAct_five_sft]
  rfl

/-- The commit's state reads every byte of memory as before: the action, the swap and the records leave memory alone. -/
theorem memSame_sftCommit (d : List Byte) (s : State) :
    memSame s (measChange (event 0x0380 d (modSft sftSwap (setAct 5 s)))) := by
  obtain ⟨_, _, h⟩ := setAct_eq_of_lt_six (k := 5) (by decide) s
  rw [h]
  exact readByte_congr (by simp) (by simp) (by simp)

/-- Settles O28: each clause is the equation of its command; what action 5 and the two records leave alone gives the commit. -/
theorem sftImageLife : Obligations.SftImageLife := by
  intro s
  refine ⟨exec_sftLoad_of_idle, exec_sftLoad_of_inProgress, exec_sftLoadDone_of_pass, exec_sftCancel_of_stoppable,
    exec_sftCancel_of_late, fun hact hpend hheld => ?_, fun hact hpend hfree => ?_⟩
  · exact ⟨_, exec_sftCommit_of_held hact hpend hheld, by simp⟩
  · exact ⟨_, exec_sftCommit_of_free hact hpend hfree, memSame_sftCommit _ s, by simp [sftSwap]⟩

end Sys2Proof.Machine
end

section
/-! # Arrivals at a BARRIER and claims on a WORKCTR (R342, R344)

A served request is its operation on the object and the answer that follows. One equation per case of the operation says
both; each command's clause is that equation under `exec`. -/
namespace Sys2Proof.Machine

/-! ## Requests that are served (R346, R461) -/

theorem syncServe_of_served {s : State} {r : SyncReq} {type : Nat} (h : served s r type) (op : State → State × SyncAns) :
    syncServe r op s = syncAnswer r (op s) := by
  obtain ⟨hup, hclosed, hepoch, -⟩ := h
  simp [syncServe, hup, hclosed, hepoch]

@[simp] theorem syncAnswer_value (r : SyncReq) (s : State) (v : Word) :
    syncAnswer r (s, .value v) = sendSyncRsp r.chip.toNat r.core.val r.thread.val r.info v s := rfl
@[simp] theorem syncAnswer_silent (r : SyncReq) (s : State) : syncAnswer r (s, .silent) = s := rfl
@[simp] theorem syncAnswer_waits (r : SyncReq) (s : State) : syncAnswer r (s, .waits) = s := rfl
@[simp] theorem syncAnswer_refuse (r : SyncReq) (s : State) (code : Nat) (detail : List Byte) :
    syncAnswer r (s, .refuse code detail) = syncRefuse r code detail s := rfl

theorem exec_barrierArrive {s : State} {r : SyncReq} (h : served s r 2) :
    exec (.barrierArrive r) s = .next (syncAnswer r (opArrive r false s)) :=
  congrArg Host.Outcome.next (syncServe_of_served h _)

theorem exec_barrierArriveWait {s : State} {r : SyncReq} (h : served s r 2) :
    exec (.barrierArriveWait r) s = .next (syncAnswer r (opArrive r true s)) :=
  congrArg Host.Outcome.next (syncServe_of_served h _)

theorem exec_workctrClaim {s : State} {r : SyncReq} (h : served s r 3) (seq : BitVec 16) :
    exec (.workctrClaim r seq) s = .next (syncAnswer r (opClaim r seq s)) :=
  congrArg Host.Outcome.next (syncServe_of_served h _)

/-- A change of an object is decided by what it makes of the object as it stands. -/
theorem modObj_congr {n : Nat} {f g : SyncObj → SyncObj} {s : State} (h : f (objOf s n) = g (objOf s n)) :
    modObj n f s = modObj n g s := by
  simp only [objOf] at h
  simp only [modObj, modSync, smod, h]

/-! ## Arrivals at a BARRIER (R342) -/

/-- The value of GEN that the last arrival hands out. -/
def raisedGen (o : SyncObj) : Word := BitVec.ofNat 64 (o.gen + 1).toNat

/-- BARRIER `n` opens: COUNT 0, GEN raised, and every waiting thread has the new GEN. -/
def barrierOpen (n : Nat) (s : State) : State :=
  forEach (objOf s n).waiters (fun w => deliver w (raisedGen (objOf s n)))
    (modObj n (fun k => { k with count := 0, gen := (objOf s n).gen + 1, waiters := [] }) s)

theorem opArrive_of_last {r : SyncReq} {s : State} (htype : (objOf s r.obj.val).type = 2)
    (hlast : (objOf s r.obj.val).param ≤ (objOf s r.obj.val).count + 1) (wait : Bool) :
    opArrive r wait s =
      (barrierOpen r.obj.val s, if wait then .value (raisedGen (objOf s r.obj.val)) else .silent) := by
  simp only [opArrive, htype, hlast, if_true]
  rfl

theorem opArrive_of_early {r : SyncReq} {s : State} (htype : (objOf s r.obj.val).type = 2)
    (hearly : (objOf s r.obj.val).count + 1 < (objOf s r.obj.val).param) (wait : Bool) :
    opArrive r wait s =
      (modObj r.obj.val (fun k => { k with
          count := k.count + 1
          waiters := if wait then k.waiters ++ [waiterOf r 0] else k.waiters }) s,
        if wait then .waits else .silent) := by
  simp only [opArrive, htype, hearly.not_ge, if_true, if_false]

/-- Settles O15: the arrival that fills the BARRIER opens it, and an earlier one joins the count and, for an LD, the waiters. -/
theorem barrierOperations : Obligations.BarrierOperations := by
  intro r s hserved n o g freed
  have ⟨_, _, _, htype⟩ := hserved
  rw [exec_barrierArrive hserved, exec_barrierArriveWait hserved]
  refine ⟨fun hlast => ?_, fun hearly => ?_⟩
  · rw [opArrive_of_last htype hlast.le, opArrive_of_last htype hlast.le]
    exact ⟨congrArg _ (syncAnswer_silent r _), congrArg _ (syncAnswer_value r _ _)⟩
  · rw [opArrive_of_early htype hearly, opArrive_of_early htype hearly]
    exact ⟨congrArg _ (syncAnswer_silent r _), congrArg _ (syncAnswer_waits r _)⟩

/-! ## Claims on a WORKCTR (R344) -/

/-- What a new claim receives: NEXT, or all ones where no work is left. -/
def claimResult (o : SyncObj) : Word := if o.next < o.limit then BitVec.ofNat 64 o.next else 0xFFFFFFFFFFFFFFFF

/-- NEXT after a new claim. -/
def claimNext (o : SyncObj) : Nat := if o.next < o.limit then o.next + o.param else o.next

/-- The new claim `seq` on WORKCTR `n` goes into the journal slot `k`, which held `j`. -/
def claimTake (n k : Nat) (j : Claim) (seq : BitVec 16) (s : State) : State :=
  modObj n (fun q => { q with
    next := claimNext (objOf s n)
    claims := q.claims.set k { j with valid := true, seq := seq, result := claimResult (objOf s n) } }) s

/-- What CLAIM_SEQ reports (R349). -/
def claimSeqDetail (r : SyncReq) (k : Nat) (j : Claim) (seq : BitVec 16) : List Byte :=
  item 2 r.obj.val ++ item 1 0x10 ++ item 2 r.core.val ++ item 1 k ++ item 2 j.seq.toNat ++ item 2 seq.toNat

theorem opClaim_of_unlisted {r : SyncReq} {s : State} (htype : (objOf s r.obj.val).type = 3)
    (hunlisted : claimSlot (objOf s r.obj.val).claims r.chip.toNat r.core.val = none) (seq : BitVec 16) :
    ∃ detail, opClaim r seq s = (s, .refuse 0x0223 detail) :=
  ⟨_, by simp only [opClaim, htype, hunlisted, if_true]; rfl⟩

section Listed

variable {r : SyncReq} {s : State} {k : Nat} {j : Claim}
variable (htype : (objOf s r.obj.val).type = 3)
  (hslot : claimSlot (objOf s r.obj.val).claims r.chip.toNat r.core.val = some k)
  (hentry : (objOf s r.obj.val).claims[k]? = some j)
include htype hslot hentry

/-- R344's procedure for a claimant whose slot `k` holds `j`. -/
theorem opClaim_of_listed (seq : BitVec 16) : opClaim r seq s =
    if j.valid = true ∧ seq = j.seq then
      (modSync (fun y => { y with replays := statInc 24 y.replays }) s, .value j.result)
    else if j.valid = true ∧ seq ≠ j.seq + 1 then (s, .refuse 0x0224 (claimSeqDetail r k j seq))
    else (claimTake r.obj.val k j seq s, .value (claimResult (objOf s r.obj.val))) := by
  have hget : (objOf s r.obj.val).claims.getD k { chip := 0, core := 0 } = j := by simp [hentry]
  have htake : modObj r.obj.val (fun q => { q with
      next := if (objOf s r.obj.val).next < (objOf s r.obj.val).limit then q.next + q.param else q.next
      claims := q.claims.set k { j with valid := true, seq := seq, result := claimResult (objOf s r.obj.val) } }) s =
      claimTake r.obj.val k j seq s := modObj_congr rfl
  rw [← htake]
  simp only [opClaim, htype, hslot, hget, if_true, Bool.and_eq_true, decide_eq_true_eq]
  rfl

theorem opClaim_of_replay (hvalid : j.valid = true) :
    opClaim r j.seq s = (modSync (fun y => { y with replays := statInc 24 y.replays }) s, .value j.result) := by
  rw [opClaim_of_listed htype hslot hentry, if_pos ⟨hvalid, rfl⟩]

theorem opClaim_of_outOfOrder (hvalid : j.valid = true) {seq : BitVec 16} (hother : seq ≠ j.seq) (hskip : seq ≠ j.seq + 1) :
    opClaim r seq s = (s, .refuse 0x0224 (claimSeqDetail r k j seq)) := by
  rw [opClaim_of_listed htype hslot hentry, if_neg fun h => hother h.2, if_pos ⟨hvalid, hskip⟩]

/-- A first claim and the next in sequence are new claims. -/
theorem opClaim_of_new {seq : BitVec 16} (hnew : j.valid = false ∨ (seq = j.seq + 1 ∧ seq ≠ j.seq)) :
    opClaim r seq s = (claimTake r.obj.val k j seq s, .value (claimResult (objOf s r.obj.val))) := by
  rw [opClaim_of_listed htype hslot hentry, if_neg, if_neg]
  · rintro ⟨hvalid, hskip⟩
    exact hnew.elim (by simp [hvalid]) fun h => hskip h.1
  · rintro ⟨hvalid, hsame⟩
    exact hnew.elim (by simp [hvalid]) fun h => h.2 hsame

end Listed

/-- Settles O16: each clause is the equation of its case; a new claim is granted or not by NEXT against LIMIT. -/
theorem workctrClaims : Obligations.WorkctrClaims := by
  intro r seq s hserved n o
  have ⟨_, _, _, htype⟩ := hserved
  rw [exec_workctrClaim hserved]
  constructor
  · intro hunlisted
    obtain ⟨detail, h⟩ := opClaim_of_unlisted htype hunlisted seq
    exact ⟨detail, by rw [h, syncAnswer_refuse]⟩
  · intro k j hslot hentry rsp took
    refine ⟨?_, fun hnew => ?_, fun hvalid hother hskip => ?_⟩
    · rintro hvalid rfl
      rw [opClaim_of_replay htype hslot hentry hvalid, syncAnswer_value]
    · rw [opClaim_of_new htype hslot hentry hnew, syncAnswer_value, claimTake]
      refine ⟨fun hleft => ?_, fun hnone => ?_⟩
      · rw [claimNext, claimResult, if_pos hleft, if_pos hleft]
      · rw [claimNext, claimResult, if_neg hnone.not_gt, if_neg hnone.not_gt]
    · rw [opClaim_of_outOfOrder htype hslot hentry hvalid hother hskip, syncAnswer_refuse]
      exact ⟨_, rfl⟩

end Sys2Proof.Machine
end

section
/-! # What every command keeps

`Kept` and `Held` say per operation what no command undoes; here each command is taken to the operations it is made of. -/
namespace Sys2Proof.Machine

/-- A command's next state keeps the queue, the stores' form and the burnt bits of `r`, and stands under its chip fault and TENANT. -/
structure Keeps (r : State) (o : Out) : Prop where
  kept : OutKept r o
  held : OutHeld r o

theorem keeps_next {r t : State} (k : Kept r t) (h : Held r t) : Keeps r (.next t) := ⟨outKept_next k, outHeld_next h⟩

/-- The commands of synchronisation objects (09). -/
@[simp] theorem syncCommands_keep (s : State) :
    (∀ r data, Keeps s (execCounterSet r data s)) ∧ (∀ r, Keeps s (execCounterFetchIncrement r s)) ∧
    (∀ r data, Keeps s (execCounterAdd r data s)) ∧ (∀ r bound, Keeps s (execCounterWait r bound s)) ∧
    (∀ r, Keeps s (execBarrierArriveWait r s)) ∧ (∀ r, Keeps s (execBarrierArrive r s)) ∧
    (∀ r seq, Keeps s (execWorkctrClaim r seq s)) ∧ (∀ o, Keeps s (execSyncWaitTimeout o s)) ∧
    (∀ c t result, Keeps s (execSyncResponse c t result s)) ∧
    (∀ c t reason elapsed, Keeps s (execSyncReissue c t reason elapsed s)) := by
  unfold execCounterSet execCounterFetchIncrement execCounterAdd execCounterWait execBarrierArriveWait execBarrierArrive
    execWorkctrClaim execSyncWaitTimeout execSyncResponse execSyncReissue
  and_intros <;> intros <;> refine keeps_next ?_ ?_ <;>
  repeat' first
    | with_reducible first
        | exact Kept.refl s | exact Held.refl s | assumption | apply syncServe_kept | apply syncServe_held | apply opSet_kept
        | apply opSet_held | apply opFetchInc_kept | apply opFetchInc_held | apply opAdd_kept | apply opAdd_held
        | apply opWait_kept | apply opWait_held | apply opArrive_kept | apply opArrive_held | apply opClaim_kept
        | apply opClaim_held | apply jobFault_kept | apply jobFault_held | apply syncReturn_kept | apply syncReturn_held
        | apply syncAgain_kept | apply syncAgain_held | apply ite_kept | apply ite_held | fail_if_no_progress (apply Kept.mk)
        | fail_if_no_progress (apply Held.mk)
    | split | exact fun k (hk : coreOk k = true) => hk | intro _

/-- The commands of the grooms (05). -/
@[simp] theorem groomCommands_keep (s : State) :
    (∀ c, Keeps s (execStepBegin c s)) ∧ (∀ c t f, Keeps s (execLi c t f s)) ∧ (∀ c t f, Keeps s (execLui c t f s)) ∧
    (∀ c t f, Keeps s (execAdd c t f s)) ∧ (∀ c t f, Keeps s (execSub c t f s)) ∧ (∀ c t f, Keeps s (execMul c t f s)) ∧
    (∀ c t f, Keeps s (execShl c t f s)) ∧ (∀ c t f, Keeps s (execShr c t f s)) ∧ (∀ c t f, Keeps s (execSar c t f s)) ∧
    (∀ c t f, Keeps s (execAnd c t f s)) ∧ (∀ c t f, Keeps s (execOr c t f s)) ∧ (∀ c t f, Keeps s (execXor c t f s)) ∧
    (∀ c t f, Keeps s (execMin c t f s)) ∧ (∀ c t f, Keeps s (execMax c t f s)) ∧ (∀ c t f, Keeps s (execBeq c t f s)) ∧
    (∀ c t f, Keeps s (execBne c t f s)) ∧ (∀ c t f, Keeps s (execBlt c t f s)) ∧ (∀ c t f, Keeps s (execJmp c t f s)) ∧
    (∀ c t f, Keeps s (execLd c t f s)) ∧ (∀ c t f, Keeps s (execSt c t f s)) ∧ (∀ c t, Keeps s (execScalarLoadReturn c t s)) ∧
    (∀ c t f, Keeps s (execTwait c t f s)) ∧ (∀ c t f, Keeps s (execStepEnd c t f s)) := by
  unfold execStepBegin execLi execLui execAdd execSub execMul execShl execShr execSar execAnd execOr execXor execMin execMax
    execBeq execBne execBlt execJmp execLd execSt execScalarLoadReturn execTwait execStepEnd
  and_intros <;> intros <;> refine keeps_next ?_ ?_ <;>
  repeat' first
    | with_reducible first
        | exact Kept.refl s | exact Held.refl s | assumption | apply engineAdvance_kept | apply engineAdvance_held
        | apply threadAdvance_kept | apply threadAdvance_held | apply scalarIssue_kept | apply scalarIssue_held
        | apply setDst_kept | apply setDst_held | apply memRun_kept | apply memRun_held | apply ldAccess_kept
        | apply ldAccess_held | apply stAccess_kept | apply stAccess_held | apply modThread_kept | apply modThread_held
        | apply setSreg_kept | apply setSreg_held | apply portTouch_kept | apply portTouch_held | apply twaitRun_kept
        | apply twaitRun_held | apply stepEndRun_kept | apply stepEndRun_held | apply forEach_kept | apply forEach_held
        | apply ite_kept | apply ite_held | fail_if_no_progress (apply Kept.mk) | fail_if_no_progress (apply Held.mk)
    | split | exact fun k (hk : coreOk k = true) => hk | intro _ | dsimp only | rfl | assumption

/-- The commands of tile issue (05). -/
@[simp] theorem tileCommands_keep (s : State) :
    (∀ c t f, Keeps s (execTmac c t f s)) ∧ (∀ c t f, Keeps s (execTout c t f s)) ∧ (∀ c t f, Keeps s (execResload c t f s)) := by
  unfold execTmac execTout execResload
  and_intros <;> intros <;> refine keeps_next ?_ ?_ <;>
  repeat' with_reducible first
      | exact Kept.refl s | exact Held.refl s | assumption | apply tileIssue_kept | apply tileIssue_held

/-- The commands of engines and reins (04). -/
@[simp] theorem engineCommands_keep (s : State) :
    (∀ e, Keeps s (execGaitFire e s)) ∧ (∀ e, Keeps s (execGaitSwitch e s)) ∧ (∀ e q, Keeps s (execCreditReturnSend e q s)) ∧
    (∀ e o count epoch, Keeps s (execCreditReturn e o count epoch s)) ∧ (∀ m, Keeps s (execTokenArrive m s)) ∧
    (∀ e, Keeps s (execEarlyTokenExpire e s)) ∧
    (∀ retries elapsed recovered, Keeps s (execHingeFlitFailed retries elapsed recovered s)) ∧
    (∀ e, Keeps s (execTileInstructionComplete e s)) := by
  unfold execGaitFire execGaitSwitch execCreditReturnSend execCreditReturn execTokenArrive execEarlyTokenExpire
    execHingeFlitFailed execTileInstructionComplete
  and_intros <;> intros <;> refine keeps_next ?_ ?_ <;>
  repeat' first
    | with_reducible first
        | exact Kept.refl s | exact Held.refl s | assumption | apply startFiring_kept | apply startFiring_held
        | apply measAdd_kept | apply measAdd_held | apply modEng_kept | apply modEng_held | apply modMgmt_kept
        | apply modMgmt_held | apply modRin_kept | apply modRin_held | apply sendCredit_kept | apply sendCredit_held
        | apply creditReturn_kept | apply creditReturn_held | apply tokenArrive_kept | apply tokenArrive_held
        | apply staleToken_kept | apply staleToken_held | apply chipStop_kept | apply chipStop_held | apply tileWork_kept
        | apply tileWork_held | apply forEach_kept | apply forEach_held | apply ite_kept | apply ite_held
        | fail_if_no_progress (apply Kept.mk) | fail_if_no_progress (apply Held.mk)
    | split | exact fun k (hk : coreOk k = true) => hk | intro _ | dsimp only

/-- The commands of stream programs (07). -/
@[simp] theorem streamCommands_keep (s : State) :
    (∀ e ag post f, Keeps s (execSeta e ag post f s)) ∧ (∀ e ag post f, Keeps s (execAdda e ag post f s)) ∧
    (∀ e ag post f, Keeps s (execLoop e ag post f s)) ∧ (∀ e ag post f, Keeps s (execEndl e ag post f s)) ∧
    (∀ e ag f, Keeps s (execStreamLoad e ag f s)) ∧ (∀ e ag f, Keeps s (execStore e ag f s)) ∧
    (∀ e ag f, Keeps s (execRecv e ag f s)) ∧ (∀ e ag f, Keeps s (execSend e ag f s)) ∧
    (∀ e ag f, Keeps s (execStreamSync e ag f s)) ∧ (∀ e ag post f, Keeps s (execFin e ag post f s)) ∧
    (∀ e ag, Keeps s (execRunCommit e ag s)) ∧ (∀ e ag, Keeps s (execAgResume e ag s)) ∧
    (∀ e ag, Keeps s (execRunResume e ag s)) := by
  unfold execSeta execAdda execLoop execEndl execStreamLoad execStore execRecv execSend execStreamSync execFin execRunCommit
    execAgResume execRunResume
  and_intros <;> intros <;> refine keeps_next ?_ ?_ <;>
  repeat' first
    | with_reducible first
        | exact Kept.refl s | exact Held.refl s | assumption | apply streamStep_kept | apply streamStep_held | apply runNext_kept
        | apply runNext_held | apply modRunAt_kept | apply modRunAt_held | apply streamRefuse_kept | apply streamRefuse_held
        | apply loadIssue_kept | apply loadIssue_held | apply storeIssue_kept | apply storeIssue_held | apply recvTake_kept
        | apply recvTake_held | apply sendTake_kept | apply sendTake_held | apply countRefuse_kept | apply countRefuse_held
        | apply preEnd_kept | apply preEnd_held | apply lostRecords_kept | apply lostRecords_held | apply modAg_kept
        | apply modAg_held | apply agCommit_kept | apply agCommit_held | apply commitData_kept | apply commitData_held
        | apply firingReady_kept | apply firingReady_held | apply modMisses_kept | apply modMisses_held | apply ite_kept
        | apply ite_held | fail_if_no_progress (apply Kept.mk) | fail_if_no_progress (apply Held.mk)
    | split | exact fun k (hk : coreOk k = true) => hk | intro _

/-- The commands of vector programs (06). -/
@[simp] theorem vectorCommands_keep (s : State) :
    (∀ e v, Keeps s (execVecAdd e v s)) ∧ (∀ e v, Keeps s (execVecSub e v s)) ∧ (∀ e v, Keeps s (execVecMul e v s)) ∧
    (∀ e v, Keeps s (execMulsh e v s)) ∧ (∀ e v, Keeps s (execMulrs e v s)) ∧ (∀ e v, Keeps s (execVecMin e v s)) ∧
    (∀ e v, Keeps s (execVecMax e v s)) ∧ (∀ e v, Keeps s (execAbs e v s)) ∧ (∀ e v, Keeps s (execVecAnd e v s)) ∧
    (∀ e v, Keeps s (execVecOr e v s)) ∧ (∀ e v, Keeps s (execVecXor e v s)) ∧ (∀ e v, Keeps s (execVecShl e v s)) ∧
    (∀ e v, Keeps s (execVecSar e v s)) ∧ (∀ e v, Keeps s (execSrhe e v s)) ∧ (∀ e v, Keeps s (execCvt e v s)) ∧
    (∀ e v, Keeps s (execEmask e v s)) ∧ (∀ e v, Keeps s (execRsum e v s)) ∧ (∀ e v, Keeps s (execRmax e v s)) ∧
    (∀ e v, Keeps s (execRmin e v s)) ∧ (∀ e v, Keeps s (execCsum e v s)) ∧ (∀ e v, Keeps s (execCmax e v s)) ∧
    (∀ e v, Keeps s (execCmin e v s)) ∧ (∀ e v, Keeps s (execSfn e v s)) ∧ (∀ e v, Keeps s (execSfnmul e v s)) ∧
    (∀ e v, Keeps s (execExpsub e v s)) ∧ (∀ e v, Keeps s (execVecVend e v s)) ∧ (∀ e v, Keeps s (execAdc e v s)) ∧
    (∀ e v, Keeps s (execSbb e v s)) ∧ (∀ e v, Keeps s (execMulw e v s)) := by
  unfold execVecAdd execVecSub execVecMul execMulsh execMulrs execVecMin execVecMax execAbs execVecAnd execVecOr execVecXor
    execVecShl execVecSar execSrhe execCvt execEmask execRsum execRmax execRmin execCsum execCmax execCmin execSfn execSfnmul
    execExpsub execVecVend execAdc execSbb execMulw
  and_intros <;> intros <;> refine keeps_next ?_ ?_ <;>
  repeat' with_reducible first
      | exact Kept.refl s | exact Held.refl s | assumption | apply vecStep_kept | apply vecStep_held

/-- The commands of the special-function block (06). -/
@[simp] theorem sftBlockCommands_keep (s : State) :
    Keeps s (execSftLoad s) ∧ Keeps s (execSftLoadDone s) ∧ Keeps s (execSftCancel s) ∧ Keeps s (execSftCommit s) := by
  unfold execSftLoad execSftLoadDone execSftCancel execSftCommit
  and_intros <;> refine keeps_next ?_ ?_ <;>
  repeat' with_reducible first
      | exact Kept.refl s | exact Held.refl s | assumption | apply modSft_kept | apply modSft_held | apply setAct_kept
      | apply setAct_held | apply measChange_kept | apply measChange_held | apply event_kept | apply event_held | apply ite_kept
      | apply ite_held

/-- The commands of the Curb, pages and ports (07, 08). -/
@[simp] theorem tiersCommands_keep (s : State) :
    (∀ p k, Keeps s (execCurbAdmit p k s)) ∧ (∀ p, Keeps s (execCurbArbitrate p s)) ∧
    (∀ e ag addr elapsed, Keeps s (execReadDeadline e ag addr elapsed s)) ∧ (∀ addr, Keeps s (execPageIn addr s)) ∧
    (∀ addr failed, Keeps s (execPageInComplete addr failed s)) ∧ (∀ addr, Keeps s (execPageEvict addr s)) ∧
    (∀ addr, Keeps s (execEvictWriteBack addr s)) ∧ (∀ p attempts regained, Keeps s (execPortRetrain p attempts regained s)) ∧
    (∀ p, Keeps s (execPortRestore p s)) := by
  unfold execCurbAdmit execCurbArbitrate execReadDeadline execPageIn execPageInComplete execPageEvict execEvictWriteBack
    execPortRetrain execPortRestore
  and_intros <;> intros <;> refine keeps_next ?_ ?_ <;>
  repeat' first
    | with_reducible first
        | exact Kept.refl s | exact Held.refl s | assumption | apply reqStage_kept | apply reqStage_held | apply curbAdmit_kept
        | apply curbAdmit_held | apply modCurb_kept | apply modCurb_held | apply portServe_kept | apply portServe_held
        | apply pageReadStart_kept | apply pageReadStart_held | apply reqEnd_kept | apply reqEnd_held | apply loadLost_kept
        | apply loadLost_held | apply chargePage_kept | apply chargePage_held | apply modTiers_kept | apply modTiers_held
        | apply jobFault_kept | apply jobFault_held | apply pageReadDrop_kept | apply pageReadDrop_held | apply setAct_kept
        | apply setAct_held | apply copyBytes_kept | apply copyBytes_held | apply modPort_kept | apply modPort_held
        | apply chipStop_kept | apply chipStop_held | apply portRestore_kept | apply portRestore_held | apply ite_kept
        | apply ite_held | fail_if_no_progress (apply Kept.mk) | fail_if_no_progress (apply Held.mk)
    | split | exact fun k (hk : coreOk k = true) => hk | intro _ | dsimp only

/-- The commands of bit-set and bit-clear writes, the Farrier and the scrub (09). -/
@[simp] theorem farrierCommands_keep (s : State) :
    (∀ w x, Keeps s (execAliasWrite w x s)) ∧ (∀ u corrected o, Keeps s (execFarrierRegionTest u corrected o s)) ∧
    (∀ p errs, Keeps s (execPatrolScrub p errs s)) := by
  unfold execAliasWrite execFarrierRegionTest execPatrolScrub
  and_intros <;> intros <;> refine keeps_next ?_ ?_ <;>
  repeat' first
    | with_reducible first
        | exact Kept.refl s | exact Held.refl s | assumption | apply unitFound_kept | apply unitFound_held
        | apply aliasRefuse_kept | apply aliasRefuse_held | apply atomicWrite_kept | apply atomicWrite_held | apply aliasDone_kept
        | apply aliasDone_held | apply coreTest_kept | apply coreTest_held | apply coreCorrected_kept | apply coreCorrected_held
        | apply modCore_kept | apply modCore_held | apply ostlerTest_kept | apply ostlerTest_held | apply ostlerCorrected_kept
        | apply ostlerCorrected_held | apply modOstler_kept | apply modOstler_held | apply scrubSector_kept
        | apply scrubSector_held | apply portTouch_kept | apply portTouch_held | apply scrubMove_kept | apply scrubMove_held
        | apply curbCharge_kept | apply curbCharge_held | apply foldl_kept | apply foldl_held | apply ite_kept | apply ite_held
        | fail_if_no_progress (apply Kept.mk) | fail_if_no_progress (apply Held.mk)
    | split | exact fun k (hk : coreOk k = true) => hk | intro _

/-- The commands of the Hitch (10). -/
@[simp] theorem hitchCommands_keep (s : State) :
    (∀ h i, Keeps s (execLaunchOpen h i s)) ∧ (∀ h m tag slots row, Keeps s (execHitchDispatchArrive h m tag slots row s)) ∧
    (∀ h m, Keeps s (execHitchEndMarker h m s)) ∧ (∀ h m expert tag row, Keeps s (execHitchReturnArrive h m expert tag row s)) ∧
    (∀ h i expert, Keeps s (execExpertReturnSend h i expert s)) ∧
    (∀ h chip peer credits, Keeps s (execHitchCreditReturn h chip peer credits s)) ∧
    (∀ h i, Keeps s (execLaunchTimeout h i s)) := by
  unfold execLaunchOpen execHitchDispatchArrive execHitchEndMarker execHitchReturnArrive execExpertReturnSend
    execHitchCreditReturn execLaunchTimeout
  and_intros <;> intros <;> refine keeps_next ?_ ?_ <;>
  repeat' first
    | with_reducible first
        | exact Kept.refl s | exact Held.refl s | assumption | apply launchOpen_kept | apply launchOpen_held | apply hitchIn_kept
        | apply hitchIn_held | apply hitchReach_kept | apply hitchReach_held | apply returnsSend_kept | apply returnsSend_held
        | apply hitchCredit_kept | apply hitchCredit_held | apply setAct_kept | apply setAct_held | apply launchLate_kept
        | apply launchLate_held | apply ite_kept | apply ite_held | fail_if_no_progress (apply Kept.mk)
        | fail_if_no_progress (apply Held.mk)
    | split | exact fun k (hk : coreOk k = true) => hk | intro _

/-- The commands of the rings (15). -/
@[simp] theorem ringsCommands_keep (s : State) :
    (∀ r en viaIde, Keeps s (execRingEnable r en viaIde s)) ∧ (∀ r, Keeps s (execCompletionPost r s)) := by
  unfold execRingEnable execCompletionPost
  and_intros <;> intros <;> refine keeps_next ?_ ?_ <;>
  repeat' first
    | with_reducible first
        | exact Kept.refl s | exact Held.refl s | assumption | apply setEn_kept | apply setEn_held | apply modRing_kept
        | apply modRing_held | apply flushOut_kept | apply flushOut_held | apply emit_kept | apply emit_held
        | apply raiseMsix_kept | apply raiseMsix_held | apply ite_kept | apply ite_held | fail_if_no_progress (apply Kept.mk)
        | fail_if_no_progress (apply Held.mk)
    | split

/-- The commands of waves, commits and ends of serving (11). -/
@[simp] theorem servingCommands_keep (s : State) :
    (∀ addr, Keeps s (execSlotRelease addr s)) ∧ Keeps s (execPrefillWaveStart s) ∧ Keeps s (execDecodeWaveStart s) ∧
    (∀ n, Keeps s (execStepCommit n s)) ∧ (∀ n, Keeps s (execPrefillCommit n s)) ∧ Keeps s (execRequestFaultEnd s) ∧
    (∀ n, Keeps s (execCloseComplete n s)) := by
  unfold execSlotRelease execPrefillWaveStart execDecodeWaveStart execStepCommit execPrefillCommit execRequestFaultEnd
    execCloseComplete
  and_intros <;> intros <;> refine keeps_next ?_ ?_ <;>
  repeat' first
    | with_reducible first
        | exact Kept.refl s | exact Held.refl s | assumption | apply modServe_kept | apply modServe_held | apply openNine_kept
        | apply openNine_held | apply fillAll_kept | apply fillAll_held | apply fillPrefill_kept | apply fillPrefill_held
        | apply clearRows_kept | apply clearRows_held | apply stuckNow_kept | apply stuckNow_held | apply fillDecode_kept
        | apply fillDecode_held | apply commitStep_kept | apply commitStep_held | apply chargeResult_kept
        | apply chargeResult_held | apply setAct_kept | apply setAct_held | apply commitChunk_kept | apply commitChunk_held
        | apply faultEnd_kept | apply faultEnd_held | apply applyClose_kept | apply applyClose_held | apply applyCancel_kept
        | apply applyCancel_held | apply endDone_kept | apply endDone_held | apply freeSession_kept | apply freeSession_held
        | apply forEach_kept | apply forEach_held | apply ite_kept | apply ite_held | fail_if_no_progress (apply Kept.mk)
        | fail_if_no_progress (apply Held.mk)
    | split | exact fun k (hk : coreOk k = true) => hk | intro _

/-- The commands of the admission of serving requests (11). -/
@[simp] theorem sessCommands_keep (s : State) :
    (∀ r, Keeps s (execSessOpen r s)) ∧ (∀ r, Keeps s (execSessAppend r s)) ∧ (∀ r, Keeps s (execSessVerify r s)) ∧
    (∀ r, Keeps s (execSessCancel r s)) ∧ (∀ r, Keeps s (execSessClose r s)) := by
  unfold execSessOpen execSessAppend execSessVerify execSessCancel execSessClose
  and_intros <;> intros <;> refine keeps_next ?_ ?_ <;>
  repeat' first
    | with_reducible first
        | exact Kept.refl s | exact Held.refl s | assumption | apply admitEntry_kept | apply admitEntry_held
        | apply rejectReq_kept | apply rejectReq_held | apply openEntry_kept | apply openEntry_held | apply enqueue_kept
        | apply enqueue_held | apply admitEnd_kept | apply admitEnd_held | apply ite_kept | apply ite_held
        | fail_if_no_progress (apply Kept.mk) | fail_if_no_progress (apply Held.mk)
    | split | exact fun k (hk : coreOk k = true) => hk | intro _ | dsimp only

/-- The commands of weights and relays (12). -/
@[simp] theorem weightsCommands_keep (s : State) :
    (∀ w readOk data, Keeps s (execWeightLoad w readOk data s)) ∧ (∀ w, Keeps s (execWeightDrop w s)) ∧
    (∀ w, Keeps s (execWeightBind w s)) ∧ (∀ w, Keeps s (execWeightList w s)) ∧
    (∀ w readOk t image, Keeps s (execWeightStage w readOk t image s)) ∧ Keeps s (execObjectStateUpdate s) ∧
    (∀ w readOk list, Keeps s (execWeightRelay w readOk list s)) ∧
    (∀ slot intro chunk crc data, Keeps s (execRelayChunkReceive slot intro chunk crc data s)) ∧
    (∀ slot chip chunk, Keeps s (execRelayAck slot chip chunk s)) ∧ (∀ slot hop, Keeps s (execRelayHopUnreachable slot hop s)) ∧
    (∀ slot chip, Keeps s (execRelayResumeQuery slot chip s)) ∧ (∀ slot results, Keeps s (execRelayComplete slot results s)) := by
  unfold execWeightLoad execWeightDrop execWeightBind execWeightList execWeightStage execObjectStateUpdate execWeightRelay
    execRelayChunkReceive execRelayAck execRelayHopUnreachable execRelayResumeQuery execRelayComplete
  and_intros <;> intros <;> refine keeps_next ?_ ?_ <;>
  repeat' first
    | with_reducible first
        | exact Kept.refl s | exact Held.refl s | assumption | apply admitEntry_kept | apply admitEntry_held
        | apply weightRefused_kept | apply weightRefused_held | apply weightFault_kept | apply weightFault_held
        | apply loadGo_kept | apply loadGo_held | apply dirAdd_kept | apply dirAdd_held | apply weightDone_kept
        | apply weightDone_held | apply dirSet_kept | apply dirSet_held | apply modWeights_kept | apply modWeights_held
        | apply emit_kept | apply emit_held | apply setSlot_kept | apply setSlot_held | apply setAct_kept | apply setAct_held
        | apply dirRemove_kept | apply dirRemove_held | apply relayBegin_kept | apply relayBegin_held | apply relayChunk_kept
        | apply relayChunk_held | apply relayNoted_kept | apply relayNoted_held | apply relayBreak_kept | apply relayBreak_held
        | apply setRelay_kept | apply setRelay_held | apply requestFault_kept | apply requestFault_held | apply forEach_kept
        | apply forEach_held | apply ite_kept | apply ite_held | fail_if_no_progress (apply Kept.mk)
        | fail_if_no_progress (apply Held.mk)
    | split | exact fun k (hk : coreOk k = true) => hk | intro _

/-- The commands of jobs and drains (13). -/
@[simp] theorem jobsCommands_keep (s : State) :
    Keeps s (execDrainBegin s) ∧ Keeps s (execDrainComplete s) ∧ Keeps s (execDrainTimeout s) ∧ Keeps s (execHardStop s) ∧
    (∀ j, Keeps s (execJobSubmit j s)) ∧ (∀ j, Keeps s (execJobEnd j s)) ∧ (∀ j, Keeps s (execJobTenant j s)) ∧
    (∀ value, Keeps s (execTenantReq value s)) ∧ Keeps s (execTermExpiry s) ∧ Keeps s (execJobSelection s) := by
  unfold execDrainBegin execDrainComplete execDrainTimeout execHardStop execJobSubmit execJobEnd execJobTenant execTenantReq
    execTermExpiry execJobSelection
  and_intros <;> intros <;> refine keeps_next ?_ ?_ <;>
  repeat' first
    | with_reducible first
        | exact Kept.refl s | exact Held.refl s | assumption | apply modRun_kept | apply modRun_held | apply openNine_kept
        | apply openNine_held | apply setAct_kept | apply setAct_held | apply jobFault_kept | apply jobFault_held
        | apply linkWriteOff_kept | apply linkWriteOff_held | apply jobOver_kept | apply jobOver_held | apply closeLaunches_kept
        | apply closeLaunches_held | apply stopEngine_kept | apply stopEngine_held | apply modSync_kept | apply modSync_held
        | apply modJob_kept | apply modJob_held | apply epochAdvance_kept | apply epochAdvance_held | apply admitEntry_kept
        | apply admitEntry_held | apply jobRefuse_kept | apply jobRefuse_held | apply jobCompletion_kept
        | apply jobCompletion_held | apply requestChangeover_kept | apply requestChangeover_held | apply countAdmit_kept
        | apply countAdmit_held | apply tenantWrite_kept | apply tenantWrite_held | apply selectJob_kept | apply selectJob_held
        | apply markerChoice_kept | apply markerChoice_held | apply forEach_kept | apply forEach_held | apply ite_kept
        | apply ite_held | fail_if_no_progress (apply Kept.mk) | fail_if_no_progress (apply Held.mk)
    | split | exact fun k (hk : coreOk k = true) => hk | intro _ | dsimp only

/-- The commands of the switch-in (12). -/
@[simp] theorem installCommands_keep (s : State) :
    (∀ v, Keeps s (execTackInstall v s)) ∧ Keeps s (execInstallPhaseAdvance s) ∧ Keeps s (execInstallComplete s) ∧
    (∀ bytes, Keeps s (execSwitchOverrun bytes s)) := by
  unfold execTackInstall execInstallPhaseAdvance execInstallComplete execSwitchOverrun
  and_intros <;> intros <;> refine keeps_next ?_ ?_ <;>
  repeat' first
    | with_reducible first
        | exact Kept.refl s | exact Held.refl s | assumption | apply learnGroup_kept | apply learnGroup_held
        | apply installRefused_kept | apply installRefused_held | apply takeFree_kept | apply takeFree_held
        | apply installBegin_kept | apply installBegin_held | apply modJob_kept | apply modJob_held | apply phaseWork_kept
        | apply phaseWork_held | apply setAct_kept | apply setAct_held | apply modTiers_kept | apply modTiers_held
        | apply modStride_kept | apply modStride_held | apply measChange_kept | apply measChange_held | apply modRun_kept
        | apply modRun_held | apply jobOver_kept | apply jobOver_held | apply jobFault_kept | apply jobFault_held | apply ite_kept
        | apply ite_held | fail_if_no_progress (apply Kept.mk) | fail_if_no_progress (apply Held.mk)
    | split | exact fun k (hk : coreOk k = true) => hk | intro _ | dsimp only

/-- The commands of the changeover (13). -/
@[simp] theorem changeoverCommands_keep (s : State) :
    (∀ keyOk, Keeps s (execChangeoverOpen keyOk s)) ∧ (∀ writeOk, Keeps s (execChangeoverZero writeOk s)) := by
  unfold execChangeoverOpen execChangeoverZero
  and_intros <;> intros <;> refine keeps_next ?_ ?_ <;>
  repeat' first
    | with_reducible first
        | exact Kept.refl s | exact Held.refl s | assumption | apply modJob_kept | apply modJob_held | apply setAct_kept
        | apply setAct_held | apply modSync_kept | apply modSync_held | apply modTiers_kept | apply modTiers_held
        | apply debugShut_kept | apply debugShut_held | apply chgPhase_kept | apply chgPhase_held | apply clearTenant_kept
        | apply clearTenant_held | apply replaceKeys_kept | apply replaceKeys_held | apply changeoverFailed_kept
        | apply changeoverFailed_held | apply zeroBytes_kept | apply zeroBytes_held | apply zeroStores_kept
        | apply zeroStores_held | apply ite_kept | apply ite_held | fail_if_no_progress (apply Kept.mk)
        | fail_if_no_progress (apply Held.mk)
    | split | exact fun k (hk : coreOk k = true) => hk | intro _ | dsimp only

/-- The commands of the links (14). -/
@[simp] theorem linksCommands_keep (s : State) :
    (∀ l t, Keeps s (execLinkTrain l t s)) ∧ (∀ l, Keeps s (execLinkRetrain l s)) ∧ (∀ l t, Keeps s (execLinkUp l t s)) ∧
    (∀ l, Keeps s (execLinkRecal l s)) ∧ (∀ l lane, Keeps s (execLaneRecal l lane s)) ∧
    (∀ l ok, Keeps s (execLaneRestore l ok s)) ∧ (∀ l raw fixed, Keeps s (execFlitReceive l raw fixed s)) ∧
    (∀ l elapsed, Keeps s (execReplayTimeout l elapsed s)) ∧ (∀ l why, Keeps s (execLinkGoesDown l why s)) ∧
    (∀ header reason, Keeps s (execUnreachReceive header reason s)) ∧ Keeps s (execLinkDown s) := by
  unfold execLinkTrain execLinkRetrain execLinkUp execLinkRecal execLaneRecal execLaneRestore execFlitReceive execReplayTimeout
    execLinkGoesDown execUnreachReceive execLinkDown
  and_intros <;> intros <;> refine keeps_next ?_ ?_ <;>
  repeat' first
    | with_reducible first
        | exact Kept.refl s | exact Held.refl s | assumption | apply modLink_kept | apply modLink_held | apply linkTrained_kept
        | apply linkTrained_held | apply laneTurn_kept | apply laneTurn_held | apply laneRemove_kept | apply laneRemove_held
        | apply ctlOut_kept | apply ctlOut_held | apply laneBack_kept | apply laneBack_held | apply nakOut_kept
        | apply nakOut_held | apply flitGood_kept | apply flitGood_held | apply linkReplay_kept | apply linkReplay_held
        | apply linkFalls_kept | apply linkFalls_held | apply unreachAct_kept | apply unreachAct_held | apply linkDownJob_kept
        | apply linkDownJob_held | apply ite_kept | apply ite_held | fail_if_no_progress (apply Kept.mk)
        | fail_if_no_progress (apply Held.mk)
    | split

/-- The commands of the board and the host bus (15). -/
@[simp] theorem boardCommands_keep (s : State) :
    (∀ off size errs viaIde, Keeps s (execBar2Read off size errs viaIde s)) ∧
    (∀ off bytes errs viaIde urOn, Keeps s (execBar2Write off bytes errs viaIde urOn s)) ∧ Keeps s (execPerstNAssert s) ∧
    Keeps s (execPerstNRelease s) ∧ Keeps s (execPcieLinkDown s) ∧ (∀ width rate, Keeps s (execPcieLinkUp width rate s)) ∧
    Keeps s (execIdeIntegrityFailure s) ∧ (∀ rail, Keeps s (execSupplyLost rail s)) ∧
    (∀ sensor tempDC, Keeps s (execThermalThrottle sensor tempDC s)) ∧ (∀ temps, Keeps s (execThermalThrottleEnd temps s)) ∧
    (∀ sensor tempDC, Keeps s (execThermalTrip sensor tempDC s)) ∧ (∀ mc, Keeps s (execMgmtClockLost mc s)) := by
  unfold execBar2Read execBar2Write execPerstNAssert execPerstNRelease execPcieLinkDown execPcieLinkUp execIdeIntegrityFailure
    execSupplyLost execThermalThrottle execThermalThrottleEnd execThermalTrip execMgmtClockLost
  and_intros <;> intros <;> refine keeps_next ?_ ?_ <;>
  repeat' first
    | with_reducible first
        | exact Kept.refl s | exact Held.refl s | assumption | apply hostReturn_kept | apply hostReturn_held | apply hostZero_kept
        | apply hostZero_held | apply bar2Refuse_kept | apply bar2Refuse_held | apply bar2Answer_kept | apply bar2Answer_held
        | apply hostCharge_kept | apply hostCharge_held | apply unitFound_kept | apply unitFound_held | apply urReport_kept
        | apply urReport_held | apply writeBytes_kept | apply writeBytes_held | apply aliasWord_kept | apply aliasWord_held
        | apply modHost_kept | apply modHost_held | apply flushOut_kept | apply flushOut_held | apply measChange_kept
        | apply measChange_held | apply jobFault_kept | apply jobFault_held | apply chipStop_kept | apply chipStop_held
        | apply tripIfHot_kept | apply tripIfHot_held | apply noteChange_kept | apply noteChange_held | apply modMgmt_kept
        | apply modMgmt_held | apply forEach_kept | apply forEach_held | apply whenB_kept | apply whenB_held | apply ite_kept
        | apply ite_held | fail_if_no_progress (apply Kept.mk) | fail_if_no_progress (apply Held.mk)
    | split | exact fun k (hk : coreOk k = true) => hk | intro _

/-- The commands of debug access (17). -/
@[simp] theorem debugCommands_keep (s : State) :
    (∀ path level, Keeps s (execDbgOpen path level s)) ∧ (∀ path, Keeps s (execDbgClose path s)) ∧
    (∀ trstN, Keeps s (execTapReset trstN s)) ∧ Keeps s (execDbgHalt s) ∧ Keeps s (execDbgResume s) ∧ Keeps s (execDbgStep s) ∧
    Keeps s (execDbgDataRead s) ∧ (∀ value, Keeps s (execDbgDataWrite value s)) ∧ Keeps s (execDumpDataRead s) := by
  unfold execDbgOpen execDbgClose execTapReset execDbgHalt execDbgResume execDbgStep execDbgDataRead execDbgDataWrite
    execDumpDataRead
  and_intros <;> intros <;> refine keeps_next ?_ ?_ <;>
  repeat' first
    | with_reducible first
        | exact Kept.refl s | exact Held.refl s | assumption | apply debugCtrl_kept | apply debugCtrl_held | apply debugOpen_kept
        | apply debugOpen_held | apply debugClose_kept | apply debugClose_held | apply debugShut_kept | apply debugShut_held
        | apply debugHalt_kept | apply debugHalt_held | apply debugResume_kept | apply debugResume_held | apply debugStep_kept
        | apply debugStep_held | apply modSec_kept | apply modSec_held | apply debugRead_kept | apply debugRead_held
        | apply debugWrite_kept | apply debugWrite_held | apply dumpRead_kept | apply dumpRead_held
        | fail_if_no_progress (apply Kept.mk) | fail_if_no_progress (apply Held.mk)
    | split | exact fun k (hk : coreOk k = true) => hk | intro _

/-- The commands of the register windows (00). -/
@[simp] theorem registersCommands_keep (s : State) :
    (∀ off size viaIde, Keeps s (execReadLowWordLatch off size viaIde s)) ∧
    (∀ path off size value hw, Keeps s (execRegisterWrite path off size value hw s)) ∧
    (∀ write off size viaIde, Keeps s (execBar0UnimplementedAccess write off size viaIde s)) := by
  unfold execReadLowWordLatch execRegisterWrite execBar0UnimplementedAccess
  and_intros <;> intros <;> refine keeps_next ?_ ?_ <;>
  repeat' first
    | with_reducible first
        | exact Kept.refl s | exact Held.refl s | assumption | apply hostReturn_kept | apply hostReturn_held | apply hostZero_kept
        | apply hostZero_held | apply regReadAt_kept | apply regReadAt_held | apply bar0Refuse_kept | apply bar0Refuse_held
        | apply regWriteAt_kept | apply regWriteAt_held | apply regWrite_kept | apply regWrite_held | apply ite_kept
        | apply ite_held | fail_if_no_progress (apply Kept.mk) | fail_if_no_progress (apply Held.mk)
    | split

/-- The commands of SPDM (17). -/
@[simp] theorem spdmCommands_keep (s : State) :
    Keeps s (execGetVersion s) ∧ Keeps s (execGetCapabilities s) ∧ (∀ supported, Keeps s (execNegotiateAlgorithms supported s)) ∧
    Keeps s (execGetDigests s) ∧ (∀ slot, Keeps s (execGetCertificate slot s)) ∧ (∀ slot, Keeps s (execChallenge slot s)) ∧
    (∀ index signed, Keeps s (execGetMeasurements index signed s)) ∧ (∀ slot, Keeps s (execKeyExchange slot s)) ∧
    (∀ session macOk, Keeps s (execFinish session macOk s)) ∧ (∀ session, Keeps s (execHeartbeat session s)) ∧
    (∀ session, Keeps s (execKeyUpdate session s)) ∧ (∀ session, Keeps s (execEndSession session s)) ∧
    (∀ session stream go, Keeps s (execVendorDefinedRequest session stream go s)) ∧
    (∀ test, Keeps s (execEntropyFailed test s)) := by
  unfold execGetVersion execGetCapabilities execNegotiateAlgorithms execGetDigests execGetCertificate execChallenge
    execGetMeasurements execKeyExchange execFinish execHeartbeat execKeyUpdate execEndSession execVendorDefinedRequest
    execEntropyFailed
  and_intros <;> intros <;> refine keeps_next ?_ ?_ <;>
  repeat' first
    | with_reducible first
        | exact Kept.refl s | exact Held.refl s | assumption | apply spdm_kept | apply spdm_held | apply reply_kept
        | apply reply_held | apply modSec_kept | apply modSec_held | apply spdmError_kept | apply spdmError_held
        | apply takeFree_kept | apply takeFree_held | apply modSpdm_kept | apply modSpdm_held | apply inSession_kept
        | apply inSession_held | apply setIde_kept | apply setIde_held | apply chipStop_kept | apply chipStop_held
        | apply ite_kept | apply ite_held | fail_if_no_progress (apply Kept.mk) | fail_if_no_progress (apply Held.mk)
    | split | exact fun k (hk : coreOk k = true) => hk | intro _

/-- The commands of wards and the Tally (16). -/
@[simp] theorem wardsCommands_keep (s : State) :
    (∀ w value, Keeps s (execWardWrite w value s)) ∧ (∀ bytes, Keeps s (execWardAuth bytes s)) ∧ Keeps s (execTallyHandover s) ∧
    Keeps s (execTallyRelease s) ∧ Keeps s (execTallyNextPop s) ∧ (∀ value, Keeps s (execTallyReaderWrite value s)) := by
  unfold execWardWrite execWardAuth execTallyHandover execTallyRelease execTallyNextPop execTallyReaderWrite
  and_intros <;> intros <;> refine keeps_next ?_ ?_ <;>
  repeat' with_reducible first
      | exact Kept.refl s | exact Held.refl s | assumption | apply wardWrite_kept | apply wardWrite_held | apply newNonce_kept
      | apply newNonce_held | apply sdoAnswer_kept | apply sdoAnswer_held | apply modSec_kept | apply modSec_held
      | apply authRefuse_kept | apply authRefuse_held | apply tallyHand_kept | apply tallyHand_held | apply tallyFree_kept
      | apply tallyFree_held | apply tallyPop_kept | apply tallyPop_held | apply tallyReader_kept | apply tallyReader_held
      | apply ite_kept | apply ite_held

/-- The commands of the object dictionary (16). -/
@[simp] theorem odCommands_keep (s : State) :
    (∀ index sub, Keeps s (execSdoRead index sub s)) ∧
    (∀ index sub value saturates, Keeps s (execOdOvfClear index sub value saturates s)) ∧
    (∀ index sub value, Keeps s (execSdoWrite index sub value s)) := by
  unfold execSdoRead execOdOvfClear execSdoWrite
  and_intros <;> intros <;> refine keeps_next ?_ ?_ <;>
  repeat' with_reducible first
      | exact Kept.refl s | exact Held.refl s | assumption | apply sdoAnswer_kept | apply sdoAnswer_held | apply tallyPop_kept
      | apply tallyPop_held | apply modMgmt_kept | apply modMgmt_held | apply debugRead_kept | apply debugRead_held
      | apply dumpRead_kept | apply dumpRead_held | apply ovfWrite_kept | apply ovfWrite_held | apply odWrite_kept
      | apply odWrite_held | apply ite_kept | apply ite_held

/-- The commands of EtherCAT (16). -/
@[simp] theorem ethercatCommands_keep (s : State) :
    (∀ a sm2 sm3, Keeps s (execAlStateRequest a sm2 sm3 s)) ∧ (∀ o, Keeps s (execOutputImageAccept o s)) ∧
    (∀ elapsedMs accepted, Keeps s (execMasterLost elapsedMs accepted s)) ∧
    (∀ portB up, Keeps s (execEthercatPortLinkChange portB up s)) ∧ Keeps s (execDistributedClockFailure s) := by
  unfold execAlStateRequest execOutputImageAccept execMasterLost execEthercatPortLinkChange execDistributedClockFailure
  and_intros <;> intros <;> refine keeps_next ?_ ?_ <;>
  repeat' with_reducible first
      | exact Kept.refl s | exact Held.refl s | assumption | apply alTo_kept | apply alTo_held | apply alOp_kept
      | apply alOp_held | apply takeBudget_kept | apply takeBudget_held | apply modMgmt_kept | apply modMgmt_held
      | apply setRack_kept | apply setRack_held | apply event_kept | apply event_held | apply loseMaster_kept
      | apply loseMaster_held | apply modStride_kept | apply modStride_held | apply ite_kept | apply ite_held

/-- The commands of strides (02). -/
@[simp] theorem strideCommands_keep (s : State) :
    (∀ b, Keeps s (execStrideBoundary b s)) ∧ Keeps s (execIssueSpanStart s) ∧ Keeps s (execStrideWatchdog s) ∧
    (∀ elapsed, Keeps s (execBoundaryTimer elapsed s)) ∧ Keeps s (execMarkerSend s) ∧
    (∀ body phase, Keeps s (execMarkerReceive body phase s)) ∧ Keeps s (execMarkerLoss s) ∧
    (∀ chip body, Keeps s (execLenReqReceive chip body s)) ∧ (∀ chip body, Keeps s (execStrideEventReceive chip body s)) ∧
    (∀ chip tackId, Keeps s (execSlotStagedReport chip tackId s)) ∧ (∀ sinceLast, Keeps s (execStrideInEdge sinceLast s)) ∧
    (∀ sinceLast, Keeps s (execStrideInTimeout sinceLast s)) ∧ (∀ time, Keeps s (execSync0Event time s)) ∧
    (∀ low, Keeps s (execThrottleNChange low s)) ∧ (∀ dcTime, Keeps s (execPowerFailNFall dcTime s)) ∧
    Keeps s (execPowerFailNRise s) := by
  unfold execStrideBoundary execIssueSpanStart execStrideWatchdog execBoundaryTimer execMarkerSend execMarkerReceive
    execMarkerLoss execLenReqReceive execStrideEventReceive execSlotStagedReport execStrideInEdge execStrideInTimeout
    execSync0Event execThrottleNChange execPowerFailNFall execPowerFailNRise
  and_intros <;> intros <;> refine keeps_next ?_ ?_ <;>
  repeat' first
    | with_reducible first
        | exact Kept.refl s | exact Held.refl s | assumption | apply strideInForce_kept | apply strideInForce_held
        | apply hostAges_kept | apply hostAges_held | apply openWindow_kept | apply openWindow_held | apply takeMeasures_kept
        | apply takeMeasures_held | apply dumpGo_kept | apply dumpGo_held | apply curbLoad_kept | apply curbLoad_held
        | apply rebuildImage_kept | apply rebuildImage_held | apply setLen_kept | apply setLen_held | apply boundaryWork_kept
        | apply boundaryWork_held | apply hitchResume_kept | apply hitchResume_held | apply raiseUsed_kept | apply raiseUsed_held
        | apply openNine_kept | apply openNine_held | apply modStride_kept | apply modStride_held | apply stepOpen_kept
        | apply stepOpen_held | apply jobFault_kept | apply jobFault_held | apply setAct_kept | apply setAct_held
        | apply waitRecord_kept | apply waitRecord_held | apply modRun_kept | apply modRun_held | apply chipStop_kept
        | apply chipStop_held | apply markerForward_kept | apply markerForward_held | apply markerSays_kept
        | apply markerSays_held | apply strideBody_kept | apply strideBody_held | apply takeMarker_kept | apply takeMarker_held
        | apply event_kept | apply event_held | apply sendStride_kept | apply sendStride_held | apply takeLenReq_kept
        | apply takeLenReq_held | apply takeEvent_kept | apply takeEvent_held | apply stagedReport_kept | apply stagedReport_held
        | apply modMgmt_kept | apply modMgmt_held | apply noteChange_kept | apply noteChange_held | apply journalWrite_kept
        | apply journalWrite_held | apply forEach_kept | apply forEach_held | apply foldl_kept | apply foldl_held | apply ite_kept
        | apply ite_held | fail_if_no_progress (apply Kept.mk) | fail_if_no_progress (apply Held.mk)
    | split | exact fun k (hk : coreOk k = true) => hk | intro _

/-- The commands of tier reads (08). -/
@[simp] theorem tierReadCommands_keep (s : State) :
    (∀ r addr how overwritten, Keeps s (execTierReadReturn r addr how overwritten s)) := by
  unfold execTierReadReturn
  intros
  refine keeps_next ?_ ?_ <;>
  repeat' with_reducible first
      | exact Kept.refl s | exact Held.refl s | assumption | apply readEnd_kept | apply readEnd_held | apply readTouch_kept
      | apply readTouch_held | apply ite_kept | apply ite_held

/-- The commands of start-up (18). -/
@[simp] theorem resetCommands_keep (s : State) :
    (∀ p trained, Keeps s (execPortRestoreDone p trained s)) ∧ (∀ i, Keeps s (execStartUp i s)) := by
  unfold execPortRestoreDone execStartUp
  and_intros <;> intros <;> refine keeps_next ?_ ?_ <;>
  repeat' first
    | with_reducible first
        | exact Kept.refl s | exact Held.refl s | assumption | apply event_kept | apply event_held | apply modPort_kept
        | apply modPort_held | apply portZero_kept | apply portZero_held | apply portObjects_kept | apply portObjects_held
        | apply modDumps_kept | apply modDumps_held | apply startRun_kept | apply startRun_held | apply startAdmit_kept
        | apply startAdmit_held | apply whenB_kept | apply whenB_held | apply ite_kept | apply ite_held
        | fail_if_no_progress (apply Kept.mk) | fail_if_no_progress (apply Held.mk)
    | split | exact fun k (hk : coreOk k = true) => hk | intro _

/-- The commands of live service (18). -/
@[simp] theorem liveCommands_keep (s : State) :
    (∀ f, Keeps s (execChipFault f s)) ∧ Keeps s (execDumpFCopy s) ∧ Keeps s (execReducedDump s) ∧
    (∀ c, Keeps s (execDroopTrip c s)) ∧ Keeps s (execCoreStateLost s) ∧ (∀ o, Keeps s (execOstlerLeaveService o s)) ∧
    (∀ o, Keeps s (execOstlerReadmit o s)) ∧ Keeps s (execRollingUpdateStep s) ∧ Keeps s (execImgBegin s) ∧
    (∀ bytes programmed, Keeps s (execImgData bytes programmed s)) ∧
    (∀ signed lpRate nandRate, Keeps s (execImgVerify signed lpRate nandRate s)) ∧ Keeps s (execActivate s) ∧
    Keeps s (execImgAbort s) ∧ Keeps s (execTumblerRestart s) ∧ (∀ nonce, Keeps s (execTumblerRestartEnd nonce s)) ∧
    Keeps s (execTumblerRestartTimeout s) := by
  unfold execChipFault execDumpFCopy execReducedDump execDroopTrip execCoreStateLost execOstlerLeaveService execOstlerReadmit
    execRollingUpdateStep execImgBegin execImgData execImgVerify execActivate execImgAbort execTumblerRestart
    execTumblerRestartEnd execTumblerRestartTimeout
  and_intros <;> intros <;> refine keeps_next ?_ ?_ <;>
  repeat' first
    | with_reducible first
        | exact Kept.refl s | exact Held.refl s | assumption | apply chipStop_kept | apply chipStop_held | apply progress_kept
        | apply progress_held | apply copyDump_kept | apply copyDump_held | apply reducedDump_kept | apply reducedDump_held
        | apply coreLeaves_kept | apply coreLeaves_held | apply coreClear_kept | apply coreClear_held | apply jobFault_kept
        | apply jobFault_held | apply coreWriteOff_kept | apply coreWriteOff_held | apply modRun_kept | apply modRun_held
        | apply setAct_kept | apply setAct_held | apply ostlerLeave_kept | apply ostlerLeave_held | apply modOstler_kept
        | apply modOstler_held | apply rollNext_kept | apply rollNext_held | apply measChange_kept | apply measChange_held
        | apply event_kept | apply event_held | apply imgRefuse_kept | apply imgRefuse_held | apply sdoFine_kept
        | apply sdoFine_held | apply imgStep_kept | apply imgStep_held | apply modMgmt_kept | apply modMgmt_held
        | apply imgFail_kept | apply imgFail_held | apply modBoot_kept | apply modBoot_held | apply modSec_kept
        | apply modSec_held | apply tumblerBack_kept | apply tumblerBack_held | apply forEach_kept | apply forEach_held
        | apply ite_kept | apply ite_held | fail_if_no_progress (apply Kept.mk) | fail_if_no_progress (apply Held.mk)
    | split | exact fun k (hk : coreOk k = true) => hk | intro _

/-- The commands of packets (14). -/
@[simp] theorem packetsCommands_keep (s : State) :
    (∀ l vc, Keeps s (execPacketReceive l vc s)) := by
  unfold execPacketReceive
  intros
  refine keeps_next ?_ ?_ <;>
  repeat' first
    | with_reducible first
        | exact Kept.refl s | exact Held.refl s | assumption | apply packetTake_kept | apply packetTake_held | apply vcFreed_kept
        | apply vcFreed_held | apply modLink_kept | apply modLink_held | apply ite_kept | apply ite_held
        | fail_if_no_progress (apply Kept.mk) | fail_if_no_progress (apply Held.mk)
    | split

theorem FusesRise.burnBit (w : Ward) (v : Nat) (f : Fuses) : FusesRise f (burnBit w v f) := by
  unfold Machine.burnBit
  cases w <;> refine ⟨?_, ?_, ?_⟩ <;> simp

/-- A bit that burns raises its ward's count, and no other operation of the command touches a fuse (R552). -/
@[simp] theorem execWardBitBurn_keeps (ok : Bool) (s : State) : Keeps s (execWardBitBurn ok s) := by
  unfold execWardBitBurn
  have burnt : ∀ w v, Kept s { s with fuses := burnBit w v s.fuses } := fun w v => (Kept.refl s).burn (.burnBit w v _)
  refine keeps_next ?_ ?_ <;>
  repeat' first
    | with_reducible first
        | exact Kept.refl s | exact Held.refl s | apply burnt | apply sdoAnswer_kept | apply sdoAnswer_held | apply chipStop_kept
        | apply chipStop_held | apply modMgmt_kept | apply modMgmt_held | apply burnEnd_kept | apply burnEnd_held
        | fail_if_no_progress (apply Held.mk)
    | split | dsimp only

/-- The credits written off are no registers and no threads of a core. -/
@[simp] theorem execCreditWriteOff_keeps (s : State) : Keeps s (execCreditWriteOff s) := by
  have writtenOff : ∀ u, Kept s u → Kept s { u with cores := smap {} (fun _ k => { k with retCount := 0 }) u.cores } :=
    fun u hu => hu.cores (f := fun _ k => { k with retCount := 0 }) (fun _ _ hk => hk) rfl rfl rfl rfl
  unfold execCreditWriteOff
  refine keeps_next ?_ ?_ <;>
  repeat' first
    | with_reducible first
        | exact Kept.refl s | exact Held.refl s | apply writtenOff | apply event_kept | apply event_held | apply modJob_kept
        | apply modJob_held | fail_if_no_progress (apply Held.mk)
    | split | dsimp only

/-- The snapshot goes ring by ring. -/
@[simp] theorem execRingSnapshot_keeps (views : List (RingId × RingView)) (s : State) : Keeps s (execRingSnapshot views s) := by
  unfold execRingSnapshot
  refine keeps_next ?_ ?_
  · refine ite_kept (.refl s) (modHost_kept (pairFold_kept (fun y n hy => ?_) _ (.refl s)) _)
    split
    · exact hy
    · exact snapRing_kept hy _ _ _
  · refine ite_held (.refl s) (modHost_held (pairFold_held (fun y n hy => ?_) _ (.refl s)) _)
    split
    · exact hy
    · exact snapRing_held hy _ _ _

/-! ## The resets and the end of a changeover -/

@[simp] theorem execColdReset_kept (s : State) : OutKept s (execColdReset s) := outKept_next (coldState_kept (.refl s))

@[simp] theorem execWarmReset_kept (s : State) : OutKept s (execWarmReset s) := by
  unfold execWarmReset
  exact outKept_next (ite_kept (coldState_kept (.refl s)) (warmState_kept (.refl s)))

@[simp] theorem execChangeoverClose_kept (s : State) : OutKept s (execChangeoverClose s) := by
  unfold execChangeoverClose
  refine outKept_next ?_
  repeat' with_reducible first
    | exact Kept.refl s | apply ite_kept | apply chgPhase_kept | apply changeoverEnd_kept | apply setAct_kept

/-- The end of a changeover takes the new tenant; what else it does is made of operations that hold a chip fault. -/
theorem execChangeoverClose_chipFault {s t : State} (ht : execChangeoverClose s = .next t) (hf : s.chipFault.isSome = true) :
    t.chipFault = s.chipFault := by
  have ended : ∀ u, Held s u → (changeoverEnd u).chipFault = s.chipFault := fun u hu => by
    unfold changeoverEnd
    generalize hj : modJob _ u = j
    have hjf : j.chipFault = s.chipFault := by rw [← hj]; exact hu.1 hf
    have h0 : Held j j := .refl j
    rw [← hjf]
    refine And.left (?_ : Held j _) (by rw [hjf]; exact hf)
    repeat' with_reducible first
      | exact h0 | apply ite_held | apply endTenancy_held | apply modSync_held | apply defaultBudgets_held | apply chgPhase_held
      | apply measChange_held | apply modSec_held
  unfold execChangeoverClose at ht
  cases ht
  split
  · rfl
  · split
    · exact (chgPhase_held (setAct_held (.refl s) 7) 3).1 hf
    · split
      · exact ended _ (setAct_held (.refl s) 7)
      · rfl

/-! ## All commands -/

theorem exec_keeps {c : Instr} (hreset : notReset c) (hclose : c ≠ .changeoverClose) (s : State) : Keeps s (exec c s) := by
  obtain ⟨hcold, hwarm⟩ := hreset
  cases c with
  | coldReset => exact absurd rfl hcold
  | warmReset => exact absurd rfl hwarm
  | changeoverClose => exact absurd rfl hclose
  | _ => simp [exec]

theorem exec_kept (c : Instr) (s : State) : OutKept s (exec c s) := by
  by_cases hreset : notReset c
  · by_cases hclose : c = .changeoverClose
    · subst hclose
      exact execChangeoverClose_kept s
    · exact (exec_keeps hreset hclose s).kept
  · by_cases hcold : c = .coldReset
    · subst hcold
      exact execColdReset_kept s
    · obtain rfl : c = .warmReset := by
        by_contra hwarm
        exact hreset ⟨hcold, hwarm⟩
      exact execWarmReset_kept s

/-- Settles O2: the step's command keeps the form of the state that has lost the front of the queue. -/
theorem stepKeepsForm : Obligations.StepKeepsForm := by
  intro s t ht hmem hcores
  unfold step at ht
  cases hq : s.pending with
  | nil =>
    rw [hq] at ht
    cases ht
    exact ⟨by rw [hq]; rfl, hmem, hcores⟩
  | cons c rest =>
    rw [hq] at ht
    obtain ⟨hpending, hform, -, hcoresKept⟩ := exec_kept c { s with pending := rest } t ht
    exact ⟨hpending, hform hmem, hcoresKept hcores⟩

/-- Settles O4: every operation of every command leaves the burnt bits or adds to them. -/
theorem wardsOnlyRise : Obligations.WardsOnlyRise := by
  intro c s t ht
  obtain ⟨-, -, hrise, -⟩ := exec_kept c s t ht
  exact hrise

/-- Settles O5: no operation but a reset takes a chip fault back. -/
theorem chipFaultStands : Obligations.ChipFaultStands := by
  intro c s t code ht hfault hcold hwarm
  have hsome : s.chipFault.isSome = true := by rw [hfault]; rfl
  rw [← hfault]
  by_cases hclose : c = .changeoverClose
  · subst hclose
    exact execChangeoverClose_chipFault ht hsome
  · exact ((exec_keeps ⟨hcold, hwarm⟩ hclose s).held t ht).1 hsome

/-- Settles O6: no operation of another command touches TENANT. -/
theorem tenantStands : Obligations.TenantStands := by
  intro c s t ht hcold hwarm hclose
  exact ((exec_keeps ⟨hcold, hwarm⟩ hclose s).held t ht).2

end Sys2Proof.Machine
end

section
/-! # The queue, the register file and the instructions that compute (R171 to R177) -/
namespace Sys2Proof.Machine

/-- Settles O1: the two cases of the queue. -/
theorem stepRunsFront : Obligations.StepRunsFront := by
  refine ⟨fun c rest s hq => ?_, fun s hq => ?_⟩
  · unfold step
    rw [hq]
  · unfold step
    rw [hq]

/-- Settles O3: the stores of a part that has just been reset are empty. -/
theorem resetHasForm : Obligations.ResetHasForm := ⟨rfl, rfl, rfl⟩

/-- Settles O7: S0 is a case of its own; the others are a store's read after write. -/
theorem registerFile : Obligations.RegisterFile := fun _ c r q v h => sreg_setSreg h c.val r q v

/-! ## Issue of a scalar instruction (R176, R177) -/

section Clear

variable {s : State} {c : CoreId} {t : ThreadId} {f : ScalarF}

/-- A clear instruction goes through to its target, or is refused for it. -/
theorem scalarRun_of_clear (h : scalarClear s c t f) (target : Nat → Int) (eff : State → State) :
    scalarRun c.val t.val f target eff s =
      if pcBacked s c.val (target (threadOf s c.val t.val).pc) = true then
        threadMove c.val t.val (target (threadOf s c.val t.val).pc).toNat (eff s)
      else groomRefuse c.val t.val 0 0x0315 (item 6 (ofSigned 48 (target (threadOf s c.val t.val).pc))) 0 0 s := by
  obtain ⟨-, halign, hbacked, -, hrsvd⟩ := h
  simp only [scalarRun, halign, hbacked, hrsvd]
  cases pcBacked s c.val (target (threadOf s c.val t.val).pc) <;> simp

theorem scalarIssue_of_clear (h : scalarClear s c t f) (target : Nat → Int) (eff : State → State) :
    scalarIssue c.val t.val f target eff s = scalarRun c.val t.val f target eff s := by
  obtain ⟨hready, -⟩ := h
  simp [scalarIssue, hready]

/-- The 8 bytes after a clear instruction are backed. -/
theorem pcBacked_next (h : scalarClear s c t f) : pcBacked s c.val ((threadOf s c.val t.val).pc + 8) = true := by
  obtain ⟨-, -, -, hnext, -⟩ := h
  simp only [pcBacked, Bool.and_eq_true, decide_eq_true_eq]
  rw [show ((threadOf s c.val t.val).pc + 8 : Int).toNat = (threadOf s c.val t.val).pc + 8 by omega]
  exact ⟨by omega, hnext⟩

/-- An instruction that does not branch has its effect and goes on at PC + 8. -/
theorem scalarIssue_fallThrough (h : scalarClear s c t f) (eff : State → State) :
    scalarIssue c.val t.val f fallThrough eff s = threadMove c.val t.val ((threadOf s c.val t.val).pc + 8) (eff s) := by
  rw [scalarIssue_of_clear h, scalarRun_of_clear h, fallThrough, if_pos (pcBacked_next h)]
  rfl

/-- An instruction whose effect is S[DST] = `v` leaves the state `wrote` names. -/
theorem scalarIssue_setDst (h : scalarClear s c t f) {v : State → Word} {w : Word} (hv : v s = w) :
    Host.Outcome.next (scalarIssue c.val t.val f fallThrough (setDst c.val f v) s) = (.next (wrote s c t f.dst w) : Out) := by
  rw [scalarIssue_fallThrough h, setDst, hv]
  rfl

end Clear

theorem slt_eq_toInt_lt (a b : Word) : a.slt b = decide (a.toInt < b.toInt) := rfl

theorem valMin_eq (s : State) (c : Nat) (f : ScalarF) : valMin c f s =
    if (sreg s c f.src1).toInt < (sreg s c f.src2).toInt then sreg s c f.src1 else sreg s c f.src2 := by
  simp only [valMin, slt_eq_toInt_lt, decide_eq_true_eq]

theorem valMax_eq (s : State) (c : Nat) (f : ScalarF) : valMax c f s =
    if (sreg s c f.src1).toInt < (sreg s c f.src2).toInt then sreg s c f.src2 else sreg s c f.src1 := by
  simp only [valMax, slt_eq_toInt_lt, decide_eq_true_eq]

/-- Settles O8: each instruction is an issue that writes its value. -/
theorem scalarResults : Obligations.ScalarResults := by
  intro c t f s h a b n
  exact ⟨scalarIssue_setDst h rfl, scalarIssue_setDst h rfl, scalarIssue_setDst h rfl, scalarIssue_setDst h rfl,
    scalarIssue_setDst h rfl, scalarIssue_setDst h rfl, scalarIssue_setDst h rfl, scalarIssue_setDst h rfl,
    scalarIssue_setDst h rfl, scalarIssue_setDst h rfl, scalarIssue_setDst h rfl, scalarIssue_setDst h (valMin_eq s c.val f),
    scalarIssue_setDst h (valMax_eq s c.val f)⟩

/-! ## What `wrote` leaves alone -/

theorem onlyCores_setSreg (c : Nat) (r : RegNo) (v : Word) (s : State) : onlyCores s (setSreg c r v s) := by
  unfold onlyCores setSreg
  split <;> rfl

theorem onlyCores_trans {s t u : State} (h : onlyCores s t) (k : onlyCores t u) : onlyCores s u := by
  unfold onlyCores at h k ⊢
  rw [k, h]

theorem onlyCores_threadMove (c t n : Nat) (s : State) : onlyCores s (threadMove c t n s) := rfl

theorem onlyCores_wrote (s : State) (c : CoreId) (t : ThreadId) (dst : RegNo) (v : Word) : onlyCores s (wrote s c t dst v) :=
  onlyCores_trans (onlyCores_setSreg c.val dst v s) (onlyCores_threadMove _ _ _ _)

theorem memSame_of_onlyCores {s t : State} (h : onlyCores s t) : memSame s t := by
  unfold onlyCores at h
  rw [h]
  exact readByte_congr rfl rfl rfl

/-- Settles O9: the issue changes its core alone, and in it one register and one thread. -/
theorem scalarFrame : Obligations.ScalarFrame := by
  intro c t f s v h _ u
  have hw := coresOk_setSreg h c.val f.dst v
  have hreg : ∀ q, sreg u c.val q = if q = 0 then 0 else if q = f.dst then v else sreg s c.val q := fun q => by
    rw [← sreg_setSreg h]
    exact sreg_threadMove hw ..
  refine ⟨onlyCores_wrote .., memSame_of_onlyCores (onlyCores_wrote ..), fun k hk => ?_, ?_, fun q hq => ?_, fun k hk => ?_, ?_⟩
  · exact (coreOf_threadMove_other hw _ _ hk).trans (coreOf_setSreg_other h _ _ hk)
  · rw [hreg, if_pos rfl]
  · rw [hreg, if_neg hq]
    split
    · rename_i hzero
      simp [sreg, hzero]
    · rfl
  · exact (threadOf_threadMove_other hw _ hk).trans (threadOf_setSreg h ..)
  · have hthread := threadOf_threadMove_same hw c.val t.val ((threadOf s c.val t.val).pc + 8)
    rwa [threadOf_setSreg h] at hthread

end Sys2Proof.Machine
end

section
/-! # COUNTERs, synchronisation waits and accepted paths (R337, R341, R343, R405, R498) -/
namespace Sys2Proof.Machine

/-- What no step of a list's work touches, the whole work leaves. -/
theorem forEach_eq_of_forall {α β : Type} (g : State → β) {f : α → State → State} (hf : ∀ x t, g (f x t) = g t) (l : List α)
    (s : State) : g (forEach l f s) = g s := by
  induction l generalizing s with
  | nil => rfl
  | cons x l ih => exact (ih (f x s)).trans (hf x s)

/-! ## Answers leave the synchronisation block alone -/

@[simp] theorem linkCount_sync (n0 l : Nat) (p : Packet) (s : State) : (linkCount n0 l p s).sync = s.sync := by
  unfold linkCount
  split <;> rfl

@[simp] theorem flitOut_sync (l kind seq vc : Nat) (payload : List Byte) (s : State) : (flitOut l kind seq vc payload s).sync = s.sync := by
  unfold flitOut
  rfl

@[simp] theorem linkFlush_sync (l : Nat) (s : State) : (linkFlush l s).sync = s.sync := by
  unfold linkFlush
  exact forEach_eq_of_forall (·.sync) (fun _ _ => flitOut_sync ..) _ _

@[simp] theorem linkSend_sync (n0 l : Nat) (fromLink : Option Nat) (dl : Nat) (p : Packet) (s : State) :
    (linkSend n0 l fromLink dl p s).sync = s.sync := by
  rw [linkSend, linkQueue, linkFlush_sync]
  exact linkCount_sync ..

@[simp] theorem sendSyncRsp_sync (chip core thread : Nat) (info : BitVec 48) (v : Word) (s : State) :
    (sendSyncRsp chip core thread info v s).sync = s.sync := by
  unfold sendSyncRsp packetOut segmentsOut
  dsimp only
  split
  · rfl
  · exact forEach_eq_of_forall (·.sync) (fun _ _ => linkSend_sync ..) _ _
  · rfl

@[simp] theorem setSreg_sync (c : Nat) (r : RegNo) (v : Word) (s : State) : (setSreg c r v s).sync = s.sync := by
  unfold setSreg
  split <;> rfl

@[simp] theorem deliver_sync (w : Waiter) (v : Word) (s : State) : (deliver w v s).sync = s.sync := by
  unfold deliver
  split
  · split <;> simp
  · simp

/-! ## COUNTER (R337, R341) -/

section Served

variable {s : State} {r : SyncReq} {type : Nat} (h : served s r type)
include h

theorem exec_counterSet (d : Word) : exec (.counterSet r d) s = .next (syncAnswer r (opSet r d s)) :=
  congrArg Host.Outcome.next (syncServe_of_served h _)

theorem exec_counterAdd (d : Word) : exec (.counterAdd r d) s = .next (syncAnswer r (opAdd r d s)) :=
  congrArg Host.Outcome.next (syncServe_of_served h _)

theorem exec_counterFetchIncrement : exec (.counterFetchIncrement r) s = .next (syncAnswer r (opFetchInc r s)) :=
  congrArg Host.Outcome.next (syncServe_of_served h _)

theorem exec_counterWait (d : Word) : exec (.counterWait r d) s = .next (syncAnswer r (opWait r d s)) :=
  congrArg Host.Outcome.next (syncServe_of_served h _)

end Served

/-- Settles O13: each operation of a COUNTER, and what `syncAnswer` makes of its answer. -/
theorem counterOperations : Obligations.CounterOperations := by
  intro r d s h n v
  have ⟨_, _, _, htype⟩ := h
  rw [exec_counterSet h, exec_counterAdd h, exec_counterFetchIncrement h, exec_counterWait h]
  refine ⟨?_, ?_, ?_, fun hmet => ?_, fun hunmet => ?_⟩
  · simp [opSet, htype, n]
  · simp [opAdd, htype, n, v]
  · simp [opFetchInc, htype, n, v, wordOf]
  · have hmet : d.toInt ≤ (objOf s r.obj.val).value := hmet
    simp only [opWait, htype, if_true, if_pos hmet, syncAnswer_value]
    rfl
  · have hunmet : ¬d.toInt ≤ (objOf s r.obj.val).value := not_le.2 hunmet
    simp only [opWait, htype, if_true, if_neg hunmet, syncAnswer_waits]
    rfl

/-- Settles O14: the object is changed first, and the waits that end then leave the block alone. -/
theorem counterClamps : Obligations.CounterClamps := by
  intro n x clear s v
  have hovf : ∀ k : SyncObj, ((if clear then false else k.ovf) || clamps 64 x) = ((k.ovf && !clear) || decide (v ≠ x)) := by
    intro k
    cases clear <;> simp [clamps, satInt, v]
  simp only [counterPut, hovf]
  exact forEach_eq_of_forall (·.sync) (fun _ _ => deliver_sync ..) _ _

/-! ## Synchronisation waits (R343, R498) -/

section Remote

variable {c : CoreId} {t : ThreadId} {s : State} {dst : RegNo} {obj n : Nat} {seq : BitVec 16} {el : Bool}

theorem exec_syncResponse_of_remote (hup : fabricUp s = true) (hwait : (threadOf s c.val t.val).wait = .remote dst obj seq el n)
    (hcore : coreStale s c.val = false) (v : Word) :
    exec (.syncResponse c t v) s = .next (modCore c.val
      (fun k => { k with claim := if el = true ∧ obj % 4 = 2 then false else k.claim })
      (modThread c.val t.val (fun h => { h with wait := .none }) (setSreg c.val dst v s))) := by
  change execSyncResponse c t v s = _
  simp [execSyncResponse, syncReturn, hup, hwait, hcore]

/-- One more request while a try is left, and else LINK_UNREACHABLE where R498 has it. -/
theorem syncAgain_of_remote (hup : fabricUp s = true) (hwait : (threadOf s c.val t.val).wait = .remote dst obj seq el n) (k u : Nat) :
    syncAgain (k + 1) c.val t.val u s =
      if el = true ∧ n < 3 then
        sendSyncReq (threadOf s c.val t.val).step (obj / 2 ^ 16) (obj % 2 ^ 16 / 4) (obj % 4) false c.val t.val (seq.setWidth 64) true
          (syncAgain k c.val t.val) (modSync (fun y => { y with reissues := statInc 32 y.reissues })
            (modThread c.val t.val (fun h => { h with wait := .remote dst obj seq el (n + 1) }) s))
      else if el = true ∨ u ≠ 0 then
        jobFault 0x0802 (headerBytes (waitPacket s c.val t.val obj seq n) ++ item 1 u) s
      else s := by
  simp [syncAgain, hup, hwait]

variable {u x : Nat} (hdue : u ≠ 0 ∨ 65536 ≤ x)
include hdue

theorem exec_syncReissue_of_due : exec (.syncReissue c t u x) s = .next (syncAgain 4 c.val t.val u s) := by
  change execSyncReissue c t u x s = _
  simp only [execSyncReissue, Bool.or_eq_true, decide_eq_true_eq, if_pos hdue]

theorem exec_syncReissue_of_tryLeft (hup : fabricUp s = true)
    (hwait : (threadOf s c.val t.val).wait = .remote dst obj seq true n) (hleft : n < 3) :
    exec (.syncReissue c t u x) s = .next
      (sendSyncReq (threadOf s c.val t.val).step (obj / 2 ^ 16) (obj % 2 ^ 16 / 4) (obj % 4) false c.val t.val (seq.setWidth 64) true
        (syncAgain 3 c.val t.val) (modSync (fun y => { y with reissues := statInc 32 y.reissues })
          (modThread c.val t.val (fun h => { h with wait := .remote dst obj seq true (n + 1) }) s))) := by
  rw [exec_syncReissue_of_due hdue, syncAgain_of_remote hup hwait, if_pos ⟨rfl, hleft⟩]

theorem exec_syncReissue_of_given_up (hup : fabricUp s = true)
    (hwait : (threadOf s c.val t.val).wait = .remote dst obj seq el n) (hlost : if el = true then 3 ≤ n else u ≠ 0) :
    exec (.syncReissue c t u x) s =
      .next (jobFault 0x0802 (headerBytes (waitPacket s c.val t.val obj seq n) ++ item 1 u) s) := by
  rw [exec_syncReissue_of_due hdue, syncAgain_of_remote hup hwait, if_neg, if_pos]
  · split at hlost <;> simp_all
  · rintro ⟨rfl, hleft⟩
    exact absurd hlost (not_le.2 hleft)

theorem exec_syncReissue_of_patient (hup : fabricUp s = true)
    (hwait : (threadOf s c.val t.val).wait = .remote dst obj seq false n) (hnone : u = 0) :
    exec (.syncReissue c t u x) s = .next s := by
  rw [exec_syncReissue_of_due hdue, syncAgain_of_remote hup hwait]
  simp [hnone]

end Remote

theorem exec_syncWaitTimeout_of_expired {o : Fin 8192} {s : State} {w : Waiter} {l : List Waiter}
    (hwaits : (objOf s o.val).waiters = w :: l) (hspans : ∃ x ∈ w :: l, (objOf s o.val).waitLimit ≤ x.spans)
    (hact : mayAct s 1 = true) :
    exec (.syncWaitTimeout o) s = .next (jobFault 0x0222 (item 2 o.val ++ item 8 (syncState (objOf s o.val)).toNat ++
      item 2 w.core.val ++ item 1 w.thread.val) s) := by
  have hexpired : (waitExpired (objOf s o.val)).isSome = true := by
    rw [waitExpired, hwaits, List.find?_isSome]
    simpa using hspans
  obtain ⟨y, hy⟩ := Option.isSome_iff_exists.1 hexpired
  change execSyncWaitTimeout o s = _
  simp [execSyncWaitTimeout, hy, hact, hwaits]

/-- Settles O17: one equation per way a wait ends. -/
theorem syncWaitsEnd : Obligations.SyncWaitsEnd := by
  intro c t v u x o s dst obj n seq el hup
  exact ⟨fun hwait hcore => exec_syncResponse_of_remote hup hwait hcore v,
    fun hdue => ⟨exec_syncReissue_of_tryLeft hdue hup, exec_syncReissue_of_given_up hdue hup, exec_syncReissue_of_patient hdue hup⟩,
    fun _ _ => exec_syncWaitTimeout_of_expired⟩

/-! ## The accepted path (R405) -/

/-- Draft `i` may follow node `k`: `k` is its parent, and the draft is what the model answered there. -/
def draftFits (toks parents ys : List Nat) (k i : Nat) : Prop :=
  1 ≤ i ∧ parents[i - 1]? = some k ∧ toks.getD i 0 = ys.getD k 0

theorem draftFits_of_find {toks parents ys : List Nat} {k i : Nat}
    (h : (List.range parents.length).find? (fun i => parents.getD i 0 = k && toks.getD (i + 1) 0 = ys.getD k 0) = some i) :
    draftFits toks parents ys k (i + 1) := by
  have hfits := List.find?_some h
  have hlt : i < parents.length := List.mem_range.1 (List.mem_of_find?_eq_some h)
  simp only [Bool.and_eq_true, decide_eq_true_eq, List.getD_eq_getElem _ _ hlt] at hfits
  exact ⟨by omega, by simp [hlt, hfits.1], hfits.2⟩

/-- A path from node 0 in which each draft fits the one before it. -/
def PathOk (toks parents ys : List Nat) (path : List Nat) : Prop :=
  path.head? = some 0 ∧ path.IsChain (draftFits toks parents ys)

theorem PathOk.snoc {toks parents ys path : List Nat} {k i : Nat} (h : PathOk toks parents ys path) (hk : path.getLast? = some k)
    (hi : draftFits toks parents ys k i) : PathOk toks parents ys (path ++ [i]) := by
  obtain ⟨hhead, hchain⟩ := h
  refine ⟨?_, ?_⟩
  · cases path with
    | nil => simp at hhead
    | cons a l => simpa using hhead
  · rw [List.isChain_append]
    refine ⟨hchain, List.isChain_singleton _, fun x hx y hy => ?_⟩
    rw [hk] at hx
    simp only [Option.mem_def, Option.some.injEq, List.head?_cons] at hx hy
    rwa [← hx, ← hy]

/-- Every path that `acceptPath` extends stays a path, within the tokens that remain. -/
theorem acceptPath_ok (toks parents ys : List Nat) (endTok remain fuel : Nat) (path : List Nat) (k : Nat)
    (h : PathOk toks parents ys path) (hk : path.getLast? = some k) :
    PathOk toks parents ys (acceptPath toks parents ys endTok remain fuel path k) ∧
    (path.length ≤ remain → (acceptPath toks parents ys endTok remain fuel path k).length ≤ remain) := by
  induction fuel generalizing path k with
  | zero => exact ⟨h, id⟩
  | succ fuel ih =>
    unfold acceptPath
    split
    · exact ⟨h, id⟩
    · split
      · exact ⟨h, id⟩
      · next i hfind =>
        have hnext := h.snoc hk (draftFits_of_find hfind)
        split
        · exact ⟨h, id⟩
        · next hroom =>
          have hlen : path.length ≤ remain → (path ++ [i + 1]).length ≤ remain := by
            intro hle
            rw [List.length_append, List.length_singleton]
            omega
          split
          · exact ⟨hnext, hlen⟩
          · obtain ⟨hpath, hshort⟩ := ih _ _ hnext List.getLast?_concat
            exact ⟨hpath, fun hle => hshort (hlen hle)⟩

/-- Settles O40: the path [0] is one, and every extension stays one. -/
theorem acceptedPath : Obligations.AcceptedPath := by
  intro toks parents ys endTok remain fuel path
  obtain ⟨⟨hhead, hchain⟩, hlen⟩ := acceptPath_ok toks parents ys endTok remain fuel [0] 0 ⟨rfl, List.isChain_singleton _⟩ rfl
  refine ⟨hhead, fun hremain => hlen (by simpa using hremain), fun j k i hj hi => ?_⟩
  obtain ⟨hlt, rfl⟩ := List.getElem?_eq_some_iff.1 hi
  obtain ⟨_, rfl⟩ := List.getElem?_eq_some_iff.1 hj
  exact List.isChain_iff_getElem.1 hchain j hlt

end Sys2Proof.Machine
end

section
/-! # Operations that leave the stores alone

Bytes of memory, the generations of their keys and the sizes of the tiers: what a read of memory depends on. -/
namespace Sys2Proof.Machine

/-- `t` has the bytes, the keys and the board of `r`. -/
def StoreSame (r t : State) : Prop := t.mem = r.mem ∧ t.scr = r.scr ∧ t.board = r.board

theorem StoreSame.refl (s : State) : StoreSame s s := ⟨rfl, rfl, rfl⟩

theorem StoreSame.memSame {r t : State} (h : StoreSame r t) : memSame r t := readByte_congr h.1 h.2.1 h.2.2

/-- A change of other fields keeps it. -/
theorem StoreSame.mk {r s : State} (h : StoreSame r s) {a0 a1 a2 a3 a4 a5 a6 a7 a8 a9 a10 a11 a12 a13 a14 a15 a16 a17 a18 a19 a20 a21 a22 a23 a24
    a25 a26 a27 a28 a29} :
    StoreSame r (State.mk a0 s.mem s.scr a1 a2 s.board a3 a4 a5 a6 a7 a8 a9 a10 a11 a12 a13 a14 a15 a16 a17 a18 a19 a20 a21 a22 a23 a24
      a25 a26 a27 a28 a29) := h

theorem ite_store {r a b : State} {p : Prop} [Decidable p] (ha : StoreSame r a) (hb : StoreSame r b) :
    StoreSame r (if p then a else b) := by
  split <;> assumption

theorem foldl_store {r s : State} {α : Type} {l : List α} {f : State → α → State} (h : StoreSame r s)
    (hf : ∀ t x, StoreSame r t → StoreSame r (f t x)) : StoreSame r (l.foldl f s) := by
  induction l generalizing s with
  | nil => exact h
  | cons x l ih => exact ih (hf s x h)

theorem forEach_store {r s : State} {α : Type} {l : List α} {f : α → State → State} (h : StoreSame r s)
    (hf : ∀ x t, StoreSame r t → StoreSame r (f x t)) : StoreSame r (forEach l f s) :=
  foldl_store h (fun t x ht => hf x t ht)

theorem modCore_store {s0 s : State} (hs : StoreSame s0 s) (c : Nat) (f : Core → Core) : StoreSame s0 (modCore c f s) := hs
theorem modThread_store {s0 s : State} (hs : StoreSame s0 s) (c t : Nat) (f : Thread → Thread) : StoreSame s0 (modThread c t f s) := hs
theorem modEng_store {s0 s : State} (hs : StoreSame s0 s) (e : Nat) (f : Engine → Engine) : StoreSame s0 (modEng e f s) := hs
theorem modAg_store {s0 s : State} (hs : StoreSame s0 s) (e a : Nat) (f : Ag → Ag) : StoreSame s0 (modAg e a f s) := hs
theorem modRin_store {s0 s : State} (hs : StoreSame s0 s) (e q : Nat) (f : ReinIn → ReinIn) : StoreSame s0 (modRin e q f s) := hs
theorem modTiers_store {s0 s : State} (hs : StoreSame s0 s) (f : Tiers → Tiers) : StoreSame s0 (modTiers f s) := hs
theorem modServe_store {s0 s : State} (hs : StoreSame s0 s) (f : Serve → Serve) : StoreSame s0 (modServe f s) := hs
theorem modSess_store {s0 s : State} (hs : StoreSame s0 s) (n : Nat) (f : Session → Session) : StoreSame s0 (modSess n f s) := hs
theorem modWeights_store {s0 s : State} (hs : StoreSame s0 s) (f : Weights → Weights) : StoreSame s0 (modWeights f s) := hs
theorem modLink_store {s0 s : State} (hs : StoreSame s0 s) (l : Nat) (f : Link → Link) : StoreSame s0 (modLink l f s) := hs
theorem modHost_store {s0 s : State} (hs : StoreSame s0 s) (f : HostIf → HostIf) : StoreSame s0 (modHost f s) := hs
theorem modStride_store {s0 s : State} (hs : StoreSame s0 s) (f : Stride → Stride) : StoreSame s0 (modStride f s) := hs

theorem modJob_store {s0 s : State} (hs : StoreSame s0 s) (f : Job → Job) : StoreSame s0 (modJob f s) := hs

theorem modRun_store {s0 s : State} (hs : StoreSame s0 s) (f : Running → Running) : StoreSame s0 (modRun f s) := hs
theorem modMgmt_store {s0 s : State} (hs : StoreSame s0 s) (f : Mgmt → Mgmt) : StoreSame s0 (modMgmt f s) := hs
theorem modSec_store {s0 s : State} (hs : StoreSame s0 s) (f : Sec → Sec) : StoreSame s0 (modSec f s) := hs
theorem emit_store {s0 s : State} (hs : StoreSame s0 s) (e : Effect) : StoreSame s0 (emit e s) := hs

theorem raiseMsix_store {s0 s : State} (hs : StoreSame s0 s) (v : Nat) : StoreSame s0 (raiseMsix v s) := by
  unfold raiseMsix
  repeat' with_reducible first
    | assumption | apply modHost_store | apply emit_store | apply ite_store

theorem tallyHand_store {s0 s : State} (hs : StoreSame s0 s) : StoreSame s0 (tallyHand s) := by
  unfold tallyHand
  repeat' with_reducible first
    | assumption | apply raiseMsix_store | apply ite_store | apply foldl_store | fail_if_no_progress (apply StoreSame.mk)

theorem tallyPut_store {s0 s : State} (hs : StoreSame s0 s) (r : TallyRec) : StoreSame s0 (tallyPut r s) := by
  unfold tallyPut
  repeat' first
    | with_reducible first
        | assumption | apply tallyHand_store | apply ite_store | apply foldl_store | fail_if_no_progress (apply StoreSame.mk)
    | split | intro _ | dsimp only

theorem record_store {s0 s : State} (hs : StoreSame s0 s) (type level code : Nat) (detail : List Byte) :
    StoreSame s0 (record type level code detail s) := by
  unfold record
  repeat' first
    | with_reducible first
        | assumption | apply tallyPut_store | apply ite_store | apply foldl_store | fail_if_no_progress (apply StoreSame.mk)
    | split | intro _

theorem event_store {s0 s : State} (hs : StoreSame s0 s) (code : Nat) (detail : List Byte) : StoreSame s0 (event code detail s) := by
  unfold event
  repeat' with_reducible first
    | assumption | apply record_store

theorem jobFault_store {s0 s : State} (hs : StoreSame s0 s) (code : Nat) (detail : List Byte) :
    StoreSame s0 (jobFault code detail s) := by
  unfold jobFault
  repeat' with_reducible first
    | assumption | apply modRun_store | apply record_store

theorem countEcc_store {s0 s : State} (hs : StoreSame s0 s) (corrected : Bool) : StoreSame s0 (countEcc corrected s) := hs

theorem measAdd_store {s0 s : State} (hs : StoreSame s0 s) (n : Nat) (kind : FigKind) (unit v : Nat) :
    StoreSame s0 (measAdd n kind unit v s) := hs
theorem progress_store {s0 s : State} (hs : StoreSame s0 s) : StoreSame s0 (progress s) := hs

theorem linkCount_store {s0 s : State} (hs : StoreSame s0 s) (n0 l : Nat) (p : Packet) : StoreSame s0 (linkCount n0 l p s) := by
  unfold linkCount
  repeat' with_reducible first
    | assumption | apply measAdd_store | apply ite_store

theorem flitOut_store {s0 s : State} (hs : StoreSame s0 s) (l kind : Nat) (seq vc : Nat) (payload : List Byte) :
    StoreSame s0 (flitOut l kind seq vc payload s) := hs

theorem linkFlush_store {s0 s : State} (hs : StoreSame s0 s) (l : Nat) : StoreSame s0 (linkFlush l s) := by
  unfold linkFlush
  repeat' first
    | with_reducible first
        | assumption | apply forEach_store | apply flitOut_store | apply modLink_store | apply ite_store | apply foldl_store
        | fail_if_no_progress (apply StoreSame.mk)
    | split | intro _

theorem linkQueue_store {s0 s : State} (hs : StoreSame s0 s) (l vc : Nat) (p : Packet) : StoreSame s0 (linkQueue l vc p s) := by
  unfold linkQueue
  repeat' with_reducible first
    | assumption | apply linkFlush_store | apply modLink_store

theorem linkSend_store {s0 s : State} (hs : StoreSame s0 s) (n0 l : Nat) (fromLink : Option Nat) (dl : Nat) (p : Packet) :
    StoreSame s0 (linkSend n0 l fromLink dl p s) := by
  unfold linkSend
  repeat' with_reducible first
    | assumption | apply linkQueue_store | apply linkCount_store

theorem countUnreach_store {s0 s : State} (hs : StoreSame s0 s) : StoreSame s0 (countUnreach s) := hs

theorem lostJob_store {s0 s : State} (hs : StoreSame s0 s) (p : Packet) (reason : Nat) : StoreSame s0 (lostJob p reason s) := by
  unfold lostJob
  repeat' with_reducible first
    | assumption | apply jobFault_store | apply ite_store

theorem segmentsOut_store {s0 s : State} (hs : StoreSame s0 s) (n0 : Nat) (l : List Packet) (eff : Effect) (lost : Nat → State → State)
    (hlost : ∀ x0 t, StoreSame s0 t → StoreSame s0 (lost x0 t)) :
    StoreSame s0 (segmentsOut n0 l eff lost s) := by
  unfold segmentsOut
  repeat' first
    | with_reducible first
        | assumption | apply emit_store | apply forEach_store | apply linkSend_store | apply countUnreach_store | apply hlost
        | apply ite_store | apply foldl_store | fail_if_no_progress (apply StoreSame.mk)
    | split | intro _ | dsimp only

theorem packetOut_store {s0 s : State} (hs : StoreSame s0 s) (n0 : Nat) (p : Packet) (eff : Effect) (lost : Nat → State → State)
    (hlost : ∀ x0 t, StoreSame s0 t → StoreSame s0 (lost x0 t)) :
    StoreSame s0 (packetOut n0 p eff lost s) := by
  unfold packetOut
  repeat' with_reducible first
    | assumption | apply segmentsOut_store

theorem linkDiscard_store {s0 s : State} (hs : StoreSame s0 s) : StoreSame s0 (linkDiscard s) := hs

theorem sendCredit_store {s0 s : State} (hs : StoreSame s0 s) (n0 dst : Nat) (eng port n : Nat) (ep : BitVec 3) :
    StoreSame s0 (sendCredit n0 dst eng port n ep s) := by
  unfold sendCredit
  repeat' first
    | with_reducible first
        | assumption | apply packetOut_store | apply lostJob_store | apply ite_store | apply foldl_store
        | fail_if_no_progress (apply StoreSame.mk)
    | split | intro _

theorem sendStride_store {s0 s : State} (hs : StoreSame s0 s) (dst sub : Nat) (m : Marker) : StoreSame s0 (sendStride dst sub m s) := by
  unfold sendStride
  repeat' first
    | with_reducible first
        | assumption | apply packetOut_store | apply linkDiscard_store | apply ite_store | apply foldl_store
        | fail_if_no_progress (apply StoreSame.mk)
    | split | intro _

theorem queueFree_store {s0 s : State} (hs : StoreSame s0 s) (e q keep : Nat) : StoreSame s0 (queueFree e q keep s) := hs

theorem creditBack_store {s0 s : State} (hs : StoreSame s0 s) (m : TokenMsg) : StoreSame s0 (creditBack m s) := by
  unfold creditBack
  repeat' with_reducible first
    | assumption | apply sendCredit_store

theorem earlyEmpty_store {s0 s : State} (hs : StoreSame s0 s) (e : Nat) : StoreSame s0 (earlyEmpty e s) := by
  unfold earlyEmpty
  repeat' first
    | with_reducible first
        | assumption | apply modEng_store | apply forEach_store | apply creditBack_store | apply ite_store | apply foldl_store
        | fail_if_no_progress (apply StoreSame.mk)
    | split | intro _

theorem dropRuns_store {s0 s : State} (hs : StoreSame s0 s) (e : Nat) : StoreSame s0 (dropRuns e s) := by
  unfold dropRuns
  repeat' first
    | with_reducible first
        | assumption | apply forEach_store | apply modRin_store | apply modEng_store | apply ite_store | apply foldl_store
        | fail_if_no_progress (apply StoreSame.mk)
    | split | intro _

theorem haltEngines_store {s0 s : State} (hs : StoreSame s0 s) (c : Nat) : StoreSame s0 (haltEngines c s) := by
  unfold haltEngines
  repeat' first
    | with_reducible first
        | assumption | apply forEach_store | apply modEng_store | apply queueFree_store | apply dropRuns_store
        | apply earlyEmpty_store | apply ite_store | apply foldl_store | fail_if_no_progress (apply StoreSame.mk)
    | split | intro _

theorem haltCore_store {s0 s : State} (hs : StoreSame s0 s) (c t : Nat) (eng code : Nat) (pc need avail : Nat) :
    StoreSame s0 (haltCore c t eng code pc need avail s) := by
  unfold haltCore
  repeat' with_reducible first
    | assumption | apply modCore_store | apply haltEngines_store | apply ite_store

theorem measChange_store {s0 s : State} (hs : StoreSame s0 s) : StoreSame s0 (measChange s) := by
  unfold measChange
  repeat' with_reducible first
    | assumption | apply event_store | apply modSec_store

theorem noteEcc_store {s0 s : State} (hs : StoreSame s0 s) (e : Ecc) (a : Nat) : StoreSame s0 (noteEcc e a s) := by
  unfold noteEcc
  repeat' first
    | with_reducible first
        | assumption | apply countEcc_store | apply modCore_store | apply modTiers_store | apply ite_store | apply foldl_store
        | fail_if_no_progress (apply StoreSame.mk)
    | split | intro _ | dsimp only

theorem rebuildImage_store {s0 s : State} (hs : StoreSame s0 s) : StoreSame s0 (rebuildImage s) := by
  unfold rebuildImage
  repeat' with_reducible first
    | assumption | apply modMgmt_store | apply ite_store

theorem nextTerms_store {s0 s : State} (hs : StoreSame s0 s) : StoreSame s0 (nextTerms s) := by
  unfold nextTerms
  repeat' first
    | with_reducible first
        | assumption | apply modStride_store | apply ite_store | apply foldl_store | fail_if_no_progress (apply StoreSame.mk)
    | split

theorem setLen_store {s0 s : State} (hs : StoreSame s0 s) : StoreSame s0 (setLen s) := by
  unfold setLen
  repeat' with_reducible first
    | assumption | apply event_store | apply modStride_store | apply nextTerms_store | apply ite_store

theorem freeSession_store {s0 s : State} (hs : StoreSame s0 s) (n : Nat) : StoreSame s0 (freeSession n s) := by
  unfold freeSession
  repeat' with_reducible first
    | assumption | apply modWeights_store | apply modServe_store | apply modSess_store

theorem poolReleased_store {s0 s : State} (hs : StoreSame s0 s) (id base bytes : Nat) : StoreSame s0 (poolReleased id base bytes s) := by
  unfold poolReleased
  repeat' first
    | with_reducible first
        | assumption | apply forEach_store | apply freeSession_store | apply modServe_store | apply ite_store | apply foldl_store
        | fail_if_no_progress (apply StoreSame.mk)
    | split | intro _

theorem placementInForce_store {s0 s : State} (hs : StoreSame s0 s) : StoreSame s0 (placementInForce s) := by
  unfold placementInForce
  repeat' first
    | with_reducible first
        | assumption | apply modTiers_store | apply forEach_store | apply poolReleased_store | apply ite_store | apply foldl_store
        | fail_if_no_progress (apply StoreSame.mk)
    | split | intro _

theorem quotasInForce_store {s0 s : State} (hs : StoreSame s0 s) : StoreSame s0 (quotasInForce s) := hs

theorem releasePoolPages_store {s0 s : State} (hs : StoreSame s0 s) : StoreSame s0 (releasePoolPages s) := by
  unfold releasePoolPages
  repeat' first
    | with_reducible first
        | assumption | apply forEach_store | apply modTiers_store | apply modServe_store | apply ite_store | apply foldl_store
        | fail_if_no_progress (apply StoreSame.mk)
    | split | intro _

theorem sendLenReq_store {s0 s : State} (hs : StoreSame s0 s) : StoreSame s0 (sendLenReq s) := by
  unfold sendLenReq
  repeat' with_reducible first
    | assumption | apply sendStride_store | apply ite_store

theorem closeLaunches_store {s0 s : State} (hs : StoreSame s0 s) (h : Nat) : StoreSame s0 (closeLaunches h s) := hs

theorem stopLaunches_store {s0 s : State} (hs : StoreSame s0 s) : StoreSame s0 (stopLaunches s) := by
  unfold stopLaunches
  repeat' first
    | with_reducible first
        | assumption | apply forEach_store | apply closeLaunches_store | apply ite_store | apply foldl_store
        | fail_if_no_progress (apply StoreSame.mk)
    | split | intro _

theorem autoActs_store {s0 s : State} (hs : StoreSame s0 s) (k : Nat) : StoreSame s0 (autoActs k s) := by
  unfold autoActs
  repeat' with_reducible first
    | assumption | apply stopLaunches_store | apply quotasInForce_store | apply placementInForce_store
    | apply releasePoolPages_store | apply rebuildImage_store | apply sendLenReq_store | apply setLen_store | apply ite_store

theorem setAct_store {s0 s : State} (hs : StoreSame s0 s) (k : Nat) : StoreSame s0 (setAct k s) := by
  unfold setAct
  repeat' with_reducible first
    | assumption | apply modStride_store | apply autoActs_store

theorem agCommit_store {s0 s : State} (hs : StoreSame s0 s) (e a n : Nat) : StoreSame s0 (agCommit e a n s) := by
  unfold agCommit
  repeat' with_reducible first
    | assumption | apply progress_store | apply modAg_store | apply ite_store

theorem modRunAt_store {s0 s : State} (hs : StoreSame s0 s) (e a i : Nat) (f : Run → Run) : StoreSame s0 (modRunAt e a i f s) := hs

theorem aliasRefuse_store {s0 s : State} (hs : StoreSame s0 s) (w : AtomicWriter) (c o : Nat) : StoreSame s0 (aliasRefuse w c o s) := by
  unfold aliasRefuse
  repeat' first
    | with_reducible first
        | assumption | apply haltCore_store | apply jobFault_store | apply modThread_store | apply modAg_store | apply ite_store
        | apply foldl_store | fail_if_no_progress (apply StoreSame.mk)
    | split

theorem aliasDone_store {s0 s : State} (hs : StoreSame s0 s) (w : AtomicWriter) : StoreSame s0 (aliasDone w s) := by
  unfold aliasDone
  repeat' first
    | with_reducible first
        | assumption | apply modThread_store | apply agCommit_store | apply modRunAt_store | apply ite_store | apply foldl_store
        | fail_if_no_progress (apply StoreSame.mk)
    | split

end Sys2Proof.Machine
end

section
/-! # Branches, LD, ST and bit-set and bit-clear writes (R172, R173, R176, R321, R322) -/
namespace Sys2Proof.Machine

/-! ## TWAIT (R176) -/

/-- Core 0 is bound and its thread 0 may issue; the thread has a TMAC held at engine 0. -/
def tileOpenState : State := { State.reset with
  bindings := [(0, { phys := 0, unbacked := false })]
  cores := [(0, { threads := [(0, { en := true })] })]
  engines := [(0, { held := [{ kind := .tmac, thread := 0, step := 0, pc := 0 }] })] }

theorem scalarClear_tileOpenState : scalarClear tileOpenState 0 0 {} := by
  refine ⟨?_, ?_, ?_, ?_, rfl⟩ <;> decide +kernel

/-- Refutes O10: with a tile instruction of its own open, a TWAIT marks its thread as waiting, so the state is not as before. -/
theorem not_branchTargets : ¬ Obligations.BranchTargets := by
  intro h
  obtain ⟨-, -, -, -, htwait, -⟩ := h 0 0 {} tileOpenState scalarClear_tileOpenState
  rw [if_pos (by decide +kernel)] at htwait
  have hwait : ∀ t, exec (.twait 0 0 {}) tileOpenState = .next t → (threadOf t 0 0).wait = .tiles := by
    rintro t ⟨⟩
    decide +kernel
  exact absurd (hwait _ htwait) (by decide +kernel)

/-! ## The thread that an LD or ST leaves -/

theorem threadOf_modThread_same {s : State} (h : coresOk s = true) (c t : Nat) (f : Thread → Thread) :
    threadOf (modThread c t f s) c t = f (threadOf s c t) := by
  have hcore := coreOk_coreOf h c
  simp only [coreOk, Bool.and_eq_true] at hcore
  unfold modThread threadOf
  rw [coreOf_modCore_same h]
  exact sget_smod_same hcore.2 t f

theorem sreg_modThread {s : State} (h : coresOk s = true) (c t k : Nat) (f : Thread → Thread) (q : RegNo) :
    sreg (modThread c t f s) k q = sreg s k q := by
  have hsame : (coreOf (modThread c t f s) k).sreg = (coreOf s k).sreg := by
    unfold modThread
    by_cases hk : k = c
    · rw [hk, coreOf_modCore_same h]
    · rw [coreOf_modCore_other h _ hk]
  unfold sreg
  rw [hsame]

theorem coreStale_modCore {s : State} (h : coresOk s = true) (c k : Nat) {f : Core → Core}
    (hf : ∀ x, (f x).svc = x.svc ∧ (f x).loaded = x.loaded) : coreStale (modCore c f s) k = coreStale s k := by
  unfold coreStale
  by_cases hk : k = c
  · rw [hk, coreOf_modCore_same h, (hf _).1, (hf _).2]
  · rw [coreOf_modCore_other h _ hk]

theorem coreStale_modThread {s : State} (h : coresOk s = true) (c t k : Nat) (f : Thread → Thread) :
    coreStale (modThread c t f s) k = coreStale s k :=
  coreStale_modCore h c k (fun _ => ⟨rfl, rfl⟩)

theorem coreStale_threadMove {s : State} (h : coresOk s = true) (c t n k : Nat) :
    coreStale (threadMove c t n s) k = coreStale s k := by
  exact (coreStale_modCore (coresOk_modThread h c t _) c k (f := fun x => { x with lastThread := t }) (fun _ => ⟨rfl, rfl⟩)).trans
    (coreStale_modThread h c t k _)

/-- A thread that may issue stands in a part that is up, on a core in service (R173, R614). -/
theorem up_of_groomReady {s : State} {c t : Nat} (h : groomReady s c t = true) : fabricUp s = true ∧ coreStale s c = false := by
  simp only [groomReady, Bool.and_eq_true, beq_iff_eq, nextThread] at h
  obtain ⟨⟨hnext, -⟩, -⟩ := h
  have hready := List.find?_some hnext
  simp only [threadReady, coreRuns, Bool.and_eq_true, Bool.not_eq_true'] at hready
  exact ⟨hready.1.1.1.1.1.1.1, hready.1.1.1.1.2⟩

/-! ## The address of an LD or ST (R176) -/

/-- The address is a local one, aligned to 8 bytes. -/
def memLocal (s : State) (c : CoreId) (f : ScalarF) (a : Nat) : Prop :=
  (memAddr c.val f s).toNat = a ∧ a % 8 = 0 ∧ a < 2 ^ 48

section Access

variable {s : State} {c : CoreId} {t : ThreadId} {f : ScalarF} {a k off : Nat}

theorem memRun_of_clear (h : scalarClear s c t f) (access : Nat → State → State) :
    (if groomReady s c.val t.val then memRun c t f access s else s) = access (threadOf s c.val t.val).pc s := by
  obtain ⟨hready, halign, hbacked, hnext, hrsvd⟩ := h
  simp [memRun, hready, halign, hbacked, hnext, hrsvd]

theorem exec_ld_of_clear (h : scalarClear s c t f) :
    exec (.ld c t f) s = .next (ldAccess c t f (threadOf s c.val t.val).pc s) :=
  congrArg Host.Outcome.next (memRun_of_clear h _)

theorem exec_st_of_clear (h : scalarClear s c t f) :
    exec (.st c t f) s = .next (stAccess c t f (threadOf s c.val t.val).pc s) :=
  congrArg Host.Outcome.next (memRun_of_clear h _)

/-- Scratchpad and its ranges of R320 need no page and no port. -/
def Plain (s : State) (a : Nat) : Prop :=
  (∃ k off, regionOf s a = .spad k off) ∨ (∃ k off, regionOf s a = .setAlias k off) ∨ ∃ k off, regionOf s a = .clrAlias k off

theorem ldAccess_of_spad (hlocal : memLocal s c f a) (hreg : regionOf s a = .spad k off) (pc : Nat) :
    ldAccess c t f pc s = ldWait c.val t.val f.dst a pc s := by
  obtain ⟨ha, halign, hlt⟩ := hlocal
  have hmod : a % 2 ^ 48 = a := Nat.mod_eq_of_lt hlt
  have hdiv : a / 2 ^ 48 = 0 := Nat.div_eq_of_lt hlt
  unfold ldAccess
  simp only [ha, halign, hmod, hdiv, hreg]
  simp [accessAt, mapConsult, pageReadMay, pageReadStart, hreg]

theorem stAccess_of_plain (hlocal : memLocal s c f a) (hplain : Plain s a) (pc : Nat) :
    stAccess c t f pc s = stWrite c.val t.val pc a (sreg s c.val f.src2) s := by
  obtain ⟨ha, halign, hlt⟩ := hlocal
  have hmod : a % 2 ^ 48 = a := Nat.mod_eq_of_lt hlt
  have hdiv : a / 2 ^ 48 = 0 := Nat.div_eq_of_lt hlt
  unfold stAccess
  simp only [ha, halign, hmod, hdiv]
  rcases hplain with ⟨_, _, hreg⟩ | ⟨_, _, hreg⟩ | ⟨_, _, hreg⟩ <;> simp [accessAt, mapConsult, hreg]

end Access

theorem memLocal_of_aligned {s : State} {c : CoreId} {f : ScalarF} (halign : (memAddr c.val f s).toNat % 8 = 0)
    (hlt : (memAddr c.val f s).toNat < 2 ^ 48) : memLocal s c f (memAddr c.val f s).toNat := ⟨rfl, halign, hlt⟩

/-! ## Scratchpad is under no key -/

theorem ite_ne {α : Type} {p : Prop} [Decidable p] {x y z : α} (hx : p → x ≠ z) (hy : ¬ p → y ≠ z) : (if p then x else y) ≠ z := by
  split
  · exact hx ‹_›
  · exact hy ‹_›

theorem spad_range {s : State} {a k off : Nat} (h : regionOf s a = .spad k off) : 0xF00000000000 ≤ a ∧ a < 0xF00090000000 := by
  by_contra hn
  refine absurd h ?_
  unfold regionOf
  repeat' refine ite_ne (fun _ => ?_) (fun _ => ?_)
  all_goals try simp only [ne_eq, reduceCtorEq, not_false_eq_true]
  · omega
  · split <;> simp only [reduceCtorEq, not_false_eq_true]
  · split <;> simp only [reduceCtorEq, not_false_eq_true]

theorem keyStale_of_spad {s : State} {a : Nat} (ha : 0xF00000000000 ≤ a) : keyStale s a = false := by
  have hunder : underKey s (64 * (a / 64)) = false := by
    have hl : ¬ 64 * (a / 64) < 0x030000000000 := by omega
    have hf : ¬ 64 * (a / 64) < 0x800000000000 := by omega
    simp [underKey, hl, hf]
  simp [keyStale, hunder]

/-- Bytes written to scratchpad change memory alone. -/
theorem writeBytes_spad (bs : List Byte) {s : State} {a : Nat} (ha : 0xF00000000000 ≤ a) :
    writeBytes a bs s = { s with mem := (writeBytes a bs s).mem } := by
  induction bs generalizing a s with
  | nil => rfl
  | cons b bs ih =>
    have hb : writeByte a b s = { s with mem := sset 0#8 s.mem a b } := by
      unfold writeByte
      rw [keyStale_of_spad ha]
      rfl
    simp only [writeBytes]
    rw [ih (a := a + 1) (by omega), hb]

theorem spadAt_congr {s t : State} (hbind : t.bindings = s.bindings) : spadAt t = spadAt s := by
  have hbytes : spadBytes t = spadBytes s := by
    unfold spadBytes bindingOf
    rw [hbind]
  unfold spadAt
  rw [hbytes]

/-- Which store an address lies in depends on the board and the bindings alone. -/
theorem regionOf_congr {s t : State} (hboard : t.board = s.board) (hbind : t.bindings = s.bindings) (a : Nat) :
    regionOf t a = regionOf s a := by
  unfold regionOf lHalf fHalf
  rw [hboard, spadAt_congr hbind]

theorem coresOk_congr {s t : State} (h : t.cores = s.cores) : coresOk t = coresOk s := by
  unfold coresOk
  rw [h]

theorem sreg_congr {s t : State} (h : t.cores = s.cores) (c : Nat) (q : RegNo) : sreg t c q = sreg s c q := by
  unfold sreg coreOf
  rw [h]

theorem readWord_congr {s t : State} (h0 : t.mem = s.mem) (h1 : t.scr = s.scr) (h2 : t.board = s.board) (a : Nat) :
    readWord t a = readWord s a := by
  simp only [readWord, readNum, readBytes, readByte_congr h0 h1 h2]

theorem portTouch_of_spad {s : State} {a k off : Nat} (h : regionOf s a = .spad k off) (n : Nat) : portTouch a n s = s := by
  simp [portTouch, h]

/-! ## LD of scratchpad and its return (R173) -/

section Return

variable {s : State} {c : CoreId} {t : ThreadId} {a k off pc : Nat}

theorem threadOf_ldWait (h : coresOk s = true) (c t : Nat) (dst : RegNo) (a pc : Nat) :
    threadOf (ldWait c t dst a pc s) c t = { threadOf s c t with pc := pc + 8, wait := .mem dst a, full := none } := by
  unfold ldWait
  rw [threadOf_modThread_same (coresOk_threadMove h c t _), threadOf_threadMove_same h]

theorem coresOk_ldWait (h : coresOk s = true) (c t : Nat) (dst : RegNo) (a pc : Nat) : coresOk (ldWait c t dst a pc s) = true :=
  coresOk_modThread (coresOk_threadMove h c t _) c t _

theorem sreg_ldWait (h : coresOk s = true) (c t : Nat) (dst : RegNo) (a pc k : Nat) (q : RegNo) :
    sreg (ldWait c t dst a pc s) k q = sreg s k q :=
  (sreg_modThread (coresOk_threadMove h c t _) c t k _ q).trans (sreg_threadMove h c t _ k q)

theorem fabricUp_ldWait (c t : Nat) (dst : RegNo) (a pc : Nat) (s : State) : fabricUp (ldWait c t dst a pc s) = fabricUp s := rfl

theorem onlyCores_ldWait (c t : Nat) (dst : RegNo) (a pc : Nat) : onlyCores s (ldWait c t dst a pc s) := rfl

theorem coreStale_ldWait (h : coresOk s = true) (c t : Nat) (dst : RegNo) (a pc k : Nat) :
    coreStale (ldWait c t dst a pc s) k = coreStale s k :=
  (coreStale_modThread (coresOk_threadMove h c t _) c t k _).trans (coreStale_threadMove h c t _ k)

/-- A waiting LD of scratchpad returns its 8 bytes. -/
theorem exec_scalarLoadReturn_of_mem {dst : RegNo} (hup : fabricUp s = true) (hsvc : coreStale s c.val = false)
    (hwait : (threadOf s c.val t.val).wait = .mem dst a) (hreg : regionOf s a = .spad k off) :
    exec (.scalarLoadReturn c t) s =
      .next (modThread c.val t.val (fun h => { h with wait := .none }) (setSreg c.val dst (readWord s a) s)) := by
  change execScalarLoadReturn c t s = _
  simp [execScalarLoadReturn, hup, hsvc, hwait, loadWord, plainAddr, portTouch, hreg]

end Return

theorem onlyCores_modThread (s : State) (c t : Nat) (f : Thread → Thread) : onlyCores s (modThread c t f s) := rfl

/-- The return of a waiting LD: its register takes the 8 bytes, the thread goes on, every other register stays. -/
theorem scalarLoadReturn_spec {u : State} {c : CoreId} {t : ThreadId} {a k off : Nat} {dst : RegNo} (h : coresOk u = true)
    (hup : fabricUp u = true) (hsvc : coreStale u c.val = false) (hwait : (threadOf u c.val t.val).wait = .mem dst a)
    (hreg : regionOf u a = .spad k off) :
    ∃ v, exec (.scalarLoadReturn c t) u = .next v ∧ onlyCores u v ∧
      sreg v c.val dst = (if dst = 0 then 0 else readWord u a) ∧
      (threadOf v c.val t.val).wait = .none ∧ (∀ q, q ≠ dst → sreg v c.val q = sreg u c.val q) := by
  have hset := coresOk_setSreg h c.val dst (readWord u a)
  refine ⟨_, exec_scalarLoadReturn_of_mem hup hsvc hwait hreg,
    onlyCores_trans (onlyCores_setSreg ..) (onlyCores_modThread ..), ?_, ?_, fun q hq => ?_⟩
  · rw [sreg_modThread hset, sreg_setSreg h]
    simp
  · rw [threadOf_modThread_same hset]
  · rw [sreg_modThread hset, sreg_setSreg h]
    by_cases hzero : q = 0
    · simp [sreg, hzero]
    · rw [if_neg hzero, if_neg hq]

/-! ## ST to scratchpad -/

/-- A word written to scratchpad changes memory alone. -/
theorem writeWord_spad {s : State} {a : Nat} (ha : 0xF00000000000 ≤ a) (w : Word) :
    writeWord a w s = { s with mem := (writeWord a w s).mem } := writeBytes_spad _ ha

section Store

variable {s : State} {c : CoreId} {t : ThreadId} {f : ScalarF} {a k off : Nat}

theorem exec_ld_spad (hclear : scalarClear s c t f) (hlocal : memLocal s c f a) (hreg : regionOf s a = .spad k off) :
    exec (.ld c t f) s = .next (ldWait c.val t.val f.dst a (threadOf s c.val t.val).pc s) := by
  rw [exec_ld_of_clear hclear, ldAccess_of_spad hlocal hreg]

theorem exec_st_spad (hclear : scalarClear s c t f) (hlocal : memLocal s c f a) (hreg : regionOf s a = .spad k off) :
    exec (.st c t f) s =
      .next (threadMove c.val t.val ((threadOf s c.val t.val).pc + 8) (writeWord a (sreg s c.val f.src2) s)) := by
  have halias : isAlias s a = false := by simp [isAlias, hreg]
  have hwrite := writeWord_spad (s := s) (spad_range hreg).1 (sreg s c.val f.src2)
  have hregion : regionOf (writeWord a (sreg s c.val f.src2) s) a = .spad k off :=
    (regionOf_congr (by rw [hwrite]) (by rw [hwrite]) a).trans hreg
  rw [exec_st_of_clear hclear, stAccess_of_plain hlocal (.inl ⟨_, _, hreg⟩), stWrite, halias, portTouch_of_spad hregion]
  rfl

theorem exec_st_alias (hclear : scalarClear s c t f) (hlocal : memLocal s c f a)
    (hreg : regionOf s a = .setAlias k off ∨ regionOf s a = .clrAlias k off) :
    exec (.st c t f) s = .next (modThread c.val t.val (fun h => { h with wait := .bank a (sreg s c.val f.src2) })
      (threadMove c.val t.val ((threadOf s c.val t.val).pc + 8) s)) := by
  have hplain : Plain s a := hreg.elim (fun h => .inr (.inl ⟨_, _, h⟩)) (fun h => .inr (.inr ⟨_, _, h⟩))
  have halias : isAlias s a = true := by rcases hreg with hreg | hreg <;> simp [isAlias, hreg]
  rw [exec_st_of_clear hclear, stAccess_of_plain hlocal hplain, stWrite, halias]
  rfl

theorem readByte_threadMove (w : State) (c t n i : Nat) : readByte (threadMove c t n w) i = readByte w i :=
  readByte_congr rfl rfl rfl i

theorem readWord_threadMove (w : State) (c t n i : Nat) : readWord (threadMove c t n w) i = readWord w i :=
  readWord_congr rfl rfl rfl i

theorem threadMove_eq_of_mem {w : State} (h : w = { s with mem := w.mem }) (c t n : Nat) :
    threadMove c t n w = { s with mem := (threadMove c t n w).mem, cores := (threadMove c t n w).cores } := by
  generalize w.mem = m at h
  subst h
  rfl

/-- What the ST leaves: the word at its address, and the thread at PC + 8. -/
theorem storeWord_spec (h : coresOk s = true) (hmem : Memory.wf s.mem = true) (hspad : 0xF00000000000 ≤ a) (v : Word) (n : Nat) :
    let u := threadMove c.val t.val n (writeWord a v s)
    readWord u a = v ∧ memSameBut a 8 s u ∧ u = { s with mem := u.mem, cores := u.cores } ∧
    (∀ q, sreg u c.val q = sreg s c.val q) ∧ (threadOf u c.val t.val).pc = n := by
  have hwrite := writeWord_spad (s := s) hspad v
  have hstored : (writeWord a v s).cores = s.cores := by rw [hwrite]
  have hcores : coresOk (writeWord a v s) = true := (coresOk_congr hstored).trans h
  refine ⟨(readWord_threadMove ..).trans (readWord_writeWord hmem a v), fun i hi => ?_, threadMove_eq_of_mem hwrite .., fun q => ?_, ?_⟩
  · exact (readByte_threadMove ..).trans (readByte_writeBytes_outside hmem _ _ (by rw [length_bytesLE]; exact hi))
  · rw [sreg_threadMove hcores, sreg_congr hstored]
  · rw [threadOf_threadMove_same hcores]

end Store

/-- An LD of scratchpad and its return. -/
theorem load_and_return {s : State} {c : CoreId} {t : ThreadId} {f : ScalarF} {a k off : Nat} (h : coresOk s = true)
    (hclear : scalarClear s c t f) (hlocal : memLocal s c f a) (hreg : regionOf s a = .spad k off) :
    ∃ u v, exec (.ld c t f) s = .next u ∧
      threadOf u c.val t.val = { threadOf s c.val t.val with
        pc := (threadOf s c.val t.val).pc + 8, wait := .mem f.dst a, full := none } ∧
      onlyCores s u ∧ exec (.scalarLoadReturn c t) u = .next v ∧ onlyCores u v ∧
      sreg v c.val f.dst = (if f.dst = 0 then 0 else readWord s a) ∧
      (threadOf v c.val t.val).wait = .none ∧ (∀ q, q ≠ f.dst → sreg v c.val q = sreg s c.val q) := by
  obtain ⟨hup, hsvc⟩ := up_of_groomReady hclear.1
  have hload := exec_ld_spad hclear hlocal hreg
  have honlyLoad := onlyCores_ldWait (s := s) c.val t.val f.dst a (threadOf s c.val t.val).pc
  have hthread := threadOf_ldWait h c.val t.val f.dst a (threadOf s c.val t.val).pc
  have hok := coresOk_ldWait h c.val t.val f.dst a (threadOf s c.val t.val).pc
  have hregs := sreg_ldWait h c.val t.val f.dst a (threadOf s c.val t.val).pc c.val
  have hsvcLoad := (coreStale_ldWait h c.val t.val f.dst a (threadOf s c.val t.val).pc c.val).trans hsvc
  have hupLoad := (fabricUp_ldWait c.val t.val f.dst a (threadOf s c.val t.val).pc s).trans hup
  have hmem := readWord_congr (s := s) (t := ldWait c.val t.val f.dst a (threadOf s c.val t.val).pc s) rfl rfl rfl a
  have hspad := regionOf_congr (s := s) (t := ldWait c.val t.val f.dst a (threadOf s c.val t.val).pc s) rfl rfl a
  generalize ldWait c.val t.val f.dst a (threadOf s c.val t.val).pc s = u
    at hload honlyLoad hthread hok hregs hsvcLoad hupLoad hmem hspad
  have hwaits : (threadOf u c.val t.val).wait = .mem f.dst a := by rw [hthread]
  replace hreg := hspad.trans hreg
  obtain ⟨v, hback, honly, hdst, hwait, hother⟩ := scalarLoadReturn_spec hok hupLoad hsvcLoad hwaits hreg
  exact ⟨u, v, hload, hthread, honlyLoad, hback, honly, by rw [hdst, hmem], hwait, fun q hq => (hother q hq).trans (hregs q)⟩

/-- Settles O12: the load that waits and its return; the store as a write of its word. -/
theorem loadsAndStores : Obligations.LoadsAndStores := by
  refine ⟨?_, ?_⟩
  · intro c t f s k off h hclear a halign hlt hreg
    exact load_and_return h hclear (memLocal_of_aligned halign hlt) hreg
  · intro c t f s k off h hmem hclear a halign hlt hreg
    exact ⟨_, exec_st_spad hclear (memLocal_of_aligned halign hlt) hreg, storeWord_spec h hmem (spad_range hreg).1 _ _⟩

/-! ## Writes through the aliases (R320, R321) -/

/-- A read without an error brings no change. -/
theorem unitFound_clean (a : Nat) (s : State) : unitFound {} a s = s := by
  simp only [unitFound, unitEcc, noteEcc, unitEscape, Nat.zero_le, ↓reduceIte]
  split <;> rfl

theorem unitEcc_clean (s : State) (a : Nat) : unitEcc s a {} = .clean := by simp [unitEcc]

/-- A read that fails its check is no escaped error. -/
theorem wide_of_bad {x : UnitErr} {a : Nat} {s : State} (h : eccBad (unitEcc s a x) = true) (counted : Bool) (bs : List Byte) :
    x.wide ≠ .escaped counted bs := by
  intro hwide
  simp only [unitEcc, hwide] at h
  split at h
  · exact absurd h (by decide)
  · split at h
    · exact absurd h (by decide)
    · cases counted <;> exact absurd h (by decide)

/-- An escaped error alone changes bytes, and it does not stop the reader. -/
theorem unitFound_store_of_bad {x : UnitErr} {a : Nat} {s : State} (h : eccBad (unitEcc s a x) = true) :
    StoreSame s (unitFound x a s) := by
  have hnote := noteEcc_store (.refl s) (unitEcc s a x) a
  unfold unitFound unitEscape
  split <;> try exact hnote
  all_goals
    split
    · exact hnote
    · split
      · rename_i hwide
        exact absurd hwide (wide_of_bad h _ _)
      · exact hnote

theorem exec_aliasWrite_clean {w : AtomicWriter} {s : State} {a c o : Nat} {v : Word} {b : Bool} (hup : fabricUp s = true)
    (hnext : aliasNext s w = some (a, v)) (htarget : aliasTarget s a = some (b, c, o)) :
    exec (.aliasWrite w {}) s = .next (atomicWrite b (spadAddr c o) v (aliasDone w s)) := by
  change execAliasWrite w {} s = _
  simp [execAliasWrite, hup, hnext, htarget, unitEcc_clean, unitFound_clean, eccBad]

/-- The write of the bank changes the 8 bytes of its word alone. -/
theorem atomicWrite_spec {s u : State} (h : StoreSame s u) (hmem : Memory.wf s.mem = true) (b : Bool) (a : Nat) (v : Word) :
    readWord (atomicWrite b a v u) a = (if b then readWord s a ||| v else readWord s a &&& ~~~v) ∧
    memSameBut a 8 s (atomicWrite b a v u) := by
  have hread : readWord u a = readWord s a := by
    simp only [readWord, readNum, readBytes, h.memSame _]
  have hwf : Memory.wf u.mem = true := by rw [h.1]; exact hmem
  unfold atomicWrite
  refine ⟨?_, fun i hi => ?_⟩
  · rw [readWord_writeWord hwf, hread]
  · rw [writeWord, readByte_writeBytes_outside hwf _ _ (by rwa [length_bytesLE]), h.memSame]

/-- Settles O11: the bank's write is one word at its address; a failed read writes nothing. -/
theorem aliasWrites : Obligations.AliasWrites := by
  refine ⟨?_, fun w a v c o s hup hnext hmem => ⟨fun htarget => ?_,
    fun htarget => ?_, fun b x htarget hbad => ⟨?_, ?_⟩⟩⟩
  · intro c t f s k off h hmem hclear a v halign hlt hreg
    exact exec_st_alias hclear (memLocal_of_aligned halign hlt) hreg
  · have hwrite := atomicWrite_spec (aliasDone_store (.refl s) w) hmem true (spadAddr c o) v
    exact ⟨_, exec_aliasWrite_clean hup hnext htarget, hwrite⟩
  · have hwrite := atomicWrite_spec (aliasDone_store (.refl s) w) hmem false (spadAddr c o) v
    exact ⟨_, exec_aliasWrite_clean hup hnext htarget, hwrite⟩
  · change execAliasWrite w x s = _
    simp [execAliasWrite, hup, hnext, htarget, hbad]
  · exact (aliasRefuse_store (unitFound_store_of_bad hbad) w c o).memSame

end Sys2Proof.Machine
end

section
/-! # Issue of tile instructions, tokens, credits, drains and firings (R134 to R203) -/
namespace Sys2Proof.Machine

/-! ## Issue of TMAC, TOUT and RESLOAD (R175, R177, R188) -/

section Issue

variable {s : State} {c t : Nat} {eng : Fin 8}

variable (hready : groomReady s c t = true) (halign : (threadOf s c t).pc % 32 = 0)
  (hbacked : spadBacked s c (threadOf s c t).pc 32 = true)

include hready halign hbacked

theorem tileIssue_of_full (hfull : 4 ≤ holdCount s (c * 8 + eng.val)) (acc : Accept) :
    tileIssue c t eng acc s = modThread c t (fun h => { h with full := some eng }) s := by
  simp [tileIssue, hready, halign, hbacked, hfull]

theorem tileIssue_of_ok {acc : Accept} {h : HeldTile} (hroom : holdCount s (c * 8 + eng.val) < 4) (hacc : acc = .ok h)
    (hnext : spadBacked s c ((threadOf s c t).pc + 32) 8 = true) :
    tileIssue c t eng acc s = threadMove c t ((threadOf s c t).pc + 32)
      (modEng (c * 8 + eng.val) (fun g => { g with held := g.held ++ [h] }) (measAdd h.step .tiles c 1 s)) := by
  simp [tileIssue, hready, halign, hbacked, Nat.not_le.mpr hroom, hacc, hnext]

theorem tileIssue_of_refuse {acc : Accept} {code need avail : Nat} {detail : List Byte} (hroom : holdCount s (c * 8 + eng.val) < 4)
    (hacc : acc = .refuse code detail need avail) (hcode : code / 16 = 0x031) :
    tileIssue c t eng acc s = groomRefuse c t eng.val code detail need avail s := by
  simp [tileIssue, hready, halign, hbacked, Nat.not_le.mpr hroom, hacc, hcode]

end Issue

/-- Settles O19: the checks, then the hold's room, decide between issue, wait and refusal. -/
theorem tileIssue_obligation : Obligations.TileIssue := by
  intro c t f g s hready pc halign hbacked issued
  refine ⟨fun hnext => ⟨fun h hroom hacc => ?_, fun h hroom hacc => ?_, fun h hroom hacc => ?_⟩, fun hfull => ⟨?_, ?_⟩,
    fun hfull => ?_, fun code d n a hroom hacc hcode => ?_⟩
  · exact congrArg Host.Outcome.next (tileIssue_of_ok hready halign hbacked hroom hacc hnext)
  · exact congrArg Host.Outcome.next (tileIssue_of_ok hready halign hbacked hroom hacc hnext)
  · exact congrArg Host.Outcome.next (tileIssue_of_ok hready halign hbacked hroom hacc hnext)
  · exact congrArg Host.Outcome.next (tileIssue_of_full hready halign hbacked hfull _)
  · exact congrArg Host.Outcome.next (tileIssue_of_full hready halign hbacked hfull _)
  · exact congrArg Host.Outcome.next (tileIssue_of_full hready halign hbacked hfull _)
  · exact congrArg Host.Outcome.next (tileIssue_of_refuse hready halign hbacked hroom hacc hcode)

/-! ## Tokens (R144, R160) -/

/-- The queue takes tokens from the source of the token alone (R144). -/
def bound (m : TokenMsg) (s : State) : Prop :=
  let r := rinOf s m.dstEngine.val m.dstQueue.val
  r.cfg.en = true ∧ r.cfg.srcChip = m.srcChip.toNat ∧ r.cfg.srcEngine = m.srcEngine.val ∧ r.cfg.srcPort = m.srcPort.val

section Token

variable {m : TokenMsg} {s : State}

theorem exec_tokenArrive (hup : fabricUp s = true) (hchg : s.job.chgOpen = false) :
    exec (.tokenArrive m) s = .next (tokenSort m s) := by
  change execTokenArrive m s = _
  simp [execTokenArrive, tokenArrive, hup, hchg]

theorem tokenSort_of_stale (h0 : tagEpoch m.tag ≠ s.job.epoch) (h1 : tagEpoch m.tag ≠ s.job.epoch + 1) :
    tokenSort m s = staleToken m s := by
  simp only [tokenSort, h0, h1, ne_eq, not_false_eq_true, decide_true, Bool.and_self, ↓reduceIte]

theorem tokenSort_of_epoch (hep : tagEpoch m.tag = s.job.epoch) (hhalt : (coreOf s (coreOfEng m.dstEngine.val)).halted = false)
    (hsvc : coreStale s (coreOfEng m.dstEngine.val) = false) : tokenSort m s = joinQueue m s := by
  simp [tokenSort, hep, hhalt, hsvc]

theorem joinQueue_of_unbound (h : ¬ bound m s) :
    joinQueue m s = jobFault 0x0203 (item 2 m.dstEngine.val ++ item 1 m.dstQueue.val ++
      item 2 m.srcChip.toNat ++ item 2 m.srcEngine.val ++ item 1 m.srcPort.val) s := by
  unfold joinQueue
  refine if_pos ?_
  simp only [Bool.or_eq_true, Bool.not_eq_true', decide_eq_true_eq]
  by_contra hn
  simp only [not_or, Bool.not_eq_false, not_not] at hn
  obtain ⟨⟨⟨hen, hchip⟩, heng⟩, hport⟩ := hn
  exact h ⟨hen, hchip, heng, hport⟩

theorem joinQueue_of_bound (h : bound m s) :
    joinQueue m s =
      let r := rinOf s m.dstEngine.val m.dstQueue.val
      if r.cfg.credits ≤ r.tokens.length then
        jobFault 0x0202 (item 2 m.dstEngine.val ++ item 1 m.dstQueue.val ++ item 2 m.srcChip.toNat ++ item 2 m.srcEngine.val ++
          item 4 r.recvSeq.toNat) s
      else
        let u := modRin m.dstEngine.val m.dstQueue.val (fun k => { k with
            tokens := k.tokens ++ [m], recvSeq := k.recvSeq + 1, occMax := Nat.max k.occMax (r.tokens.length + 1)
            exceeded := k.exceeded || decide (k.bound < r.tokens.length + 1) })
          (writeSpad (coreOfEng m.dstEngine.val) (r.cfg.tagBase * 64 + r.recvSeq.toNat % r.cfg.credits * 2) (bytesLE 2 m.tag.toNat)
            (writeSpad (coreOfEng m.dstEngine.val) (r.cfg.slotBase * 64 + r.recvSeq.toNat % r.cfg.credits * 64)
              (bytesLE 64 m.payload.toNat) s))
        if r.bound < r.tokens.length + 1 && !r.exceeded then
          event 0x0280 (item 2 m.dstEngine.val ++ item 1 m.dstQueue.val) u
        else u := by
  obtain ⟨hen, hchip, heng, hport⟩ := h
  unfold joinQueue
  simp only [hen, hchip, heng, hport, ne_eq, not_true_eq_false, decide_false, Bool.not_true, Bool.or_self, Bool.false_eq_true,
    ↓reduceIte]

end Token

/-- Settles O20: one equation per outcome of an arriving token. -/
theorem tokensArrive : Obligations.TokensArrive := by
  intro m s hup hchg e r isBound
  refine ⟨fun h0 h1 => ?_, fun hep hhalt hsvc => ⟨fun hb hroom hbound => ?_, fun hb => ?_, fun hb hfull => ?_⟩⟩
  · rw [exec_tokenArrive hup hchg, tokenSort_of_stale h0 h1]
  · rw [exec_tokenArrive hup hchg, tokenSort_of_epoch hep hhalt hsvc, joinQueue_of_bound hb]
    have hlimit : ¬ r.bound < r.tokens.length + 1 := Nat.not_lt.mpr hbound
    refine congrArg Host.Outcome.next ((if_neg (Nat.not_le.mpr hroom)).trans (if_neg ?_))
    rw [decide_eq_false hlimit]
    exact Bool.false_ne_true
  · rw [exec_tokenArrive hup hchg, tokenSort_of_epoch hep hhalt hsvc, joinQueue_of_unbound hb]
  · rw [exec_tokenArrive hup hchg, tokenSort_of_epoch hep hhalt hsvc, joinQueue_of_bound hb]
    exact congrArg Host.Outcome.next (if_pos hfull)

/-! ## Credits and flits of the hinge (R141, R143, R168) -/

section Credit

variable {s : State} {e : EngId} {o : ReinNo} {n : BitVec 5}

theorem exec_creditReturn (hup : fabricUp s = true) (hchg : s.job.chgOpen = false) :
    exec (.creditReturn e o n s.job.epoch) s = .next (creditTake e.val o.val n.toNat s) := by
  change execCreditReturn e o n s.job.epoch s = _
  simp [execCreditReturn, creditReturn, hup, hchg]

theorem creditTake_of_le {e o n : Nat} (h : (routOf s e o).avail + n ≤ (routOf s e o).cfg.credits) :
    creditTake e o n s = modRout e o (fun r => { r with avail := r.avail + n }) (progress s) :=
  if_neg (Nat.not_lt.mpr h)

theorem creditTake_of_lt {e o n : Nat} (h : (routOf s e o).cfg.credits < (routOf s e o).avail + n) :
    creditTake e o n s = jobFault 0x0201 (item 2 e ++ item 1 o ++ item 2 (routOf s e o).avail ++ item 1 n)
      (modRout e o (fun r => { r with avail := r.cfg.credits }) (progress s)) :=
  if_pos h

theorem exec_creditReturnSend {q : ReinNo} {ep : BitVec 3} {k : Nat} {l : List (BitVec 3 × Nat)}
    (hfreed : (rinOf s e.val q.val).freed = (ep, k) :: l) (hk : k ≤ 16) (hsvc : coreStale s (coreOfEng e.val) = false) :
    exec (.creditReturnSend e q) s = .next (sendCredit (rinOf s e.val q.val).freedStep (rinOf s e.val q.val).cfg.srcChip
      (rinOf s e.val q.val).cfg.srcEngine (rinOf s e.val q.val).cfg.srcPort k ep
      (modRin e.val q.val (fun r => { r with freed := l }) s)) := by
  change execCreditReturnSend e q s = _
  have hmin : Nat.min k 16 = k := Nat.min_eq_left hk
  simp only [execCreditReturnSend, hfreed, hsvc, hmin, Nat.lt_irrefl, Bool.false_eq_true, ↓reduceIte]

end Credit

theorem onlyRecords_record (type level code : Nat) (detail : List Byte) (s : State) :
    OnlyRecords s (record type level code detail s) :=
  onlyRecords_foldl_tallyPut _ _ s

theorem record_chipFault (type level code : Nat) (detail : List Byte) (s : State) :
    (record type level code detail s).chipFault = s.chipFault := by
  obtain ⟨_, _, _, h⟩ := onlyRecords_record type level code detail s
  rw [h]

/-- The first chip fault's code stands in the part that it stops (R608). -/
theorem chipStop_chipFault {s : State} (h : s.chipFault = none) (code : Nat) (detail : List Byte) (progress : Bool) :
    (chipStop code detail progress s).chipFault = some code := by
  unfold chipStop chipStopBy
  simp only [record_chipFault, h, Option.isSome_none, Bool.false_eq_true, ↓reduceIte]
  split
  · rfl
  · exact (fullDump_held (.refl _) progress).1 rfl

theorem exec_hingeFlitFailed (n cycles : Nat) (recovered : Bool) (s : State) :
    exec (.hingeFlitFailed n cycles recovered) s =
      .next (let u := modMgmt (fun m => { m with hingeRetries := statAdd 32 (Nat.min n 16) m.hingeRetries }) s
        if recovered && n ≤ 16 && cycles ≤ 2048 then u
        else chipStop 0x0209 (item 1 (Nat.min n 16) ++ item 4 u.mgmt.hingeRetries.n) true u) := rfl

/-- Settles O21: one equation per outcome of a return and of a flit; the first chip fault's code stands in the part it stops. -/
theorem creditsReturn : Obligations.CreditsReturn := by
  refine ⟨fun e o q n s hup => ⟨fun hchg => ⟨fun hle => ?_, fun hlt => ?_⟩, fun ep k l hfreed hk hsvc => ?_, ?_⟩,
    fun n cycles s => ⟨fun hn hc => ?_, fun h => ?_, fun hfault => ?_⟩⟩
  · rw [exec_creditReturn hup hchg, creditTake_of_le hle]
  · rw [exec_creditReturn hup hchg, creditTake_of_lt hlt]
  · exact exec_creditReturnSend hfreed hk hsvc
  · change execEarlyTokenExpire e s = _
    simp [execEarlyTokenExpire, hup]
  · rw [exec_hingeFlitFailed]
    simp [hn, hc]
  · rw [exec_hingeFlitFailed]
    refine congrArg Host.Outcome.next (if_neg ?_)
    simp only [Bool.true_and, Bool.and_eq_true, decide_eq_true_eq]
    omega
  · refine ⟨_, exec_hingeFlitFailed n cycles false s, ?_⟩
    simp only [Bool.false_and, Bool.false_eq_true, ↓reduceIte]
    exact chipStop_chipFault (s := modMgmt _ s) hfault ..

/-! ## The end of a job (R163 to R166) -/

/-- Once the drain begins, no SOURCE gait stands in an engine's schedule but the one in progress (R163). -/
theorem mem_dropSources {s : State} {e : Nat} {g : Engine} {q : SchedEntry} (hfiring : g.firing = none)
    (hq : q ∈ (dropSources s e g).entries) : (gaitOf s e q.slot.val).source = false ∧ q ∈ g.entries := by
  unfold dropSources at hq
  cases hentries : g.entries with
  | nil => simp [hentries] at hq
  | cons x l =>
    simp only [hentries, hfiring, Option.isSome_none, Bool.false_eq_true, ↓reduceIte, List.mem_filter, Bool.not_eq_true'] at hq
    exact ⟨hq.2, hq.1⟩

section Drain

variable {r : Running} {s : State} (hrun : s.job.run = some r)

include hrun

theorem exec_drainBegin (hact : mayAct s 9 = true) (hstart : r.started = true) (hdrain : r.draining = false)
    (hreason : r.reason.isSome = true) (hwhen : r.drainStart ≤ s.stride.count) :
    exec .drainBegin s = .next (
      let u := modRun (fun k => { k with draining := true, drainAge := 0, unchecked := k.unchecked ++ k.openSteps }) (openNine s)
      { u with engines := smap {} (dropSources u) u.engines }) := by
  change execDrainBegin s = _
  have hnone : r.reason.isNone = false := by rw [← Option.not_isSome, hreason]; rfl
  simp [execDrainBegin, hrun, hact, hstart, hdrain, hnone, Nat.not_lt.mpr hwhen]

theorem exec_drainTimeout (hact : mayAct s 9 = true) (hdrain : r.draining = true) (hhard : r.hardStop = false)
    (hdone : drainDone s = false) (hage : r.tack.ledger.drainDepth + 64 ≤ r.drainAge) :
    exec .drainTimeout s = .next (modRun (fun r => { r with hardStop := true, stop := 0x0207, drainStart := s.stride.count + 1 })
      (jobFault 0x0207 (item 4 r.tack.ledger.drainDepth ++ item 4 r.drainAge) s)) := by
  change execDrainTimeout s = _
  simp [execDrainTimeout, hrun, hact, hdrain, hhard, hdone, Nat.not_lt.mpr hage]

theorem exec_hardStop (hact : mayAct s 7 = true) (hhard : r.hardStop = true) (hwhen : r.drainStart ≤ s.stride.count)
    (hnamed : stopNamed s = true) :
    exec .hardStop s = .next (modJob (fun j => { j with hardAge := some 0 }) (jobOver (epochAdvance
      (modSync (fun y => { y with objs := smap {} (fun _ o => { o with waiters := [] }) y.objs })
        (forEach (List.range 4) closeLaunches (forEach (jobEngines s) stopEngine (setAct 7 s))))))) := by
  change execHardStop s = _
  simp [execHardStop, hrun, hact, hhard, hnamed, Nat.not_lt.mpr hwhen]

theorem exec_drainComplete (hact : mayAct s 6 = true) (hdrain : r.draining = true) (hhard : r.hardStop = false)
    (hdone : drainDone s = true) :
    exec .drainComplete s = .next (
      let l := staleEngines (setAct 6 s)
      let f := if l = [] then setAct 6 s else jobFault 0x0206 ((l.map (fun x => item 2 x.1 ++ item 4 x.2)).flatten) (setAct 6 s)
      jobOver (forEach (List.range 4) closeLaunches
        (let u := linkWriteOff f
         { u with engines := smap {} (fun _ g => { g with
            ags := smap {} (fun _ a => { a with runs := a.runs.filter (fun r => r.fired && !r.ended) }) g.ags }) u.engines }))) := by
  change execDrainComplete s = _
  simp [execDrainComplete, hrun, hact, hdrain, hhard, hdone, List.isEmpty_iff]

end Drain

theorem exec_creditWriteOff {n : Nat} {s : State} (hage : s.job.hardAge = some n) (hact : mayAct s 7 = true) (hn : 64 ≤ n) :
    exec .creditWriteOff s = .next (
      let l := s.cores.filter (fun c => c.2.retCount ≠ 0)
      let u := modJob (fun j => { j with hardAge := none }) s
      if l = [] then u
      else event 0x0282 ((l.map (fun c => item 2 c.1 ++ item 3 c.2.retCount)).flatten)
        { u with cores := smap {} (fun _ k => { k with retCount := 0 }) u.cores }) := by
  change execCreditWriteOff s = _
  simp only [execCreditWriteOff, hage, hact, Nat.not_lt.mpr hn, List.isEmpty_iff, Bool.not_true, decide_false, Bool.or_self,
    Bool.false_eq_true, ↓reduceIte]

/-- Settles O22: one equation per stage of the end; a schedule without its SOURCE gaits starts none. -/
theorem jobDrains : Obligations.JobDrains := by
  refine ⟨fun r s hrun => ⟨fun hact hstart hdrain hreason hwhen => ⟨exec_drainBegin hrun hact hstart hdrain hreason hwhen,
      fun e q hfiring hq => mem_dropSources hfiring hq⟩,
    fun hact hdrain hhard hdone => exec_drainComplete hrun hact hdrain hhard hdone,
    fun hact hdrain hhard hdone hage => exec_drainTimeout hrun hact hdrain hhard hdone hage,
    fun hact hhard hwhen hnamed => exec_hardStop hrun hact hhard hwhen hnamed⟩,
    fun n s hage hact hn => ⟨fun hl => ?_, fun hl => ?_⟩⟩
  · rw [exec_creditWriteOff hage hact hn]
    exact congrArg Host.Outcome.next (if_pos hl)
  · rw [exec_creditWriteOff hage hact hn]
    exact congrArg Host.Outcome.next (if_neg hl)

/-! ## Firings and the work of their tile instructions (R134, R140, R184) -/

section Firing

variable {e : EngId} {x : Firing} {h : HeldTile} {s : State}

theorem exec_gaitFire {q : SchedEntry} (hhead : headEntry s e.val = some q) (hfire : canFire s e.val = true) :
    exec (.gaitFire e) s = .next (startFiring e.val q s) := by
  change execGaitFire e s = _
  simp [execGaitFire, hhead, hfire]

theorem exec_gaitSwitch {q : SchedEntry} (hhead : headEntry s e.val = some q) (hswitch : canSwitch s e.val = true) :
    exec (.gaitSwitch e) s = .next
      (measAdd (engOf s e.val).step .gaitSwitches e.val 1 (modEng e.val (fun g => { g with active := q.slot }) s)) := by
  change execGaitSwitch e s = _
  simp [execGaitSwitch, hhead, hswitch]

theorem exec_tileInstructionComplete (hup : fabricUp s = true) (hsvc : coreStale s (coreOfEng e.val) = false)
    (hfiring : (engOf s e.val).firing = some x) (htile : x.tile = some h) (hcommit : runsCommitted s e.val x = true) :
    exec (.tileInstructionComplete e) s = .next (tileWork e.val x h s) := by
  change execTileInstructionComplete e s = _
  simp [execTileInstructionComplete, hup, hsvc, hfiring, htile, hcommit]

end Firing

/-- Settles O23: a start and a switch under their own conditions; tile work as the completion of its firing. -/
theorem firingsRun : Obligations.FiringsRun := by
  refine ⟨fun e q s hhead => ⟨exec_gaitFire hhead, exec_gaitSwitch hhead⟩,
    fun e x h s hup hsvc hfiring htile hcommit => ?_⟩
  rw [exec_tileInstructionComplete hup hsvc hfiring htile hcommit]
  refine ⟨fun hkind hfull => ?_, fun hkind hempty => ?_, fun hkind => ?_⟩
  · simp [tileWork, hkind, hfull]
  · simp [tileWork, hkind, hempty]
  · simp [tileWork, hkind]

end Sys2Proof.Machine
end

section
/-! # Vector instructions (R207 to R221) -/
namespace Sys2Proof.Machine

/-! ## A clear vector instruction -/

theorem readByte_measAdd (n : Nat) (kind : FigKind) (u w : Nat) (s : State) (a : Nat) :
    readByte (measAdd n kind u w s) a = readByte s a := rfl

theorem readBytes_measAdd (n : Nat) (kind : FigKind) (u w : Nat) (s : State) (a len : Nat) :
    readBytes (measAdd n kind u w s) a len = readBytes s a len := by
  induction len generalizing a with
  | zero => rfl
  | succ len ih => simp only [readBytes, readByte_measAdd, ih]

theorem elemAt_measAdd (n : Nat) (kind : FigKind) (u w : Nat) (s : State) (k : VecAt) (d : VecOperand) (f r c : Nat) :
    elemAt (measAdd n kind u w s) k d f r c = elemAt s k d f r c := by
  unfold elemAt spadNum readNum
  rw [readBytes_measAdd, readByte_measAdd]
  rfl

theorem rowsOn_measAdd (n : Nat) (kind : FigKind) (u w : Nat) (s : State) (k : VecAt) (v : VecF) :
    rowsOn (measAdd n kind u w s) k v = rowsOn s k v := rfl

theorem sft_measAdd (n : Nat) (kind : FigKind) (u w : Nat) (s : State) : (measAdd n kind u w s).sft = s.sft := rfl

/-- The figures of a step are no operand. -/
theorem vecOut_measAdd (n : Nat) (kind : FigKind) (u w : Nat) (s : State) (k : VecAt) (op : VecOp) (v : VecF) :
    vecOut (measAdd n kind u w s) k op v = vecOut s k op v := by
  simp only [vecOut, redOut, limbOut, elemOut, elemCells, elemAt_measAdd, rowsOn_measAdd, readByte_measAdd, sft_measAdd]

/-- An instruction that passes its checks writes what its operation computes. -/
theorem vecStep_of_clear {s : State} {e : EngId} {op : VecOp} {v : VecF} {k : VecAt} (h : vecClear s e op v k) (hop : op ≠ .vend) :
    vecStep e op v s = vecWrote k op v (vecOut s k op v) s := by
  obtain ⟨hat, hbacked, hidx, hvalid, haddr⟩ := h
  simp only [vecStep, hat]
  simp only [vecRun, hbacked, Nat.not_le.mpr hidx, hvalid, haddr, hop, vecOut_measAdd, vecWrote, decide_false, Bool.false_and,
    Bool.not_true, Bool.false_eq_true, ↓reduceIte]

theorem vecStep_vend {s : State} {e : EngId} {v : VecF} {k : VecAt} (h : vecClear s e .vend v k) :
    vecStep e .vend v s = firingComplete k.e (measAdd k.x.step .issueFc k.e 1 s) := by
  obtain ⟨hat, hbacked, hidx, hvalid, haddr⟩ := h
  simp only [vecStep, hat]
  simp only [vecRun, hbacked, Nat.not_le.mpr hidx, hvalid, haddr, vecFc, decide_false, Bool.false_and,
    Bool.not_true, Bool.false_eq_true, ↓reduceIte]

/-! ## Element operations -/

theorem elemOut_eq_elementwise {s : State} {op : VecOp} {v : VecF} {f : Int → Int → Int}
    (hop : ∀ a b, elemOp s.sft.active op v a b = (f a b, false)) (hb : op.binary = true ∨ ∀ a b b', f a b = f a b') (k : VecAt) :
    elemOut s k op v = elementwise s k v f := by
  have hsecond : ∀ a b, f a (if op.binary then b else 0) = f a b := fun a b => by
    rcases hb with hb | hb
    · rw [if_pos hb]
    · exact hb ..
  simp only [elemOut, elemWrites, elemCells, elementwise, hop, hsecond, List.map_flatMap, List.map_map, Function.comp_def,
    List.filter_flatMap, List.filter_map, List.filter_false, List.map_nil]
  simp

section Elementwise

variable {s : State} {e : EngId} {op : VecOp} {v : VecF} {k : VecAt} {f : Int → Int → Int}

theorem vecStep_elem (h : vecClear s e op v k) (hvend : op ≠ .vend) (hred : (op.rowRed || op.colRed) = false) (hlimb : op.limb = false)
    (hop : ∀ a b, elemOp s.sft.active op v a b = (f a b, false)) (hb : op.binary = true ∨ ∀ a b b', f a b = f a b') :
    Host.Outcome.next (vecStep e op v s) = (.next (vecWrote k op v (elementwise s k v f) s) : Out) := by
  rw [vecStep_of_clear h hvend, vecOut, if_neg (by rw [hred]; exact Bool.false_ne_true),
    if_neg (by rw [hlimb]; exact Bool.false_ne_true), elemOut_eq_elementwise hop hb]

/-- Two operands. -/
theorem vecStep_binary (h : vecClear s e op v k) (hbinary : op.binary = true) (hlimb : op.limb = false)
    (hop : ∀ a b, elemOp s.sft.active op v a b = (f a b, false)) :
    Host.Outcome.next (vecStep e op v s) = (.next (vecWrote k op v (elementwise s k v f) s) : Out) := by
  refine vecStep_elem h ?_ ?_ hlimb hop (.inl hbinary)
  · rintro rfl
    exact absurd hbinary (by decide)
  · simp only [VecOp.binary, Bool.not_eq_true', Bool.or_eq_false_iff] at hbinary
    simp only [hbinary, Bool.or_self]

end Elementwise

theorem shiftOf_eq (b : Int) : shiftOf b = (max 0 (min b 63)).toNat := by
  simp only [shiftOf, clampInt]
  split <;> [skip; split] <;> omega

/-- Settles O24: each instruction is an element-wise step with a function of its own. -/
theorem vectorElements : Obligations.VectorElements := by
  intro e v s k sh w by_ bits done
  refine ⟨fun h => vecStep_binary h rfl rfl fun a b => rfl, fun h => vecStep_binary h rfl rfl fun a b => rfl,
    fun h => vecStep_binary h rfl rfl fun a b => rfl, fun h => vecStep_binary h rfl rfl fun a b => rfl,
    fun h => vecStep_binary h rfl rfl fun a b => rfl,
    fun h => vecStep_binary h rfl rfl fun a b => ?min, fun h => vecStep_binary h rfl rfl fun a b => ?max,
    fun h => vecStep_elem h nofun rfl rfl (fun a b => ?abs) (.inr fun a b b' => rfl),
    fun h => vecStep_binary h rfl rfl fun a b => rfl, fun h => vecStep_binary h rfl rfl fun a b => rfl,
    fun h => vecStep_binary h rfl rfl fun a b => rfl,
    fun h => vecStep_binary h rfl rfl fun a b => ?shl, fun h => vecStep_binary h rfl rfl fun a b => ?sar,
    fun h => vecStep_binary h rfl rfl fun a b => ?srhe,
    fun h => vecStep_elem h nofun rfl rfl (fun a b => rfl) (.inr fun a b b' => rfl),
    fun h => vecStep_binary h rfl rfl fun a b => rfl⟩
  case min => exact congrArg (·, false) (min_def a b).symm
  case max => exact congrArg (·, false) (max_def a b).symm
  case abs =>
    refine congrArg (·, false) ?_
    split <;> omega
  case shl => exact congrArg (fun n : Nat => (a * 2 ^ n, false)) (shiftOf_eq b)
  case sar => exact congrArg (fun n : Nat => (a / 2 ^ n, false)) (shiftOf_eq b)
  case srhe => exact congrArg (fun n : Nat => (rhe a n, false)) (shiftOf_eq b)

/-! ## Reductions -/

section Reduction

variable {s : State} {e : EngId} {op : VecOp} {v : VecF} {k : VecAt} {f : List Int → Int}

/-- A reduction over rows that takes each row's elements to `f` of them. -/
theorem vecStep_rowRed (h : vecClear s e op v k) (hrow : op.rowRed = true) (hf : ∀ l, reduce op v.fd.toNat l = f l) :
    Host.Outcome.next (vecStep e op v s) = (.next (vecWrote k op v { els := (rowsOn s k v).map (fun r =>
      (r, 0, f ((List.range (vCols v)).map (fun c => elemAt s k v.a v.fa.toNat r c) ++
        if v.dacc then [elemAt s k v.d v.fd.toNat r 0] else []))) } s) : Out) := by
  have hvend : op ≠ .vend := by
    rintro rfl
    exact absurd hrow (by decide)
  rw [vecStep_of_clear h hvend]
  simp only [vecOut, redOut, hrow, hf, Bool.true_or, ↓reduceIte]

theorem vecStep_colRed (h : vecClear s e op v k) (hrow : op.rowRed = false) (hcol : op.colRed = true)
    (hf : ∀ l, reduce op v.fd.toNat l = f l) :
    Host.Outcome.next (vecStep e op v s) = (.next (vecWrote k op v { els := (List.range (vCols v)).map (fun c =>
      (0, c, f ((rowsOn s k v).map (fun r => elemAt s k v.a v.fa.toNat r c) ++
        if v.dacc then [elemAt s k v.d v.fd.toNat 0 c] else []))) } s) : Out) := by
  have hvend : op ≠ .vend := by
    rintro rfl
    exact absurd hcol (by decide)
  rw [vecStep_of_clear h hvend]
  simp only [vecOut, redOut, hrow, hcol, hf, Bool.or_true, Bool.false_eq_true, ↓reduceIte]

end Reduction

/-- The sum of a list, element by element from the left. -/
theorem reduce_sum {op : VecOp} (h : op = .rsum ∨ op = .csum) (fd : Nat) (l : List Int) : reduce op fd l = l.sum := by
  simp only [reduce, Bool.or_eq_true, decide_eq_true_eq, h, ↓reduceIte]
  exact List.sum_eq_foldl.symm

/-- Settles O25: each reduction is the row's or the column's step with a fold of its own. -/
theorem vectorReductions : Obligations.VectorReductions := by
  intro e v s k a old row col most least done
  refine ⟨fun h => vecStep_rowRed h rfl (reduce_sum (.inl rfl) _), fun h => vecStep_rowRed h rfl fun l => ?_,
    fun h => vecStep_rowRed h rfl fun l => ?_, fun h => vecStep_colRed h rfl rfl (reduce_sum (.inr rfl) _),
    fun h => vecStep_colRed h rfl rfl fun l => ?_, fun h => vecStep_colRed h rfl rfl fun l => ?_⟩ <;> cases l <;> rfl

/-! ## Special functions (R218 to R221) -/

/-- The elements of A and of B at every enabled row and every column, in row order. -/
def operands (s : State) (k : VecAt) (v : VecF) : List (Nat × Nat × Int × Int) :=
  (rowsOn s k v).flatMap (fun r => (List.range (vCols v)).map (fun c =>
    (r, c, elemAt s k v.a v.fa.toNat r c, elemAt s k v.b v.fb.toNat r c)))

/-- `f` of the operands, with the count of the elements that it marks. -/
def marked (s : State) (k : VecAt) (v : VecF) (f : Int → Int → Int × Bool) : VecOut :=
  { els := (operands s k v).map (fun x => (x.1, x.2.1, (f x.2.2.1 x.2.2.2).1))
    doms := ((operands s k v).filter (fun x => (f x.2.2.1 x.2.2.2).2)).length }

theorem elemOut_eq_marked {s : State} {op : VecOp} {v : VecF} {f : Int → Int → Int × Bool}
    (hop : ∀ a b, elemOp s.sft.active op v a b = f a b) (hb : op.binary = true ∨ ∀ a b b', f a b = f a b') (k : VecAt) :
    elemOut s k op v = marked s k v f := by
  have hsecond : ∀ a b, f a (if op.binary then b else 0) = f a b := fun a b => by
    rcases hb with hb | hb
    · rw [if_pos hb]
    · exact hb ..
  have hcells : elemCells s k op v = (operands s k v).map (fun x => (x.1, x.2.1, f x.2.2.1 x.2.2.2)) := by
    simp only [elemCells, operands, hop, hsecond, List.map_flatMap, List.map_map, Function.comp_def]
  simp only [elemOut, hcells, elemWrites, marked, List.map_map, List.filter_map, List.length_map, Function.comp_def]

theorem vecStep_marked {s : State} {e : EngId} {op : VecOp} {v : VecF} {k : VecAt} {f : Int → Int → Int × Bool}
    (h : vecClear s e op v k) (hvend : op ≠ .vend) (hred : (op.rowRed || op.colRed) = false) (hlimb : op.limb = false)
    (hop : ∀ a b, elemOp s.sft.active op v a b = f a b) (hb : op.binary = true ∨ ∀ a b b', f a b = f a b') :
    Host.Outcome.next (vecStep e op v s) = (.next (vecWrote k op v (marked s k v f) s) : Out) := by
  rw [vecStep_of_clear h hvend, vecOut, if_neg (by rw [hred]; exact Bool.false_ne_true),
    if_neg (by rw [hlimb]; exact Bool.false_ne_true), elemOut_eq_marked hop hb]

/-! ## Limbs (R127, R128) -/

theorem vecStep_limb {s : State} {e : EngId} {op : VecOp} {v : VecF} {k : VecAt} (h : vecClear s e op v k) (hlimb : op.limb = true)
    (hred : (op.rowRed || op.colRed) = false) :
    Host.Outcome.next (vecStep e op v s) = (.next (vecWrote k op v (limbOut s k op v) s) : Out) := by
  have hvend : op ≠ .vend := by
    rintro rfl
    exact absurd hlimb (by decide)
  rw [vecStep_of_clear h hvend, vecOut, if_neg (by rw [hred]; exact Bool.false_ne_true), if_pos hlimb]

theorem ofSigned_toSigned (n : Nat) : ofSigned 64 (toSigned 64 n) = n % 2 ^ 64 := by
  simp only [ofSigned, toSigned]
  split <;> omega

theorem ofSigned_lt (x : Int) : ofSigned 64 x < 2 ^ 64 := by
  simp only [ofSigned]
  omega

/-- Sum and carry of two limbs. -/
theorem adc_limb {x y cin : Nat} (hx : x < 2 ^ 64) (hy : y < 2 ^ 64) (hc : cin ≤ 1) :
    ofSigned 64 (toSigned 64 (x + y + cin)) + 2 ^ 64 * ((x + y + cin) / 2 ^ 64) = x + y + cin ∧ (x + y + cin) / 2 ^ 64 ≤ 1 := by
  rw [ofSigned_toSigned]
  omega

/-- Difference and borrow of two limbs. -/
theorem sbb_limb {x y cin : Nat} (hx : x < 2 ^ 64) (hy : y < 2 ^ 64) (hc : cin ≤ 1) :
    ofSigned 64 (toSigned 64 (2 ^ 65 + x - y - cin)) + y + cin = x + 2 ^ 64 * bit01 (decide (x < y + cin)) ∧
    bit01 (decide (x < y + cin)) ≤ 1 := by
  rw [ofSigned_toSigned]
  by_cases hlt : x < y + cin
  · simp only [hlt, bit01, decide_true, ↓reduceIte]
    omega
  · simp only [hlt, bit01, decide_false, Bool.false_eq_true, ↓reduceIte]
    omega

/-- The two halves of a product. -/
theorem mulw_limb (x y : Nat) : ofSigned 64 (toSigned 64 (x * y)) + 2 ^ 64 * (x * y / 2 ^ 64) = x * y := by
  rw [ofSigned_toSigned]
  exact Nat.mod_add_div ..

section OneLimb

variable {s : State} {k : VecAt} {v : VecF} (hcols : vCols v = 1) (hon : rowsOn s k v = [0])

include hcols hon

theorem limbOut_adc : limbOut s k .adc v =
    let x := ofSigned 64 (elemAt s k v.a 4 0 0)
    let y := ofSigned 64 (elemAt s k v.b 4 0 0)
    let p := spadAddr (coreOfEng k.e) (pargOff k v)
    let cin := if v.cin then (readByte s p).toNat else 0
    { els := [(0, 0, toSigned 64 (x + y + cin))], raw := [(p, [BitVec.ofNat 8 ((x + y + cin) / 2 ^ 64)])] } := by
  simp [limbOut, hcols, hon]

theorem limbOut_sbb : limbOut s k .sbb v =
    let x := ofSigned 64 (elemAt s k v.a 4 0 0)
    let y := ofSigned 64 (elemAt s k v.b 4 0 0)
    let p := spadAddr (coreOfEng k.e) (pargOff k v)
    let cin := if v.cin then (readByte s p).toNat else 0
    { els := [(0, 0, toSigned 64 (2 ^ 65 + x - y - cin))], raw := [(p, [BitVec.ofNat 8 (bit01 (decide (x < y + cin)))])] } := by
  simp [limbOut, hcols, hon]

theorem limbOut_mulw : limbOut s k .mulw v =
    let x := ofSigned 64 (elemAt s k v.a 4 0 0)
    let y := ofSigned 64 (elemAt s k v.b 4 0 0)
    { els := [(0, 0, toSigned 64 (x * y))]
      raw := [(spadAddr (coreOfEng k.e) (pargOff k v), bytesLE 8 (x * y / 2 ^ 64))] } := by
  simp [limbOut, hcols, hon]

end OneLimb

/-- Settles O26: the functions are element-wise steps; one limb's sum, difference and product by arithmetic. -/
theorem vectorFunctionsAndLimbs : Obligations.VectorFunctionsAndLimbs := by
  refine ⟨?_, ?_⟩
  · intro e v s k on fn each done
    exact ⟨fun h => vecStep_marked (f := fun a _ => fn v.sfn.toNat a) h nofun rfl rfl (fun a b => rfl) (.inr fun a b b' => rfl),
      fun h => vecStep_marked (f := fun a b => (rhe ((fn v.sfn.toNat a).1 * b) v.sh.toNat, (fn v.sfn.toNat a).2)) h nofun rfl rfl
        (fun a b => rfl) (.inl rfl),
      fun h => vecStep_marked (f := fun a b => if a = elemMin v.fa.toNat then (0, false) else fn 0 (a - b)) h nofun rfl rfl
        (fun a b => rfl) (.inl rfl),
      fun h => vecStep_limb h rfl rfl, fun h => vecStep_limb h rfl rfl, fun h => vecStep_limb h rfl rfl,
      fun h => congrArg Host.Outcome.next (vecStep_vend h)⟩
  · intro s k v hrows hcols hon u x y p cin hcin
    exact ⟨⟨_, _, limbOut_adc hcols hon, adc_limb (ofSigned_lt _) (ofSigned_lt _) hcin⟩,
      ⟨_, _, limbOut_sbb hcols hon, sbb_limb (ofSigned_lt _) (ofSigned_lt _) hcin⟩,
      ⟨_, _, limbOut_mulw hcols hon, mulw_limb _ _⟩⟩

/-! ## Writes in D (R207, R210) -/

/-- Engine 0 is at the first instruction of a vector program; memory is stored out of order, so that an entry hides the one at 5. -/
def disorderedState : State := { State.reset with
  mem := [(0xF00000000100, 1), (5, 7)]
  bindings := [(0, { phys := 0, unbacked := false })]
  engines := [(0, { firing := some { slot := 0, f := 0, step := 0, inVec := true } })] }

def disorderedVec : VecF := { fd := 2, fa := 2, fb := 2, d := { base := 0x100 }, a := { base := 0x200 }, b := { base := 0x300 } }

def disorderedAt : VecAt := { e := 0, x := { slot := 0, f := 0, step := 0, inVec := true }, g := gaitOf disorderedState 0 0 }

theorem vecClear_disordered : vecClear disorderedState 0 .add disorderedVec disorderedAt := by
  refine ⟨?_, ?_, ?_, ?_, ?_⟩ <;> decide +kernel

/-- Refutes O27: where memory is not in canonical form, a 0 written in D takes an entry away that hid another byte. -/
theorem not_vectorWritesInD : ¬ Obligations.VectorWritesInD := by
  intro h
  obtain ⟨-, hspad⟩ := h 0 .add disorderedVec disorderedState disorderedAt vecClear_disordered nofun rfl
  have hsame := hspad rfl 5 (.inl (by decide +kernel))
  exact absurd hsame (by decide +kernel)

end Sys2Proof.Machine
end

section
/-! # Stream programs, the Curb and the reads of streams (R238 to R306) -/
namespace Sys2Proof.Machine

/-! ## The run that takes an instruction (R249) -/

section Run

variable {e : EngId} {a : AgNo} {post : Bool} {f : StreamF} {s t : State} {i : Nat}

theorem streamStep_of_run {e : Nat} (h : streamRun e a post s = some (t, i)) (act : Nat → State → State) :
    streamStep e a post act s = act i t := by
  simp only [streamStep, h]

/-- What a command over a stream step gives where a run takes it. -/
theorem next_streamStep {e : Nat} (h : streamRun e a post s = some (t, i)) (act : Nat → State → State) {u : State}
    (hu : act i t = u) : Host.Outcome.next (streamStep e a post act s) = (.next u : Out) := by
  rw [streamStep_of_run h, hu]

end Run

theorem smod_congr {α : Type} [DecidableEq α] {d : α} {m : Sparse α} {k : Nat} {f g : α → α} (h : f (sget d m k) = g (sget d m k)) :
    smod d m k f = smod d m k g := by
  unfold smod
  rw [h]

theorem modEng_congr {e : Nat} {f g : Engine → Engine} {s : State} (h : f (engOf s e) = g (engOf s e)) :
    modEng e f s = modEng e g s :=
  congrArg (fun m => { s with engines := m }) (smod_congr h)

/-- A change of an address generator is what it makes of the one that stands there. -/
theorem modAg_congr {e a : Nat} {f g : Ag → Ag} {s : State} (h : f (agOf s e a) = g (agOf s e a)) : modAg e a f s = modAg e a g s :=
  modEng_congr (congrArg (fun m => { engOf s e with ags := m }) (smod_congr h))

/-- A change of a run is what it makes of the one that stands there. -/
theorem modRunAt_congr {e a i : Nat} {f g : Run → Run} {s : State} (h : f (runAt s e a i) = g (runAt s e a i)) :
    modRunAt e a i f s = modRunAt e a i g s := by
  refine modAg_congr (congrArg (fun l => { agOf s e a with runs := l }) ?_)
  refine List.ext_getElem? fun j => ?_
  rw [List.getElem?_modify, List.getElem?_modify]
  split
  next hij =>
    subst hij
    simp only [runAt] at h
    cases hrun : (agOf s e a).runs[i]? with
    | none => rfl
    | some r => simpa [List.getD_eq_getElem?_getD, hrun] using h
  next => rfl

/-- Settles O29: one equation per instruction on the run that may take one. -/
theorem streamRegistersAndLoops : Obligations.StreamRegistersAndLoops := by
  intro e a post f s t i h r put n left
  refine ⟨next_streamStep h _ rfl, next_streamStep h _ rfl, fun h1 h2 => next_streamStep h _ ?_, fun h1 => next_streamStep h _ ?_,
    fun h1 => next_streamStep h _ ?_, fun h1 => next_streamStep h _ ?_⟩
  · have hzero : ¬ n = 0 := Nat.one_le_iff_ne_zero.mp h1
    refine (if_neg (Nat.not_lt.mpr h2)).trans ((if_neg hzero).trans ?_)
    exact congrArg (runNext e.val a.val i) (modRunAt_congr rfl)
  · exact if_pos h1
  · refine (if_pos h1).trans ?_
    rw [show sget 0 (runAt t e.val a.val i).loops f.lvl.toNat - 1 = 0 from h1]
  · exact if_neg h1

/-- Settles O30: one equation per transfer, its refusal beside it. -/
theorem streamTransfers : Obligations.StreamTransfers := by
  intro e a f s t i
  refine ⟨fun h => ⟨fun hgood => next_streamStep h _ ?_, fun x hbad => next_streamStep h _ ?_, fun hgood => next_streamStep h _ ?_⟩,
    fun h => ⟨fun hgood => next_streamStep h _ ?_, fun x hbad => next_streamStep h _ ?_,
      fun hgood => ⟨next_streamStep h _ ?_, fun hmore hcredit => next_streamStep h _ ?_⟩⟩⟩
  · simp only [hgood]
  · simp only [hbad]
  · simp only [hgood]
  · simp only [hgood]
  · simp only [hbad]
  · simp only [hgood]
  · simp only [hgood, sendTake, Nat.not_le.mpr hmore, hcredit, ↓reduceIte]

theorem exec_runCommit {e : EngId} {a : AgNo} {s : State} {j : Nat} (hup : fabricUp s = true)
    (hsvc : coreStale s (coreOfEng e.val) = false) (hrun : (agOf s e.val a.val).runs.findIdx? (mayCommit s e.val) = some j) :
    exec (.runCommit e a) s = .next (firingReady e.val (modRunAt e.val a.val j (fun r => { r with
        committed := true, reqs := r.reqs.filter (fun q => q.stage = .dead), taken := [] })
      (agCommit e.val a.val (runBytes (runAt s e.val a.val j)) (commitData (runAt s e.val a.val j) s)))) := by
  change execRunCommit e a s = _
  simp [execRunCommit, hup, hsvc, hrun]

/-- Settles O31: one equation per end of a phase, commit and resumption. -/
theorem streamPhasesEnd : Obligations.StreamPhasesEnd := by
  intro e a f s t i
  refine ⟨fun h hgood => ⟨next_streamStep h _ ?_, next_streamStep h _ ?_⟩, fun h hgood => next_streamStep h _ ?_,
    fun x h hbad => next_streamStep h _ ?_, fun j hup hsvc hrun => exec_runCommit hup hsvc hrun, fun hup hmiss => ?_,
    fun hup hwindow => ?_⟩
  · simp only [hgood]
  · simp only [hgood, Bool.false_eq_true, ↓reduceIte]
  · simp only [hgood, ↓reduceIte]
  · simp only [hbad]
  · change execAgResume e a s = _
    simp only [execAgResume, hup, hmiss, Bool.and_self, ↓reduceIte]
  · change execRunResume e a s = _
    simp only [execRunResume, hup, hwindow, Bool.not_false, Bool.and_self, ↓reduceIte]

/-! ## The Curb (R266, R267) -/

section Curb

variable {p : PortId} {k : Fin 8} {j n : Nat} {q : CurbReq} {l : List CurbReq} {s : State}

theorem exec_curbAdmit_of_open (hup : fabricUp s = true) (hopen : curbOpen s p.val k.val = true)
    (hwait : (curbOf s p.val k.val).waiting = q :: l) :
    exec (.curbAdmit p k) s = .next (reqStage q .waiting .admitted (curbAdmit p.val k.val q
      (modCurb p.val k.val (fun c => { c with waiting := l }) s))) := by
  change execCurbAdmit p k s = _
  simp [execCurbAdmit, hup, hopen, hwait]

theorem exec_curbAdmit_of_closed (hopen : curbOpen s p.val k.val = false) : exec (.curbAdmit p k) s = .next s := by
  change execCurbAdmit p k s = _
  simp [execCurbAdmit, hopen]

/-- The port serves the first admitted request of the core whose turn it is. -/
theorem exec_curbArbitrate (hup : fabricUp s = true) (hclass : classServed s p.val = some j)
    (hturn : (if j < 3 then turnCore (curbOf s p.val j) else ((curbOf s p.val j).admitted.head?).map (fun q => q.engine / 8)) = some n)
    (hfind : (curbOf s p.val j).admitted.find? (fun x => x.engine / 8 = n) = some q) (hpage : pageReadMay s q.addr = true) :
    exec (.curbArbitrate p) s = .next (portServe q (pageReadStart q.addr (modCurb p.val j (fun c => { c with
      admitted := c.admitted.erase q, rrCore := n
      rrTurns := if n = c.rrCore && c.rrTurns < coreTurns n then c.rrTurns + 1 else 1 }) s))) := by
  change execCurbArbitrate p s = _
  simp only [execCurbArbitrate, hup, hclass, hturn, hfind, hpage, Bool.not_true, Bool.false_eq_true, ↓reduceIte]

end Curb

/-- Settles O32: the open class admits the oldest request; the port serves the one whose turn it is. -/
theorem curbServes : Obligations.CurbServes := by
  intro p k j n q l s hup
  refine ⟨exec_curbAdmit_of_open hup, exec_curbAdmit_of_closed, fun hclass hj hturn hfind hpage => ?_,
    fun hclass hj hhead hpage => ?_⟩
  · exact exec_curbArbitrate hup hclass ((if_pos hj).trans hturn) hfind hpage
  · refine exec_curbArbitrate hup hclass (if_neg (by omega) |>.trans ?_) ?_ hpage
    · rw [hhead]
      rfl
    · rw [hhead]
      simp

/-! ## What a served LOAD request brings (R301, R305) -/

section Read

variable {e : EngId} {a : AgNo} {addr : BitVec 48} {i : Nat} {q : Req} {s : State}

theorem streamServed_of_reqOut {addr : Nat} (h : reqOut s e.val a.val addr = some (i, q)) (hstage : q.stage = .served) :
    streamServed s e.val a.val addr = true := by
  simp [streamServed, h, hstage]

theorem readGood_streamLoad {addr : Nat} (h : reqOut s e.val a.val addr = some (i, q)) (hstage : q.stage = .served) :
    readGood (.streamLoad e a) addr s = reqEnd e.val a.val i q .returned (readBytes s (plainAddr s addr) q.bytes) s := by
  simp [readGood, whenB, streamServed_of_reqOut h hstage, streamReadEnd, h]

theorem readLost_streamLoad {addr b retries : Nat} {x : Ecc} (h : reqOut s e.val a.val addr = some (i, q))
    (hstage : q.stage = .served) :
    readLost (.streamLoad e a) addr b x retries s = reqEnd e.val a.val i q .returned (List.replicate q.bytes 0#8)
      (loadLost e.val a.val i q (memCode s x b) (memDetail s (memCode s x b) b retries) s) := by
  simp [readLost, whenB, streamServed_of_reqOut h hstage, streamReadEnd, h]

theorem exec_readDeadline {n elapsed : Nat} (hup : fabricUp s = true) (h : reqOut s e.val a.val addr.toNat = some (i, q))
    (hn : deadlineOf s addr.toNat = some n) :
    exec (.readDeadline e a addr elapsed) s = .next (if elapsed < n then s else
      reqEnd e.val a.val i q .dead (List.replicate q.bytes 0#8)
        (loadLost e.val a.val i q 0x0401 (item 2 e.val ++ item 1 a.val ++ item 2 (runAt s e.val a.val i).f ++ item 6 addr.toNat) s)) := by
  change execReadDeadline e a addr elapsed s = _
  simp [execReadDeadline, hup, h, hn]

theorem exec_tierReadReturn (how : ReadEnd) (w : Bool) (hup : fabricUp s = true) :
    exec (.tierReadReturn (.streamLoad e a) addr how w) s =
      .next (readEnd (.streamLoad e a) addr.toNat how (readTouch (.streamLoad e a) addr.toNat how s)) := by
  change execTierReadReturn (.streamLoad e a) addr how w s = _
  simp only [execTierReadReturn, hup, Bool.not_true, Bool.false_eq_true, ↓reduceIte]

/-- A read all of whose units pass their checks, once each is noted. -/
theorem readEnd_of_good {r : Reader} {addr : Nat} {errs : List (BitVec 48 × UnitErr)}
    (h : badUnit s (unitsIn s (plainAddr s addr) (readSize r addr s) errs) = none) :
    readEnd r addr (.data errs) s = readGood r addr
      (forEach (unitsIn s (plainAddr s addr) (readSize r addr s) errs) (fun u => readNote r u.1 u.2) s) := by
  simp only [readEnd, h]

/-- A read with a unit that fails its check. -/
theorem readEnd_of_bad {r : Reader} {addr b n : Nat} {x : Ecc} {errs : List (BitVec 48 × UnitErr)}
    (h : badUnit s (unitsIn s (plainAddr s addr) (readSize r addr s) errs) = some (b, x, n)) :
    readEnd r addr (.data errs) s = readLost r addr b x n
      (forEach (unitsIn s (plainAddr s addr) (readSize r addr s) errs) (fun u => readNote r u.1 u.2) s) := by
  simp only [readEnd, h]

end Read

/-- Settles O33: the units found are counted first; the failing one, where there is one, decides what the request brings. -/
theorem streamReadsReturn : Obligations.StreamReadsReturn := by
  intro e a addr errs elapsed n w i q s hup
  refine ⟨?_, fun h hn hlt => ?_, fun h hn hle => ?_⟩
  · intro t units u h hstage
    refine ⟨fun hgood => ?_, fun b x retries hbad => ?_⟩
    · rw [exec_tierReadReturn _ w hup, ← readGood_streamLoad h hstage]
      exact congrArg Host.Outcome.next (readEnd_of_good hgood)
    · rw [exec_tierReadReturn _ w hup, ← readLost_streamLoad h hstage]
      exact congrArg Host.Outcome.next (readEnd_of_bad hbad)
  · rw [exec_readDeadline hup h hn, if_pos hlt]
  · rw [exec_readDeadline hup h hn, if_neg (Nat.not_lt.mpr hle)]

end Sys2Proof.Machine
end

section
/-! # Pages, ports and the Farrier (R277, R278, R294, R295, R324 to R331) -/
namespace Sys2Proof.Machine

/-! ## Placement pages (R294, R295) -/

/-- A transfer at a port changes what the ports hold alone: neither the pages nor any other part. -/
theorem portTouch_eq (a n : Nat) (s : State) :
    ∃ tiers, portTouch a n s = { s with tiers := tiers } ∧ tiers.pages = s.tiers.pages := by
  unfold portTouch
  split
  · exact ⟨_, rfl, rfl⟩
  · suffices h : ∀ l : List (Nat × Nat), ∀ u : State, (∃ tiers, u = { s with tiers := tiers } ∧ tiers.pages = s.tiers.pages) →
        ∃ tiers, forEach l (fun x => modTiers (fun t => { t with
          bufs := smod [] t.bufs x.1 (lruTouch 64 x.2)
          pageReads := smod [] t.pageReads x.1 (fun l => l.filter (fun p => p ≠ x.2)) })) u = { s with tiers := tiers } ∧
          tiers.pages = s.tiers.pages from h _ s ⟨_, rfl, rfl⟩
    intro l
    induction l with
    | nil => exact fun u hu => hu
    | cons x l ih =>
      rintro u ⟨tiers, rfl, hpages⟩
      exact ih _ ⟨_, rfl, hpages⟩
  · exact ⟨_, rfl, rfl⟩

/-- A copy writes the bytes it reads; of the rest only what the ports hold changes. -/
theorem copyBytes_eq (src dst n : Nat) (s : State) :
    ∃ tiers, copyBytes src dst n s = { writeBytes dst (readBytes s src n) s with tiers := tiers } ∧ tiers.pages = s.tiers.pages := by
  obtain ⟨t1, h1, hp1⟩ := portTouch_eq src n (writeBytes dst (readBytes s src n) s)
  obtain ⟨t2, h2, hp2⟩ := portTouch_eq dst n { writeBytes dst (readBytes s src n) s with tiers := t1 }
  refine ⟨t2, ?_, ?_⟩
  · unfold copyBytes
    rw [h1, h2]
  · rw [hp2, hp1, writeBytes_eq]

theorem copyBytes_pages (src dst n : Nat) (s : State) : (copyBytes src dst n s).tiers.pages = s.tiers.pages := by
  obtain ⟨_, h, hp⟩ := copyBytes_eq src dst n s
  rw [h, hp]

theorem readByte_copyBytes (src dst n : Nat) (s : State) (i : Nat) :
    readByte (copyBytes src dst n s) i = readByte (writeBytes dst (readBytes s src n) s) i := by
  obtain ⟨_, h, _⟩ := copyBytes_eq src dst n s
  rw [h]
  exact readByte_congr rfl rfl rfl i

theorem length_readBytes (s : State) (a n : Nat) : (readBytes s a n).length = n := by
  induction n generalizing a with
  | zero => rfl
  | succ n ih => simp only [readBytes, List.length_cons, ih]

theorem readBytes_congr {s t : State} (h : ∀ i, readByte t i = readByte s i) (a n : Nat) : readBytes t a n = readBytes s a n := by
  induction n generalizing a with
  | zero => rfl
  | succ n ih => simp only [readBytes, h, ih]

/-- Page `p` is PRESENT with the backing `b`, and no longer on its way in. -/
def pageArrived (p b : Nat) (s : State) : State :=
  modTiers (fun t => { t with
    pages := sset .unmapped t.pages p (.present b), pagingIn := t.pagingIn.erase p
    pageIns32 := t.pageIns32 + 1, pageIns := acctAdd 1 t.pageIns }) (copyBytes b p (pageSize s p) s)

section Page

variable {s : State} {addr : BitVec 48} {p b : Nat}

theorem pageState_set_same (m : Sparse Page) (p : Nat) {v : Page} (hv : v ≠ .unmapped) : sget .unmapped (sset .unmapped m p v) p = v := by
  rw [sset, if_neg hv, sget_sins_same]

theorem pageState_set_other (m : Sparse Page) {p q : Nat} {v : Page} (hv : v ≠ .unmapped) (hq : q ≠ p) :
    sget .unmapped (sset .unmapped m p v) q = sget .unmapped m q := by
  rw [sset, if_neg hv, sget_sins_other _ _ _ hq]

theorem pageState_pageArrived (p b : Nat) (s : State) : pageState (pageArrived p b s) p = .present b :=
  pageState_set_same (v := .present b) _ p nofun

theorem pageState_pageArrived_other {p q : Nat} (b : Nat) (s : State) (hq : q ≠ p) : pageState (pageArrived p b s) q = pageState s q :=
  (pageState_set_other (v := .present b) _ nofun hq).trans (congrArg (fun m => sget .unmapped m q) (copyBytes_pages ..))

theorem readByte_pageArrived (p b : Nat) (s : State) (i : Nat) :
    readByte (pageArrived p b s) i = readByte (writeBytes p (readBytes s b (pageSize s p)) s) i :=
  (readByte_congr rfl rfl rfl i).trans (readByte_copyBytes ..)

/-- The page holds its backing's bytes; every byte outside it is as before. -/
theorem pageArrived_bytes (hmem : Memory.wf s.mem = true) (p b : Nat) :
    readBytes (pageArrived p b s) p (pageSize s p) = readBytes s b (pageSize s p) ∧
    ∀ i, i < p ∨ p + pageSize s p ≤ i → readByte (pageArrived p b s) i = readByte s i := by
  have hback := readBytes_writeBytes hmem p (readBytes s b (pageSize s p))
  rw [length_readBytes] at hback
  refine ⟨(readBytes_congr (readByte_pageArrived p b s) ..).trans hback, fun i hi => ?_⟩
  rw [readByte_pageArrived]
  exact readByte_writeBytes_outside hmem _ _ (by rwa [length_readBytes])

theorem exec_pageIn (hup : fabricUp s = true) (habsent : pageState s (pageOf s addr.toNat) = .absent b)
    (hin : s.tiers.pagingIn.contains (pageOf s addr.toNat) = false) (hout : s.tiers.evicting.contains (pageOf s addr.toNat) = false)
    (hopen : pageOpen s 4 (pageOf s addr.toNat) = true) (hback : pageOpen s 4 b = true) (hread : pageReadMay s b = true) :
    exec (.pageIn addr) s = .next (pageReadStart b (chargePage 4 (pageOf s addr.toNat) (pageSize s (pageOf s addr.toNat))
      (chargePage 4 b (pageSize s (pageOf s addr.toNat))
        (modTiers (fun t => { t with pagingIn := t.pagingIn ++ [pageOf s addr.toNat] }) s)))) := by
  change execPageIn addr s = _
  simp only [execPageIn, habsent, hup, hin, hout, hopen, hback, hread, Bool.not_true, Bool.or_self, Bool.false_eq_true, ↓reduceIte]

theorem exec_pageInComplete (habsent : pageState s (pageOf s addr.toNat) = .absent b)
    (hin : s.tiers.pagingIn.contains (pageOf s addr.toNat) = true) (hact : mayAct s 6 = true)
    (hpaid : pagePaid s 4 (pageOf s addr.toNat) = true) (hback : pagePaid s 4 b = true) (hup : fabricUp s = true) :
    exec (.pageInComplete addr none) s = .next (setAct 6 (pageArrived (pageOf s addr.toNat) b s)) := by
  change execPageInComplete addr none s = _
  simp only [execPageInComplete, habsent, hup, hin, hact, hpaid, hback, Bool.not_true, Bool.or_self, Bool.false_eq_true, ↓reduceIte]
  rfl

theorem exec_pageInRefused (habsent : pageState s (pageOf s addr.toNat) = .absent b)
    (hin : s.tiers.pagingIn.contains (pageOf s addr.toNat) = true) (hup : fabricUp s = true) (x : BitVec 48) :
    exec (.pageInComplete addr (some x)) s = .next
      (jobFault 0x0423 (item 6 (pageOf s addr.toNat) ++ item 6 b ++ item 6 x.toNat)
        (pageReadDrop b (modTiers (fun t => { t with pagingIn := t.pagingIn.erase (pageOf s addr.toNat) }) s))) := by
  change execPageInComplete addr (some x) s = _
  simp only [execPageInComplete, habsent, hup, hin, Bool.not_true, Bool.or_self, Bool.false_eq_true, ↓reduceIte]

theorem exec_pageEvict {o : Placed} (hact : mayAct s 6 = true) (hpresent : pageState s (pageOf s addr.toNat) = .present b)
    (hobj : objectAt s (pageOf s addr.toNat) = some o) (hevict : o.entry.evict = true) (hback : o.entry.backing ≠ 0)
    (hpin : o.entry.pin = false) :
    exec (.pageEvict addr) s = .next (setAct 6 (modTiers (fun t => { t with
      pages := sset .unmapped t.pages (pageOf s addr.toNat) (.absent b), evicting := t.evicting ++ [pageOf s addr.toNat] }) s)) := by
  change execPageEvict addr s = _
  simp [execPageEvict, hact, hpresent, hobj, hevict, hback, hpin]

end Page

/-- Settles O34: a page-in and an eviction by their pages' states; the copy's bytes by the rules of memory. -/
theorem pagesMove : Obligations.PagesMove := by
  intro addr b x o s p
  refine ⟨fun hup habsent => ⟨exec_pageIn hup habsent, fun hin hact hpaid hback => ?_, fun hin => exec_pageInRefused habsent hin hup x⟩,
    fun hact hpresent hobj hevict hback hpin => ?_, fun hup hout hquiet habsent hobj => ⟨fun hwrite hopen hback hprog => ?_,
    fun hwrite => ?_⟩⟩
  · exact ⟨_, exec_pageInComplete habsent hin hact hpaid hback hup, pageState_pageArrived .., fun hmem => pageArrived_bytes hmem ..,
      fun q hq => pageState_pageArrived_other _ _ hq⟩
  · exact ⟨_, exec_pageEvict hact hpresent hobj hevict hback hpin, rfl,
      pageState_set_same (v := .absent b.toNat) _ _ nofun, rfl⟩
  · change execEvictWriteBack addr s = _
    simp only [execEvictWriteBack, habsent, hobj, hup, hout, hquiet, hwrite, hopen, hback, hprog, p, Bool.not_true, Bool.or_self, Bool.and_self,
      Bool.and_false, Bool.false_eq_true, ↓reduceIte]
  · change execEvictWriteBack addr s = _
    simp only [execEvictWriteBack, habsent, hobj, hup, hout, hquiet, hwrite, p, Bool.not_true, Bool.or_self, Bool.false_and,
      Bool.false_eq_true, ↓reduceIte]

/-! ## Ports (R277, R278) -/

section Port

variable {p : PortId} {n : Nat} {s : State}

theorem exec_portRetrain_of_up (h : (portOf s p.val).state = 2) (b : Bool) :
    exec (.portRetrain p n b) s = .next (modPort p.val (fun k => { k with state := 3, retrains := statInc 32 k.retrains }) s) := by
  change execPortRetrain p n b s = _
  simp only [execPortRetrain, h, ↓reduceIte]

theorem exec_portRetrain_of_training (h : (portOf s p.val).state = 3) (b : Bool) :
    exec (.portRetrain p n b) s = .next (
      if b && n ≤ 3 then modPort p.val (fun k => { k with state := 2 }) s
      else if p.val < 8 then chipStop 0x0425 (item 1 p.val) true (modPort p.val (fun k => { k with state := 4 }) s)
      else jobFault 0x0424 (item 1 p.val) (modPort p.val (fun k => { k with state := 4 }) s)) := by
  change execPortRetrain p n b s = _
  simp only [execPortRetrain, h, ne_eq, not_true_eq_false, ↓reduceIte, Nat.reduceEqDiff]

theorem retrained_of_failed {b : Bool} (h : b = false ∨ 3 < n) : ¬ (b && decide (n ≤ 3)) = true := by
  simp only [Bool.and_eq_true, decide_eq_true_eq, not_and]
  rintro rfl
  simpa using h

theorem exec_portRestoreDone_failed (hup : fabricUp s = true) (h : (portOf s p.val).restoring = true) :
    exec (.portRestoreDone p false) s = .next (event 0x05C0 (item 1 p.val ++ item 1 0)
      (modPort p.val (fun k => { k with state := 4, restoring := false }) s)) := by
  change execPortRestoreDone p false s = _
  simp [execPortRestoreDone, hup, h]

theorem exec_portRestoreDone_flash (hup : fabricUp s = true) (h : (portOf s p.val).restoring = true) (hp : 24 ≤ p.val)
    (hwindow : s.stride.window = true) :
    exec (.portRestoreDone p true) s = .next (event 0x05C0 (item 1 p.val ++ item 1 1) (modPort p.val (fun k => { k with
      state := 2, restoring := false, cap := portCap s p.val, rate := portRate s p.val }) s)) := by
  change execPortRestoreDone p true s = _
  simp [execPortRestoreDone, hup, h, hwindow, Nat.not_lt.mpr hp]

end Port

/-- Settles O35: one equation per outcome of training, by tier. -/
theorem portsTrain : Obligations.PortsTrain := by
  intro p n s
  refine ⟨exec_portRetrain_of_up, fun h => ⟨fun hn => ?_, fun b hfail hp => ?_, fun b hfail hp => ?_⟩, fun hp h => ?_, fun h => ?_,
    fun hup h => ⟨exec_portRestoreDone_failed hup h, exec_portRestoreDone_flash hup h⟩⟩
  · rw [exec_portRetrain_of_training h, if_pos (by simpa using hn)]
  · rw [exec_portRetrain_of_training h, if_neg (retrained_of_failed hfail), if_pos hp]
  · rw [exec_portRetrain_of_training h, if_neg (retrained_of_failed hfail), if_neg (Nat.not_lt.mpr hp)]
  · change execPortRestore p.val s = _
    have hlt := p.isLt
    simp only [execPortRestore, portRestore, h, hp, Nat.le_of_lt_succ hlt, decide_true, Bool.and_self, ↓reduceIte]
  · change execPortRestore n s = _
    refine congrArg Host.Outcome.next (if_neg ?_)
    simp only [Bool.and_eq_true, decide_eq_true_eq]
    omega

/-! ## The Farrier (R324) -/

/-- Start-up is past stage 5, and the Ostlers are stored with two entries of one number. -/
def doubledOstlers : State := { State.reset with
  boot := { State.reset.boot with stage := 5 }
  ostlers := [(0, { tested := 1 }), (0, { region := 7 })] }

/-- The region that Ostler 0's walk is at after a command. -/
def regionAfter : Out → Nat
  | .next t => (ostlerOf t 0).region
  | _ => 0

/-- Refutes O36: where the store of Ostlers is not in canonical form, the mark of the test takes the first entry away, and the walk
goes on from the second. -/
theorem not_farrierWalks : ¬ Obligations.FarrierWalks := by
  intro h
  obtain ⟨-, -, hostler, -⟩ := h 0 0 0 0 doubledOstlers
  exact absurd (congrArg regionAfter (hostler (by decide +kernel))) (by decide +kernel)

end Sys2Proof.Machine
end

section
/-! # The Hitch (R358 to R373) -/
namespace Sys2Proof.Machine

/-! ## Launches (R358, R373) -/

/-- Action 4 is named again: nothing more happens. -/
theorem setAct_four_of_act_four {s : State} (h : s.stride.act = 4) : setAct 4 s = s := by
  have hauto : autoActs 4 s = s := by simp [autoActs, h]
  have hmax : Nat.max s.stride.act 4 = s.stride.act := Nat.max_eq_left (by omega)
  have hstride : { s.stride with act := Nat.max s.stride.act 4 } = s.stride := by rw [hmax]
  unfold setAct modStride
  rw [hauto]
  exact congrArg (fun t => { s with stride := t }) hstride

section Launch

variable {h : HitchId} {i : Fin 64} {s : State}

theorem exec_launchOpen (hup : fabricUp s = true) (hhalt : (hitchOf s h.val).halted = false)
    (hlive : hldLive s (hldOf s h.val i.val) = true) (hopen : (hstOf s h.val i.val).isOpen = false)
    (hready : ((((hstOf s h.val i.val).launch + 1) * (hldOf s h.val i.val).readyArr : Nat) : Int) ≤
      (objOf s (hldOf s h.val i.val).readyObj).value) :
    exec (.launchOpen h i) s = .next (launchOpen h.val i.val s) := by
  change execLaunchOpen h i s = _
  simp only [execLaunchOpen, hup, hhalt, hlive, hopen, Int.not_lt.mpr hready, Bool.not_true, decide_false, Bool.or_self,
    Bool.false_eq_true, ↓reduceIte]

theorem exec_launchOpen_early (hready : (objOf s (hldOf s h.val i.val).readyObj).value <
      ((((hstOf s h.val i.val).launch + 1) * (hldOf s h.val i.val).readyArr : Nat) : Int)) :
    exec (.launchOpen h i) s = .next s := by
  change execLaunchOpen h i s = _
  simp only [execLaunchOpen, hready, decide_true, Bool.or_true, ↓reduceIte]

theorem exec_launchTimeout_of_stop (hact : mayAct s 4 = true) (hstop : stopDue s = true) :
    exec (.launchTimeout h i) s = .next (setAct 4 s) := by
  change execLaunchTimeout h i s = _
  simp only [execLaunchTimeout, hact, hstop, Bool.not_true, Bool.false_eq_true, ↓reduceIte]

theorem exec_launchTimeout (hact : mayAct s 4 = true) (hstop : stopDue s = false) (hopen : (hstOf s h.val i.val).isOpen = true)
    (hwait : (hldOf s h.val i.val).retWait ≤ (hstOf s h.val i.val).waited) (hpend : retPending (hstOf s h.val i.val) ≠ 0) :
    exec (.launchTimeout h i) s = .next (launchLate h.val i.val (setAct 4 s)) := by
  change execLaunchTimeout h i s = _
  simp only [execLaunchTimeout, hact, hstop, hopen, hpend, Nat.not_lt.mpr hwait, Bool.not_true, decide_false, Bool.or_self,
    Bool.false_eq_true, ↓reduceIte]

end Launch

/-- Settles O37: one equation per launch command. -/
theorem hitchLaunches : Obligations.HitchLaunches := by
  intro h i s
  refine ⟨exec_launchOpen, exec_launchOpen_early, exec_launchTimeout_of_stop, fun hact hstop hopen hwait hpend hfour => ?_⟩
  rw [exec_launchTimeout hact hstop hopen hwait hpend, setAct_four_of_act_four hfour]
  rfl

/-! ## Messages (R360, R367 to R371) -/

section Message

variable {h : HitchId} {m : HitchHdr} {s : State}

theorem hitchArrive_of_serves {msg : HitchMsg} (hs : hitchServes s h m.epoch) (take : State → State) :
    hitchArrive h.val msg m.epoch take s = take s := by
  obtain ⟨hup, hchg, hhalt, hep⟩ := hs
  simp [hitchArrive, hup, hchg, hhalt, hep]

theorem exec_hitchReturnArrive (hs : hitchServes s h m.epoch) (x : Nat) (tag : BitVec 16) (row : List Byte) :
    exec (.hitchReturnArrive h m x tag row) s = .next (returnTake false h.val m x tag row s) :=
  congrArg Host.Outcome.next (hitchArrive_of_serves hs _)

theorem returnTake_of_open {x : Nat} {tag : BitVec 16} {row : List Byte} (reached : Bool)
    (hopen : (hstOf s h.val m.hld.val).isOpen = true) (hlate : (hstOf s h.val m.hld.val).late = false)
    (hbatch : m.batch.toNat = batchOf (hstOf s h.val m.hld.val)) :
    returnTake reached h.val m x tag row s = returnOpen reached h.val m x tag row s := by
  simp [returnTake, hopen, hlate, hbatch]

/-- What a Hitch does where every byte that it needs is at hand. -/
theorem hitchReach_of_open {h i : Nat} {l : List (Bool × Nat × Nat)} {hole go : State → State} {s : State}
    (hstop : hitchStop (hitchConsult h l s) l = none)
    (hopen : ∀ y ∈ l, transferOpen (hitchConsult h l s) 3 y.2.1 y.2.2 = true ∧ readsMay (hitchConsult h l s) y.2.1 y.2.2 = true) :
    hitchReach h i l hole go s = go (modHst h i (fun t => { t with miss := none }) (hitchConsult h l s)) := by
  have hall : l.all (fun x => transferOpen (hitchConsult h l s) 3 x.2.1 x.2.2 && readsMay (hitchConsult h l s) x.2.1 x.2.2) = true := by
    simpa only [List.all_eq_true, Bool.and_eq_true] using hopen
  simp only [hitchReach, hstop, hall, ↓reduceIte]

section Return

variable {x c : Nat} {tag : BitVec 16} {row : List Byte} {r : HRow} {k : Contrib}

theorem returnOpen_again (hrow : (hstOf s h.val m.hld.val).rows[m.token]? = some r)
    (hexp : r.accepted.findIdx? (fun c => c.expert = x) = some c) (hk : r.accepted[c]? = some k) (hret : k.ret.isSome = true)
    (reached : Bool) :
    returnOpen reached h.val m x tag row s = hitchFree h.val (.ret m x tag row)
      (jobFault 0x0604 (item 1 h.val ++ item 2 m.chip.toNat ++ item 1 0 ++ item 2 m.token ++ item 1 x) s) := by
  simp only [returnOpen, hrow, hexp, List.getD_eq_getElem?_getD, hk, Option.getD_some, hret, ↓reduceIte]

theorem returnOpen_first (hrow : (hstOf s h.val m.hld.val).rows[m.token]? = some r) (hlive : r.cancelled = false)
    (hexp : r.accepted.findIdx? (fun c => c.expert = x) = some c) (hk : r.accepted[c]? = some k) (hret : k.ret = none) :
    returnOpen false h.val m x tag row s = hitchReach h.val m.hld.val
      [(true, (hldOf s h.val m.hld.val).gatherBase + (m.token * topK (hldOf s h.val m.hld.val) + c) * retBytes (hldOf s h.val m.hld.val),
        retBytes (hldOf s h.val m.hld.val))]
      (hitchFree h.val (.ret m x tag row))
      (fun s => gatherDone h.val m.hld.val (hitchFree h.val (.ret m x tag row)
        (returnLand h.val m.hld.val m.token c tag row s))) s := by
  simp only [returnOpen, hrow, hexp, List.getD_eq_getElem?_getD, hk, Option.getD_some, hret, hlive, Option.isSome_none,
    Bool.false_eq_true, ↓reduceIte]

end Return

end Message

/-! ## Credits -/

section Credits

variable {h p : HitchId} {chip : BitVec 16} {n : Nat} {s : State}

theorem exec_hitchCreditReturn (hup : fabricUp s = true) (hchg : s.job.chgOpen = false) (hjob : jobLoaded s = true) :
    exec (.hitchCreditReturn h chip p n) s = .next (
      if sget 0 (hitchOf s h.val).owed (chip.toNat * 4 + p.val) < n then
        jobFault 0x0604 (item 1 h.val ++ item 2 chip.toNat ++ item 1 1 ++ item 2 n)
          (modHitch h.val (fun k => { k with owed := sset 0 k.owed (chip.toNat * 4 + p.val) 0 }) s)
      else hitchFlush h.val (modHitch h.val (fun k => { k with owed := smod 0 k.owed (chip.toNat * 4 + p.val) (· - n) }) s)) := by
  change Host.Outcome.next (hitchCredit h.val chip.toNat p.val n s) = _
  simp only [hitchCredit, hup, hchg, hjob, Bool.not_true, Bool.false_eq_true, ↓reduceIte]

end Credits

/-! ## The return of an expert's slots (R371) -/

section Expert

variable {s : State} {h i x n : Nat} {d : Hld}

/-- A Hitch with a live descriptor is not the empty entry. -/
theorem hlds_ne_nil_of_live (hlive : hldLive s (hldOf s h i) = true) : (hitchOf s h).hlds ≠ [] := by
  intro hnil
  simp [hldLive, hldOf, hnil, sget] at hlive

/-- The change of a launch's state leaves the experts' side alone. -/
theorem expOf_modHst (hlds : (hitchOf s h).hlds ≠ []) (f : HldState → HldState) : expOf (modHst h i f s) h i = expOf s h i := by
  have hne : { hitchOf s h with st := smod {} (hitchOf s h).st i f } ≠ ({} : Hitch) := fun he =>
    hlds (congrArg Hitch.hlds he)
  have hsame : hitchOf (modHst h i f s) h = { hitchOf s h with st := smod {} (hitchOf s h).st i f } := by
    exact (congrArg (fun m => sget ({} : Hitch) m h) (if_neg hne)).trans (sget_sins_same ..)
  unfold expOf
  rw [hsame]

theorem modExp_congr {f g : ExpSide → ExpSide} (hfg : f (expOf s h i) = g (expOf s h i)) : modExp h i f s = modExp h i g s := by
  have hexp : smod {} (hitchOf s h).exp i f = smod {} (hitchOf s h).exp i g := smod_congr hfg
  have hhitch : smod {} s.hitches h (fun k => { k with exp := smod {} k.exp i f }) =
      smod {} s.hitches h (fun k => { k with exp := smod {} k.exp i g }) :=
    smod_congr (f := fun k : Hitch => { k with exp := smod {} k.exp i f }) (g := fun k : Hitch => { k with exp := smod {} k.exp i g })
      (congrArg (fun m => { hitchOf s h with exp := m }) hexp)
  exact congrArg (fun m => { s with hitches := m }) hhitch

/-- No slot of the expert is filled in this launch. -/
def NoneFilled (k : ExpSide) (x n : Nat) : Prop := ∀ f ∈ k.filled, ¬ (f.batch = n % 256 ∧ f.expert = x)

theorem filledSlots_of_none {k : ExpSide} (hnone : NoneFilled k x n) (d : Hld) : filledSlots d k x n = [] := by
  unfold filledSlots
  rw [List.filterMap_eq_nil_iff]
  intro q _
  rw [List.find?_eq_none]
  intro f hf
  simp only [Bool.and_eq_true, decide_eq_true_eq]
  exact fun hq => hnone f hf hq.1

theorem filled_of_none {k : ExpSide} (hnone : NoneFilled k x n) :
    k.filled.filter (fun f => !(decide (f.batch = n % 256) && decide (f.expert = x))) = k.filled := by
  rw [List.filter_eq_self]
  intro f hf
  simpa only [Bool.not_eq_true', Bool.and_eq_false_iff, decide_eq_false_iff_not, not_and_or] using hnone f hf

/-- Without a slot filled the count of launches served is all that changes. -/
theorem returnsSend_of_none {i : Fin 64} (hnone : NoneFilled (expOf s h i.val) x n) :
    returnsSend h i d x n s = modExp h i.val (fun k => { k with served := sset 0 k.served x (n + 1) }) s := by
  unfold returnsSend
  rw [filledSlots_of_none hnone]
  refine modExp_congr ?_
  simp only [filled_of_none hnone]

theorem exec_expertReturnSend {h : HitchId} {i : Fin 64} (hup : fabricUp s = true) (hhalt : (hitchOf s h.val).halted = false)
    (hlive : hldLive s (hldOf s h.val i.val) = true) (hlocal : (localExperts s h.val (hldOf s h.val i.val)).contains x = true)
    (hready : sget 0 (expOf s h.val i.val).served x < (expOf s h.val i.val).ready)
    (hobj : ((sget 0 (expOf s h.val i.val).served x + 1 : Nat) : Int) ≤ (objOf s (mapOf s h.val (hldOf s h.val i.val) x).outObj).value) :
    exec (.expertReturnSend h i x) s = .next (
      let d := hldOf s h.val i.val
      let n := sget 0 (expOf s h.val i.val).served x
      hitchReach h.val i.val (ownGather s i.val x (filledSlots d (expOf s h.val i.val) x n)) (returnsSend h.val i d x n)
        (returnsSend h.val i d x n) s) := by
  change execExpertReturnSend h i x s = _
  simp only [execExpertReturnSend, hup, hhalt, hlive, hlocal, Nat.not_le.mpr hready, Int.not_lt.mpr hobj, Bool.not_true, decide_false,
    Bool.or_self, Bool.false_eq_true, ↓reduceIte]

end Expert

/-- Settles O38: one equation per message; an own area that is reached lets the launch go on. -/
theorem hitchMessages : Obligations.HitchMessages := by
  refine ⟨fun h p m x n tag chip slots row s => ⟨fun hs => ⟨?_, ?_, ?_⟩, fun hup hchg hhalt hep => ?_, fun hup hchg hjob => ?_⟩, ?_⟩
  · exact congrArg Host.Outcome.next (hitchArrive_of_serves hs _)
  · exact congrArg Host.Outcome.next (hitchArrive_of_serves hs _)
  · intro r c k d t hopen hlate hbatch hrow hlive hexp hk a u
    refine ⟨fun hret hstop htransfer hreads => ?_, fun hret => ?_⟩
    · rw [exec_hitchReturnArrive hs, returnTake_of_open _ hopen hlate hbatch, returnOpen_first hrow hlive hexp hk hret]
      exact congrArg Host.Outcome.next (hitchReach_of_open hstop (by simpa using ⟨htransfer, hreads⟩))
    · rw [exec_hitchReturnArrive hs, returnTake_of_open _ hopen hlate hbatch, returnOpen_again hrow hexp hk hret]
  · change Host.Outcome.next (hitchArrive _ _ _ _ s) = _
    simp [hitchArrive, hup, hchg, hhalt, msgHdr, hep]
  · intro key
    refine ⟨fun hle => ?_, fun hlt => ?_⟩
    · rw [exec_hitchCreditReturn hup hchg hjob, if_neg (Nat.not_lt.mpr hle)]
    · rw [exec_hitchCreditReturn hup hchg hjob, if_pos hlt]
  · intro h i x s d n l u hup hhalt hlive hlocal hready hobj hstop hopen
    have hexec := exec_expertReturnSend hup hhalt hlive hlocal hready hobj
    refine ⟨hexec.trans (congrArg Host.Outcome.next (hitchReach_of_open hstop hopen)), fun hnone => ?_⟩
    have hslots : filledSlots d (expOf s h.val i.val) x n = [] := filledSlots_of_none hnone d
    have hnil : l = [] := by simp only [l, hslots]; rfl
    refine ⟨_, ?_, rfl, rfl⟩
    refine hexec.trans (congrArg Host.Outcome.next ((hitchReach_of_open hstop hopen).trans ?_))
    change returnsSend h.val i d x n (modHst h.val i.val _ (hitchConsult h.val l s)) = _
    rw [hnil]
    refine returnsSend_of_none ?_
    rwa [show hitchConsult h.val [] s = s from rfl, expOf_modHst (hlds_ne_nil_of_live hlive)]

end Sys2Proof.Machine
end

section
/-! # Serving requests and waves (R395 to R412) -/
namespace Sys2Proof.Machine

/-! ## Requests (R395, R396) -/

section Request

variable {r : ServeReq} {n : Nat} {v : Serving} {s : State}

theorem openCheck_of_entry (hserve : serving s = some v) (hfields : checkFields 1 r (some v.vocab) = none)
    (hfree : freeEntry s v = some n) (hctx : r.count ≤ v.maxCtx) (hcount : r.count ≠ 0) : openCheck s r = .ok (n, v) := by
  simp only [openCheck, hserve, hfree, Option.map_some, hfields, Nat.not_lt.mpr hctx, hcount, ↓reduceIte]

theorem openCheck_of_full (hserve : serving s = some v) (hfields : checkFields 1 r (some v.vocab) = none)
    (hfree : freeEntry s v = none) : openCheck s r = .error ((0x0702, item 2 v.sessions), false) := by
  simp only [openCheck, hserve, hfree, Option.map_some, hfields]

theorem exec_sessOpen_ok (hadmit : admitsServe s 1 r = true) (hcheck : openCheck (admitEntry r.ring s) r = .ok (n, v)) :
    exec (.sessOpen r) s = .next (enqueue n
      { kind := .opn, req := r, handle := handleOf (sessOf (openEntry n v r (admitEntry r.ring s)) n) n }
      (openEntry n v r (admitEntry r.ring s))) := by
  change execSessOpen r s = _
  simp only [execSessOpen, hadmit, hcheck, Bool.not_true, Bool.false_eq_true, ↓reduceIte]

theorem exec_sessOpen_error {x : Reject} (hadmit : admitsServe s 1 r = true)
    (hcheck : openCheck (admitEntry r.ring s) r = .error x) :
    exec (.sessOpen r) s = .next (rejectReq { r with session := 0 } x (admitEntry r.ring s)) := by
  change execSessOpen r s = _
  simp only [execSessOpen, hadmit, hcheck, Bool.not_true, Bool.false_eq_true, ↓reduceIte]

section Append

variable (hserve : serving (admitEntry r.ring s) = some v) (hadmit : admitsServe s 2 r = true)
  (hfields : checkFields 2 r (some v.vocab) = none)

include hserve hadmit hfields

theorem exec_sessAppend_ok (hsess : checkSession (admitEntry r.ring s) r true = .ok n) (hcount : r.count ≠ 0) :
    exec (.sessAppend r) s = .next (enqueue n { kind := .append, req := r, handle := r.session } (admitEntry r.ring s)) := by
  change execSessAppend r s = _
  simp only [execSessAppend, hadmit, hserve, Option.map_some, hfields, hsess, hcount, Bool.not_true, Bool.false_eq_true, ↓reduceIte]

theorem exec_sessAppend_error {x : Reject} (hsess : checkSession (admitEntry r.ring s) r true = .error x) :
    exec (.sessAppend r) s = .next (rejectReq r x (admitEntry r.ring s)) := by
  change execSessAppend r s = _
  simp only [execSessAppend, hadmit, hserve, Option.map_some, hfields, hsess, Bool.not_true, Bool.false_eq_true, ↓reduceIte]

end Append

theorem exec_sessVerify (hserve : serving (admitEntry r.ring s) = some v) (hadmit : admitsServe s 3 r = true)
    (hfields : checkFields 3 r (some v.vocab) = none) (hsess : checkSession (admitEntry r.ring s) r true = .ok n)
    (hpend : (sessOf (admitEntry r.ring s) n).pendValid = true) (hnodes : r.count + 1 ≤ v.maxNodes) (hparent : badParent r = none)
    (hctx : (sessOf (admitEntry r.ring s) n).len + r.count + 1 ≤ v.maxCtx) :
    exec (.sessVerify r) s = .next (enqueue n { kind := .verify, req := r, handle := r.session } (admitEntry r.ring s)) := by
  change execSessVerify r s = _
  simp only [execSessVerify, hadmit, hserve, Option.map_some, Option.getD_some, hfields, hsess, hpend, Nat.not_lt.mpr hnodes, hparent,
    Nat.not_lt.mpr hctx, Bool.not_true, decide_false, Bool.or_self, Bool.false_eq_true, ↓reduceIte]

/-- CANCEL and CLOSE wait for action 3 of the next boundary. -/
theorem admitEnd_of_ok {close : Bool} (hadmit : admitsServe s (if close then 5 else 4) r = true)
    (hfields : checkFields (if close then 5 else 4) r none = none) (hsess : checkSession (admitEntry r.ring s) r false = .ok n) :
    admitEnd close r s = modServe (fun k => { k with
      cancels := k.cancels ++ [(close, r, (admitEntry r.ring s).stride.count)] }) (admitEntry r.ring s) := by
  simp only [admitEnd, hadmit, hfields, hsess, Bool.not_true, Bool.false_eq_true, ↓reduceIte]

end Request

/-- Settles O39: each request that passes its checks is the command's one accepting branch; the opened session is in the entry it
names. -/
theorem servingAdmits : Obligations.ServingAdmits := by
  intro r n v s u hserve
  refine ⟨fun hadmit hfields => ⟨fun hfree hctx hcount => ?_, fun hfree => ?_⟩, fun hadmit hfields => ⟨?_, ?_⟩,
    fun hadmit hfields => ?_, fun hadmit hfields hsess => ?_, fun hadmit hfields hsess => ?_⟩
  · exact exec_sessOpen_ok hadmit (openCheck_of_entry hserve hfields hfree hctx hcount)
  · exact exec_sessOpen_error hadmit (openCheck_of_full hserve hfields hfree)
  · exact exec_sessAppend_ok hserve hadmit hfields
  · exact fun x => exec_sessAppend_error hserve hadmit hfields
  · exact exec_sessVerify hserve hadmit hfields
  · exact congrArg Host.Outcome.next (admitEnd_of_ok (close := false) hadmit hfields hsess)
  · exact congrArg Host.Outcome.next (admitEnd_of_ok (close := true) hadmit hfields hsess)

/-! ## Waves (R397 to R400) -/

section Wave

variable {v : Serving} {s : State}

theorem exec_prefillWaveStart (hserve : serving s = some v) (hdue : waveDue s v.prefillCadence s.serve.prefillAt = true) :
    exec .prefillWaveStart s = .next (
      let u := modServe (fun k => { k with prefillWaves := k.prefillWaves + 1, prefillAt := some (jobStride s) }) (openNine s)
      fillAll (fillPrefill v u.serve.prefillWaves) (waveOrder u (fun q => !q.left.isEmpty)) (clearRows v 0 v.prefillRows u)) := by
  change execPrefillWaveStart s = _
  simp only [execPrefillWaveStart, hserve, hdue, Bool.not_true, Bool.false_eq_true, ↓reduceIte]

theorem exec_decodeWaveStart (hserve : serving s = some v) (hdue : waveDue s v.decodeCadence s.serve.decodeAt = true) :
    exec .decodeWaveStart s = .next (
      let u := modServe (fun k => { k with decodeWaves := k.decodeWaves + 1, decodeAt := some (jobStride s) }) (openNine s)
      stuckNow (decodeOrder u) (fillAll (fillDecode v u.serve.decodeWaves) (decodeOrder u)
        (clearRows v v.prefillRows v.decodeRows u))) := by
  change execDecodeWaveStart s = _
  simp only [execDecodeWaveStart, hserve, hdue, Bool.not_true, Bool.false_eq_true, ↓reduceIte]

end Wave

/-! ## Commits and ends (R405 to R412) -/

/-- Actions before 4 bring nothing with them. -/
theorem setAct_of_lt_four {k : Nat} (hk : k < 4) (s : State) :
    setAct k s = modStride (fun t => { t with act := Nat.max t.act k }) s := by
  have hauto : autoActs k s = s := by
    simp [autoActs, Nat.not_le.mpr hk, show ¬ 6 ≤ k by omega, show ¬ 7 ≤ k by omega, show ¬ 8 ≤ k by omega]
  rw [setAct, hauto]

section Commit

variable {n : Fin 16384} {v : Serving} {q : Request} {s : State}

theorem exec_stepCommit (hact : mayAct s 2 = true) (hready : stepReady s n.val = some (v, q)) (hlame : stepLame s v q = false)
    (hstate : (sessOf s n.val).state = 3) (hgood : badResult s v q = none) :
    exec (.stepCommit n) s = .next (commitStep n.val v q (forEach (stepRows q) (chargeResult v) (setAct 2 s))) := by
  change execStepCommit n s = _
  simp [execStepCommit, hact, hready, hlame, hstate, hgood]

theorem exec_prefillCommit (hact : mayAct s 2 = true) (hready : stepReady s n.val = some (v, q)) (hlame : stepLame s v q = false)
    (hstate : (sessOf s n.val).state = 2) :
    exec (.prefillCommit n) s = .next (commitChunk n.val v q (forEach (stepRows q) (chargeResult v) (setAct 2 s))) := by
  change execPrefillCommit n s = _
  simp [execPrefillCommit, hact, hready, hlame, hstate]

/-- With no request running, action 3 applies every cancel and close, all of which are due. -/
theorem exec_requestFaultEnd (hact : mayAct s 3 = true) (hnone : s.serve.order = [])
    (hdue : ∀ c ∈ s.serve.cancels, c.2.2 < s.stride.count) :
    exec .requestFaultEnd s = .next (forEach s.serve.cancels (fun c t => if c.1 then applyClose c.2.1 t else applyCancel c.2.1 t)
      (modServe (fun v => { v with cancels := [] }) (setAct 3 s))) := by
  have hall : s.serve.cancels.filter (fun c => decide (c.2.2 < s.stride.count)) = s.serve.cancels := by
    rw [List.filter_eq_self]
    simpa using hdue
  have hrest : s.serve.cancels.filter (fun c => !decide (c.2.2 < s.stride.count)) = [] := by
    rw [List.filter_eq_nil_iff]
    simpa using hdue
  change execRequestFaultEnd s = _
  rw [setAct_of_lt_four (by decide)]
  simp only [execRequestFaultEnd, hact, setAct_of_lt_four (show 3 < 4 by decide), Bool.not_true, Bool.false_eq_true, ↓reduceIte]
  simp only [modStride, modServe, hnone, hall, hrest, forEach, List.foldl_nil]

theorem exec_closeComplete (hact : mayAct s 3 = true) (hstate : (sessOf s n.val).state = 4)
    (hfree : ∀ f ∈ s.serve.freeing, ¬ (f.sess = n.val ∧ f.byClose = true)) (hnone : sget [] s.serve.closing n.val = []) :
    exec (.closeComplete n) s = .next (modServe (fun v => { v with closing := sset [] v.closing n.val [] })
      (freeSession n.val (setAct 3 s))) := by
  have hany : s.serve.freeing.any (fun f => decide (f.sess = n.val) && f.byClose) = false := by
    rw [List.any_eq_false]
    simpa using hfree
  change execCloseComplete n s = _
  simp only [execCloseComplete, hact, hstate, hany, hnone, Bool.not_true, ne_eq, not_true_eq_false, decide_false, Bool.or_self,
    Bool.false_eq_true, ↓reduceIte]
  rfl

theorem exec_slotRelease {a : BitVec 48} {f : Freeing} (hfind : s.serve.freeing.find? (fun f => f.addr = a.toNat) = some f)
    (hdue : slotDue s f = true) :
    exec (.slotRelease a) s = .next (modServe (fun v => { v with freeing := v.freeing.erase f, used := v.used.erase f.addr }) s) := by
  change execSlotRelease a s = _
  simp only [execSlotRelease, hfind, hdue, ↓reduceIte]

end Commit

/-- Settles O41: one equation per wave, commit and end. -/
theorem servingRuns : Obligations.ServingRuns :=
  ⟨fun _ _ hserve => ⟨exec_prefillWaveStart hserve, exec_decodeWaveStart hserve⟩,
    fun _ _ _ _ _ _ => ⟨fun hact hready hlame => ⟨exec_stepCommit hact hready hlame, exec_prefillCommit hact hready hlame⟩,
      exec_requestFaultEnd, exec_closeComplete, exec_slotRelease⟩⟩

end Sys2Proof.Machine
end

section
/-! # Weight commands, relays and the object directory (R415 to R436) -/
namespace Sys2Proof.Machine

/-! ## LOAD, DROP, BIND, LIST and STAGE (R419 to R432) -/

section Weight

variable {w : WeightCmd} {d : DirEntry} {t : Tack} {ok : Bool} {data : List Byte} {s : State}

/-- A LOAD that passes its checks, from its placement on. -/
theorem exec_weightLoad (hadmit : admitsWeight s 1 w = true) (hfields : weightFieldsOk 1 w = true) (hobj : w.objId ≠ 0)
    (htier : w.tier < 3) (hunits : w.bytes % 64 = 0) (hbytes : 64 ≤ w.bytes)
    (hplace : placeFails (admitEntry w.ring s) w.objId w.tier w.die w.bytes = none) :
    exec (.weightLoad w true data) s = .next (loadGo { cmd := w, data := data, left := unitsOver (pagePorts w.tier w.die) w.bytes }
      (dirAdd w.objId w.tier w.die (bit01 w.adapter) w.bytes w.modelId false (admitEntry w.ring s))) := by
  change execWeightLoad w true data s = _
  simp only [execWeightLoad, hadmit, hfields, hobj, hunits, hplace, Nat.not_le.mpr htier, Nat.not_lt.mpr hbytes, Bool.not_true, ne_eq,
    not_true_eq_false, decide_false, Bool.or_self, Bool.false_eq_true, ↓reduceIte]

theorem exec_weightLoad_full {l : List Byte} (hadmit : admitsWeight s 1 w = true) (hfields : weightFieldsOk 1 w = true)
    (hobj : w.objId ≠ 0) (htier : w.tier < 3) (hunits : w.bytes % 64 = 0) (hbytes : 64 ≤ w.bytes)
    (hplace : placeFails (admitEntry w.ring s) w.objId w.tier w.die w.bytes = some l) :
    exec (.weightLoad w ok data) s = .next (weightFault w 0x0242 l (admitEntry w.ring s)) := by
  change execWeightLoad w ok data s = _
  simp only [execWeightLoad, hadmit, hfields, hobj, hunits, hplace, Nat.not_le.mpr htier, Nat.not_lt.mpr hbytes, Bool.not_true, ne_eq,
    not_true_eq_false, decide_false, Bool.or_self, Bool.false_eq_true, ↓reduceIte]

theorem loadGo_done {x : Load} (hfind : dirFind s x.cmd.objId = some d) (hprog : mayProgram s d.base d.bytes = true)
    (hleft : (moveUnits x.left s).1 = []) :
    loadGo x s = weightDone x.cmd 0 0 d.bytes (dirStored d.objId
      (portTouch d.base d.bytes (writeBytes d.base (x.data.take d.bytes) (moveUnits x.left s).2))) := by
  simp only [loadGo, hfind, hprog, hleft, Bool.not_true, Bool.false_eq_true, ne_eq, not_true_eq_false, ↓reduceIte]

theorem loadGo_waits {x : Load} (hfind : dirFind s x.cmd.objId = some d) (hprog : mayProgram s d.base d.bytes = true)
    (hleft : (moveUnits x.left s).1 ≠ []) :
    loadGo x s = modWeights (fun w => { w with loads := w.loads ++ [{ x with left := (moveUnits x.left s).1 }] })
      (moveUnits x.left s).2 := by
  simp only [loadGo, hfind, hprog, hleft, Bool.not_true, Bool.false_eq_true, ne_eq, not_false_eq_true, ↓reduceIte]

theorem exec_weightDrop (hadmit : admitsWeight s 3 w = true) (hfields : weightFieldsOk 3 w = true)
    (hfind : dirFind (admitEntry w.ring s) w.objId = some d) (hstate : d.state ≠ 2) (hjob : d.byJob = false) (hkind : d.kind ≠ 1) :
    exec (.weightDrop w) s =
      .next (weightDone w 0 0 0 (dirSet w.objId (fun d => { d with dropReq := true }) (admitEntry w.ring s))) := by
  change execWeightDrop w s = _
  simp only [execWeightDrop, hadmit, hfields, hfind, hstate, hjob, hkind, Bool.not_true, decide_false, Bool.or_self, Bool.false_and,
    Bool.false_eq_true, ↓reduceIte]

theorem exec_weightBind_default (hadmit : admitsWeight s 5 w = true) (hfields : weightFieldsOk 5 w = true) (hsess : w.session = 0)
    (hobj : w.objId = 0) :
    exec (.weightBind w) s = .next (weightDone w 0 0 0 (modWeights (fun k => { k with deflt := 0 }) (admitEntry w.ring s))) := by
  change execWeightBind w s = _
  simp [execWeightBind, hadmit, hfields, hsess, hobj]

theorem exec_weightBind_session (hadmit : admitsWeight s 5 w = true) (hfields : weightFieldsOk 5 w = true) (hsess : w.session ≠ 0)
    (hstate : (sessOf (admitEntry w.ring s) (w.session % 16384)).state ≠ 0)
    (hhandle : handleOf (sessOf (admitEntry w.ring s) (w.session % 16384)) (w.session % 16384) = w.session)
    (hfind : dirFind (admitEntry w.ring s) w.objId = some d) (hkind : d.kind = 1) (hobj : d.state = 1 ∨ d.state = 2)
    (hbase : baseBound (admitEntry w.ring s) d.modelId = true) :
    exec (.weightBind w) s = .next (weightDone w 0 0 0
      (modWeights (fun k => { k with bindings := sset 0 k.bindings (w.session % 16384) w.objId }) (admitEntry w.ring s))) := by
  change execWeightBind w s = _
  simp [execWeightBind, hadmit, hfields, hsess, hstate, hhandle, hfind, hkind, hbase]
  exact fun _ h1 h2 => absurd hobj (not_or.mpr ⟨h1, h2⟩)

theorem exec_weightList (hadmit : admitsWeight s 6 w = true) (hfields : weightFieldsOk 6 w = true) :
    exec (.weightList w) s = .next (weightDone w 0 0 0
      (emit (.hostWrite w.status ((admitEntry w.ring s).weights.dir.map dirWords).flatten) (admitEntry w.ring s))) := by
  change execWeightList w s = _
  simp only [execWeightList, hadmit, hfields, Bool.not_true, Bool.false_eq_true, ↓reduceIte]

theorem exec_weightStage (hadmit : admitsWeight s 4 w = true) (hfields : weightFieldsOk 4 w = true) (hunits : w.bytes % 64 = 0)
    (hbytes : 64 ≤ w.bytes) (h1 : (cacheSlot (admitEntry w.ring s) w.slot).state ≠ 1)
    (h3 : (cacheSlot (admitEntry w.ring s) w.slot).state ≠ 3) :
    exec (.weightStage w ok t data) s = .next (setSlot w.slot {
      state := 1, tack := some t, digest := Config.digest 256 (data.map (fun b => b.toNat)), bytes := w.bytes
      cmd := some w, readOk := ok, image := data.take w.bytes, left := stageUnits w.bytes } (admitEntry w.ring s)) := by
  change execWeightStage w ok t data s = _
  simp only [execWeightStage, hadmit, hfields, hunits, Nat.not_lt.mpr hbytes, h1, h3, Bool.not_true, ne_eq, not_true_eq_false,
    decide_false, Bool.or_self, Bool.false_eq_true, ↓reduceIte]

end Weight

/-! ## A tack on its way into the cache (R432) -/

section Stage

variable {w : WeightCmd} {t : Tack} {k : Fin 2} {s : State} (hcmd : (cacheSlot s k).cmd = some w) (htack : (cacheSlot s k).tack = some t)
  (hstate : (cacheSlot s k).state = 1)

include hcmd htack hstate

theorem stageGo_waits (hleft : (moveUnits (cacheSlot s k).left s).1 ≠ []) :
    stageGo k s = setSlot k { cacheSlot s k with left := (moveUnits (cacheSlot s k).left s).1 } (moveUnits (cacheSlot s k).left s).2 := by
  simp only [stageGo, hcmd, htack, hstate, hleft, ne_eq, not_true_eq_false, not_false_eq_true, ↓reduceIte]

theorem stageGo_unread (hleft : (moveUnits (cacheSlot s k).left s).1 = []) (hread : (cacheSlot s k).readOk = false) :
    stageGo k s = weightFault w 0x0244 (item 8 w.src) (setSlot k {} (moveUnits (cacheSlot s k).left s).2) := by
  simp only [stageGo, hcmd, htack, hstate, hleft, hread, ne_eq, not_true_eq_false, Bool.not_false, ↓reduceIte]

theorem stageGo_good (hleft : (moveUnits (cacheSlot s k).left s).1 = []) (hread : (cacheSlot s k).readOk = true)
    (hcheck : stageCheck (moveUnits (cacheSlot s k).left s).2 t (cacheSlot s k).bytes = none) :
    stageGo k s = tellStaged t (weightDone w 0 0 (cacheSlot s k).bytes
      (setSlot k { cacheSlot s k with state := 2, cmd := none, left := [] } (moveUnits (cacheSlot s k).left s).2)) := by
  simp only [stageGo, hcmd, htack, hstate, hleft, hread, hcheck, ne_eq, not_true_eq_false, Bool.not_true, Bool.false_eq_true, ↓reduceIte]

theorem stageGo_bad {n : Nat} (hleft : (moveUnits (cacheSlot s k).left s).1 = []) (hread : (cacheSlot s k).readOk = true)
    (hcheck : stageCheck (moveUnits (cacheSlot s k).left s).2 t (cacheSlot s k).bytes = some n) :
    stageGo k s = weightFault w 0x0240 (item 1 k.val ++ item 1 n) (setSlot k {} (moveUnits (cacheSlot s k).left s).2) := by
  simp only [stageGo, hcmd, htack, hstate, hleft, hread, hcheck, ne_eq, not_true_eq_false, Bool.not_true, Bool.false_eq_true, ↓reduceIte]

end Stage

/-- Settles O42: each command past its checks is its accepting branch, with the placement as a case of its own. -/
theorem weightCommands : Obligations.WeightCommands := by
  intro w d t ok data s u
  refine ⟨fun hadmit hfields hobj htier hunits hbytes => ⟨fun hplace => ?_, fun l hplace => ?_⟩, exec_weightDrop, exec_weightBind_default,
    exec_weightBind_session, exec_weightList, exec_weightStage, fun hcmd htack hstate => ⟨stageGo_waits hcmd htack hstate,
      stageGo_unread hcmd htack hstate, stageGo_good hcmd htack hstate, fun k => stageGo_bad hcmd htack hstate⟩⟩
  · intro x m hfind hprog
    have hload := exec_weightLoad (data := data) hadmit hfields hobj htier hunits hbytes hplace
    exact ⟨fun hleft => hload.trans (congrArg Host.Outcome.next (loadGo_done hfind hprog hleft)),
      fun hleft => hload.trans (congrArg Host.Outcome.next (loadGo_waits hfind hprog hleft))⟩
  · exact exec_weightLoad_full hadmit hfields hobj htier hunits hbytes hplace

/-! ## Relays (R423 to R428) -/

theorem exec_weightRelay {w : WeightCmd} {list : List (BitVec 256)} {s : State} (hadmit : admitsWeight s 2 w = true)
    (hfields : weightFieldsOk 2 w = true) (hunits : w.bytes % 64 = 0) (hbytes : 64 ≤ w.bytes) (hhops : w.hops ≠ 0)
    (hmax : w.hops ≤ 4096) (hlength : (list.map hopDecode).length = w.hops) (hok : hopsOk (list.map hopDecode) w.bytes = true)
    (hslot : relayOf (admitEntry w.ring s) 0 = none) :
    exec (.weightRelay w true list) s = .next (relayBegin 0
      { cmd := some w, hops := list.map hopDecode, adapter := w.adapter, modelId := w.modelId, bytes := w.bytes }
      (admitEntry w.ring s)) := by
  have hfind : [(0 : Fin 2), 1].find? (fun k => (relayOf (admitEntry w.ring s) k).isNone) = some 0 := by simp [hslot]
  change execWeightRelay w true list s = _
  simp only [execWeightRelay, hadmit, hfields, hunits, Nat.not_lt.mpr hbytes, hhops, Nat.not_lt.mpr hmax, hlength, hok, hfind,
    Bool.not_true, ne_eq, not_true_eq_false, decide_false, Bool.or_self, Bool.false_eq_true, ↓reduceIte]

section Relay

variable {k : Fin 2} {r : Relay} {n : Nat} {chip : BitVec 16} {crc : Option (BitVec 32)} {data : List Byte} {s : State}

/-- The chunk is one that the relay has yet to take. -/
structure Takes (k : Fin 2) (r : Relay) (n : Nat) (s : State) : Prop where
  relay : relayOf s k = some r
  live : r.failed = false
  comes : chunkComes r n = true
  new : chunkHere r n = false
  /-- At the first hop the chunks come in order. -/
  next : r.me = 0 → n = r.got

/-- A chunk with a good copy is stored, or waits for its store. -/
theorem relayChunk_good (h : Takes k r n s) (hlength : r.me ≠ 0 → data.length = chunkLen r n) :
    relayChunk k none n (some (crc32c data)) data s = if relayWaits r n s then s else relayGood k r n data s := by
  obtain ⟨hrelay, hlive, hcomes, hnew, hnext⟩ := h
  have horder : (decide (r.me = 0) && decide (n ≠ r.got)) = false := by simpa using hnext
  have hbad : (decide (r.me ≠ 0) && decide (data.length ≠ chunkLen r n)) = false := by simpa using hlength
  simp only [relayChunk, hrelay, hlive, hcomes, hnew, horder, hbad, Option.isNone_some, ne_eq, not_true_eq_false, decide_false,
    Bool.not_true, Bool.or_self, Bool.false_or, Bool.false_eq_true, ↓reduceIte]

/-- A chunk without a good copy. -/
theorem relayChunk_bad (h : Takes k r n s) (hme : r.me ≠ 0) (hcrc : crc ≠ some (crc32c data)) :
    relayChunk k none n crc data s = relayBad k r n s := by
  obtain ⟨hrelay, hlive, hcomes, hnew, hnext⟩ := h
  simp only [relayChunk, hrelay, hlive, hcomes, hnew, hme, hcrc, Bool.not_true, ne_eq, not_false_eq_true, decide_false, decide_true,
    Bool.or_self, Bool.false_and, Bool.true_or, Bool.and_self, Bool.or_true, Bool.false_eq_true, ↓reduceIte]

theorem exec_relayChunkReceive (hup : fabricUp s = true) (crc : Option (BitVec 32)) :
    exec (.relayChunkReceive k none n crc data) s = .next (relayChunk k none n crc data s) := by
  change execRelayChunkReceive k none n crc data s = _
  simp only [execRelayChunkReceive, hup, ↓reduceIte]

/-- What a good chunk leaves of its relay. -/
def relayWith (r : Relay) (n : Nat) (data : List Byte) : Relay :=
  let r' := takeChunk n r
  { r' with owe := r'.owe ++ [n], waiting := if laterNeeds r n then r'.waiting ++ [(n, data)] else r'.waiting }

/-- The state once a good chunk is stored. -/
def relayTaken (k : Fin 2) (r : Relay) (n : Nat) (data : List Byte) (s : State) : State :=
  setRelay k (some (relayWith r n data)) (relayStored (relayWith r n data) (relayStore r n data s))

theorem relayGood_eq (k : Fin 2) (r : Relay) (n : Nat) (data : List Byte) (s : State) :
    relayGood k r n data s =
      let u := if r.me = 0 then relayTaken k r n data s
        else relayNote (hopAt r (r.me - 1)).chip k .received n (relayTaken k r n data s)
      if laterNeeds r n then relayForward k u else relayAckBack k n u := rfl

/-- A good chunk that need not wait. -/
theorem exec_relayChunkReceive_good (hup : fabricUp s = true) (h : Takes k r n s) (hwait : relayWaits r n s = false)
    (hlength : r.me ≠ 0 → data.length = chunkLen r n) :
    exec (.relayChunkReceive k none n (some (crc32c data)) data) s = .next (relayGood k r n data s) := by
  rw [exec_relayChunkReceive hup, relayChunk_good h hlength, if_neg (by rw [hwait]; exact Bool.false_ne_true)]

theorem exec_relayAck (hup : fabricUp s = true) (hrelay : relayOf s k = some r) (hask : r.asking = none)
    (hnext : r.next < r.hops.length) (hchip : chip.toNat = (hopAt r r.next).chip) (hkept : r.kept.any (fun x => x.1 = n) = true) :
    exec (.relayAck k chip n) s = .next (relayForward k (relayAckBack k n (setRelay k (some { r with
      kept := r.kept.filter (fun x => x.1 ≠ n), there := r.there.erase n }) s))) := by
  change execRelayAck k chip n s = _
  simp only [execRelayAck, hup, relayNoted, hrelay, hask, hnext, ← hchip, relayThere, hkept, Option.isNone_none, decide_true,
    Bool.and_self, Bool.not_true, Bool.false_eq_true, ↓reduceIte]

theorem exec_relayHopUnreachable (hup : fabricUp s = true) (hrelay : relayOf s k = some r) (hask : r.asking = none)
    (hnext : r.next < r.hops.length) :
    exec (.relayHopUnreachable k r.next) s = .next (relayAskFrom k (hopsAfter r r.next)
      (setRelay k (some (relayMark r.next 1 (chunksOf r r.next) r)) s)) := by
  change execRelayHopUnreachable k r.next s = _
  simp [execRelayHopUnreachable, hup, relayBreak, hrelay, hask, Nat.not_le.mpr hnext]

theorem exec_relayResumeQuery (hup : fabricUp s = true) (hrelay : relayOf s k = some r) :
    exec (.relayResumeQuery k chip) s = .next (relayNote chip.toNat k .lowest r.got s) := by
  change execRelayResumeQuery k chip s = _
  simp only [execRelayResumeQuery, hup, relayNoted, hrelay, ↓reduceIte]

theorem exec_relayComplete (hup : fabricUp s = true) (hrelay : relayOf s k = some r) (hover : relayOver r = true)
    (hcmd : r.cmd = none) : exec (.relayComplete k []) s = .next (setRelay k none s) := by
  change execRelayComplete k [] s = _
  simp only [execRelayComplete, hup, hrelay, hover, hcmd, Bool.not_true, Bool.false_eq_true, ↓reduceIte]

end Relay

/-! ## The directory (R416) -/

/-- Action 6 with no object on its way out. -/
theorem exec_objectStateUpdate {s : State} (hact : mayAct s 6 = true) (hnone : ∀ d ∈ (setAct 6 s).weights.dir, d.state ≠ 3) :
    exec .objectStateUpdate s = .next (modWeights (fun w => { w with dir := w.dir.map (fun d =>
      if d.state = 0 && d.stored && d.since < s.stride.count && pagePaid (setAct 6 s) 4 d.base then { d with state := 1 }
      else if d.state = 1 && d.byJob then { d with state := 2 }
      else if d.state = 2 && !d.byJob then { d with state := 1 }
      else if d.state = 1 && d.dropReq then { d with state := 3, since := s.stride.count } else d) }) (setAct 6 s)) := by
  have hleaving : (setAct 6 s).weights.dir.filter (fun d => decide (d.state = 3) && decide (d.since < s.stride.count)) = [] := by
    rw [List.filter_eq_nil_iff]
    intro d hd
    simp [hnone d hd]
  change execObjectStateUpdate s = _
  simp only [execObjectStateUpdate, hact, hleaving, Bool.not_true, Bool.false_eq_true, ↓reduceIte]
  rfl

/-- Settles O43: one equation per message of a relay, and action 6 as a walk over the directory's four changes of state. -/
theorem relaysMove : Obligations.RelaysMove := by
  intro w list k r n chip crc data s
  refine ⟨fun hadmit hfields hunits hbytes hhops hmax hlength hok hslot =>
      exec_weightRelay hadmit hfields hunits hbytes hhops hmax hlength hok hslot,
    fun hup hrelay => ⟨fun hlive hcomes hnew => ⟨?_, ?_⟩, fun hask hnext => ⟨?_, exec_relayHopUnreachable hup hrelay hask hnext⟩,
      exec_relayResumeQuery hup hrelay, exec_relayComplete hup hrelay⟩, exec_objectStateUpdate⟩
  · refine ⟨fun hwait hme hlength => ?_, fun hwait hme hfirst => ?_, fun hwait hme hlength => ?_⟩
    · have hgood := exec_relayChunkReceive_good hup ⟨hrelay, hlive, hcomes, hnew, fun h => absurd h hme⟩ hwait (fun _ => hlength)
      rw [relayGood_eq, if_neg hme] at hgood
      exact ⟨fun hlater => hgood.trans (congrArg Host.Outcome.next (if_pos hlater)),
        fun hlater => hgood.trans (congrArg Host.Outcome.next (if_neg (by rw [hlater]; exact Bool.false_ne_true)))⟩
    · have hgood := exec_relayChunkReceive_good (data := data) hup ⟨hrelay, hlive, hcomes, hnew, fun _ => hfirst⟩ hwait
        (fun h => absurd hme h)
      rw [relayGood_eq, if_pos hme] at hgood
      exact ⟨fun hlater => hgood.trans (congrArg Host.Outcome.next (if_pos hlater)),
        fun hlater => hgood.trans (congrArg Host.Outcome.next (if_neg (by rw [hlater]; exact Bool.false_ne_true)))⟩
    · rw [exec_relayChunkReceive hup, relayChunk_good ⟨hrelay, hlive, hcomes, hnew, fun h => absurd h hme⟩ (fun _ => hlength),
        if_pos hwait]
  · intro hme hcrc
    have hbad := (exec_relayChunkReceive (n := n) (data := data) hup crc).trans (congrArg Host.Outcome.next
      (relayChunk_bad ⟨hrelay, hlive, hcomes, hnew, fun h => absurd h hme⟩ hme hcrc))
    refine ⟨fun htries => hbad.trans (congrArg Host.Outcome.next ?_), fun htries => hbad.trans (congrArg Host.Outcome.next ?_)⟩
    · exact (if_neg hme).trans (if_pos htries)
    · exact (if_neg hme).trans (if_neg (Nat.not_lt.mpr htries))
  · exact fun hchip hkept => exec_relayAck hup hrelay hask hnext hchip hkept

end Sys2Proof.Machine
end

section
/-! # Switch-in, jobs and the changeover (R437 to R462) -/
namespace Sys2Proof.Machine

/-! ## What a boundary action and a new measurement leave alone -/

/-- A new measurement changes its generation and the records alone. -/
theorem measChange_eq (s : State) :
    ∃ sec tally host out, measChange s = { s with sec := sec, tally := tally, host := host, out := out } := by
  obtain ⟨tally, host, out, h⟩ := onlyRecords_event 0x0B80 [] (modSec (fun k => { k with measGen := k.measGen + 1 }) s)
  exact ⟨_, tally, host, out, h⟩

@[simp] theorem measChange_job (s : State) : (measChange s).job = s.job := by
  obtain ⟨_, _, _, _, h⟩ := measChange_eq s
  rw [h]

@[simp] theorem measChange_tiers (s : State) : (measChange s).tiers = s.tiers := by
  obtain ⟨_, _, _, _, h⟩ := measChange_eq s
  rw [h]

@[simp] theorem measChange_stride (s : State) : (measChange s).stride = s.stride := by
  obtain ⟨_, _, _, _, h⟩ := measChange_eq s
  rw [h]

/-- An action named again brings nothing more with it. -/
theorem setAct_setAct (k : Nat) (hk : k < 8) (s : State) : setAct k (setAct k s) = setAct k s := by
  have hact : k ≤ (setAct k s).stride.act := Nat.le_max_right ..
  have hauto : autoActs k (setAct k s) = setAct k s := by
    have h4 : (decide ((setAct k s).stride.act < 4) && decide (4 ≤ k)) = false := by
      simp only [Bool.and_eq_false_iff, decide_eq_false_iff_not]
      omega
    have h6 : (decide ((setAct k s).stride.act < 6) && decide (6 ≤ k)) = false := by
      simp only [Bool.and_eq_false_iff, decide_eq_false_iff_not]
      omega
    have h7 : (decide ((setAct k s).stride.act < 7) && decide (7 ≤ k)) = false := by
      simp only [Bool.and_eq_false_iff, decide_eq_false_iff_not]
      omega
    have h8 : (decide ((setAct k s).stride.act < 8) && decide (8 ≤ k)) = false := by
      simp only [Bool.and_eq_false_iff, decide_eq_false_iff_not]
      omega
    simp only [autoActs, h4, h6, h7, h8, Bool.false_eq_true, ↓reduceIte]
  have hstride : { (setAct k s).stride with act := Nat.max (setAct k s).stride.act k } = (setAct k s).stride := by
    have hmax : Nat.max (setAct k s).stride.act k = (setAct k s).stride.act := Nat.max_eq_left hact
    rw [hmax]
  rw [setAct, hauto]
  exact congrArg (fun t => { setAct k s with stride := t }) hstride

/-! ## The switch-in (R437 to R443) -/

section Switch

variable {j : JobCmd} {n : Fin 2} {k : Tack} {v : GroupView} {i : Install} {b : Nat} {s : State}

theorem learnGroup_setAct (v : GroupView) (k : Tack) (s : State) : learnGroup v k (setAct 7 s) = learnGroup v k s := by
  unfold learnGroup
  rw [setAct_setAct 7 (by decide)]

section Install

variable (hchosen : s.job.chosen = some j) (hact : mayAct s 7 = true) (hrun : s.job.run = none) (hhome : retHome s = true)
  (hchg : s.job.chgOpen = false) (hslot : slotWith s j.tackId false = some n) (htack : (cacheSlot s n).tack = some k)
  (hgroup : k.groupChips = 1 ∨ s.stride.markerAdvance = true)

include hchosen hact hrun hhome hchg hslot htack hgroup

theorem exec_tackInstall_ok (hrefuse : installRefusal v (learnGroup v k s) k = none) :
    exec (.tackInstall v) s = .next (installBegin j k n (learnGroup v k s)) := by
  have hstart : (decide (k.groupChips ≠ 1) && !s.stride.markerAdvance) = false := by
    rcases hgroup with h | h <;> simp [h]
  change execTackInstall v s = _
  simp only [execTackInstall, hchosen, hact, hrun, hhome, hchg, hslot, htack, hstart, hrefuse, Option.isSome_none, Bool.not_true,
    Bool.or_self, Bool.false_eq_true, ↓reduceIte]

theorem exec_tackInstall_refused {x : Nat × List Byte} (hrefuse : installRefusal v (learnGroup v k s) k = some x) :
    exec (.tackInstall v) s = .next (installRefused j x (takeFree (learnGroup v k s)).2) := by
  have hstart : (decide (k.groupChips ≠ 1) && !s.stride.markerAdvance) = false := by
    rcases hgroup with h | h <;> simp [h]
  change execTackInstall v s = _
  simp only [execTackInstall, hchosen, hact, hrun, hhome, hchg, hslot, htack, hstart, hrefuse, Option.isSome_none, Bool.not_true,
    Bool.or_self, Bool.false_eq_true, ↓reduceIte]

end Install

theorem exec_installPhaseAdvance (hinstall : s.job.install = some i) (hact : mayAct s 7 = true) (hphase : i.phase < 3)
    (hstrides : phaseStart s i (i.phase + 1) ≤ i.strides) :
    exec .installPhaseAdvance s = .next (modJob (fun j => { j with install := some { i with phase := i.phase + 1 } })
      (phaseWork (i.phase + 1) i.tack (setAct 7 s))) := by
  change execInstallPhaseAdvance s = _
  simp only [execInstallPhaseAdvance, hinstall, hact, Nat.not_le.mpr hphase, Nat.not_lt.mpr hstrides, Bool.not_true, decide_false,
    Bool.or_self, Bool.false_eq_true, ↓reduceIte]

/-- The base length and the budgets are the installed tack's. -/
def installedTerms (i : Install) (s : State) : State :=
  modStride (fun t => { t with base := i.tack.ledger.lBase, fixed := i.tack.ledger.lFixed ≠ 0, leadNow := t.markerLead })
    (modTiers (fun t => { t with uncapped4 := false, curbs := smap {} (fun _ c => { c with budgetNow := c.budget }) t.curbs }) s)

/-- The job is at its first stride; a fixed length is measured. -/
def installed (i : Install) (s : State) : State :=
  modJob (fun j => { j with install := none }) (modRun (fun r => { r with started := true, stride := 0 })
    (if i.tack.ledger.lFixed = 0 then installedTerms i s else measChange (installedTerms i s)))

theorem exec_installComplete (hdue : installDue s = some i) (hphase : i.phase = 3) :
    exec .installComplete s = .next (installed i (setAct 7 s)) := by
  change execInstallComplete s = _
  simp only [execInstallComplete, hdue, hphase, ne_eq, not_true_eq_false, ↓reduceIte]
  rfl

/-- What the start of the job leaves. -/
theorem installed_spec (i : Install) (s : State) :
    (installed i s).job.install = none ∧ (installed i s).tiers.uncapped4 = false ∧ memSame s (installed i s) ∧
    (installed i s).stride.base = i.tack.ledger.lBase ∧
    ∀ r, s.job.run = some r → ∃ q, (installed i s).job.run = some q ∧ q.started = true ∧ q.stride = 0 ∧ q.tack = r.tack := by
  have hrun : (installed i s).job.run = s.job.run.map (fun r => { r with started := true, stride := 0 }) := by
    unfold installed
    split
    · rfl
    · change Option.map _ (measChange (installedTerms i s)).job.run = _
      rw [measChange_job]
      rfl
  refine ⟨rfl, ?_, ?_, ?_, fun r hr =>
    ⟨{ r with started := true, stride := 0 }, by rw [hrun, hr]; rfl, rfl, rfl, rfl⟩⟩
  · unfold installed
    split
    · rfl
    · change (measChange (installedTerms i s)).tiers.uncapped4 = false
      rw [measChange_tiers]
      rfl
  · unfold installed
    split
    · exact readByte_congr rfl rfl rfl
    · exact readByte_congr (measChange_mem _) (measChange_scr _) (measChange_board _)
  · unfold installed
    split
    · rfl
    · change (measChange (installedTerms i s)).stride.base = _
      rw [measChange_stride]
      rfl

theorem exec_switchOverrun (hdue : installDue s = some i) (hb : 1 ≤ b) :
    exec (.switchOverrun b) s = .next (jobOver (modTiers (fun t => { t with uncapped4 := false })
      (jobFault 0x0247 (item 1 i.phase ++ item 8 b) (setAct 7 s)))) := by
  change execSwitchOverrun b s = _
  simp only [execSwitchOverrun, hdue, Nat.one_le_iff_ne_zero.mp hb, ↓reduceIte]

end Switch

/-- Settles O44: the guards of the four commands; the base length and the run's first stride are read off the installed state. -/
theorem switchIn : Obligations.SwitchIn := by
  intro j n k v i b s
  refine ⟨fun hchosen hact hrun hhome hchg hslot htack hgroup => ?_, exec_installPhaseAdvance, fun hdue => ⟨fun hphase => ?_,
    exec_switchOverrun hdue⟩⟩
  · rw [learnGroup_setAct]
    exact ⟨exec_tackInstall_ok hchosen hact hrun hhome hchg hslot htack hgroup,
      fun x => exec_tackInstall_refused hchosen hact hrun hhome hchg hslot htack hgroup⟩
  · exact ⟨_, exec_installComplete hdue hphase, installed_spec i (setAct 7 s)⟩

/-! ## Jobs (R444 to R456) -/

section Job

variable {j p : JobCmd} {r : Running} {v : BitVec 16} {s : State}

theorem exec_jobSubmit_ok (hadmit : admitsJob s 1 j = true) (hfield : submitField (admitEntry j.ring s) j = none)
    (hroom : (pendingJobs (admitEntry j.ring s)).length < 64) :
    exec (.jobSubmit j) s = .next (modJob (fun k => { k with pending := k.pending ++ [j] }) (admitEntry j.ring s)) := by
  change execJobSubmit j s = _
  simp only [execJobSubmit, hadmit, hfield, Nat.not_le.mpr hroom, Bool.not_true, Bool.false_eq_true, ↓reduceIte]

theorem exec_jobSubmit_full (hadmit : admitsJob s 1 j = true) (hfield : submitField (admitEntry j.ring s) j = none)
    (hfull : 64 ≤ (pendingJobs (admitEntry j.ring s)).length) :
    exec (.jobSubmit j) s = .next (jobRefuse j 0x0261 [] (admitEntry j.ring s)) := by
  change execJobSubmit j s = _
  simp only [execJobSubmit, hadmit, hfield, hfull, Bool.not_true, Bool.false_eq_true, ↓reduceIte]

theorem exec_jobSubmit_refused {n : Nat} (hadmit : admitsJob s 1 j = true) (hfield : submitField (admitEntry j.ring s) j = some n) :
    exec (.jobSubmit j) s = .next (jobRefuse j 0x0262 (item 1 n) (admitEntry j.ring s)) := by
  change execJobSubmit j s = _
  simp only [execJobSubmit, hadmit, hfield, Bool.not_true, Bool.false_eq_true, ↓reduceIte]

section End

variable (hrsvd : j.rsvd = false) (htag : j.cmdTag ≠ 0) (hadmit : admitsJob s 2 j = true) (hunused : jobUnused 2 j = false)

include hrsvd htag hadmit hunused

theorem exec_jobEnd_running (hrun : (admitEntry j.ring s).job.run = some r) (hend : r.endBy = false)
    (htarget : j.target = 0 ∨ r.cmd.cmdTag = j.target) :
    exec (.jobEnd j) s = .next (jobCompletion j 0 0 0 0 0 (modRun (fun r => { r with
      endBy := true, drainStart := Nat.max r.drainStart ((admitEntry j.ring s).stride.count + 1) }) (admitEntry j.ring s))) := by
  have hnamed : (decide (j.target = 0) || decide (r.cmd.cmdTag = j.target)) = true := by simpa using htarget
  change execJobEnd j s = _
  simp only [execJobEnd, hadmit, hrun, hend, hnamed, hrsvd, htag, hunused, Bool.not_true, Bool.not_false, Bool.and_self, decide_false,
    Bool.or_self, Bool.false_eq_true, ↓reduceIte]

theorem exec_jobEnd_waiting (hrun : (admitEntry j.ring s).job.run = none) (htarget : j.target ≠ 0)
    (hfind : (pendingJobs (admitEntry j.ring s)).find? (fun q => q.cmdTag = j.target) = some p) :
    exec (.jobEnd j) s = .next (jobCompletion j 0 0 0 0 0 (jobRefuse p 0x0260 (item 8 p.cmdTag) (modJob (fun k => { k with
      pending := k.pending.erase p, chosen := if k.chosen = some p then none else k.chosen }) (admitEntry j.ring s)))) := by
  change execJobEnd j s = _
  simp only [execJobEnd, hadmit, hrun, hrsvd, htag, hunused, htarget, hfind, Bool.not_true, decide_false, Bool.or_self, ne_eq,
    not_false_eq_true, decide_true, Bool.and_true, Bool.false_eq_true, ↓reduceIte]

end End

theorem exec_jobTenant (hrsvd : j.rsvd = false) (htag : j.cmdTag ≠ 0) (hadmit : admitsJob s 3 j = true)
    (hunused : jobUnused 3 j = false) :
    exec (.jobTenant j) s = .next (requestChangeover j.tenant (jobCompletion j 0 0 0 0 0 (countAdmit j.ring.val (openNine s)))) := by
  change execJobTenant j s = _
  simp only [execJobTenant, hadmit, hrsvd, htag, hunused, Bool.not_true, decide_false, Bool.or_self, Bool.false_eq_true, ↓reduceIte]

theorem exec_tenantReq (hup : fabricUp s = true) : exec (.tenantReq v) s = .next (tenantWrite v s) := by
  change execTenantReq v s = _
  simp only [execTenantReq, hup, ↓reduceIte]

theorem tenantWrite_of_free (h : changeoverPending s = false) :
    tenantWrite v s = modMgmt (fun m => { m with sdoAbort := 0 }) (requestChangeover v s) := by
  simp only [tenantWrite, h, Bool.false_eq_true, ↓reduceIte]

theorem tenantWrite_of_pending (h : changeoverPending s = true) :
    tenantWrite v s = modMgmt (fun m => { m with sdoAbort := 0x08000022 }) (requestFault 0x0263 (item 2 v.toNat) s) := by
  simp only [tenantWrite, h, ↓reduceIte]

theorem exec_jobSelection (hact : mayAct s 9 = true) : exec .jobSelection s = .next (selectJob (markerChoice s)) := by
  change execJobSelection s = _
  simp only [execJobSelection, hact, ↓reduceIte]

theorem exec_termExpiry (hact : mayAct s 9 = true) (hrun : s.job.run = some r) :
    exec .termExpiry s = .next (if r.termLeft = 0 then selectJob s else s) := by
  change execTermExpiry s = _
  simp only [execTermExpiry, hact, hrun, Bool.true_and, decide_eq_true_eq]

end Job

/-- Settles O45: one equation per branch of the job commands and of the selection. -/
theorem jobCommands : Obligations.JobCommands := by
  intro j p r v s
  refine ⟨⟨fun hadmit => ⟨exec_jobSubmit_ok hadmit, exec_jobSubmit_full hadmit, fun n => exec_jobSubmit_refused hadmit⟩,
      fun hrsvd htag hadmit hunused => ⟨exec_jobEnd_running hrsvd htag hadmit hunused, exec_jobEnd_waiting hrsvd htag hadmit hunused⟩,
      exec_jobTenant⟩,
    fun hup => ⟨fun hfree => ?_, fun hpending => ?_⟩,
    fun hact => ⟨exec_jobSelection hact, fun hrun hterm => ?_, fun hrun hterm => ?_⟩⟩
  · rw [exec_tenantReq hup, tenantWrite_of_free hfree]
  · rw [exec_tenantReq hup, tenantWrite_of_pending hpending]
  · rw [exec_termExpiry hact hrun, if_pos hterm]
  · rw [exec_termExpiry hact hrun, if_neg hterm]

end Sys2Proof.Machine
end

section
/-! # The changeover (R456 to R462) -/
namespace Sys2Proof.Machine

/-! ## The boundary's own actions leave the journal alone -/

theorem forEach_chg {α : Type} {f : α → State → State} (hf : ∀ x s, (f x s).job.chg = s.job.chg) (l : List α) (s : State) :
    (forEach l f s).job.chg = s.job.chg := by
  induction l generalizing s with
  | nil => rfl
  | cons x l ih => exact (ih (f x s)).trans (hf x s)

theorem flitOut_chg (l kind seq vc : Nat) (payload : List Byte) (s : State) :
    (flitOut l kind seq vc payload s).job.chg = s.job.chg := by
  unfold flitOut
  generalize flitBytes kind seq (linkOf s l).lastSeq vc payload = b
  rfl

theorem linkFlush_chg (l : Nat) (s : State) : (linkFlush l s).job.chg = s.job.chg := by
  unfold linkFlush
  generalize linkServe (linkOf s l).wait.length (linkOf s l) = x
  dsimp only
  rw [forEach_chg fun _ _ => flitOut_chg ..]
  rfl

theorem linkCount_chg (n l : Nat) (p : Packet) (s : State) : (linkCount n l p s).job.chg = s.job.chg := by
  unfold linkCount
  split <;> rfl

theorem linkSend_chg (n l : Nat) (fromLink : Option Nat) (dl : Nat) (p : Packet) (s : State) :
    (linkSend n l fromLink dl p s).job.chg = s.job.chg := by
  unfold linkSend linkQueue
  exact (linkFlush_chg l _).trans (linkCount_chg n l p s)

theorem sendStride_chg (dst sub : Nat) (m : Marker) (s : State) : (sendStride dst sub m s).job.chg = s.job.chg := by
  unfold sendStride packetOut segmentsOut
  dsimp only
  split
  · rfl
  · exact forEach_chg (fun _ _ => linkSend_chg ..) _ _
  · rfl

theorem event_chg (code : Nat) (detail : List Byte) (s : State) : (event code detail s).job.chg = s.job.chg := by
  obtain ⟨_, _, _, h⟩ := onlyRecords_event code detail s
  rw [h]

theorem setLen_chg (s : State) : (setLen s).job.chg = s.job.chg := by
  unfold setLen
  dsimp only
  change (ite _ _ _ : State).job.chg = _
  split
  · exact event_chg ..
  · rfl

theorem sendLenReq_chg (s : State) : (sendLenReq s).job.chg = s.job.chg := by
  unfold sendLenReq
  split
  · exact sendStride_chg ..
  · rfl

theorem rebuildImage_chg (s : State) : (rebuildImage s).job.chg = s.job.chg := by
  unfold rebuildImage
  split <;> rfl

theorem poolReleased_chg (id base bytes : Nat) (s : State) : (poolReleased id base bytes s).job.chg = s.job.chg := by
  unfold poolReleased
  dsimp only
  split
  · rfl
  · exact forEach_chg (f := freeSession) (fun _ _ => rfl) _ s

theorem placementInForce_chg (s : State) : (placementInForce s).job.chg = s.job.chg := by
  have hleaving : (forEach s.tiers.leaving (fun o => poolReleased o.entry.objId o.base (pagedBytes o.entry.tier o.entry.bytes)) s).job.chg =
      s.job.chg :=
    forEach_chg (f := fun (o : Placed) => poolReleased o.entry.objId o.base (pagedBytes o.entry.tier o.entry.bytes))
      (fun _ _ => poolReleased_chg ..) _ s
  unfold placementInForce
  dsimp only
  split
  · exact hleaving
  · exact hleaving

theorem releasePoolPages_chg (s : State) : (releasePoolPages s).job.chg = s.job.chg :=
  forEach_chg (f := fun p t => modTiers (fun k => { k with pages := sset .unmapped k.pages p .unmapped })
    (modServe (fun v => { v with poolPages := v.poolPages.erase p }) t)) (fun _ _ => rfl) _ s

theorem stopLaunches_chg (s : State) : (stopLaunches s).job.chg = s.job.chg := by
  obtain ⟨_, h⟩ := stopLaunches_eq s
  rw [h]

/-- A step that may be left out leaves the journal alone where the step does. -/
theorem ite_chg {f : State → State} {p : Prop} [Decidable p] (hf : ∀ s, (f s).job.chg = s.job.chg) (s : State) :
    (if p then f s else s).job.chg = s.job.chg := by
  split
  · exact hf s
  · rfl

@[simp] theorem setAct_chg (k : Nat) (s : State) : (setAct k s).job.chg = s.job.chg := by
  have hlen : ∀ s, (rebuildImage (sendLenReq (setLen s))).job.chg = s.job.chg := fun s =>
    (rebuildImage_chg _).trans ((sendLenReq_chg _).trans (setLen_chg s))
  have hplace : ∀ s, (quotasInForce (placementInForce s)).job.chg = s.job.chg := placementInForce_chg
  change (autoActs k s).job.chg = s.job.chg
  unfold autoActs
  dsimp only
  exact (ite_chg hlen _).trans ((ite_chg releasePoolPages_chg _).trans ((ite_chg hplace _).trans (ite_chg stopLaunches_chg s)))

/-! ## The stores at the zeroing step -/

theorem exists_of_mem_smap {α : Type} [DecidableEq α] {d : α} {f : Nat → α → α} {m : Sparse α} {p : Nat × α} (h : p ∈ smap d f m) :
    ∃ x, p.2 = f p.1 x := by
  obtain ⟨q, _, rfl⟩ := List.mem_map.mp (List.mem_filter.mp h).1
  exact ⟨q.2, rfl⟩

/-- The keys of tiers L and F say nothing about tier H. -/
theorem keyStale_of_tierH {s : State} {a : Nat} (ha : a < 0x006000000000) : keyStale s a = false := by
  have hunder : underKey s (64 * (a / 64)) = false := by
    have hl : ¬ 0x010000000000 ≤ 64 * (a / 64) := by omega
    have hf : ¬ 0x400000000000 ≤ 64 * (a / 64) := by omega
    simp [underKey, hl, hf]
  simp [keyStale, hunder]

/-- The stores as the zeroing step leaves them. -/
def zeroed (s : State) : State := zeroBytes 0 0x006000000000 (zeroStores s)

theorem sget_zeroed {s : State} (hmem : Memory.wf s.mem = true) {a : Nat}
    (ha : a < 0x006000000000 ∨ 0xF00000000000 ≤ a ∧ a < 0xF00090000000) : sget 0#8 (zeroed s).mem a = 0 := by
  change sget 0#8 (sclear (sclear s.mem 0xF00000000000 (0xF00000000000 + 0x90000000)) 0 (0 + 0x006000000000)) a = 0
  rw [sget_sclear (scanon_sclear hmem _ _), sget_sclear hmem]
  rcases ha with ha | ⟨hlo, hhi⟩
  · rw [if_pos ⟨Nat.zero_le a, by omega⟩]
    rfl
  · rw [if_pos (c := 0xF00000000000 ≤ a ∧ a < 0xF00000000000 + 0x90000000) ⟨hlo, by omega⟩]
    exact ite_self ..

theorem readByte_zeroed_tierH {s : State} (hmem : Memory.wf s.mem = true) {a : Nat} (ha : a < 0x006000000000) :
    readByte (zeroed s) a = 0 := by
  unfold readByte
  rw [keyStale_of_tierH ha]
  exact sget_zeroed hmem (.inl ha)

theorem readByte_zeroed_spad {s : State} (hmem : Memory.wf s.mem = true) {c o : Nat} (hc : c < 288) (ho : o < 0x800000) :
    readByte (zeroed s) (spadAddr c o) = 0 := by
  have hlo : 0xF00000000000 ≤ spadAddr c o := by
    unfold spadAddr
    omega
  have hhi : spadAddr c o < 0xF00090000000 := by
    unfold spadAddr
    omega
  unfold readByte
  rw [keyStale_of_spad hlo]
  exact sget_zeroed hmem (.inr ⟨hlo, hhi⟩)

theorem cores_zeroed (s : State) : (zeroed s).cores =
    smap {} (fun _ c => ({ spad := c.spad, svc := c.svc, loaded := c.loaded, far := c.far } : Core)) s.cores := rfl

theorem engines_zeroed (s : State) : (zeroed s).engines =
    smap {} (fun _ g => ({ active := g.active, stale := g.stale
                           ags := smap {} (fun _ a => { a with runs := [] }) g.ags } : Engine)) s.engines := rfl

theorem zeroed_cores {s : State} {c : Nat × Core} (h : c ∈ (zeroed s).cores) : c.2.sreg = [] ∧ c.2.threads = [] := by
  rw [cores_zeroed] at h
  obtain ⟨x, hx⟩ := exists_of_mem_smap h
  rw [hx]
  exact ⟨rfl, rfl⟩

theorem zeroed_engines {s : State} {e : Nat × Engine} (h : e ∈ (zeroed s).engines) :
    e.2.firing = none ∧ e.2.held = [] ∧ e.2.entries = [] ∧ e.2.early = [] ∧ e.2.tiles = [] ∧ e.2.res = [] ∧
      ∀ a ∈ e.2.ags, a.2.runs = [] := by
  rw [engines_zeroed] at h
  obtain ⟨x, hx⟩ := exists_of_mem_smap h
  rw [hx]
  refine ⟨rfl, rfl, rfl, rfl, rfl, rfl, fun a ha => ?_⟩
  obtain ⟨y, hy⟩ := exists_of_mem_smap (f := fun _ a => { a with runs := [] }) (m := x.ags) ha
  rw [hy]

theorem wf_chgPhase_setAct {s : State} (hmem : Memory.wf s.mem = true) (n k : Nat) :
    Memory.wf (chgPhase n (setAct k s)).mem = true := by
  have hsame : StoreSame s (chgPhase n (setAct k s)) := measChange_store (modJob_store (setAct_store (StoreSame.refl s) k) _)
  rw [hsame.1]
  exact hmem

/-! ## The steps of a changeover -/

theorem chgPhase_job (n : Nat) (s : State) : (chgPhase n s).job = { s.job with chg := { s.job.chg with phase := n } } :=
  measChange_job _

/-- The end of the tenant's sessions leaves the jobs alone. -/
theorem endTenancy_job (s : State) : (endTenancy s).job = s.job := by
  unfold endTenancy
  dsimp only
  split
  · rfl
  · split
    · exact measChange_job _
    · rfl

/-- TENANT takes the new tenant, and no request is left. -/
theorem changeoverEnd_job (s : State) : (changeoverEnd s).job.tenant = s.job.chg.newTenant ∧ (changeoverEnd s).job.chgOpen = false ∧
    (changeoverEnd s).job.tenantReq = none := by
  have hjob : ∀ u : State, (endTenancy (modSync (fun y => { y with farPaused := false }) (defaultBudgets (chgPhase 0 u)))).job =
      { u.job with chg := { u.job.chg with phase := 0 } } := fun u => (endTenancy_job _).trans (chgPhase_job 0 u)
  unfold changeoverEnd
  dsimp only
  split
  · rw [hjob]
    exact ⟨rfl, rfl, rfl⟩
  · rw [measChange_job]
    change (endTenancy _).job.tenant = _ ∧ (endTenancy _).job.chgOpen = _ ∧ (endTenancy _).job.tenantReq = _
    rw [hjob]
    exact ⟨rfl, rfl, rfl⟩

section Changeover

variable {n : BitVec 16} {s : State}

/-- The state that the opening of a changeover goes on from. -/
def changeoverOpened (n : BitVec 16) (s : State) : State :=
  chgPhase 1 (modSync (fun y => { y with farPaused := true }) (modTiers (fun t => { t with uncapped4 := true })
    (debugShut (modJob (fun j => { j with
      chgOpen := true, chgStrides := 0
      chg := { newTenant := n, oldTenant := j.tenant, phase := j.chg.phase
               attempts := if j.chg.phase = 0 then 1 else Nat.min 15 (j.chg.attempts + 1) } }) (setAct 7 s)))))

theorem exec_changeoverOpen (hact : mayAct s 7 = true) (hreq : s.job.tenantReq = some n) (hopen : s.job.chgOpen = false)
    (hrun : s.job.run = none) (hhome : retHome s = true) (ok : Bool) :
    exec (.changeoverOpen ok) s = .next (if ok then clearTenant (replaceKeys (changeoverOpened n s))
      else changeoverFailed 1 (changeoverOpened n s)) := by
  change execChangeoverOpen ok s = _
  simp only [execChangeoverOpen, hreq, hact, hopen, hrun, hhome, Option.isSome_none, Bool.not_true, Bool.or_self, Bool.false_eq_true,
    ↓reduceIte]
  rfl

theorem exec_changeoverZero (hact : mayAct s 7 = true) (hopen : s.job.chgOpen = true) (hphase : s.job.chg.phase = 1)
    (hstrides : 1 ≤ s.job.chgStrides) (ok : Bool) :
    exec (.changeoverZero ok) s = .next (if ok then zeroed (chgPhase 2 (setAct 7 s))
      else changeoverFailed 2 (chgPhase 2 (setAct 7 s))) := by
  change execChangeoverZero ok s = _
  simp only [execChangeoverZero, hact, hopen, hphase, Nat.not_lt.mpr hstrides, ne_eq, not_true_eq_false, decide_false, Bool.not_true,
    Bool.or_self, Bool.false_eq_true, ↓reduceIte]
  rfl

theorem exec_changeoverClose_phase (hact : mayAct s 7 = true) (hopen : s.job.chgOpen = true) (hphase : s.job.chg.phase = 2)
    (hstrides : 3842 ≤ s.job.chgStrides) : exec .changeoverClose s = .next (chgPhase 3 (setAct 7 s)) := by
  change execChangeoverClose s = _
  simp only [execChangeoverClose, hact, hopen, hphase, hstrides, decide_true, Bool.and_self, Bool.not_true, Bool.or_self,
    Bool.false_eq_true, ↓reduceIte]

theorem exec_changeoverClose_end (hact : mayAct s 7 = true) (hopen : s.job.chgOpen = true) (hphase : s.job.chg.phase = 3)
    (hstrides : 3843 ≤ s.job.chgStrides) : exec .changeoverClose s = .next (changeoverEnd (setAct 7 s)) := by
  change execChangeoverClose s = _
  simp only [execChangeoverClose, hact, hopen, hphase, hstrides, show ¬ (3 = 2) by decide, decide_true, decide_false, Bool.and_self,
    Bool.false_and, Bool.not_true, Bool.or_self, Bool.false_eq_true, ↓reduceIte]

end Changeover

/-- Settles O46: the zeroed stores read 0 as cleared ranges; the close hands NEWTENANT on through operations that leave the journal
alone. -/
theorem changeoverRuns : Obligations.ChangeoverRuns := by
  intro n s hact
  refine ⟨fun hreq hopen hrun hhome => ⟨exec_changeoverOpen hact hreq hopen hrun hhome true,
      exec_changeoverOpen hact hreq hopen hrun hhome false⟩,
    fun hopen hphase hstrides hmem => ⟨⟨_, exec_changeoverZero hact hopen hphase hstrides true, ?_⟩,
      exec_changeoverZero hact hopen hphase hstrides false⟩,
    exec_changeoverClose_phase hact, fun hopen hphase hstrides => ⟨_, exec_changeoverClose_end hact hopen hphase hstrides, ?_⟩⟩
  · have hwf := wf_chgPhase_setAct hmem 2 7
    have hjob : (zeroed (chgPhase 2 (setAct 7 s))).job.chg.phase = 2 := congrArg (fun j => j.chg.phase) (chgPhase_job 2 (setAct 7 s))
    exact ⟨hjob, fun a ha => readByte_zeroed_tierH hwf ha, fun c o hc ho => readByte_zeroed_spad hwf hc ho, rfl, rfl, rfl,
      fun c hc => zeroed_cores hc, fun e he => zeroed_engines he⟩
  · obtain ⟨htenant, hopen', hreq⟩ := changeoverEnd_job (setAct 7 s)
    rw [setAct_chg] at htenant
    exact ⟨htenant, hopen', hreq⟩

end Sys2Proof.Machine
end

section
/-! # Links (R467 to R502) -/
namespace Sys2Proof.Machine

/-- A value that is not a unit's reset value reads back after a write, whatever stood there. -/
theorem sget_smod_of_ne {α : Type} [DecidableEq α] {d : α} {m : Sparse α} {k : Nat} {f : α → α} (h : f (sget d m k) ≠ d) :
    sget d (smod d m k f) k = f (sget d m k) := by
  unfold smod sset
  rw [if_neg h]
  exact sget_sins_same ..

/-! ## Training (R468, R474, R501) -/

section Training

variable {l : Nat} {x : LinkTrain} {s : State}

/-- A control flit goes out; the state of the part stays. -/
theorem linkOf_sendIdent (l k : Nat) (x : LinkTrain) (c : LinkCtl) (s : State) : linkOf (sendIdent l x c s) k = linkOf s k := by
  unfold sendIdent ctlOut flitOut
  generalize flitBytes _ _ _ _ _ = b
  rfl

theorem peerFits_sendIdent (l k : Nat) (x : LinkTrain) (c d : LinkCtl) (s : State) :
    peerFits (sendIdent l x c s) k d = peerFits s k d := by
  unfold sendIdent ctlOut flitOut
  generalize flitBytes _ _ _ _ _ = b
  rfl

theorem ownChip_sendIdent (l : Nat) (x : LinkTrain) (c : LinkCtl) (s : State) : ownChip (sendIdent l x c s) = ownChip s := by
  unfold sendIdent ctlOut flitOut
  generalize flitBytes _ _ _ _ _ = b
  rfl

theorem isDown_sendIdent (l k : Nat) (x : LinkTrain) (c : LinkCtl) (s : State) : isDown (sendIdent l x c s) k = isDown s k := by
  unfold isDown
  rw [linkOf_sendIdent]

theorem linkTrained_of_short (hshort : laneCount (lanesBoth x (linkOf s l)) < 4) :
    linkTrained l x s = if isDown s l then sendIdent l x (flitDecode x.ctl).ctl s
      else linkFalls l (sendIdent l x (flitDecode x.ctl).ctl s) := by
  simp only [linkTrained, isDown_sendIdent, linkOf_sendIdent, hshort, ↓reduceIte]

section Heard

variable (hcrc : (flitDecode x.ctl).crcOk = true) (hkind : (flitDecode x.ctl).kind = 2)
  (hlanes : 4 ≤ laneCount (lanesBoth x (linkOf s l)))

include hcrc hkind hlanes

theorem linkTrained_of_fits (hfits : peerFits s l (flitDecode x.ctl).ctl = true) :
    linkTrained l x s = linkComesUp l x (flitDecode x.ctl).ctl (sendIdent l x (flitDecode x.ctl).ctl s) := by
  simp only [linkTrained, linkOf_sendIdent, peerFits_sendIdent, Nat.not_lt.mpr hlanes, hcrc, hkind, hfits, ne_eq, not_true_eq_false,
    decide_false, Bool.not_true, Bool.or_self, Bool.false_eq_true, ↓reduceIte]

theorem linkTrained_of_spine (hfits : peerFits s l (flitDecode x.ctl).ctl = false) (hz : isZ l = true) :
    linkTrained l x s = sendIdent l x (flitDecode x.ctl).ctl s := by
  simp only [linkTrained, linkOf_sendIdent, peerFits_sendIdent, Nat.not_lt.mpr hlanes, hcrc, hkind, hfits, hz, ne_eq,
    not_true_eq_false, decide_false, Bool.not_true, Bool.or_self, Bool.false_eq_true, ↓reduceIte]

theorem linkTrained_of_miswired (hfits : peerFits s l (flitDecode x.ctl).ctl = false) (hz : isZ l = false) :
    linkTrained l x s = event 0x0880 (item 2 (ownChip s) ++ item 1 l ++ item 2 (flitDecode x.ctl).ctl.chip ++
        item 1 (flitDecode x.ctl).ctl.link)
      (modLink l (fun q => { q with state := 5, peerChip := (flitDecode x.ctl).ctl.chip, peerLink := (flitDecode x.ctl).ctl.link })
        (sendIdent l x (flitDecode x.ctl).ctl s)) := by
  simp only [linkTrained, linkOf_sendIdent, peerFits_sendIdent, ownChip_sendIdent, Nat.not_lt.mpr hlanes, hcrc, hkind, hfits, hz, ne_eq,
    not_true_eq_false, decide_false, Bool.not_true, Bool.or_self, Bool.false_eq_true, ↓reduceIte]

end Heard

/-- The link as TRAINING has it. -/
theorem linkOf_training (l : Nat) (s : State) :
    linkOf (modLink l (fun q => { q with state := 1 }) s) l = { linkOf s l with state := 1 } :=
  sget_smod_of_ne (f := fun q : Link => { q with state := 1 }) fun h => Nat.one_ne_zero (congrArg Link.state h)

theorem lanesBoth_training (l : Nat) (x : LinkTrain) (s : State) :
    lanesBoth x (linkOf (modLink l (fun q => { q with state := 1 }) s) l) = lanesBoth x (linkOf s l) := by
  rw [linkOf_training]
  rfl

theorem isDown_training (l : Nat) (s : State) : isDown (modLink l (fun q => { q with state := 1 }) s) l = false := by
  unfold isDown
  rw [linkOf_training]
  rfl

theorem exec_linkTrain {l : LinkId} (hup : fabricUp s = true) (hstage : s.boot.stage ≥ 6) (hcoords : coordsSet s = true)
    (hstate : (linkOf s l.val).state < 2) (hok : x.ok = true) :
    exec (.linkTrain l x) s = .next (linkTrained l.val x (modLink l.val (fun q => { q with state := 1 }) s)) := by
  change execLinkTrain l x s = _
  simp only [execLinkTrain, hup, hcoords, hok, Nat.not_lt.mpr hstage, Nat.not_le.mpr hstate, decide_false, Bool.not_true, Bool.or_self,
    Bool.false_eq_true, ↓reduceIte]

theorem exec_linkUp {l : LinkId} (hup : fabricUp s = true) (hcoords : coordsSet s = true) (hdown : isDown s l.val = true)
    (hok : x.ok = true) : exec (.linkUp l x) s = .next (linkTrained l.val x s) := by
  change execLinkUp l x s = _
  simp only [execLinkUp, hup, hcoords, hdown, hok, Bool.and_self, ↓reduceIte]

theorem exec_linkRetrain {l : LinkId} (hup : fabricUp s = true) (hcoords : coordsSet s = true) (hstate : (linkOf s l.val).state = 5) :
    exec (.linkRetrain l) s = .next (modLink l.val (fun q => { q with state := 1 }) s) := by
  change execLinkRetrain l s = _
  simp only [execLinkRetrain, hup, hcoords, hstate, decide_true, Bool.or_true, Bool.and_self, ↓reduceIte]

end Training

/-! ## Lanes (R475, R476) -/

section Lanes

variable {l : LinkId} {k : Fin 8} {s : State} (hup : fabricUp s = true)

include hup

theorem laneTurn_of_turn (hstate : (linkOf s l.val).state = 2) (hturn : (linkOf s l.val).nextLane = k.val) :
    laneTurn l.val s = laneRemove l.val k (modLink l.val (fun q => { q with nextLane := (k.val + 1) % 8, turnAge := 0 }) s) := by
  have hlane : (⟨k.val % 8, Nat.mod_lt _ (by decide)⟩ : Fin 8) = k := Fin.ext (Nat.mod_eq_of_lt k.isLt)
  simp only [laneTurn, hup, hstate, hturn, hlane, ne_eq, not_true_eq_false, decide_false, Bool.not_true, Bool.or_self,
    Bool.false_eq_true, ↓reduceIte]

theorem laneRemove_of_spare (hstate : (linkOf s l.val).state = 2) (hlane : (linkOf s l.val).lanesUp.getLsbD k.val = true)
    (hspare : 4 < laneCount (linkOf s l.val).lanesUp) :
    laneRemove l.val k s = ctlOut l.val { laneOp := 1, lane := k.val } (laneOut l.val k s) := by
  simp only [laneRemove, hup, hstate, hlane, Nat.not_le.mpr hspare, ne_eq, not_true_eq_false, decide_false, Bool.not_true, Bool.or_self,
    Bool.false_eq_true, ↓reduceIte]

theorem laneRemove_of_last (hstate : (linkOf s l.val).state = 2) (hlane : (linkOf s l.val).lanesUp.getLsbD k.val = true)
    (hlast : laneCount (linkOf s l.val).lanesUp ≤ 4) : laneRemove l.val k s = linkFalls l.val s := by
  simp only [laneRemove, hup, hstate, hlane, hlast, ne_eq, not_true_eq_false, decide_false, Bool.not_true, Bool.or_self,
    Bool.false_eq_true, ↓reduceIte]

omit hup in
theorem exec_laneRecal_turn (hturn : (linkOf s l.val).nextLane = k.val) (hage : s.links.recalInterval ≤ (linkOf s l.val).turnAge) :
    exec (.laneRecal l k) s = .next (laneTurn l.val s) := by
  change execLaneRecal l k s = _
  simp only [execLaneRecal, hturn, hage, decide_true, Bool.and_self, ↓reduceIte]

omit hup in
theorem exec_laneRecal_poor (hturn : (linkOf s l.val).nextLane ≠ k.val) (hpoor : lanePoor (linkOf s l.val) k.val = true) :
    exec (.laneRecal l k) s = .next (laneRemove l.val k s) := by
  change execLaneRecal l k s = _
  simp only [execLaneRecal, hturn, hpoor, decide_false, Bool.and_false, Bool.false_eq_true, ↓reduceIte]

theorem exec_laneRestore (hstate : (linkOf s l.val).state = 3) (hlane : (linkOf s l.val).lane = some k) :
    exec (.laneRestore l true) s = .next (ctlOut l.val { laneOp := 2, lane := k.val } (laneBack l.val k s)) := by
  change execLaneRestore l true s = _
  simp only [execLaneRestore, hup, hstate, hlane, ne_eq, not_true_eq_false, decide_false, Bool.not_true, Bool.or_self,
    Bool.false_eq_true, ↓reduceIte]

end Lanes

/-! ## Flits (R478 to R486, R497) -/

section Flits

variable {l : LinkId} {raw : BitVec 2304} {fixed : Option (BitVec 2112)} {b : BitVec 2112} {d : List Nat} {g : Flit} {s : State}

/-- The state that a good flit goes on from: its acknowledgement taken, and what that lets go sent. -/
def flitHeard (l : Nat) (g : Flit) (s : State) : State :=
  linkFlush l (modLink l (fun q => takeAck g.ack { q with flitAt := s.stride.count }) s)

theorem flitGood_data (hkind : g.kind = 1) : flitGood l.val g s =
    if flitFits (linkOf (flitHeard l.val g s) l.val) g then dataTake l.val g (flitHeard l.val g s) else nakOut l.val (flitHeard l.val g s) := by
  simp only [flitGood, hkind, ↓reduceIte]
  rfl

theorem flitGood_control (hkind : g.kind = 2) (hrsvd : g.rsvd = false) :
    flitGood l.val g s = linkControl l.val g.ctl (flitHeard l.val g s) := by
  simp only [flitGood, hkind, hrsvd, show ¬ (2 = 1) by decide, Bool.false_eq_true, ↓reduceIte]
  rfl

variable (hup : fabricUp s = true) (hlive : linkLive s l.val = true) (hfixed : flitCorrect raw fixed = some (b, d))

include hup hlive hfixed

theorem exec_flitReceive_good (hcrc : (flitDecode b).crcOk = true) (hkind : (flitDecode b).kind < 3) :
    exec (.flitReceive l raw fixed) s = .next (flitGood l.val (flitDecode b) (modLink l.val (countFixed d) s)) := by
  change execFlitReceive l raw fixed s = _
  simp only [execFlitReceive, hup, hlive, hfixed, hcrc, Nat.not_le.mpr hkind, Bool.not_true, Bool.or_self, Bool.false_eq_true, ↓reduceIte]

theorem exec_flitReceive_bad (hcrc : (flitDecode b).crcOk = false) (hkind : (flitDecode b).kind = 1) :
    exec (.flitReceive l raw fixed) s =
      .next (nakOut l.val (modLink l.val (fun q => { q with crcFail := statInc 12 q.crcFail }) (modLink l.val (countFixed d) s))) := by
  change execFlitReceive l raw fixed s = _
  simp only [execFlitReceive, hup, hlive, hfixed, hcrc, hkind, show ¬ (3 ≤ 1) by decide, Bool.not_true, Bool.not_false, Bool.or_self,
    Bool.false_eq_true, ↓reduceIte]

end Flits

theorem exec_replayTimeout {l : LinkId} {n : Nat} {s : State} (hup : fabricUp s = true) (hlive : linkLive s l.val = true) (hn : 192 ≤ n) :
    exec (.replayTimeout l n) s = .next (linkReplay l.val s) := by
  change execReplayTimeout l n s = _
  simp only [execReplayTimeout, hup, hlive, hn, decide_true, Bool.and_self, ↓reduceIte]

theorem exec_linkGoesDown {l : LinkId} {w : DownCause} {s : State} (hup : fabricUp s = true) (hlive : linkLive s l.val = true)
    (hcause : causeDown w = true) : exec (.linkGoesDown l w) s = .next (linkFalls l.val s) := by
  change execLinkGoesDown l w s = _
  simp only [execLinkGoesDown, hup, hlive, hcause, Bool.and_self, ↓reduceIte]

/-- Settles O47: a link in TRAINING keeps its lanes, so that each outcome of `linkTrained` is that of the link before; one equation per
lane and flit rule. -/
theorem linksRun : Obligations.LinksRun := by
  intro l x k raw fixed n w s hup
  dsimp only
  refine ⟨fun hstage hcoords hstate hok => ?_, exec_linkRetrain hup, fun hcoords hdown hok => ?_, fun hstate => ?_,
    exec_laneRestore hup, fun hlive => ⟨fun b d hfixed => ?_, exec_replayTimeout hup hlive, exec_linkGoesDown hup hlive⟩⟩
  · rw [exec_linkTrain hup hstage hcoords hstate hok]
    have hlanes := lanesBoth_training l.val x s
    refine ⟨fun ⟨hcrc, hkind, hheard⟩ hfits => congrArg Host.Outcome.next (linkTrained_of_fits hcrc hkind (by rwa [hlanes]) hfits),
      fun ⟨hcrc, hkind, hheard⟩ hfits hz => congrArg Host.Outcome.next (linkTrained_of_miswired hcrc hkind (by rwa [hlanes]) hfits hz),
      fun ⟨hcrc, hkind, hheard⟩ hfits hz => congrArg Host.Outcome.next (linkTrained_of_spine hcrc hkind (by rwa [hlanes]) hfits hz),
      fun hshort => ?_⟩
    rw [linkTrained_of_short (by rwa [hlanes]), isDown_training]
    rfl
  · rw [exec_linkUp hup hcoords hdown hok]
    refine ⟨fun ⟨hcrc, hkind, hlanes⟩ hfits => ?_, fun hshort => ?_⟩
    · rw [linkTrained_of_fits hcrc hkind hlanes hfits]
    · rw [linkTrained_of_short hshort, if_pos hdown]
  · refine ⟨fun hturn => ⟨?_, fun hage => ?_⟩, exec_laneRecal_poor, fun hlane => ⟨laneRemove_of_spare hup hstate hlane,
      laneRemove_of_last hup hstate hlane⟩⟩
    · exact congrArg Host.Outcome.next (laneTurn_of_turn hup hstate hturn)
    · rw [exec_laneRecal_turn hturn hage, laneTurn_of_turn hup hstate hturn]
  · refine ⟨fun hcrc hkind hfits => ?_, fun hcrc hkind hfits => ?_, fun hcrc hkind hrsvd => ?_,
      exec_flitReceive_bad hup hlive hfixed⟩
    · rw [exec_flitReceive_good hup hlive hfixed hcrc (by omega), flitGood_data hkind]
      exact congrArg Host.Outcome.next (if_pos hfits)
    · rw [exec_flitReceive_good hup hlive hfixed hcrc (by omega), flitGood_data hkind]
      exact congrArg Host.Outcome.next (if_neg (by rw [Bool.not_eq_true]; exact hfits))
    · rw [exec_flitReceive_good hup hlive hfixed hcrc (by omega), flitGood_control hkind hrsvd]
      rfl

end Sys2Proof.Machine
end

section
/-! # Packets (R478 to R500) -/
namespace Sys2Proof.Machine

section Packets

variable {l : LinkId} {vc : Fin 10} {i : InPacket} {k n : Nat} {s : State}

/-- The packet is taken up, and its buffer given back. -/
def packetTaken (l : LinkId) (vc : Fin 10) (i : InPacket) (u : State) : State :=
  vcFreed l.val vc.val i.frees (modLink l.val (fun q => { q with inPkts := q.inPkts.eraseP (fun q => q.vc = vc.val) }) u)

theorem exec_packetReceive (hup : fabricUp s = true) (hfirst : (linkOf s l.val).inPkts.find? (fun q => q.vc = vc.val) = some i) :
    exec (.packetReceive l vc) s = .next (if (packetTake l vc.val i.pkt s).2 then packetTaken l vc i (packetTake l vc.val i.pkt s).1
      else (packetTake l vc.val i.pkt s).1) := by
  change execPacketReceive l vc s = _
  simp only [execPacketReceive, hfirst, hup, Bool.not_true, Bool.false_eq_true, ↓reduceIte]
  rfl

/-- What becomes of a packet that is taken up at once. -/
theorem exec_packetReceive_taken (hup : fabricUp s = true)
    (hfirst : (linkOf s l.val).inPkts.find? (fun q => q.vc = vc.val) = some i) {u : State} (htake : packetTake l vc.val i.pkt s = (u, true)) :
    exec (.packetReceive l vc) s = .next (packetTaken l vc i u) := by
  rw [exec_packetReceive hup hfirst, htake]
  rfl

/-- What becomes of a packet that stays in its queue. -/
theorem exec_packetReceive_held (hup : fabricUp s = true)
    (hfirst : (linkOf s l.val).inPkts.find? (fun q => q.vc = vc.val) = some i) {u : State} (htake : packetTake l vc.val i.pkt s = (u, false)) :
    exec (.packetReceive l vc) s = .next u := by
  rw [exec_packetReceive hup hfirst, htake]
  rfl

section Good

variable {p : Packet} (htype : p.type < 11) (hrsvd : p.rsvd = false)

include htype hrsvd

theorem packetTake_of_here (hroute : routeNext s p.dstChip.toNat p.dstDie (failsOver p.type) = .here) (v : Nat) :
    packetTake l v p s = packetDeliver { p with fromLink := l } s := by
  simp only [packetTake, hrsvd, hroute, Nat.not_le.mpr htype, decide_false, Bool.or_self, Bool.false_eq_true, ↓reduceIte]

theorem packetTake_of_room (hroute : routeNext s p.dstChip.toNat p.dstDie (failsOver p.type) = .link k) {v : Nat}
    (hroom : linkRoom s k (2 * packetClass p.type + dateline s (some l.val) (v % 2) k) = true) :
    packetTake l v p s = (linkSend (jobStride s) k (some l.val) (v % 2) { p with fromLink := l } s, true) := by
  simp only [packetTake, hrsvd, hroute, hroom, Nat.not_le.mpr htype, decide_false, Bool.or_self, Bool.false_eq_true, ↓reduceIte]

theorem packetTake_of_full (hroute : routeNext s p.dstChip.toNat p.dstDie (failsOver p.type) = .link k) {v : Nat}
    (hroom : linkRoom s k (2 * packetClass p.type + dateline s (some l.val) (v % 2) k) = false) :
    packetTake l v p s = (s, false) := by
  simp only [packetTake, hrsvd, hroute, hroom, Nat.not_le.mpr htype, decide_false, Bool.or_self, Bool.false_eq_true, ↓reduceIte]

theorem packetTake_of_nowhere (hroute : routeNext s p.dstChip.toNat p.dstDie (failsOver p.type) = .nowhere n) (v : Nat) :
    packetTake l v p s = (packetLost n { p with fromLink := l } s, true) := by
  simp only [packetTake, hrsvd, hroute, Nat.not_le.mpr htype, decide_false, Bool.or_self, Bool.false_eq_true, ↓reduceIte]

end Good

theorem packetTake_of_bad {p : Packet} (hbad : p.rsvd = true ∨ 11 ≤ p.type) (v : Nat) :
    packetTake l v p s = (modMgmt (fun m => { m with badPackets := statInc 32 m.badPackets }) s, true) := by
  have hbad' : (decide (11 ≤ p.type) || p.rsvd) = true := by
    rcases hbad with h | h <;> simp [h]
  simp only [packetTake, hbad', ↓reduceIte]

end Packets

/-! ## UNREACH and LINK_DOWN (R496, R497, R501) -/

theorem exec_unreachReceive {header : BitVec 128} {n : Nat} {s : State} (hup : fabricUp s = true) :
    exec (.unreachReceive header n) s = .next (unreachAct (packetDecode header []) n s) := by
  change execUnreachReceive header n s = _
  simp only [execUnreachReceive, hup, ↓reduceIte]

theorem unreachAct_of_job {p : Packet} (h : p.type = 1 ∨ p.type = 2 ∨ p.type = 5 ∨ p.type = 6) (n : Nat) (s : State) :
    unreachAct p n s = lostJob p n s := by
  have h' : (decide (p.type = 1) || decide (p.type = 2) || decide (p.type = 5) || decide (p.type = 6)) = true := by
    rcases h with h | h | h | h <;> simp [h]
  simp only [unreachAct, h', ↓reduceIte]

theorem unreachAct_of_answer {p : Packet} (h : p.type = 4 ∨ p.type = 9) (n : Nat) (s : State) : unreachAct p n s = linkDiscard s := by
  rcases h with h | h <;> simp [unreachAct, h]

/-- The job's link is gone from its set, and so are those that had fallen. -/
def linkDropped (l : Nat) (t : State) : State :=
  modRun (fun r => { r with linkSet := r.linkSet.filter (fun x => x.1 ≠ ownChip t || !([l]).contains x.2), fell := [] }) t

theorem linkDropped_install (l : Nat) (t : State) : (linkDropped l t).job.install = t.job.install := rfl

/-- The one link of the job's set is down. -/
theorem linkDownJob_of_one {l : LinkId} {r : Running} {s : State} (hrun : s.job.run = some r) (hset : r.linkSet = [(ownChip s, l.val)])
    (hdown : isDown s l.val = true) :
    linkDownJob s =
      (let t := linkDropped l.val (jobFault 0x0801 (downDetail (setAct 1 s) l.val) (setAct 1 s))
       if t.job.install.isSome then jobOver (modTiers (fun t => { t with uncapped4 := false }) t) else t) := by
  have hown : (r.linkSet.filter (fun x => x.1 = ownChip s)).map (fun x => x.2) = [l.val] := by
    simp [hset]
  have hfell : ([l.val]).filter (fun i => isDown s i || r.fell.contains i) = [l.val] := by
    simp [hdown]
  simp only [linkDownJob, hrun, hown, hfell]
  rfl

theorem exec_linkDown {s : State} (hact : mayAct s 1 = true) : exec .linkDown s = .next (linkDownJob s) := by
  change execLinkDown s = _
  simp only [execLinkDown, hact, ↓reduceIte]

/-- Settles O48: a packet is what `packetTake` makes of it, one lemma per route; the link set of one link is walked once. -/
theorem packetsMove : Obligations.PacketsMove := by
  intro l vc i header n k s hup
  refine ⟨fun hfirst => ⟨fun htype hrsvd => ⟨fun hroute => ⟨fun hdone => ?_, fun hdone => ?_⟩, fun hroute => ⟨fun hroom => ?_,
      fun hroom => ?_⟩, fun hroute => ?_⟩, fun hbad => ?_⟩, ⟨fun htype => ?_, fun htype => ?_⟩, fun r hrun hact hset hdown => ?_⟩
  · refine exec_packetReceive_taken hup hfirst ?_
    rw [packetTake_of_here (l := l) (p := i.pkt) htype hrsvd hroute]
    exact Prod.ext rfl hdone
  · refine exec_packetReceive_held hup hfirst ?_
    rw [packetTake_of_here (l := l) (p := i.pkt) htype hrsvd hroute]
    exact Prod.ext rfl hdone
  · exact exec_packetReceive_taken hup hfirst (packetTake_of_room (p := i.pkt) htype hrsvd hroute hroom)
  · exact exec_packetReceive_held hup hfirst (packetTake_of_full (p := i.pkt) htype hrsvd hroute hroom)
  · exact exec_packetReceive_taken hup hfirst (packetTake_of_nowhere (p := i.pkt) htype hrsvd hroute vc.val)
  · exact exec_packetReceive_taken hup hfirst (packetTake_of_bad (p := i.pkt) hbad vc.val)
  · rw [exec_unreachReceive hup, unreachAct_of_job htype]
  · rw [exec_unreachReceive hup, unreachAct_of_answer htype]
  · rw [exec_linkDown hact, linkDownJob_of_one hrun hset hdown]
    refine ⟨fun hinstall => ?_, fun hinstall => ?_⟩
    · exact congrArg Host.Outcome.next (if_neg (by simpa [linkDropped_install] using hinstall))
    · exact congrArg Host.Outcome.next (if_pos (by simpa [linkDropped_install, Option.isSome_iff_ne_none] using hinstall))

end Sys2Proof.Machine
end

section
/-! # The host's side (R504 to R523) -/
namespace Sys2Proof.Machine

/-! ## The rings (R508 to R516) -/

/-- What a sparse store reads is its default or one of its values. -/
theorem sget_mem_or {α : Type} (d : α) (m : Sparse α) (k : Nat) : sget d m k = d ∨ ∃ p ∈ m, sget d m k = p.2 := by
  induction m with
  | nil => exact .inl rfl
  | cons p m ih =>
    obtain ⟨j, x⟩ := p
    by_cases hkj : k = j
    · exact .inr ⟨(j, x), List.mem_cons_self, by rw [sget, if_pos hkj]⟩
    · by_cases hlt : k < j
      · exact .inl (by rw [sget, if_neg hkj, if_pos hlt])
      · have hrest : sget d ((j, x) :: m) k = sget d m k := by rw [sget, if_neg hkj, if_neg hlt]
        rw [hrest]
        exact ih.imp id fun ⟨p, hp, h⟩ => ⟨p, List.mem_cons_of_mem _ hp, h⟩

theorem forEach_self {α : Type} {f : α → State → State} {s : State} (l : List α) (h : ∀ x ∈ l, f x s = s) : forEach l f s = s := by
  induction l with
  | nil => rfl
  | cons x l ih =>
    change forEach l f (f x s) = s
    rw [h x List.mem_cons_self]
    exact ih fun y hy => h y (List.mem_cons_of_mem _ hy)

section Host

variable {r : RingId} {c : Completion} {l : List Completion} {s : State}

theorem exec_ringSnapshot (v : List (RingId × RingView)) (hwindow : s.stride.window = false) (hstage : 7 ≤ s.boot.stage)
    (hhost : hostUp s = true) (hadmit : admitOk s = true) (hchg : changeoverPending s = false) (hpolled : s.host.polled = false) :
    exec (.ringSnapshot v) s = .next (modHost (fun h => { h with polled := true })
      (((List.range 16).map (fun i => (s.host.rotate + i) % 16)).foldl (fun (x : State × Nat) n =>
        match v.find? (fun k => k.1.val = n) with
        | none => x
        | some k => ((snapRing n k.2 x.2 x.1).1, x.2 - (snapRing n k.2 x.2 x.1).2)) (s, 1024)).1) := by
  have hguard : (s.stride.window || decide (s.boot.stage < 7) || !hostUp s || !admitOk s || changeoverPending s || s.host.polled) = false := by
    simp [hwindow, hhost, hadmit, hchg, hpolled, Nat.not_lt.mpr hstage]
  exact congrArg Host.Outcome.next (if_neg (by rw [hguard]; exact Bool.false_ne_true))

theorem exec_ringEnable {en ide : Bool} (hperst : s.pins.perstN = true) (hheard : tlpHeard s ide = true) :
    exec (.ringEnable r en ide) s = .next (setEn r.val en s) := by
  change execRingEnable r en ide s = _
  simp only [execRingEnable, hperst, hheard, Bool.and_self, ↓reduceIte]

/-- PERST# resets every ring. -/
theorem ringOf_reset (m : Sparse Ring) (n : Nat) :
    (sget {} (smap {} (fun _ k => ringReset k) m) n).en = false ∧ (sget {} (smap {} (fun _ k => ringReset k) m) n).active = false := by
  rcases sget_mem_or {} (smap {} (fun _ k => ringReset k) m) n with h | ⟨p, hp, h⟩
  · rw [h]
    exact ⟨rfl, rfl⟩
  · obtain ⟨x, hx⟩ := exists_of_mem_smap hp
    rw [h, hx]
    exact ⟨rfl, rfl⟩

theorem exec_pcieLinkUp {x y : BitVec 4} (hperst : s.pins.perstN = true) (hstage : 4 ≤ s.boot.stage) (hx : 1 ≤ x.toNat)
    (hx5 : x.toNat ≤ 5) (hy : 1 ≤ y.toNat) (hy6 : y.toNat ≤ 6)
    (hheld : ((List.range 16).all (fun n => !(ringOf s n).active || (ringOf s n).heldOut.isEmpty)) = true) :
    exec (.pcieLinkUp x y) s = .next (modHost (fun h => { h with width := x.toNat, rate := y.toNat }) s) := by
  have hx0 : x ≠ 0 := fun h => by rw [h] at hx; exact absurd hx (by decide)
  have hy0 : y ≠ 0 := fun h => by rw [h] at hy; exact absurd hy (by decide)
  change execPcieLinkUp x y s = _
  simp only [execPcieLinkUp, hperst, Nat.not_lt.mpr hstage, hx0, hy0, Nat.not_lt.mpr hx5, Nat.not_lt.mpr hy6, decide_false, Bool.not_true,
    Bool.or_self, Bool.false_eq_true, ↓reduceIte]
  refine congrArg Host.Outcome.next (forEach_self _ fun n hn => ?_)
  have hring : (!(ringOf s n).active || (ringOf s n).heldOut.isEmpty) = true := List.all_eq_true.mp hheld n hn
  refine if_neg ?_
  change ¬ ((ringOf s n).active && _ && !(ringOf s n).heldOut.isEmpty) = true
  rcases Bool.or_eq_true_iff.mp hring with h | h
  · rw [Bool.not_eq_true'] at h
    simp [h]
  · simp [h]

theorem exec_ideIntegrityFailure (hide : s.host.ide = 2) :
    exec .ideIntegrityFailure s = .next (if jobLoaded (measChange (modHost (fun h => { h with ide := 3 }) s)) then
      jobFault 0x0904 [] (measChange (modHost (fun h => { h with ide := 3 }) s)) else measChange (modHost (fun h => { h with ide := 3 }) s)) := by
  change execIdeIntegrityFailure s = _
  simp only [execIdeIntegrityFailure, hide, ne_eq, not_true_eq_false, ↓reduceIte]

theorem jobLoaded_measChange (s : State) : jobLoaded (measChange s) = jobLoaded s := by
  unfold jobLoaded
  rw [measChange_job]

/-! ## A completion to its queue (R515, R516) -/

/-- The completion is in its slot, and the ring's index written. -/
def completionPosted (r : RingId) (c : Completion) (l : List Completion) (s : State) : State :=
  emit (.hostWrite ((ringOf s r.val).idxAddr + 12) [((ringOf s r.val).cqPi + 1).toNat])
    (emit (.cq r.val (cqSlot (ringOf s r.val) (ringOf s r.val).cqPi.toNat) (cqEntry c))
      (modRing r.val (fun q => { q with
        decided := l, cqPi := q.cqPi + 1, outstanding := q.outstanding - 1, held := q.held && !l.isEmpty }) s))

variable (hwindow : s.stride.window = false) (hfabric : fabricUp s = true) (hring : ringUp s r.val = true)
  (hout : (ringOf s r.val).heldOut = []) (hdecided : (ringOf s r.val).decided = c :: l)

include hwindow hfabric hring hout hdecided

theorem exec_completionPost_ok (hfull : cqFull (ringOf s r.val) = false) (hfirst : postsFirst s c.order = false) :
    exec (.completionPost r) s = .next (if (ringOf s r.val).irqEn then raiseMsix (ringOf s r.val).vector (completionPosted r c l s)
      else completionPosted r c l s) := by
  change execCompletionPost r s = _
  simp only [execCompletionPost, hwindow, hfabric, hring, hout, hdecided, hfull, hfirst, List.isEmpty_nil, Bool.not_true, Bool.or_self,
    Bool.false_eq_true, ↓reduceIte]
  rfl

theorem exec_completionPost_later (hfull : cqFull (ringOf s r.val) = false) (hfirst : postsFirst s c.order = true) :
    exec (.completionPost r) s = .next s := by
  change execCompletionPost r s = _
  simp only [execCompletionPost, hwindow, hfabric, hring, hout, hdecided, hfull, hfirst, List.isEmpty_nil, Bool.not_true, Bool.or_self,
    Bool.false_eq_true, ↓reduceIte]

theorem exec_completionPost_full (hfull : cqFull (ringOf s r.val) = true) :
    exec (.completionPost r) s = .next (modRing r.val (fun q => { q with held := true }) s) := by
  change execCompletionPost r s = _
  simp only [execCompletionPost, hwindow, hfabric, hring, hout, hdecided, hfull, List.isEmpty_nil, Bool.not_true, Bool.or_self,
    Bool.false_eq_true, ↓reduceIte]

end Host

/-- Settles O49: one equation per command; PERST# resets whatever ring a number finds. -/
theorem hostLinkRuns : Obligations.HostLinkRuns := by
  intro v r en x y c l ide s
  refine ⟨exec_ringSnapshot v, exec_ringEnable, ⟨_, rfl, rfl, rfl, rfl, rfl, rfl, rfl, ringOf_reset s.host.rings⟩, rfl, rfl,
    exec_pcieLinkUp, fun hide => ⟨fun hloaded => ?_, fun hloaded => ?_⟩, fun hwindow hfabric hring hout hdecided =>
      ⟨fun hfull hfirst hirq => ?_, fun hfull hfirst hirq => ?_, exec_completionPost_later hwindow hfabric hring hout hdecided,
        exec_completionPost_full hwindow hfabric hring hout hdecided⟩⟩
  · rw [exec_ideIntegrityFailure hide, jobLoaded_measChange]
    exact congrArg Host.Outcome.next (if_pos hloaded)
  · rw [exec_ideIntegrityFailure hide, jobLoaded_measChange]
    exact congrArg Host.Outcome.next (if_neg (by rw [Bool.not_eq_true]; exact hloaded))
  · rw [exec_completionPost_ok hwindow hfabric hring hout hdecided hfull hfirst]
    exact congrArg Host.Outcome.next (if_pos hirq)
  · rw [exec_completionPost_ok hwindow hfabric hring hout hdecided hfull hfirst]
    exact congrArg Host.Outcome.next (if_neg (by rw [Bool.not_eq_true]; exact hirq))

end Sys2Proof.Machine
end

section
/-! # The register windows and BAR2 (R11 to R20, R505 to R507) -/
namespace Sys2Proof.Machine

/-! ## Registers -/

/-- A register outside the debug block is read without an effect. -/
theorem dbgRegRead_of_plain {r : Reg} (h : isDbgReg r = false) (s : State) : dbgRegRead r s = (regRead s r, s) := by
  have hr : r ≠ .dbgData := by
    rintro rfl
    exact absurd h (by decide)
  unfold dbgRegRead
  rw [if_neg hr]

section Bar0

variable {off size : Nat} {r : Reg} {v hw : Word} {ide : Bool} {s : State}
  (hoff : bar0Heard s off size = true) (hheard : tlpHeard s ide = true) (hstage : 5 ≤ s.boot.stage)

include hoff hheard hstage

theorem exec_registerWrite_host (hreg : hostReg s off size = some r) :
    exec (.registerWrite (.host ide) off size v hw) s = .next (regWriteAt .bar0 r (accessOf off size v hw false) s) := by
  change execRegisterWrite (.host ide) off size v hw s = _
  simp only [execRegisterWrite, hoff, hheard, hreg, Nat.not_lt.mpr hstage, decide_false, Bool.not_true, Bool.or_self, Bool.false_eq_true,
    ↓reduceIte]

theorem exec_readLowWordLatch (hreg : hostReg s off size = some r) :
    exec (.readLowWordLatch off size ide) s = .next (regReadAt r off size s) := by
  change execReadLowWordLatch off size ide s = _
  simp only [execReadLowWordLatch, hoff, hheard, hreg, Nat.not_lt.mpr hstage, Bool.not_true, Bool.false_eq_true, ↓reduceIte]

theorem exec_bar0UnimplementedAccess (hreg : hostReg s off size = none) (write : Bool) :
    exec (.bar0UnimplementedAccess write off size ide) s = .next (if write then bar0Refuse off s else hostZero size (bar0Refuse off s)) := by
  change execBar0UnimplementedAccess write off size ide s = _
  simp only [execBar0UnimplementedAccess, hoff, hheard, hreg, Nat.not_lt.mpr hstage, Option.isSome_none, decide_false, Bool.not_true,
    Bool.or_self, Bool.false_eq_true, ↓reduceIte]

omit hoff hheard hstage in
theorem regReadAt_eight (hplain : isDbgReg r = false) : regReadAt r off 8 s = hostReturn (bytesLE 8 (regRead s r).toNat) 0 s := by
  simp only [regReadAt, dbgRegRead_of_plain hplain, ↓reduceIte]

omit hoff hheard hstage in
theorem regReadAt_low (hplain : isDbgReg r = false) (hlow : off % 8 = 0) (hhalf : regHalf r = false) :
    regReadAt r off 4 s = hostReturn (bytesLE 4 ((regRead s r).toNat % 2 ^ 32)) 0
      (setLatch (off / 8 * 8) (some ((regRead s r).toNat / 2 ^ 32)) s) := by
  simp only [regReadAt, dbgRegRead_of_plain hplain, hlow, hhalf, show ¬ (4 = 8) by decide, Bool.false_eq_true, ↓reduceIte]
  rfl

end Bar0

theorem exec_registerWrite_ostler {off size : Nat} {r : Reg} {v hw : Word} {s : State} (hreach : ostlerReach s = true)
    (hreg : regFor off size = some r) (hplain : isDbgReg r = false) :
    exec (.registerWrite .ostler off size v hw) s = .next (regWrite r (accessOf off size v hw true) s) := by
  change execRegisterWrite .ostler off size v hw s = _
  simp only [execRegisterWrite, hreach, hreg, hplain, Bool.not_true, Bool.false_eq_true, ↓reduceIte]

/-! ## Memory through BAR2 (R60, R507) -/

/-- The Curb's charge for a host transfer changes what the tiers count alone. -/
theorem hostCharge_eq (a n : Nat) (s : State) : ∃ tiers, hostCharge a n s = { s with tiers := tiers } := by
  have hcharge : ∀ (l : List Nat) (u : State), ∃ tiers, forEach l (fun p t => curbCharge p 5 1 t) u = { u with tiers := tiers } := by
    intro l
    induction l with
    | nil => exact fun u => ⟨u.tiers, rfl⟩
    | cons p l ih =>
      intro u
      obtain ⟨_, h⟩ := ih (curbCharge p 5 1 u)
      exact ⟨_, h⟩
  obtain ⟨_, h⟩ := hcharge (unitPorts s a n) s
  obtain ⟨tiers, htouch, _⟩ := portTouch_eq a n (transferCharge 5 a n s)
  refine ⟨tiers, htouch.trans ?_⟩
  rw [transferCharge, h]

theorem hostCharge_store (a n : Nat) (s : State) : StoreSame s (hostCharge a n s) := by
  obtain ⟨_, h⟩ := hostCharge_eq a n s
  rw [h]
  exact StoreSame.refl s

section Bar2

variable {off size : Nat} {bytes : List Byte} {ide ur : Bool} {s : State}
  (hheard : tlpHeard s ide = true) (hen : s.host.bar2En = true)

include hheard hen

/-- A read whose units are all good. -/
theorem exec_bar2Read_ok (hfits : bar2Fits s 4096 off size = true) (hopen : hostOpen s (bar2Addr s off) size = true)
    (hreads : readsMay s (bar2Addr s off) size = true) (hfirst : bar2May s false (bar2Addr s off) = true)
    (hlast : bar2May s false (bar2Addr s off + size - 1) = true) :
    exec (.bar2Read off size [] ide) s = .next (bar2Answer (bar2Addr s off) size none (hostCharge (bar2Addr s off) size s)) := by
  change execBar2Read off size [] ide s = _
  simp only [execBar2Read, hfits, hheard, hen, hopen, hreads, hfirst, hlast, Bool.not_true, Bool.or_self, Bool.false_eq_true, ↓reduceIte]
  rfl

omit hheard hen in
theorem bar2Answer_none (a n : Nat) (s : State) : bar2Answer a n none s = hostReturn (bar2Bytes s a n) 0 (takeFree s).2 := by
  simp only [bar2Answer, ite_self]

theorem exec_bar2Read_refused (hfits : bar2Fits s 4096 off size = true) (hmay : bar2May s false (bar2Addr s off) = false) :
    exec (.bar2Read off size [] ide) s = .next (hostReturn [] 1 (bar2Refuse (bar2Addr s off) s)) := by
  change execBar2Read off size [] ide s = _
  simp only [execBar2Read, hfits, hheard, hen, hmay, Bool.not_true, Bool.not_false, Bool.true_or, Bool.false_eq_true, ↓reduceIte]

theorem exec_bar2Write_ok (hfits : bar2Fits s 512 off bytes.length = true) (hopen : hostOpen s (bar2Addr s off) bytes.length = true)
    (hfirst : bar2May s true (bar2Addr s off) = true) (hlast : bar2May s true (bar2Addr s off + bytes.length - 1) = true)
    (halias : aliasTarget s (bar2Addr s off) = none) :
    exec (.bar2Write off bytes [] ide ur) s =
      .next (writeBytes (bar2Addr s off) bytes (hostCharge (bar2Addr s off) bytes.length s)) := by
  change execBar2Write off bytes [] ide ur s = _
  simp only [execBar2Write, hfits, hheard, hen, hopen, hfirst, hlast, halias, Bool.not_true, Bool.or_self, Bool.false_eq_true, ↓reduceIte]

theorem exec_bar2Write_refused (hfits : bar2Fits s 512 off bytes.length = true) (hmay : bar2May s true (bar2Addr s off) = false) :
    exec (.bar2Write off bytes [] ide ur) s = .next (urReport ur (bar2Addr s off) (bar2Refuse (bar2Addr s off) s)) := by
  change execBar2Write off bytes [] ide ur s = _
  simp only [execBar2Write, hfits, hheard, hen, hmay, Bool.not_true, Bool.not_false, Bool.true_or, Bool.or_self, Bool.false_eq_true,
    ↓reduceIte]

end Bar2

/-- What a read that finds its bytes returns. -/
theorem hostReturn_takeFree (data : List Byte) (s : State) : (hostReturn data 0 (takeFree s).2).mem = s.mem ∧
    (hostReturn data 0 (takeFree s).2).host.status = 0 ∧ (hostReturn data 0 (takeFree s).2).host.data = data := ⟨rfl, rfl, rfl⟩

/-- What a write after the Curb's charge leaves. -/
theorem writeBytes_hostCharge {s : State} (hmem : Memory.wf s.mem = true) (a n : Nat) (bytes : List Byte) :
    memSameBut a bytes.length s (writeBytes a bytes (hostCharge a n s)) ∧
      readBytes (writeBytes a bytes (hostCharge a n s)) a bytes.length = bytes := by
  have hsame := hostCharge_store a n s
  have hwf : Memory.wf (hostCharge a n s).mem = true := by
    rw [hsame.1]
    exact hmem
  exact ⟨fun i hi => (readByte_writeBytes_outside hwf a bytes hi).trans (hsame.memSame i), readBytes_writeBytes hwf a bytes⟩

/-- Settles O50: a register outside the debug block is read without an effect; the Curb's charge leaves memory as it is, before and
under a write. -/
theorem windowsAccess : Obligations.WindowsAccess := by
  intro off size r v hw bytes ide ur s
  refine ⟨fun hoff hheard hstage => ⟨fun hreg => ⟨exec_registerWrite_host hoff hheard hstage hreg, fun hsize hplain => ?_,
      fun hsize hlow hplain hhalf => ?_⟩, fun hreg => ⟨exec_bar0UnimplementedAccess hoff hheard hstage hreg true,
        exec_bar0UnimplementedAccess hoff hheard hstage hreg false⟩⟩,
    exec_registerWrite_ostler, fun hheard hen => ⟨fun hfits hopen hreads hfirst hlast =>
      ⟨_, exec_bar2Read_ok hheard hen hfits hopen hreads hfirst hlast, ?_⟩,
      fun hfits hopen hfirst hlast halias hmem => ⟨_, exec_bar2Write_ok hheard hen hfits hopen hfirst hlast halias,
        writeBytes_hostCharge hmem ..⟩,
      exec_bar2Write_refused hheard hen, exec_bar2Read_refused hheard hen⟩⟩
  · subst hsize
    rw [exec_readLowWordLatch hoff hheard hstage hreg, regReadAt_eight hplain]
  · subst hsize
    rw [exec_readLowWordLatch hoff hheard hstage hreg, regReadAt_low hplain hlow hhalf]
  · rw [bar2Answer_none]
    obtain ⟨hmem, hstatus, hdata⟩ := hostReturn_takeFree (bar2Bytes (hostCharge (bar2Addr s off) size s) (bar2Addr s off) size)
      (hostCharge (bar2Addr s off) size s)
    exact ⟨hmem.trans (hostCharge_store ..).1, hstatus, hdata⟩

end Sys2Proof.Machine
end

section
/-! # The board's events (R80, R524 to R533, R613) -/
namespace Sys2Proof.Machine

/-! ## What a LEN_REQ message changes -/

theorem flitOut_eq (l kind seq vc : Nat) (payload : List Byte) (s : State) : ∃ out, flitOut l kind seq vc payload s = { s with out := out } :=
  ⟨_, rfl⟩

theorem forEach_flitOut_eq (l : Nat) (fs : List OutFlit) (s : State) :
    ∃ out, forEach fs (fun f t => flitOut l 1 f.seq f.vc f.bytes t) s = { s with out := out } := by
  induction fs generalizing s with
  | nil => exact ⟨s.out, rfl⟩
  | cons f fs ih =>
    obtain ⟨o, ho⟩ := flitOut_eq l 1 f.seq f.vc f.bytes s
    obtain ⟨o', ho'⟩ := ih { s with out := o }
    refine ⟨o', ?_⟩
    change forEach fs _ (flitOut l 1 f.seq f.vc f.bytes s) = _
    rw [ho, ho']

theorem linkFlush_eq (l : Nat) (s : State) : ∃ links out, linkFlush l s = { s with links := links, out := out } := by
  unfold linkFlush
  generalize linkServe (linkOf s l).wait.length (linkOf s l) = x
  obtain ⟨o, ho⟩ := forEach_flitOut_eq l x.2 (modLink l (fun _ => x.1) s)
  exact ⟨_, o, ho⟩

theorem linkSend_eq (n l : Nat) (fromLink : Option Nat) (dl : Nat) (p : Packet) (s : State) :
    ∃ job links out, linkSend n l fromLink dl p s = { s with job := job, links := links, out := out } := by
  have hcount : ∃ job, linkCount n l p s = { s with job := job } := by
    unfold linkCount
    split
    · exact ⟨_, rfl⟩
    · exact ⟨s.job, rfl⟩
  obtain ⟨job, hjob⟩ := hcount
  unfold linkSend linkQueue
  rw [hjob]
  obtain ⟨_, _, h⟩ := linkFlush_eq l (modLink l (fun k => { k with wait := k.wait ++ [(2 * packetClass p.type + dateline s fromLink dl l, p)] })
    { s with job := job })
  exact ⟨_, _, _, h⟩

theorem sendStride_eq (dst sub : Nat) (m : Marker) (s : State) : ∃ job links discards out,
    sendStride dst sub m s = { s with job := job, links := links, mgmt := { s.mgmt with linkDiscards := discards }, out := out } := by
  unfold sendStride packetOut segmentsOut
  dsimp only
  split
  · exact ⟨_, _, s.mgmt.linkDiscards, _, rfl⟩
  · obtain ⟨_, _, _, h⟩ := linkSend_eq (jobStride s) _ none 0 (stridePacket s dst sub m) (emit (.stride dst sub m) s)
    exact ⟨_, _, s.mgmt.linkDiscards, _, h⟩
  · exact ⟨_, _, _, _, rfl⟩

theorem sendLenReq_eq (s : State) : ∃ job links discards out,
    sendLenReq s = { s with job := job, links := links, mgmt := { s.mgmt with linkDiscards := discards }, out := out } := by
  unfold sendLenReq
  split
  · exact sendStride_eq ..
  · exact ⟨_, _, s.mgmt.linkDiscards, _, rfl⟩

/-- A change of the settings changes the stride's account and the messages on their way alone. -/
theorem noteChange_eq (s : State) : ∃ job links discards out stride,
    noteChange s = { s with job := job, links := links, mgmt := { s.mgmt with linkDiscards := discards }, out := out, stride := stride } := by
  unfold noteChange
  dsimp only
  split
  · exact ⟨_, _, s.mgmt.linkDiscards, _, _, rfl⟩
  · split
    · exact ⟨_, _, s.mgmt.linkDiscards, _, _, rfl⟩
    · obtain ⟨_, _, _, _, h⟩ := sendLenReq_eq (modStride (fun t => { t with lenReq := (ownLen (nowSettings s) (nextTerms
        (modStride (fun t => { t with settings := t.settings ++ [nowSettings s] }) s))).1 })
        (modStride (fun t => { t with settings := t.settings ++ [nowSettings s] }) s))
      exact ⟨_, _, _, _, _, h⟩

theorem noteChange_thermal (s : State) : (noteChange s).thermal = s.thermal := by
  obtain ⟨_, _, _, _, _, h⟩ := noteChange_eq s
  rw [h]

/-! ## Temperatures (R525 to R528) -/

/-- The highest reading is no less than any. -/
theorem le_tempMax (s : State) {n : Nat} (hn : n < 32) : sget 0 s.thermal.sensors n ≤ tempMax s := by
  have hfold : ∀ (l : List Nat) (m : Int), m ≤ l.foldl (fun m n => max m (sget 0 s.thermal.sensors n)) m ∧
      ∀ n ∈ l, sget 0 s.thermal.sensors n ≤ l.foldl (fun m n => max m (sget 0 s.thermal.sensors n)) m := by
    intro l
    induction l with
    | nil => exact fun m => ⟨le_refl m, fun n hn => absurd hn List.not_mem_nil⟩
    | cons k l ih =>
      intro m
      obtain ⟨hmax, hrest⟩ := ih (max m (sget 0 s.thermal.sensors k))
      refine ⟨(le_max_left ..).trans hmax, fun n hn => ?_⟩
      rcases List.mem_cons.mp hn with rfl | hn
      · exact (le_max_right ..).trans hmax
      · exact hrest n hn
  exact (hfold _ _).2 n (List.mem_range.mpr hn)

/-- A sensor's own reading. -/
theorem sget_readSensors_one (t : Int) (ht : t ≠ 0) (n : Fin 32) (k : Thermal) : sget 0 (readSensors [(t, n.val)] k).sensors n.val = t := by
  have hlist : [(t, n.val)].filter (fun x => x.2 < 32) = [(t, n.val)] := by simp
  unfold readSensors
  dsimp only
  rw [hlist]
  change sget 0 (sset 0 k.sensors n.val t) n.val = t
  unfold sset
  rw [if_neg ht]
  exact sget_sins_same ..

theorem throttle_readSensors_one {t : Int} (ht : 950 ≤ t) (n : Fin 32) (k : Thermal) : (readSensors [(t, n.val)] k).throttle = true := by
  have hread := sget_readSensors_one t (by omega) n k
  change (_ || _) = true
  rw [Bool.or_eq_true]
  refine .inl (List.any_eq_true.mpr ⟨n.val, List.mem_range.mpr n.isLt, ?_⟩)
  exact decide_eq_true (hread.symm ▸ ht)

/-- After readings of 900 or less every sensor that was read stands at 900 or less. -/
theorem sget_foldl_sset_le {l : List (Int × Nat)} (hl : ∀ x ∈ l, x.1 ≤ 900) {m : Sparse Int} (hm : scanon 0 none m = true) {n : Nat}
    (hn : (∃ x ∈ l, x.2 = n) ∨ sget 0 m n ≤ 900) : sget 0 (l.foldl (fun m x => sset 0 m x.2 x.1) m) n ≤ 900 := by
  induction l generalizing m with
  | nil =>
    rcases hn with ⟨x, hx, _⟩ | hn
    · exact absurd hx List.not_mem_nil
    · exact hn
  | cons x l ih =>
    refine ih (fun y hy => hl y (List.mem_cons_of_mem _ hy)) (scanon_sset hm x.2 x.1) ?_
    by_cases hx : n = x.2
    · right
      rw [hx, sget_sset_same hm]
      exact hl x List.mem_cons_self
    · rcases hn with ⟨y, hy, rfl⟩ | hn
      · rcases List.mem_cons.mp hy with rfl | hy
        · exact absurd rfl hx
        · exact .inl ⟨y, hy, rfl⟩
      · right
        rw [sget_sset_other hm x.1 hx]
        exact hn

theorem throttle_readSensors_cool {temps : List Int} (hlen : temps.length = 32) (hcool : ∀ x ∈ temps, x ≤ 900) {k : Thermal}
    (hcanon : scanon 0 none k.sensors = true) : (readSensors temps.zipIdx k).throttle = false := by
  have hread : ∀ n, n < 32 → sget 0 (readSensors temps.zipIdx k).sensors n ≤ 900 := by
    intro n hn
    refine sget_foldl_sset_le (fun x hx => hcool x.1 ?_) hcanon (.inl ⟨(temps[n], n), ?_, rfl⟩)
    · exact List.fst_mem_of_mem_zipIdx (List.mem_filter.mp hx).1
    · exact List.mem_filter.mpr ⟨List.mk_mem_zipIdx_iff_getElem?.mpr (by simp [hlen, hn]), by simpa using hn⟩
  change (List.any _ _ || (_ && List.any _ _)) = false
  have hthrottle : (List.range 32).any (fun n => 950 ≤ sget 0 (readSensors temps.zipIdx k).sensors n) = false := by
    rw [List.any_eq_false]
    intro n hn
    have := hread n (List.mem_range.mp hn)
    simpa using (by omega : sget 0 (readSensors temps.zipIdx k).sensors n < 950)
  have hcold : (List.range 32).any (fun n => 900 < sget 0 (readSensors temps.zipIdx k).sensors n) = false := by
    rw [List.any_eq_false]
    intro n hn
    simpa using hread n (List.mem_range.mp hn)
  exact Bool.or_eq_false_iff.mpr ⟨hthrottle, Bool.and_eq_false_iff.mpr (.inr hcold)⟩

theorem tripIfHot_of_cool {s : State} (h : tempMax s < 1150) : tripIfHot s = s := by
  simp only [tripIfHot, h, decide_true, Bool.or_true, ↓reduceIte]

/-- At 115 C the part trips. -/
theorem tripIfHot_of_hot {s : State} (htripped : s.thermal.tripped = false) (h : 1150 ≤ tempMax s) :
    (tripIfHot s).thermal.tripped = true ∧ (tripIfHot s).pins.thermtripN = false ∧
      (s.chipFault = none → (tripIfHot s).chipFault = some 0x0905) := by
  have hguard : (s.thermal.tripped || decide (tempMax s < 1150)) = false := by
    simp [htripped, Int.not_lt.mpr h]
  unfold tripIfHot
  rw [hguard]
  exact ⟨rfl, rfl, fun hfault => chipStop_chipFault hfault _ _ _⟩

/-- A sensor's reading of 115 C makes the highest reading 115 C or more. -/
theorem le_tempMax_of_reading {t : Int} (ht : 1150 ≤ t) (n : Fin 32) {u : State} {k : Thermal} (hu : u.thermal = readSensors [(t, n.val)] k) :
    1150 ≤ tempMax u := by
  have hread : sget 0 u.thermal.sensors n.val = t := by
    rw [hu]
    exact sget_readSensors_one t (by omega) n k
  exact ht.trans (hread ▸ le_tempMax u n.isLt)

/-! ## The commands -/

section Events

variable {t : Int} {n : Nat} {s : State}

theorem exec_thermalThrottle (sensor : Fin 32) (ht : 950 ≤ t) :
    exec (.thermalThrottle sensor t) s = .next (tripIfHot (noteChange { s with thermal := readSensors [(t, sensor.val)] s.thermal })) := by
  change execThermalThrottle sensor t s = _
  simp only [execThermalThrottle, Int.not_lt.mpr ht, ↓reduceIte]

theorem exec_thermalThrottleEnd {temps : List Int} (hcool : ∀ x ∈ temps, x ≤ 900) :
    exec (.thermalThrottleEnd temps) s = .next (noteChange { s with thermal := readSensors temps.zipIdx s.thermal }) := by
  have hany : temps.any (fun t => 900 < t) = false := by
    rw [List.any_eq_false]
    intro x hx
    simpa using hcool x hx
  change execThermalThrottleEnd temps s = _
  simp only [execThermalThrottleEnd, hany, Bool.false_eq_true, ↓reduceIte]

theorem exec_thermalTrip (sensor : Fin 32) (ht : 1150 ≤ t) (htripped : s.thermal.tripped = false) :
    exec (.thermalTrip sensor t) s = .next (tripIfHot { s with thermal := readSensors [(t, sensor.val)] s.thermal }) := by
  change execThermalTrip sensor t s = _
  simp only [execThermalTrip, Int.not_lt.mpr ht, htripped, decide_false, Bool.or_self, Bool.false_eq_true, ↓reduceIte]

theorem exec_supplyLost (hn : n < 13) (hporst : s.pins.porstN = true) (hpower : s.pins.powerFailN = true) :
    exec (.supplyLost n) s = .next (chipStop 0x0906 (item 1 n) true s) := by
  change execSupplyLost n s = _
  simp only [execSupplyLost, Nat.not_le.mpr hn, hporst, hpower, decide_false, Bool.not_true, Bool.or_self, Bool.false_eq_true, ↓reduceIte]

theorem exec_mgmtClockLost (htripped : s.thermal.tripped = false) :
    exec (.mgmtClockLost n) s = .next (modMgmt (fun m => { m with clockLost := true }) (chipStop 0x0A02 (item 8 n) true s)) := by
  change execMgmtClockLost n s = _
  simp only [execMgmtClockLost, htripped, Bool.false_eq_true, ↓reduceIte]

theorem exec_powerFailNFall (w : Word) (hpower : s.pins.powerFailN = true) :
    exec (.powerFailNFall w) s = .next (journalWrite w.toNat (event 0x0A84 (item 1 0)
      (modMgmt (fun m => { m with powerFails := m.powerFails + 1 }) (noteChange { s with pins := { s.pins with powerFailN := false } })))) := by
  change execPowerFailNFall w s = _
  simp only [execPowerFailNFall, hpower, Bool.not_true, Bool.false_eq_true, ↓reduceIte]

theorem exec_powerFailNRise (hpower : s.pins.powerFailN = false) :
    exec .powerFailNRise s = .next (event 0x0A84 (item 1 1) (noteChange { s with pins := { s.pins with powerFailN := true } })) := by
  change execPowerFailNRise s = _
  simp only [execPowerFailNRise, hpower, Bool.false_eq_true, ↓reduceIte]

end Events

/-- Settles O51: a change of the settings leaves the temperatures alone, and the highest reading is no less than the one that came. -/
theorem boardEvents : Obligations.BoardEvents := by
  intro sensor t temps n w low s
  refine ⟨fun ht => ?_, fun hlen hcool hcanon => ⟨_, exec_thermalThrottleEnd hcool, rfl, throttle_readSensors_cool hlen hcool hcanon⟩,
    fun ht htripped => ⟨_, exec_thermalTrip sensor ht htripped, ?_⟩, exec_supplyLost, exec_mgmtClockLost, exec_powerFailNFall w,
    exec_powerFailNRise, rfl⟩
  · have hthermal := noteChange_thermal { s with thermal := readSensors [(t, sensor.val)] s.thermal }
    refine ⟨exec_thermalThrottle sensor ht, ?_, ?_, tripIfHot_of_cool, fun hhot htripped => ?_⟩
    · rw [hthermal]
      exact throttle_readSensors_one ht sensor s.thermal
    · rw [hthermal]
      exact sget_readSensors_one t (by omega) sensor s.thermal
    · obtain ⟨htrip, hpin, _⟩ := tripIfHot_of_hot (by rw [hthermal]; exact htripped) (le_tempMax_of_reading hhot sensor hthermal)
      exact ⟨htrip, hpin⟩
  · exact tripIfHot_of_hot htripped (le_tempMax_of_reading ht sensor rfl)

end Sys2Proof.Machine
end

section
/-! # EtherCAT (R534 to R551) -/
namespace Sys2Proof.Machine

/-! ## The AL states (R534, R535) -/

section Al

variable {a : AlState} {s : State} (hrun : s.boot.stopped = false) (hstage : 5 ≤ s.boot.stage) (hclock : s.mgmt.clockLost = false)

include hrun hstage hclock

theorem exec_alStateRequest_to (hboot : a ≠ .boot) (hstep : alStep s.mgmt.al a = true) (hop : a ≠ .op) :
    exec (.alStateRequest a 5 27) s = .next (alTo a 0 s) := by
  change execAlStateRequest a 5 27 s = _
  simp only [execAlStateRequest, hrun, hclock, hboot, hstep, hop, Nat.not_lt.mpr hstage, decide_false, Bool.or_self, Bool.not_true,
    Bool.false_eq_true, ↓reduceIte]

theorem exec_alStateRequest_op (hal : s.mgmt.al = .safeOp) : exec (.alStateRequest .op 5 27) s = .next (alOp s) := by
  have hstep : alStep .safeOp .op = true := rfl
  change execAlStateRequest .op 5 27 s = _
  simp only [execAlStateRequest, hrun, hclock, hal, hstep, Nat.not_lt.mpr hstage, show ¬ (AlState.op = .boot) by decide,
    show ¬ (AlState.safeOp = .op) by decide, ne_eq, not_true_eq_false, decide_false, Bool.or_self, Bool.not_true, Bool.false_eq_true,
    ↓reduceIte]

theorem exec_alStateRequest_refused (hboot : a ≠ .boot) (hstep : alStep s.mgmt.al a = false) :
    exec (.alStateRequest a 5 27) s = .next (alTo s.mgmt.al 0x0011 s) := by
  change execAlStateRequest a 5 27 s = _
  simp only [execAlStateRequest, hrun, hclock, hboot, hstep, Nat.not_lt.mpr hstage, decide_false, Bool.or_self, Bool.not_false,
    Bool.false_eq_true, ↓reduceIte]

end Al

/-! ## Process data and the master (R539 to R546) -/

section Process

variable {o : OutImage} {ms : Nat} {s : State}

/-- An image whose rack state stands, from a master that was never lost: its budget is taken, or held over a restart. -/
theorem takeBudget_master (b : Nat) (s : State) : (takeBudget b s).mgmt.rack = s.mgmt.rack ∧
    (takeBudget b s).mgmt.masterLost = s.mgmt.masterLost := by
  unfold takeBudget
  split
  · exact ⟨rfl, rfl⟩
  · split
    · exact ⟨rfl, rfl⟩
    · obtain ⟨_, _, _, _, _, h⟩ := noteChange_eq (modMgmt (fun m => { m with budget := b }) s)
      rw [h]
      exact ⟨rfl, rfl⟩

theorem setRack_same {v : BitVec 8} (h : s.mgmt.rack = v) : setRack v s = s := if_pos h

theorem exec_outputImageAccept (hal : s.mgmt.al = .op) (hclock : s.mgmt.clockLost = false) (hmaster : s.mgmt.masterLost = false)
    (hrack : o.rack = s.mgmt.rack) :
    exec (.outputImageAccept o) s = .next (takeBudget o.budget (modMgmt (fun m => { m with rmCycle := o.cycle, rmImage := o.cycle }) s)) := by
  obtain ⟨hrack', hmaster'⟩ := takeBudget_master o.budget (modMgmt (fun m => { m with rmCycle := o.cycle, rmImage := o.cycle }) s)
  have hset : setRack o.rack (takeBudget o.budget (modMgmt (fun m => { m with rmCycle := o.cycle, rmImage := o.cycle }) s)) =
      takeBudget o.budget (modMgmt (fun m => { m with rmCycle := o.cycle, rmImage := o.cycle }) s) := setRack_same (hrack'.trans hrack.symm)
  have hheld : (takeBudget o.budget (modMgmt (fun m => { m with rmCycle := o.cycle, rmImage := o.cycle }) s)).mgmt.masterLost = false :=
    hmaster'.trans hmaster
  change execOutputImageAccept o s = _
  simp only [execOutputImageAccept, hal, hclock, hset, ite_self, hheld, ne_eq, not_true_eq_false, decide_false, Bool.or_self,
    Bool.false_and, Bool.false_eq_true, ↓reduceIte]

theorem exec_masterLost_late (hal : s.mgmt.al = .op) (hlate : s.mgmt.watchdogNow ≤ ms) :
    exec (.masterLost ms false) s = .next (loseMaster s) := by
  change execMasterLost ms false s = _
  simp only [execMasterLost, hal, hlate, decide_true, Bool.not_false, Bool.and_self, ↓reduceIte]

theorem exec_masterLost_early (hearly : ms < s.mgmt.watchdogNow) : exec (.masterLost ms false) s = .next s := by
  change execMasterLost ms false s = _
  simp only [execMasterLost, Nat.not_le.mpr hearly, decide_false, Bool.and_false, Bool.false_and, Bool.false_eq_true, ↓reduceIte]

theorem exec_masterLost_accepted (ms : Nat) (s : State) : exec (.masterLost ms true) s = .next s := by
  change execMasterLost ms true s = _
  simp only [execMasterLost, Bool.not_true, Bool.and_false, Bool.false_eq_true, ↓reduceIte]

theorem exec_portLink_lost (hal : s.mgmt.al = .op) (hport : s.mgmt.portA = false) :
    exec (.ethercatPortLinkChange true false) s = .next (loseMaster (modMgmt (fun m => { m with portB := false }) s)) := by
  change execEthercatPortLinkChange true false s = _
  simp only [execEthercatPortLinkChange, modMgmt, hal, hport, decide_true, Bool.not_false, Bool.and_self, ↓reduceIte]

theorem exec_portLink_up (hal : s.mgmt.al ≠ .op) :
    exec (.ethercatPortLinkChange true true) s = .next (modMgmt (fun m => { m with portB := true }) s) := by
  change execEthercatPortLinkChange true true s = _
  simp only [execEthercatPortLinkChange, modMgmt, hal, decide_false, Bool.false_and, Bool.false_eq_true, ↓reduceIte]

theorem exec_distributedClockFailure (hsource : s.stride.sourceNow = 2) (hfallback : s.stride.fallback = false) :
    exec .distributedClockFailure s =
      .next (event 0x0181 [] (modStride (fun t => { t with freeRun := true, fallback := true, aligned := false }) s)) := by
  change execDistributedClockFailure s = _
  simp only [execDistributedClockFailure, hsource, hfallback, ne_eq, not_true_eq_false, decide_false, Bool.or_self, Bool.false_eq_true,
    ↓reduceIte]

end Process

/-! ## The mailbox (R547 to R551) -/

section Mailbox

variable {i n v : Nat} {s : State} (hup : mailboxUp s = true)

include hup

theorem exec_sdoRead (hfound : odMissing s i n = 0) (haccess : odAccess i n ≠ .wo) (hpop : (i, n) ≠ (0x2700, 0x0F))
    (hdebug : (i, n) ≠ (0x2F00, 5)) (hdump : (i, n) ≠ (0x2F00, 9)) :
    exec (.sdoRead i n) s = .next (modMgmt (fun m => { m with sdoAbort := 0, sdoData := odValue s i n }) s) := by
  have hplain : ∀ {a b : Nat}, (i, n) ≠ (a, b) → (decide (i = a) && decide (n = b)) = false := fun h => by
    rw [← Bool.decide_and]
    exact decide_eq_false fun ⟨hi, hn⟩ => h (by rw [hi, hn])
  change execSdoRead i n s = _
  simp only [execSdoRead, hup, hfound, haccess, hplain hpop, hplain hdebug, hplain hdump, ne_eq, not_true_eq_false, Bool.not_true,
    Bool.false_eq_true, ↓reduceIte]

theorem exec_sdoRead_missing (hmissing : odMissing s i n ≠ 0) :
    exec (.sdoRead i n) s = .next (sdoAnswer (odMissing s i n) s) := by
  change execSdoRead i n s = _
  simp only [execSdoRead, hup, hmissing, ne_eq, not_false_eq_true, Bool.not_true, Bool.false_eq_true, ↓reduceIte]

theorem exec_sdoWrite (hfound : odMissing s i n = 0) (haccess : odAccess i n = .rw ∨ odAccess i n = .wo) :
    exec (.sdoWrite i n v) s = .next (odWrite i n v s) := by
  have hopen : (decide (odAccess i n = .ro) || decide (odAccess i n = .const)) = false := by
    rcases haccess with h | h <;> rw [h] <;> rfl
  change execSdoWrite i n v s = _
  simp only [execSdoWrite, hup, hfound, hopen, ne_eq, not_true_eq_false, Bool.not_true, Bool.false_eq_true, ↓reduceIte]

theorem exec_sdoWrite_readOnly (hfound : odMissing s i n = 0) (haccess : odAccess i n = .ro) :
    exec (.sdoWrite i n v) s = .next (sdoAnswer 0x06010002 s) := by
  change execSdoWrite i n v s = _
  simp only [execSdoWrite, hup, hfound, haccess, ne_eq, not_true_eq_false, decide_true, Bool.true_or, Bool.not_true, Bool.false_eq_true,
    ↓reduceIte]

theorem exec_odOvfClear (hfound : odMissing s i n = 0) (hovf : isOvf i n = true) :
    exec (.odOvfClear i n 0 0) s = .next (sdoAnswer 0 (ovfClear i n 0 s)) := by
  have hfits : 0 < (if i = 0x2700 then 65536 else 256) := by split <;> decide
  change execOdOvfClear i n 0 0 s = _
  simp only [execOdOvfClear, ovfWrite, hup, hfound, hovf, hfits, decide_true, Bool.and_self, ↓reduceIte]

end Mailbox

/-- Settles O52: one equation per request; a budget taken leaves the rack state and the master's loss as they are. -/
theorem ethercatRuns : Obligations.EthercatRuns := by
  intro a o i n v ms w s
  refine ⟨fun hrun hstage hclock hboot => ⟨exec_alStateRequest_to hrun hstage hclock hboot, exec_alStateRequest_op hrun hstage hclock,
      exec_alStateRequest_refused hrun hstage hclock hboot⟩,
    fun hal hclock hmaster hbudget hrack => ⟨fun hrestart => ?_, fun hrestart => ?_⟩,
    exec_masterLost_late, exec_masterLost_early, exec_masterLost_accepted ms s, exec_portLink_lost, exec_portLink_up,
    exec_distributedClockFailure, rfl, fun hup => ⟨fun hfound => ⟨exec_sdoRead hup hfound, exec_sdoWrite hup hfound,
      exec_sdoWrite_readOnly hup hfound⟩, exec_sdoRead_missing hup, exec_odOvfClear hup⟩⟩
  · rw [exec_outputImageAccept hal hclock hmaster hrack, takeBudget, if_neg (Nat.not_lt.mpr hbudget)]
    exact congrArg Host.Outcome.next (if_neg (by rw [Bool.not_eq_true]; exact hrestart))
  · rw [exec_outputImageAccept hal hclock hmaster hrack, takeBudget, if_neg (Nat.not_lt.mpr hbudget)]
    exact congrArg Host.Outcome.next (if_pos hrestart)

end Sys2Proof.Machine
end

section
/-! # Wards and the Tally's readers (R552 to R562, R581) -/
namespace Sys2Proof.Machine

/-! ## What a chip fault changes -/

/-- The charges of a dump change what the tiers count alone. -/
theorem moveUnits_eq (left : Sparse Nat) (s : State) : ∃ tiers, (moveUnits left s).2 = { s with tiers := tiers } := by
  have hfold : ∀ (l : List (Nat × Nat)) (y : Sparse Nat × State), ∃ tiers, (l.foldl (fun x p =>
      let n := curbRoom x.2 p.1 4 p.2
      (sset 0 x.1 p.1 (p.2 - n), whenB (n ≠ 0) (curbCharge p.1 4 n) x.2)) y).2 = { y.2 with tiers := tiers } := by
    intro l
    induction l with
    | nil => exact fun y => ⟨y.2.tiers, rfl⟩
    | cons p l ih =>
      intro y
      have hstep : ∃ tiers, whenB (curbRoom y.2 p.1 4 p.2 ≠ 0) (curbCharge p.1 4 (curbRoom y.2 p.1 4 p.2)) y.2 =
          { y.2 with tiers := tiers } := by
        unfold whenB
        split
        · exact ⟨_, rfl⟩
        · exact ⟨y.2.tiers, rfl⟩
      obtain ⟨_, hy⟩ := hstep
      obtain ⟨tiers, h⟩ := ih (sset 0 y.1 p.1 (p.2 - curbRoom y.2 p.1 4 p.2),
        whenB (curbRoom y.2 p.1 4 p.2 ≠ 0) (curbCharge p.1 4 (curbRoom y.2 p.1 4 p.2)) y.2)
      refine ⟨tiers, h.trans ?_⟩
      dsimp only
      rw [hy]
  exact hfold left (left, s)

/-- A dump changes the dumps, the charges of the tiers and the records alone. -/
def OnlyDumps (s t : State) : Prop :=
  ∃ dumps tiers tally host out, t = { s with dumps := dumps, tiers := tiers, tally := tally, host := host, out := out }

theorem onlyDumps_event (code : Nat) (detail : List Byte) (f : Dumps → Dumps) (s : State) :
    OnlyDumps s (event code detail (modDumps f s)) := by
  obtain ⟨_, _, _, h⟩ := onlyRecords_event code detail (modDumps f s)
  exact ⟨_, s.tiers, _, _, _, h⟩

theorem onlyDumps_dumpGo (f : Dumps → Dumps) (s : State) : OnlyDumps s (dumpGo (modDumps f s)) := by
  unfold dumpGo
  dsimp only
  split
  · exact ⟨_, s.tiers, s.tally, s.host, s.out, rfl⟩
  · obtain ⟨tiers, h⟩ := moveUnits_eq (modDumps f s).dumps.left (modDumps f s)
    rw [h]
    split
    · exact ⟨_, tiers, s.tally, s.host, s.out, rfl⟩
    · split
      · obtain ⟨_, tiers', _, _, _, hend⟩ := onlyDumps_event 0x0C84 _ _ (modDumps (fun k => { k with left :=
          (moveUnits (modDumps f s).dumps.left (modDumps f s)).1 }) { modDumps f s with tiers := tiers })
        exact ⟨_, tiers', _, _, _, hend⟩
      · exact ⟨_, tiers, s.tally, s.host, s.out, rfl⟩

theorem onlyDumps_fullDump (done : Bool) (s : State) : OnlyDumps s (fullDump done s) := by
  unfold fullDump
  split
  · exact ⟨_, s.tiers, s.tally, s.host, s.out, rfl⟩
  · dsimp only
    split
    · exact ⟨_, s.tiers, s.tally, s.host, s.out, rfl⟩
    · split
      · exact onlyDumps_dumpGo ..
      · split
        · exact onlyDumps_dumpGo ..
        · exact onlyDumps_event ..

/-- A chip fault burns no fuse. -/
theorem chipStop_fuses (code : Nat) (detail : List Byte) (progress : Bool) (s : State) :
    (chipStop code detail progress s).fuses = s.fuses := by
  have hdump : ∀ u : State, (fullDump progress u).fuses = u.fuses := fun u => by
    obtain ⟨_, _, _, _, _, h⟩ := onlyDumps_fullDump progress u
    rw [h]
  have hrec : (record 1 3 code detail s).fuses = s.fuses := by
    obtain ⟨_, _, _, h⟩ := onlyRecords_record 1 3 code detail s
    rw [h]
  unfold chipStop chipStopBy
  generalize record 1 3 code detail s = u at hrec
  dsimp only
  split
  · split <;> exact hrec
  · split
    · exact hrec
    · exact (hdump _).trans hrec

/-! ## Wards (R552, R553, R581) -/

section Wards

variable {w : Ward} {old v : Nat} {b : BitVec 1024} {s : State}

/-- An authorisation that covers a write stands, is fresh, and verifies (R581). -/
theorem authorised_spec (h : authorised w v s = true) : ∃ x, s.sec.auth = some x ∧ s.sec.authAge ≤ authLife ∧
    Config.verify (authKey x.1) (wardMessage w v s.fuses.serial x.2.toNat) (x.1.extractLsb' 512 512) = true := by
  unfold authorised at h
  cases hauth : s.sec.auth with
  | none => rw [hauth] at h; exact absurd h Bool.false_ne_true
  | some x =>
    simp only [hauth, Bool.and_eq_true, decide_eq_true_eq] at h
    exact ⟨x, rfl, h⟩

theorem authorised_of_none (h : s.sec.auth = none) : authorised w v s = false := by
  unfold authorised
  rw [h]

section Mailbox

variable (hup : mailboxUp s = true) (hrun : s.boot.stopped = false)

include hup hrun

theorem exec_wardWrite : exec (.wardWrite w v) s = .next (wardWrite w v s) := by
  change execWardWrite w v s = _
  simp only [execWardWrite, hup, hrun, Bool.not_false, Bool.true_or, Bool.and_self, ↓reduceIte]

theorem exec_wardWrite_authorised (howner : s.fuses.ownerHash ≠ 0) (hauth : authorised w v s = true) :
    exec (.wardWrite w v) s = .next (wardPass w v (newNonce (modSec (fun k => { k with auth := none }) s))) := by
  rw [exec_wardWrite hup hrun]
  simp only [wardWrite, howner, hauth, ↓reduceIte]

theorem exec_wardWrite_refused (howner : s.fuses.ownerHash ≠ 0) (hauth : authorised w v s = false) :
    exec (.wardWrite w v) s = .next (authRefuse (newNonce (modSec (fun k => { k with auth := none }) s))) := by
  rw [exec_wardWrite hup hrun]
  simp only [wardWrite, howner, hauth, Bool.false_eq_true, ↓reduceIte]

theorem exec_wardAuth_ok (howner : s.fuses.ownerHash ≠ 0) (hhash : authHash b = s.fuses.ownerHash) : exec (.wardAuth b) s =
    .next (sdoAnswer 0 (modSec (fun k => { k with auth := some (b, s.sec.nonce), authAge := 0 }) (newNonce s))) := by
  change execWardAuth b s = _
  simp only [execWardAuth, hup, hrun, howner, hhash, ne_eq, not_false_eq_true, decide_true, Bool.and_self, Bool.not_true, Bool.or_self,
    Bool.false_eq_true, ↓reduceIte]

theorem exec_wardAuth_refused (hhash : authHash b ≠ s.fuses.ownerHash) : exec (.wardAuth b) s =
    .next (authRefuse (modSec (fun k => { k with auth := none }) (newNonce s))) := by
  change execWardAuth b s = _
  simp only [execWardAuth, hup, hrun, hhash, decide_false, Bool.and_false, Bool.not_true, Bool.or_self, Bool.false_eq_true, ↓reduceIte]

end Mailbox

theorem wardPass_of_shut (h : wardShut s = true) : wardPass w v s = sdoAnswer 0x08000022 s := if_pos h

theorem wardPass_of_open (hshut : wardShut s = false) (hnew : v ≠ wardValue s.fuses w) (hwithin : wardBeyond s.fuses w v = false) :
    wardPass w v s = modMgmt (fun m => { m with burn := some (w, wardValue s.fuses w, v) }) s := by
  simp only [wardPass, wardStart, hshut, hnew, hwithin, Bool.false_eq_true, ↓reduceIte]

section Burn

variable (hburn : s.mgmt.burn = some (w, old, v))

include hburn

/-- The state after a bit that holds. -/
def bitBurnt (w : Ward) (v : Nat) (s : State) : State :=
  modMgmt (fun m => { m with wardPending := m.wardPending ||| wardPends w }) { s with fuses := burnBit w v s.fuses }

theorem exec_wardBitBurn_last (hdone : wardValue (burnBit w v s.fuses) w = v) :
    exec (.wardBitBurn true) s = .next (burnEnd w old 0 (bitBurnt w v s)) := by
  have hvalue : wardValue (bitBurnt w v s).fuses w = v := hdone
  change execWardBitBurn true s = _
  simp only [execWardBitBurn, hburn, Bool.not_true, Bool.false_eq_true, ↓reduceIte]
  exact congrArg Host.Outcome.next (if_pos hvalue)

theorem exec_wardBitBurn_more (hmore : wardValue (burnBit w v s.fuses) w ≠ v) (hpower : s.pins.powerFailN = true) :
    exec (.wardBitBurn true) s = .next (bitBurnt w v s) := by
  have hvalue : ¬ wardValue (bitBurnt w v s).fuses w = v := hmore
  have hpower' : ¬ (!(bitBurnt w v s).pins.powerFailN) = true := by
    change ¬ (!s.pins.powerFailN) = true
    simp [hpower]
  change execWardBitBurn true s = _
  simp only [execWardBitBurn, hburn, Bool.not_true, Bool.false_eq_true, ↓reduceIte]
  exact congrArg Host.Outcome.next ((if_neg hvalue).trans (if_neg hpower'))

theorem exec_wardBitBurn_failed : exec (.wardBitBurn false) s =
    .next (sdoAnswer 0x08000020 (chipStop 0x0A01 (item 2 (wardEntry w).1 ++ item 1 (wardEntry w).2 ++ item 2 (burnIndex w v s.fuses)) true
      (modMgmt (fun m => { m with burn := none }) s))) := by
  change execWardBitBurn false s = _
  simp only [execWardBitBurn, hburn, Bool.not_false, ↓reduceIte]

end Burn

end Wards

/-! ## The Tally's readers (R558 to R562) -/

section Readers

variable {v : Nat} {s : State}

theorem exec_tallyHandover (h : s.stride.window = true ∨ 127 ≤ (bankOf s.tally s.tally.writer).recs.length) :
    exec .tallyHandover s = .next (tallyHand s) := by
  refine congrArg Host.Outcome.next (if_pos ?_)
  rcases h with h | h <;> simp [h]

theorem exec_tallyRelease (h : s.tally.reader = 0) : exec .tallyRelease s = .next (tallyFree s) :=
  congrArg Host.Outcome.next (if_pos h)

variable (hup : mailboxUp s = true) (hrun : s.boot.stopped = false)

include hup hrun

theorem exec_tallyNextPop : exec .tallyNextPop s = .next (tallyPop s) := by
  change execTallyNextPop s = _
  simp only [execTallyNextPop, hup, hrun, Bool.not_false, Bool.and_self, ↓reduceIte]

theorem exec_tallyReaderWrite : exec (.tallyReaderWrite v) s = .next (tallyReader v s) := by
  change execTallyReaderWrite v s = _
  simp only [execTallyReaderWrite, hup, hrun, Bool.not_false, Bool.and_self, ↓reduceIte]

omit hup hrun in
theorem tallyPop_of_none (h : nextRecord s = none) : tallyPop s = modMgmt (fun m => { m with sdoAbort := 0, sdoData := 0 }) s := by
  simp only [tallyPop, h]

omit hup hrun in
theorem tallyPop_of_more {r : TallyRec} (h : nextRecord s = some r)
    (hmore : s.tally.popped + 1 < (bankOf s.tally s.tally.next).recs.length) :
    tallyPop s = modTally (fun t => { t with popped := t.popped + 1 })
      (modMgmt (fun m => { m with sdoAbort := 0, sdoData := numLE (recBytes r) }) s) := by
  simp only [tallyPop, h, modMgmt, Nat.not_le.mpr hmore, ↓reduceIte]

end Readers

/-- Settles O53: the authorisation decides the branch of a ward's write; a chip fault changes the dumps alone, so no fuse. -/
theorem wardsAndTally : Obligations.WardsAndTally := by
  intro w old v b s hup hrun
  refine ⟨fun howner => ⟨fun hauth hshut hnew hwithin => ?_, fun hauth hshut => ?_, fun hauth => ?_⟩,
    fun hburn => ⟨exec_wardBitBurn_last hburn, exec_wardBitBurn_more hburn, fun hfault => ⟨_, exec_wardBitBurn_failed hburn, ?_, ?_⟩⟩,
    exec_wardAuth_ok hup hrun, exec_wardAuth_refused hup hrun, authorised_spec, exec_tallyHandover, exec_tallyRelease,
    fun hnone => ?_, fun r hsome hmore => ?_, fun hv => ?_, fun hv => ?_⟩
  · rw [exec_wardWrite_authorised hup hrun howner hauth]
    exact congrArg Host.Outcome.next (wardPass_of_open (s := newNonce (modSec (fun k => { k with auth := none }) s)) hshut hnew hwithin)
  · rw [exec_wardWrite_authorised hup hrun howner hauth]
    exact congrArg Host.Outcome.next (wardPass_of_shut (s := newNonce (modSec (fun k => { k with auth := none }) s)) hshut)
  · exact exec_wardWrite_refused hup hrun howner (authorised_of_none hauth)
  · exact chipStop_chipFault (s := modMgmt (fun m => { m with burn := none }) s) hfault ..
  · exact chipStop_fuses ..
  · rw [exec_tallyNextPop hup hrun, tallyPop_of_none hnone]
  · rw [exec_tallyNextPop hup hrun, tallyPop_of_more hsome hmore]
  · rw [exec_tallyReaderWrite hup hrun, tallyReader, if_neg (Nat.not_le.mpr hv)]
  · rw [exec_tallyReaderWrite hup hrun, tallyReader, if_pos hv]

end Sys2Proof.Machine
end

section
/-! # SPDM (R571 to R579) -/
namespace Sys2Proof.Machine

/-- A chip fault leaves the jobs as they are. -/
theorem chipStop_job (code : Nat) (detail : List Byte) (progress : Bool) (s : State) : (chipStop code detail progress s).job = s.job := by
  have hdump : ∀ u : State, (fullDump progress u).job = u.job := fun u => by
    obtain ⟨_, _, _, _, _, h⟩ := onlyDumps_fullDump progress u
    rw [h]
  have hrec : (record 1 3 code detail s).job = s.job := by
    obtain ⟨_, _, _, h⟩ := onlyRecords_record 1 3 code detail s
    rw [h]
  unfold chipStop chipStopBy
  generalize record 1 3 code detail s = u at hrec
  dsimp only
  split
  · split <;> exact hrec
  · split
    · exact hrec
    · exact (hdump _).trans hrec

/-- Where the responder is up and Tumbler has its secrets, a request is answered. -/
theorem spdm_of_up {s : State} (hup : spdmUp s = true) (hsecret : s.chipFault ≠ some 0x0B01) (act : State → State) : spdm act s = act s := by
  simp only [spdm, hup, hsecret, Bool.not_true, Bool.false_eq_true, ↓reduceIte]

/-- Without Tumbler's secrets every request is answered with an error. -/
theorem spdm_of_secretless {s : State} (h : s.chipFault = some 0x0B01) (act : State → State) : spdm act s = spdmError 0x05 s := if_pos h

section Requests

variable {n : Fin 2} {i : Nat} {s : State} (hup : spdmUp s = true) (hsecret : s.chipFault ≠ some 0x0B01)

include hup hsecret

theorem exec_getVersion : exec .getVersion s = .next (reply [0x04, 0x12] (modSec (fun k => { k with version := true, algos := false }) s)) :=
  congrArg Host.Outcome.next (spdm_of_up hup hsecret _)

theorem exec_getCapabilities : exec .getCapabilities s = .next (reply [0x61] s) :=
  congrArg Host.Outcome.next (spdm_of_up hup hsecret _)

theorem exec_negotiateAlgorithms :
    exec (.negotiateAlgorithms true) s = .next (reply [0x63] (modSec (fun k => { k with algos := true }) s)) :=
  congrArg Host.Outcome.next (spdm_of_up hup hsecret _)

theorem exec_getDigests : exec .getDigests s = .next (reply [0x01, Config.digest 256 [certChain s]] s) :=
  congrArg Host.Outcome.next (spdm_of_up hup hsecret _)

theorem exec_getCertificate : exec (.getCertificate 0) s = .next (reply [0x02, certChain s] s) :=
  congrArg Host.Outcome.next (spdm_of_up hup hsecret _)

theorem exec_challenge : exec (.challenge 0) s = .next (reply [0x03, (takeFree s).1, measSummary s,
    Config.sign (aliasKey s) [(takeFree s).1, certChain s, measSummary s]] (takeFree s).2) :=
  congrArg Host.Outcome.next (spdm_of_up hup hsecret _)

/-- A block's measurement, signed or not. -/
theorem exec_getMeasurements (hi : 1 ≤ i) (hi10 : i ≤ 10) (signed : Bool) : exec (.getMeasurements i signed) s =
    .next (if signed then reply ([0x60, (takeFree s).1] ++ measBlock s i ++ [Config.sign (aliasKey s) ((takeFree s).1 :: measBlock s i)])
      (takeFree s).2 else reply (0x60 :: measBlock s i) s) := by
  have hfound : (decide (i ≠ 0xFF) && decide (10 < i)) = false := by
    simp [Nat.not_lt.mpr hi10]
  change execGetMeasurements i signed s = _
  simp only [execGetMeasurements, spdm_of_up hup hsecret, show ¬ i = 0 by omega, show ¬ i = 0xFF by omega, hfound, Bool.false_eq_true,
    ↓reduceIte]

theorem exec_keyExchange (hfree : (spdmSess s 0).up = false) : exec (.keyExchange 0) s =
    .next (reply [0x64, 0, (takeFree s).1, Config.sign (aliasKey s) [(takeFree s).1, 0]]
      (modSpdm 0 (fun _ => { up := true }) (takeFree s).2)) := by
  have hfirst : [0, 1].find? (fun n => !(spdmSess s n).up) = some 0 := by
    simp [hfree]
  change execKeyExchange 0 s = _
  simp only [execKeyExchange, spdm_of_up hup hsecret, hfirst, ne_eq, not_true_eq_false, ↓reduceIte]

theorem exec_finish (hopen : (spdmSess s n.val).up = true) (hfin : (spdmSess s n.val).fin = false) : exec (.finish n true) s =
    .next (reply [0x65] (modSpdm n.val (fun k => { k with fin := true }) s)) := by
  change execFinish n true s = _
  simp only [execFinish, spdm_of_up hup hsecret, hopen, hfin, Bool.not_true, Bool.or_self, Bool.false_eq_true, ↓reduceIte]

theorem inSession_of_fin (hfin : (spdmSess s n.val).fin = true) (act : State → State) : inSession n.val act s = act s :=
  (spdm_of_up hup hsecret _).trans (if_pos hfin)

theorem inSession_of_open (hfin : (spdmSess s n.val).fin = false) (act : State → State) : inSession n.val act s = spdmError 0x04 s :=
  (spdm_of_up hup hsecret _).trans (if_neg (by rw [hfin]; exact Bool.false_ne_true))

theorem exec_vendorDefinedRequest_go (hfin : (spdmSess s n.val).fin = true) (hide : s.host.ide = 1) :
    exec (.vendorDefinedRequest n 0 true) s = .next (reply [0x7E] (measChange (modHost (fun h => { h with ide := 2 }) s))) := by
  change execVendorDefinedRequest n 0 true s = _
  simp only [execVendorDefinedRequest, inSession_of_fin hup hsecret hfin, setIde, hide, ne_eq, not_true_eq_false, decide_true,
    Bool.true_or, show ¬ (1 = 2) by decide, ↓reduceIte]

end Requests

/-- An entropy source that fails its test is a chip fault (R579). -/
theorem exec_entropyFailed {i : Nat} {s : State} (htripped : s.thermal.tripped = false) (hchg : s.job.chgOpen = false) :
    exec (.entropyFailed i) s = .next (chipStop 0x0B02 (item 1 i) true s) := by
  have hchg' : (chipStop 0x0B02 (item 1 i) true s).job.chgOpen = false := by rw [chipStop_job, hchg]
  change execEntropyFailed i s = _
  simp only [execEntropyFailed, htripped, hchg', Bool.false_eq_true, ↓reduceIte]

/-- Settles O54: where the responder is up, `spdm` is its action; a session's command acts once it is finished. -/
theorem spdmAnswers : Obligations.SpdmAnswers := by
  intro n i s hup
  refine ⟨fun hsecret => ⟨exec_getVersion hup hsecret, exec_getCapabilities hup hsecret, exec_negotiateAlgorithms hup hsecret,
      exec_getDigests hup hsecret, exec_getCertificate hup hsecret, exec_challenge hup hsecret,
      fun hi hi10 => ⟨exec_getMeasurements hup hsecret hi hi10 false, exec_getMeasurements hup hsecret hi hi10 true⟩,
      exec_keyExchange hup hsecret, exec_finish hup hsecret, fun hfin => ⟨congrArg Host.Outcome.next (inSession_of_fin hup hsecret hfin _),
        congrArg Host.Outcome.next (inSession_of_fin hup hsecret hfin _), congrArg Host.Outcome.next (inSession_of_fin hup hsecret hfin _),
        exec_vendorDefinedRequest_go hup hsecret hfin⟩,
      fun hfin => congrArg Host.Outcome.next (inSession_of_open hup hsecret hfin _)⟩,
    fun hsecretless => congrArg Host.Outcome.next (spdm_of_secretless hsecretless _), exec_entropyFailed⟩

end Sys2Proof.Machine
end

section
/-! # Debug access (R582 to R588) -/
namespace Sys2Proof.Machine

/-- A new measurement counts its generation; the debug unit's other fields stay. -/
theorem measChange_sec (s : State) : (measChange s).sec = { s.sec with measGen := s.sec.measGen + 1 } := by
  obtain ⟨_, _, _, h⟩ := onlyRecords_event 0x0B80 [] (modSec (fun k => { k with measGen := k.measGen + 1 }) s)
  exact congrArg State.sec h

theorem event_sec (code : Nat) (detail : List Byte) (s : State) : (event code detail s).sec = s.sec := by
  obtain ⟨_, _, _, h⟩ := onlyRecords_event code detail s
  rw [h]

/-! ## The session (R582, R583) -/

section Session

variable {p : DbgPath} {l : BitVec 2} {s : State}

/-- An opened session. -/
def debugOpened (p : DbgPath) (level : Nat) (s : State) : State :=
  event 0x0B82 (item 1 (pathNo p) ++ item 1 level) (modSec (fun k => { k with dbgOpen := true, level := level, path := pathNo p })
    (measChange (modSec (fun k => { k with count := acctAdd 1 k.count, maxLevel := Nat.max k.maxLevel level }) s)))

theorem exec_dbgOpen (hpath : pathUp s p = true) (hlevel : l ≠ 0) (hclosed : s.sec.dbgOpen = false) (hchg : s.job.chgOpen = false) :
    exec (.dbgOpen p l) s = .next (debugOpened p l.toNat s) := by
  have hlevel' : l.toNat ≠ 0 := fun h => hlevel (BitVec.eq_of_toNat_eq h)
  change execDbgOpen p l s = _
  simp only [execDbgOpen, debugCtrl, debugOpen, hpath, hlevel', hclosed, hchg, decide_false, Bool.and_false, Bool.not_true, Bool.or_self,
    Bool.false_eq_true, ↓reduceIte]
  rfl

theorem debugOpened_sec (p : DbgPath) (level : Nat) (s : State) : (debugOpened p level s).sec.dbgOpen = true ∧
    (debugOpened p level s).sec.level = level ∧ (debugOpened p level s).sec.path = pathNo p ∧
    (debugOpened p level s).sec.count = acctAdd 1 s.sec.count := by
  have hcount : (measChange (modSec (fun k => { k with count := acctAdd 1 k.count, maxLevel := Nat.max k.maxLevel level }) s)).sec.count =
      acctAdd 1 s.sec.count := by
    rw [measChange_sec]
    rfl
  unfold debugOpened
  rw [event_sec]
  exact ⟨rfl, rfl, rfl, hcount⟩

theorem debugOpened_store (p : DbgPath) (level : Nat) (s : State) : StoreSame s (debugOpened p level s) :=
  event_store (modSec_store (measChange_store (modSec_store (StoreSame.refl s) _)) _) _ _

theorem exec_dbgClose (hpath : pathUp s p = true) (hopen : s.sec.dbgOpen = true) (hpathNo : s.sec.path = pathNo p) :
    exec (.dbgClose p) s = .next (debugShut s) := by
  change execDbgClose p s = _
  simp only [execDbgClose, debugCtrl, debugClose, hpath, hopen, hpathNo, decide_true, Bool.and_self, ↓reduceIte]

end Session

/-! ## A core at level 3 (R585) -/

section Control

variable {t : Nat} {s : State} (hcontrol : dbgControl s = true) (hfree : (jobCores s).contains s.sec.core = false)

include hcontrol hfree

theorem exec_dbgHalt : exec .dbgHalt s = .next (modCore s.sec.core (fun k => { k with dbgHalt := true }) s) := by
  change execDbgHalt s = _
  simp only [execDbgHalt, debugHalt, hcontrol, hfree, whenB, Bool.not_true, Bool.false_eq_true, ↓reduceIte]

omit hfree in
theorem exec_dbgResume : exec .dbgResume s = .next (modCore s.sec.core (fun k => { k with dbgHalt := false }) s) :=
  congrArg Host.Outcome.next (if_pos hcontrol)

theorem exec_dbgStep (hcore : s.sec.core < 288) (hhalt : (coreOf s s.sec.core).dbgHalt = true)
    (hthread : nextThread s s.sec.core = some t) :
    exec .dbgStep s = .next (modCore s.sec.core (fun k => { k with dbgHalt := true })
      (groomExec (coreIdOf s.sec.core) (threadIdOf t) (modCore s.sec.core (fun k => { k with dbgHalt := false }) s))) := by
  have hid : (coreIdOf s.sec.core).val = s.sec.core := Nat.mod_eq_of_lt hcore
  change execDbgStep s = _
  simp only [execDbgStep, debugStep, hid, hcontrol, hhalt, hthread, hfree, whenB, Bool.not_true, Bool.or_self, Bool.false_eq_true,
    ↓reduceIte]

end Control

/-! ## Accesses (R584, R586) -/

section Access

variable {v : Word} {s : State}

theorem exec_dbgDataRead (hmay : debugMay s false = true) : exec .dbgDataRead s =
    .next (modSec (fun k => { k with data := debugWord s s.sec.addr }) (debugAdvance { s with free := s.free + 1 })) := by
  have hread : debugRead s = (debugWord s s.sec.addr, debugAdvance { s with free := s.free + 1 }) := if_pos hmay
  change execDbgDataRead s = _
  simp only [execDbgDataRead, hread]

/-- A debug write to scratchpad: the word, and perhaps a new measurement. -/
theorem debugWrite_of_spad {k o : Nat} (hmay : debugMay s true = true) (hregion : regionOf s s.sec.addr = .spad k o) :
    ∃ u, debugWrite v s = debugAdvance u ∧ StoreSame (writeWord s.sec.addr v s) u ∧ u.sec.addr = s.sec.addr := by
  have hstore : debugStore s.sec.addr v s = writeWord s.sec.addr v s := by
    simp only [debugStore, hregion]
  have haddr : (writeWord s.sec.addr v s).sec.addr = s.sec.addr := by
    unfold writeWord
    rw [writeBytes_eq]
  have hmay' : ¬ (!debugMay s true) = true := by rw [hmay]; exact Bool.false_ne_true
  unfold debugWrite
  rw [if_neg hmay']
  dsimp only
  rw [hstore]
  generalize writeWord s.sec.addr v s = w at haddr ⊢
  refine ⟨_, rfl, ?_, ?_⟩
  · split
    · exact measChange_store (modSec_store (StoreSame.refl _) _)
    · exact StoreSame.refl _
  · split
    · rw [measChange_sec]
      exact haddr
    · exact haddr

/-- What a debug write to scratchpad leaves. -/
theorem debugWrite_spad {k o : Nat} (hmay : debugMay s true = true) (hregion : regionOf s s.sec.addr = .spad k o)
    (hmem : Memory.wf s.mem = true) : readWord (debugWrite v s) s.sec.addr = v ∧ memSameBut s.sec.addr 8 s (debugWrite v s) ∧
      (debugWrite v s).sec.addr = (s.sec.addr + 8) % 2 ^ 48 := by
  obtain ⟨u, hu, hsame, haddr⟩ := debugWrite_of_spad (v := v) hmay hregion
  have hstore : StoreSame (writeWord s.sec.addr v s) (debugAdvance u) := modSec_store hsame _
  have hbytes := hstore.memSame
  obtain ⟨hmem', hscr, hboard⟩ := hstore
  rw [hu]
  refine ⟨?_, fun i hi => (hbytes i).trans ?_, ?_⟩
  · rw [readWord_congr hmem' hscr hboard, readWord_writeWord hmem]
  · exact readByte_writeBytes_outside hmem _ _ (by rwa [length_bytesLE])
  · change (u.sec.addr + 8) % 2 ^ 48 = _
    rw [haddr]

/-- A unit of 64 bytes of a dump. -/
theorem exec_dumpDataRead (hoff : dumpOffsetOk s.dumps.source s.dumps.offset = true) :
    exec .dumpDataRead s = .next (modMgmt (fun m => { m with
        sdoAbort := 0, sdoData := numLE ((List.range 64).map (fun i => dumpSourceByte s (s.dumps.offset + i))) })
      (modDumps (fun d => { d with offset := (d.offset + 64) % 2 ^ 30 }) s)) := by
  change execDumpDataRead s = _
  simp only [execDumpDataRead, dumpRead, hoff, Bool.not_true, Bool.false_eq_true, ↓reduceIte]

end Access

/-- Settles O55: a session's fields pass the measurement and the record; a debug write to scratchpad is a word written and perhaps a
measurement. -/
theorem debugAccess : Obligations.DebugAccess := by
  intro p l v s
  refine ⟨fun hpath hlevel hclosed hchg => ⟨_, exec_dbgOpen hpath hlevel hclosed hchg, ?_⟩, exec_dbgClose, fun high => rfl, fun h => h,
    fun hcontrol hfree => ⟨exec_dbgHalt hcontrol hfree, exec_dbgResume hcontrol⟩,
    fun t hcore hcontrol hhalt hthread hfree => exec_dbgStep hcontrol hfree hcore hhalt hthread,
    fun hmay => ⟨_, exec_dbgDataRead hmay, rfl, rfl, rfl⟩, fun k o hmay hregion hmem => ⟨_, rfl, debugWrite_spad hmay hregion hmem⟩,
    exec_dumpDataRead⟩
  obtain ⟨hopen, hlev, hpathNo, hcount⟩ := debugOpened_sec p l.toNat s
  exact ⟨hopen, hlev, hpathNo, hcount, (debugOpened_store p l.toNat s).memSame⟩

end Sys2Proof.Machine
end

section
/-! # Resets and start-up (R592 to R603) -/
namespace Sys2Proof.Machine

/-! ## The resets -/

/-- `t` differs from `s` in what is placed alone. -/
def OnlyPlaced (s t : State) : Prop := ∃ tiers weights, t = { s with tiers := tiers, weights := weights }

theorem OnlyPlaced.trans {s t u : State} (h : OnlyPlaced s t) (k : OnlyPlaced t u) : OnlyPlaced s u := by
  obtain ⟨_, _, rfl⟩ := h
  obtain ⟨_, _, rfl⟩ := k
  exact ⟨_, _, rfl⟩

theorem onlyPlaced_forEach {α : Type} {f : α → State → State} (hf : ∀ x s, OnlyPlaced s (f x s)) (l : List α) (s : State) :
    OnlyPlaced s (forEach l f s) := by
  induction l generalizing s with
  | nil => exact ⟨s.tiers, s.weights, rfl⟩
  | cons x l ih => exact (hf x s).trans (ih (f x s))

theorem onlyPlaced_pageReadDrop (a : Nat) (s : State) : OnlyPlaced s (pageReadDrop a s) := by
  unfold pageReadDrop
  split
  · exact ⟨_, s.weights, rfl⟩
  · exact ⟨s.tiers, s.weights, rfl⟩

theorem onlyPlaced_keepObject (o : Placed) (s : State) : OnlyPlaced s (keepObject o s) := by
  unfold keepObject
  split
  · exact ⟨_, s.weights, rfl⟩
  · exact ⟨s.tiers, _, rfl⟩

/-- The release of a job's objects changes what is placed alone. -/
theorem onlyPlaced_releaseObjects (s : State) : OnlyPlaced s (releaseObjects s) := by
  have hwalk : ∀ {u : State} (l : List Placed) (f : Tiers → Tiers) (g : Weights → Weights), OnlyPlaced s u →
      OnlyPlaced s (forEach l keepObject (modWeights g (modTiers f u))) := fun l f g hu =>
    (hu.trans ⟨_, _, rfl⟩).trans (onlyPlaced_forEach onlyPlaced_keepObject l _)
  unfold releaseObjects
  split
  · exact ⟨s.tiers, s.weights, rfl⟩
  · refine hwalk _ _ _ (onlyPlaced_forEach (fun p t => ?_) _ s)
    split
    · exact onlyPlaced_pageReadDrop ..
    · exact ⟨t.tiers, t.weights, rfl⟩

/-- A store whose units are all at rest reads at rest. -/
theorem engineWarm_idle (m : Sparse Engine) (e : Nat) :
    (sget {} (smap {} (fun _ g => engineWarm g) m) e).firing = none ∧ (sget {} (smap {} (fun _ g => engineWarm g) m) e).entries = [] := by
  rcases sget_mem_or {} (smap {} (fun _ g => engineWarm g) m) e with h | ⟨p, hp, h⟩
  · rw [h]
    exact ⟨rfl, rfl⟩
  · obtain ⟨x, hx⟩ := exists_of_mem_smap hp
    rw [h, hx]
    exact ⟨rfl, rfl⟩

theorem exec_warmReset {s : State} (hstage : 5 ≤ s.boot.stage) : exec .warmReset s = .next (warmState s) := by
  change execWarmReset s = _
  simp only [execWarmReset, Nat.not_lt.mpr hstage, decide_false, Bool.and_false, Bool.false_eq_true, ↓reduceIte]

/-- What a warm reset keeps and what it resets (R602, R604). -/
theorem warmState_spec (s : State) : (warmState s).mem = s.mem ∧ (warmState s).fuses = s.fuses ∧ (warmState s).scr = s.scr ∧
    (warmState s).chipFault = none ∧ (warmState s).boot.stage = 0 ∧ (warmState s).boot.cause = 2 ∧
    (∀ e, (engOf (warmState s) e).firing = none ∧ (engOf (warmState s) e).entries = []) ∧
    (warmState s).job.run = none ∧ (warmState s).job.tenant = s.job.tenant ∧ (warmState s).stride.count = s.stride.count ∧
    (warmState s).sec.count = s.sec.count ∧ (warmState s).sec.maxLevel = s.sec.maxLevel ∧ (warmState s).tally.seq = s.tally.seq := by
  obtain ⟨tiers, weights, h⟩ := onlyPlaced_releaseObjects s
  unfold warmState
  rw [h]
  exact ⟨rfl, rfl, rfl, rfl, rfl, rfl, engineWarm_idle s.engines, rfl, rfl, rfl, rfl, rfl, rfl⟩

/-! ## Start-up (R597 to R600) -/

section StartUp

variable {i : StartIn} {s : State}

theorem exec_startUp_run (hrun : s.boot.stopped = false) (hstage : s.boot.stage = 0) :
    exec (.startUp i) s = .next (startRun i s) := by
  change execStartUp i s = _
  simp only [execStartUp, hrun, hstage, Bool.false_eq_true, ↓reduceIte]

theorem startRun_of_secretless (h : i.secretOk = false) : startRun i s = startStop 0 0x0B01 [] s := by
  simp only [startRun, h, Bool.not_false, ↓reduceIte]

variable (hsecret : i.secretOk = true)

include hsecret

theorem startRun_of_badFuse (h : i.fuseOk = false) : startRun i s = startStop 0 0x0C02 [] s := by
  simp only [startRun, hsecret, h, Bool.not_true, Bool.not_false, Bool.false_eq_true, ↓reduceIte]

variable (hfuse : i.fuseOk = true)

include hfuse

theorem startRun_of_noDir (hdir : pickDir (stageFuses s).boot i.dirOk = none) :
    startRun i s = startStop 1 0x0C03 (bothSlots 1) (stageFuses s) := by
  simp only [startRun, hsecret, hfuse, hdir, Bool.not_true, Bool.false_eq_true, ↓reduceIte]

variable {d : Nat} (hdir : pickDir (stageFuses s).boot i.dirOk = some d)

include hdir

theorem startRun_of_noTumbler (himage : pickImage (modBoot (fun b => { b with dirCur := d }) (stageFuses s)) 1 i.imageOk = none) :
    startRun i s = startStop 2 0x0C03 (bothSlots 1) (modBoot (fun b => { b with dirCur := d }) (stageFuses s)) := by
  simp only [startRun, hsecret, hfuse, hdir, himage, Bool.not_true, Bool.false_eq_true, ↓reduceIte]

theorem startRun_of_images {a b : Nat × Bool}
    (htumbler : pickImage (modBoot (fun b => { b with dirCur := d }) (stageFuses s)) 1 i.imageOk = some a)
    (hconfig : pickImage (stageTumbler a (modBoot (fun b => { b with dirCur := d }) (stageFuses s))) 2 i.imageOk = some b) :
    startRun i s = startLate i (stageMemory i (stageConfig b (stageTumbler a (modBoot (fun b => { b with dirCur := d }) (stageFuses s))))) := by
  simp only [startRun, hsecret, hfuse, hdir, htumbler, hconfig, Bool.not_true, Bool.false_eq_true, ↓reduceIte]

omit hsecret hfuse hdir in
theorem startLate_of_memory (hports : ∀ p, p < 8 → (portOf s p).state = 2) :
    startLate i s = stageEtxia i (stageRelease i (modBoot (fun k => { k with stage := 5 }) s)) := by
  have hfind : (List.range 8).find? (fun p => (portOf s p).state ≠ 2) = none := by
    rw [List.find?_eq_none]
    intro p hp
    simp [hports p (List.mem_range.mp hp)]
  simp only [startLate, hfind]

omit hsecret hfuse hdir in
/-- At the boundary that allows it, start-up ends. -/
theorem exec_startUp_admit (hrun : s.boot.stopped = false) (hact : mayAct s 9 = true) (hstage : s.boot.stage = 6)
    (hphase : s.job.chg.phase = 0) (hchg : changeoverPending s = false) (hpending : s.sft.pending = false) (hbusy : s.sft.busy = false)
    (hid : s.sft.activeId.toNat = i.sftId) :
    exec (.startUp i) s = .next (event 0x0C80 (item 1 s.boot.cause) (modBoot (fun b => { b with stage := 7 }) (setAct 9 s))) := by
  change execStartUp i s = _
  simp only [execStartUp, startAdmit, hrun, hact, hstage, hphase, hchg, hpending, hbusy, hid, show ¬ (6 = 0) by decide, decide_true,
    Bool.not_false, Bool.and_self, Bool.false_eq_true, ↓reduceIte]

end StartUp

/-- Settles O56: the warm state is read off what the release of the job's objects leaves; start-up is one equation per stage that can
stop it. -/
theorem resetsAndStartUp : Obligations.ResetsAndStartUp := by
  intro i s
  refine ⟨⟨_, rfl, rfl, rfl, rfl, rfl, rfl, rfl, rfl, rfl, rfl, rfl, rfl, rfl, rfl, rfl⟩,
    fun hstage => ⟨_, exec_warmReset hstage, warmState_spec s⟩, fun hrun hstage => ?_, exec_startUp_admit⟩
  rw [exec_startUp_run hrun hstage]
  refine ⟨fun hsecret => ?_, fun hsecret hfuse => ?_, fun hsecret hfuse hdir => ?_, fun hsecret hfuse d hdir himage => ?_,
    fun hsecret hfuse d a b hdir htumbler hconfig hports => ?_⟩
  · rw [startRun_of_secretless hsecret]
  · rw [startRun_of_badFuse hsecret hfuse]
  · rw [startRun_of_noDir hsecret hfuse hdir]
  · rw [startRun_of_noTumbler hsecret hfuse hdir himage]
  · rw [startRun_of_images hsecret hfuse hdir htumbler hconfig, startLate_of_memory hports]

end Sys2Proof.Machine
end

section
/-! # Parts that leave service (R604 to R627) -/
namespace Sys2Proof.Machine

/-- Where action 7 stands, naming it again changes nothing. -/
theorem setAct_seven_of_act_seven {s : State} (h : s.stride.act = 7) : setAct 7 s = s := by
  have hauto : autoActs 7 s = s := by
    simp only [autoActs, h, show ¬ (7 < 4) by decide, show ¬ (7 < 6) by decide, show ¬ (7 < 7) by decide, show ¬ (8 ≤ 7) by decide,
      decide_false, Bool.false_and, Bool.and_false, Bool.false_eq_true, ↓reduceIte]
  have hmax : Nat.max s.stride.act 7 = s.stride.act := Nat.max_eq_left (by omega)
  have hstride : { s.stride with act := Nat.max s.stride.act 7 } = s.stride := by rw [hmax]
  unfold setAct modStride
  rw [hauto]
  exact congrArg (fun t => { s with stride := t }) hstride

section Service

variable {c : CoreId} {o : OstlerId} {r : Running} {s : State}

theorem exec_chipFault_first {f : ChipFaultIn} (hcode : isChipFault f.code = true) :
    exec (.chipFault f) s = .next (chipStop f.code [] f.progress s) := congrArg Host.Outcome.next (if_pos hcode)

theorem exec_chipFault_other {f : ChipFaultIn} (hcode : isChipFault f.code = false) : exec (.chipFault f) s = .next s :=
  congrArg Host.Outcome.next (if_neg (by rw [hcode]; exact Bool.false_ne_true))

theorem exec_reducedDump (hfault : s.chipFault.isSome = true) (howns : s.dumps.tumblerOwns = true) (hwriting : s.dumps.writing = true)
    (hrestart : s.boot.restart = false) : exec .reducedDump s = .next (reducedDump s) := by
  change execReducedDump s = _
  simp only [execReducedDump, hfault, howns, hwriting, hrestart, Bool.not_false, Bool.and_self, ↓reduceIte]

theorem exec_droopTrip (hstage : 5 ≤ s.boot.stage) (hbacked : (bindingOf s c.val).unbacked = false) :
    exec (.droopTrip c) s = .next (coreLeaves c.val (coreClear c.val s)) := by
  change execDroopTrip c s = _
  simp only [execDroopTrip, Nat.not_lt.mpr hstage, hbacked, decide_false, Bool.or_self, Bool.false_eq_true, ↓reduceIte]

/-- The one core of the job that left service ends it (R627). -/
theorem exec_coreStateLost (hrun : s.job.run = some r) (hact : mayAct s 1 = true)
    (hlost : (tackCores r.tack).filter (fun k => coreStale s k && !r.coresLost.contains k) = [c.val]) :
    exec .coreStateLost s = .next (jobFault 0x0C05 (item 2 c.val ++ item 1 (coreOf s c.val).svc.toNat)
      (coreWriteOff c.val (modRun (fun r => { r with coresLost := r.coresLost ++ [c.val] }) (setAct 1 s)))) := by
  change execCoreStateLost s = _
  simp only [execCoreStateLost, hrun, hact, hlost, Bool.not_true, Bool.false_eq_true, ↓reduceIte]
  rfl

theorem exec_ostlerLeaveService (hstage : 5 ≤ s.boot.stage) (honline : (ostlerOf s o.val).online = true) :
    exec (.ostlerLeaveService o) s = .next (ostlerLeave o.val s) := by
  change execOstlerLeaveService o s = _
  simp only [execOstlerLeaveService, Nat.not_lt.mpr hstage, honline, decide_false, Bool.not_true, Bool.or_self, Bool.false_eq_true,
    ↓reduceIte]

/-- An Ostler core as it comes back: the image it runs, its store's walk begun anew. -/
def readmitted (i : ImgSlot) (k : Ostler) : Ostler :=
  { k with online := true, loaded := k.svc, version := imgVersion i, image := imageDigest 5 i, region := 0, downFor := 0 }

/-- The part with the core back, and measured. -/
def ostlerBack (n : Nat) (s : State) : State :=
  measChange (event 0x0C82 (item 2 (0x8000 + n))
    (modRun (fun r => { r with unchecked := (r.unchecked ++ r.openSteps ++ [r.stride]).eraseDups })
      (modOstler n (readmitted s.boot.etxia) s)))

theorem ostlerBack_fields (n : Nat) (s : State) :
    (ostlerBack n s).ostlers = smod {} s.ostlers n (readmitted s.boot.etxia) ∧ (ostlerBack n s).boot = s.boot := by
  obtain ⟨_, _, _, _, h⟩ := measChange_eq (event 0x0C82 (item 2 (0x8000 + n))
    (modRun (fun r => { r with unchecked := (r.unchecked ++ r.openSteps ++ [r.stride]).eraseDups })
      (modOstler n (readmitted s.boot.etxia) s)))
  obtain ⟨_, _, _, h'⟩ := onlyRecords_event 0x0C82 (item 2 (0x8000 + n))
    (modRun (fun r => { r with unchecked := (r.unchecked ++ r.openSteps ++ [r.stride]).eraseDups })
      (modOstler n (readmitted s.boot.etxia) s))
  rw [ostlerBack, h, h']
  exact ⟨rfl, rfl⟩

theorem ostlerBack_mem (n : Nat) (s : State) : (ostlerBack n s).mem = s.mem :=
  (measChange_mem _).trans ((event_mem _ _ _).trans rfl)

/-- The core is online with the image it counts, its walk at the first region. -/
theorem ostlerOf_ostlerBack (n : Nat) (s : State) : ostlerOf (ostlerBack n s) n = readmitted s.boot.etxia (ostlerOf s n) := by
  unfold ostlerOf
  rw [(ostlerBack_fields n s).1]
  exact sget_smod_of_ne fun h => Bool.noConfusion (congrArg Ostler.online h)

theorem exec_ostlerReadmit (hact : mayAct s 7 = true) (hseven : s.stride.act = 7) (hstage : 5 ≤ s.boot.stage)
    (hoffline : (ostlerOf s o.val).online = false) (hretire : (ostlerOf s o.val).retire = false)
    (hregions : 256 ≤ (ostlerOf s o.val).regions) (hrolling : s.boot.rolling = none) :
    exec (.ostlerReadmit o) s = .next (rollNext o.val (ostlerBack o.val s)) := by
  change execOstlerReadmit o s = _
  simp only [execOstlerReadmit, hact, Nat.not_lt.mpr hstage, hoffline, hretire, Nat.not_lt.mpr hregions, hrolling, etxiaFor,
    setAct_seven_of_act_seven hseven, decide_false, Bool.not_true, Bool.or_self, Bool.false_eq_true, ↓reduceIte]
  rfl

theorem rollNext_of_none {n : Nat} (h : s.boot.rolling = none) : rollNext n s = s := by
  simp only [rollNext, h]

end Service

/-- Settles O57: one equation per command; where action 7 stands, naming it again changes nothing, and the core that comes back reads
back online. -/
theorem partsLeaveService : Obligations.PartsLeaveService := by
  intro f c o s
  refine ⟨fun hfault hcode => ⟨_, exec_chipFault_first hcode, chipStop_chipFault hfault ..⟩, exec_chipFault_other,
    fun hstage => congrArg Host.Outcome.next (if_pos hstage), exec_reducedDump, exec_droopTrip,
    fun r hrun hact hone hlost => exec_coreStateLost hrun hact hlost, exec_ostlerLeaveService,
    fun hact hseven hstage hoffline hretire hregions hrolling =>
      ⟨_, exec_ostlerReadmit hact hseven hstage hoffline hretire hregions hrolling, ?_⟩⟩
  have hroll : rollNext o.val (ostlerBack o.val s) = ostlerBack o.val s := rollNext_of_none (by rw [(ostlerBack_fields o.val s).2]; exact hrolling)
  rw [hroll, ostlerOf_ostlerBack]
  exact ⟨rfl, rfl, rfl, ostlerBack_mem o.val s⟩

end Sys2Proof.Machine
end

section
/-! # The update of images (R614 to R622) -/
namespace Sys2Proof.Machine

section Images

variable {sig : Bool} {lp : LpRate} {nand : NandRate} {l : List Byte} {s : State} (hheard : imgHeard s = true)

include hheard

section Free

variable (hfree : imgBusy s = false)

include hfree

theorem exec_imgBegin (htarget : s.boot.target ≠ 0) :
    exec .imgBegin s = .next (sdoFine (imgStep (fun b => setImage b.target (idleSlot b b.target) { valid := false }
      { b with imgState := 1, imgErr := 0, segments := 0 }) s)) := by
  change execImgBegin s = _
  simp only [execImgBegin, hheard, hfree, htarget, decide_false, Bool.not_true, Bool.or_self, Bool.false_eq_true, ↓reduceIte]

theorem exec_imgVerify_good (hstate : s.boot.imgState = 1) (hcheck : imgCheck s sig = 0) :
    exec (.imgVerify sig lp nand) s = .next (sdoFine (imgStep (fun b =>
      { setNew { newImage b with valid := true, lpRate := lp, nandRate := nand } b with imgState := 2 }) s)) := by
  change execImgVerify sig lp nand s = _
  simp only [execImgVerify, hheard, hfree, hstate, hcheck, ne_eq, not_true_eq_false, decide_false, Bool.not_true, Bool.or_self,
    Bool.false_eq_true, ↓reduceIte]

theorem exec_imgVerify_bad (hstate : s.boot.imgState = 1) (hcheck : imgCheck s sig ≠ 0) :
    exec (.imgVerify sig lp nand) s = .next (imgFail (imgCheck s sig) s) := by
  change execImgVerify sig lp nand s = _
  simp only [execImgVerify, hheard, hfree, hstate, hcheck, ne_eq, not_true_eq_false, not_false_eq_true, decide_false, Bool.not_true,
    Bool.or_self, Bool.false_eq_true, ↓reduceIte]

theorem exec_activate_tumbler (hstate : s.boot.imgState = 2) (htarget : s.boot.target = 1) :
    exec .activate s = .next (sdoFine (imgStep (fun b =>
      { dirWrite (fun d => { d with tumbler := 1 - d.tumbler }) b with imgState := 3, restartDue := true }) s)) := by
  change execActivate s = _
  simp only [execActivate, hheard, hfree, hstate, htarget, ne_eq, not_true_eq_false, decide_false, Bool.not_true, Bool.or_self,
    Bool.false_eq_true, ↓reduceIte]

omit hfree in
theorem exec_activate_refused (hstate : s.boot.imgState ≠ 2) : exec .activate s = .next (imgRefuse s) := by
  change execActivate s = _
  simp only [execActivate, hheard, hstate, ne_eq, not_false_eq_true, decide_true, Bool.or_true, Bool.not_true, Bool.false_eq_true,
    ↓reduceIte]

end Free

section Data

variable (hstate : s.boot.imgState = 1) (hlen : l.length = 512)

include hstate hlen

theorem exec_imgData_fits (hfits : (s.boot.segments + 1) * 512 ≤ slotSize s.boot) (ok : Bool) :
    exec (.imgData l ok) s = .next (if ok then sdoFine (modBoot (fun b =>
      { setNew { newImage b with bytes := (newImage b).bytes ++ l } b with segments := b.segments + 1 }) s) else imgFail 5 s) := by
  change execImgData l ok s = _
  simp only [execImgData, hheard, hstate, hlen, Nat.not_lt.mpr hfits, ne_eq, not_true_eq_false, decide_false, Bool.not_true, Bool.or_self,
    Bool.false_eq_true, ↓reduceIte]
  cases ok <;> rfl

theorem exec_imgData_over (hover : slotSize s.boot < (s.boot.segments + 1) * 512) :
    exec (.imgData l true) s = .next (imgFail 1 s) := by
  change execImgData l true s = _
  simp only [execImgData, hheard, hstate, hlen, hover, ne_eq, not_true_eq_false, decide_false, Bool.not_true, Bool.or_self,
    Bool.false_eq_true, ↓reduceIte]

end Data

theorem exec_imgAbort (hstate : s.boot.imgState = 1 ∨ s.boot.imgState = 2) : exec .imgAbort s =
    .next (sdoFine (imgStep (fun b => { b with imgState := 0, imgErr := 0, segments := 0 }) s)) := by
  have hopen : (decide (s.boot.imgState = 1) || decide (s.boot.imgState = 2)) = true := by
    rcases hstate with h | h <;> simp [h]
  change execImgAbort s = _
  simp only [execImgAbort, hheard, hopen, Bool.not_true, Bool.false_eq_true, ↓reduceIte]

end Images

/-! ## The restart of Tumbler (R618 to R620) -/

section Restart

variable {w : Word} {n k : Nat} {s : State}

theorem imgStep_fields (f : Boot → Boot) (s : State) : (imgStep f s).boot = f s.boot ∧ (imgStep f s).sec = s.sec ∧
    (imgStep f s).mem = s.mem := by
  obtain ⟨_, _, _, h⟩ := onlyRecords_event 0x0C83 (item 4 (imgStatus (modBoot f s))) (modBoot f s)
  unfold imgStep
  dsimp only
  rw [h]
  exact ⟨rfl, rfl, rfl⟩

/-- Tumbler is back: a budget held over the restart is taken, memory stays. -/
theorem tumblerBack_fields (s : State) : (tumblerBack s).boot = { s.boot with restart := false } ∧ (tumblerBack s).mem = s.mem := by
  unfold tumblerBack
  dsimp only
  split
  · exact ⟨rfl, rfl⟩
  · rename_i b _
    obtain ⟨_, _, _, _, _, h⟩ := noteChange_eq (modMgmt (fun m => { m with budget := b, heldBudget := none })
      (modBoot (fun b => { b with restart := false }) s))
    rw [h]
    exact ⟨rfl, rfl⟩

theorem measChange_boot (s : State) : (measChange s).boot = s.boot := by
  obtain ⟨_, _, _, _, h⟩ := measChange_eq s
  rw [h]

theorem exec_tumblerRestart (hdue : s.boot.restartDue = true) (hwindow : s.stride.window = true) :
    exec .tumblerRestart s = .next (modBoot (fun b => { b with restart := true, restartDue := false }) s) := by
  change execTumblerRestart s = _
  simp only [execTumblerRestart, hdue, hwindow, Bool.and_self, ↓reduceIte]

/-- Tumbler runs the image that the directory names, with new sessions. -/
def restarted (w : Word) (s : State) : State :=
  imgStep (fun b => { b with imgState := 4, imgErr := 0 }) (measChange (modBoot (fun b => { b with
    runTumbler := (dirNow b).tumbler, ranTumbler := imageOf b 1 (dirNow b).tumbler })
    (modSec (fun k => { k with sessions := [], version := false, algos := false, nonce := w }) (tumblerBack s))))

theorem exec_tumblerRestartEnd (hrestart : s.boot.restart = true) : exec (.tumblerRestartEnd w) s = .next (restarted w s) := by
  change execTumblerRestartEnd w s = _
  simp only [execTumblerRestartEnd, hrestart, Bool.not_true, Bool.false_eq_true, ↓reduceIte]
  rfl

theorem restarted_spec (w : Word) (s : State) : (restarted w s).boot.restart = false ∧
    (restarted w s).boot.runTumbler = (dirNow s.boot).tumbler ∧ (restarted w s).boot.imgState = 4 ∧ (restarted w s).sec.sessions = [] ∧
    (restarted w s).sec.nonce = w ∧ (restarted w s).mem = s.mem := by
  obtain ⟨hboot, hmem⟩ := tumblerBack_fields s
  unfold restarted
  obtain ⟨hb, hs, hm⟩ := imgStep_fields (fun b => { b with imgState := 4, imgErr := 0 }) (measChange (modBoot (fun b => { b with
    runTumbler := (dirNow b).tumbler, ranTumbler := imageOf b 1 (dirNow b).tumbler })
    (modSec (fun k => { k with sessions := [], version := false, algos := false, nonce := w }) (tumblerBack s))))
  rw [hb, hs, hm, measChange_boot, measChange_sec, measChange_mem]
  refine ⟨?_, ?_, rfl, rfl, rfl, hmem⟩
  · change (tumblerBack s).boot.restart = false
    rw [hboot]
  · change (dirNow (tumblerBack s).boot).tumbler = _
    rw [hboot]
    rfl

/-- The directory goes back to the image before. -/
def restartUndone (s : State) : State :=
  imgStep (fun b => { dirWrite (fun d => { d with tumbler := 1 - d.tumbler }) b with imgState := 5, imgErr := 7 }) (tumblerBack s)

theorem exec_tumblerRestartTimeout (hrestart : s.boot.restart = true) : exec .tumblerRestartTimeout s = .next (restartUndone s) := by
  change execTumblerRestartTimeout s = _
  simp only [execTumblerRestartTimeout, hrestart, Bool.not_true, Bool.false_eq_true, ↓reduceIte]
  rfl

/-- A write of the directory is what it then holds. -/
theorem dirNow_dirWrite (f : DirCopy → DirCopy) (b : Boot) : dirNow (dirWrite f b) = f { dirNow b with seq := (dirNow b).seq + 1 } := by
  unfold dirWrite
  dsimp only
  split <;> rfl

theorem dirWrite_restart (f : DirCopy → DirCopy) (b : Boot) : (dirWrite f b).restart = b.restart := by
  unfold dirWrite
  dsimp only
  split <;> rfl

theorem restartUndone_spec (s : State) : (restartUndone s).boot.restart = false ∧
    (dirNow (restartUndone s).boot).tumbler = 1 - (dirNow s.boot).tumbler ∧
    (dirNow (restartUndone s).boot).seq = (dirNow s.boot).seq + 1 ∧ (restartUndone s).boot.imgState = 5 ∧
    (restartUndone s).boot.imgErr = 7 := by
  have hb : (restartUndone s).boot = { dirWrite (fun d => { d with tumbler := 1 - d.tumbler }) (tumblerBack s).boot with
      imgState := 5, imgErr := 7 } := (imgStep_fields _ (tumblerBack s)).1
  have hdir : dirNow (restartUndone s).boot = { dirNow s.boot with
      tumbler := 1 - (dirNow s.boot).tumbler, seq := (dirNow s.boot).seq + 1 } := by
    rw [hb]
    change dirNow (dirWrite (fun d => { d with tumbler := 1 - d.tumbler }) (tumblerBack s).boot) = _
    rw [dirNow_dirWrite, (tumblerBack_fields s).1]
    rfl
  refine ⟨?_, congrArg DirCopy.tumbler hdir, congrArg DirCopy.seq hdir, by rw [hb], by rw [hb]⟩
  rw [hb]
  change (dirWrite (fun d => { d with tumbler := 1 - d.tumbler }) (tumblerBack s).boot).restart = false
  rw [dirWrite_restart, (tumblerBack_fields s).1]

theorem exec_rollingUpdateStep (hrolling : s.boot.rolling = some (n, k)) (hup : fabricUp s = true) (hwindow : s.stride.window = true)
    (hcount : k ≤ s.stride.count) (hall : 8 ≤ ostlersUp s) : exec .rollingUpdateStep s = .next (ostlerLeave n s) := by
  change execRollingUpdateStep s = _
  simp only [execRollingUpdateStep, hrolling, hup, hwindow, Nat.not_lt.mpr hcount, Nat.not_lt.mpr hall, decide_false, Bool.not_true,
    Bool.or_self, Bool.false_eq_true, ↓reduceIte]

end Restart

/-- Settles O58: one equation per command; a write of the directory is what it then holds. -/
theorem imagesUpdate : Obligations.ImagesUpdate := by
  intro sig lp nand l w n k s
  exact ⟨fun hheard hfree => ⟨exec_imgBegin hheard hfree, exec_imgVerify_good hheard hfree, exec_imgVerify_bad hheard hfree,
      exec_activate_tumbler hheard hfree, exec_activate_refused hheard⟩,
    fun hheard hstate hlen => ⟨fun hfits => exec_imgData_fits hheard hstate hlen hfits true, exec_imgData_over hheard hstate hlen,
      fun hfits => exec_imgData_fits hheard hstate hlen hfits false⟩,
    exec_imgAbort, exec_tumblerRestart, fun hrestart => ⟨⟨_, exec_tumblerRestartEnd hrestart, restarted_spec w s⟩,
      _, exec_tumblerRestartTimeout hrestart, restartUndone_spec s⟩, exec_rollingUpdateStep⟩

end Sys2Proof.Machine
end

section
/-! # What keeps the fabric up

No operation of action 9 or of the resumed Hitches is a chip fault or a trip: the fabric is up after them where it was before. -/
namespace Sys2Proof.Machine

theorem forEach_fabricUp {α : Type} {f : α → State → State} (hf : ∀ x s, fabricUp (f x s) = fabricUp s) (l : List α) (s : State) :
    fabricUp (forEach l f s) = fabricUp s :=
  forEach_eq_of_forall fabricUp hf l s

theorem ite_fabricUp {p : Prop} [Decidable p] {s t u : State} (ht : fabricUp t = fabricUp s) (hu : fabricUp u = fabricUp s) :
    fabricUp (if p then t else u) = fabricUp s := by
  split <;> assumption

/-! ## Records, messages and memory -/

theorem event_fabricUp (code : Nat) (detail : List Byte) (s : State) : fabricUp (event code detail s) = fabricUp s := by
  obtain ⟨_, _, _, h⟩ := onlyRecords_event code detail s
  rw [h]
  rfl

theorem requestFault_fabricUp (code : Nat) (detail : List Byte) (s : State) : fabricUp (requestFault code detail s) = fabricUp s := by
  obtain ⟨_, _, _, h⟩ := onlyRecords_record 1 1 code detail s
  rw [requestFault, h]
  rfl

theorem jobFault_fabricUp (code : Nat) (detail : List Byte) (s : State) : fabricUp (jobFault code detail s) = fabricUp s := by
  obtain ⟨_, _, _, h⟩ := onlyRecords_record 1 2 code detail s
  rw [jobFault, h]
  rfl

theorem linkSend_fabricUp (n l : Nat) (fromLink : Option Nat) (dl : Nat) (p : Packet) (s : State) :
    fabricUp (linkSend n l fromLink dl p s) = fabricUp s := by
  obtain ⟨_, _, _, h⟩ := linkSend_eq n l fromLink dl p s
  rw [h]
  rfl

theorem sendSyncRsp_fabricUp (chip core thread : Nat) (info : BitVec 48) (v : Word) (s : State) :
    fabricUp (sendSyncRsp chip core thread info v s) = fabricUp s := by
  unfold sendSyncRsp packetOut segmentsOut
  dsimp only
  split
  · rfl
  · exact forEach_fabricUp (fun _ _ => linkSend_fabricUp ..) _ _
  · rfl

theorem sendLenReq_fabricUp (s : State) : fabricUp (sendLenReq s) = fabricUp s := by
  obtain ⟨_, _, _, _, h⟩ := sendLenReq_eq s
  rw [h]
  rfl

theorem writeBytes_fabricUp (a : Nat) (bs : List Byte) (s : State) : fabricUp (writeBytes a bs s) = fabricUp s := by
  rw [writeBytes_eq]
  rfl

theorem portTouch_fabricUp (a n : Nat) (s : State) : fabricUp (portTouch a n s) = fabricUp s := by
  obtain ⟨_, h, _⟩ := portTouch_eq a n s
  rw [h]
  rfl

/-! ## The boundary's own actions and action 9 -/

theorem setLen_fabricUp (s : State) : fabricUp (setLen s) = fabricUp s :=
  ite_fabricUp (s := s) (event_fabricUp ..) rfl

theorem rebuildImage_fabricUp (s : State) : fabricUp (rebuildImage s) = fabricUp s := by
  unfold rebuildImage
  exact ite_fabricUp rfl rfl

theorem poolReleased_fabricUp (id base bytes : Nat) (s : State) : fabricUp (poolReleased id base bytes s) = fabricUp s := by
  unfold poolReleased
  exact ite_fabricUp rfl (forEach_fabricUp (f := freeSession) (fun _ _ => rfl) _ s)

theorem placementInForce_fabricUp (s : State) : fabricUp (placementInForce s) = fabricUp s := by
  have hleaving := forEach_fabricUp
    (f := fun (o : Placed) => poolReleased o.entry.objId o.base (pagedBytes o.entry.tier o.entry.bytes))
    (fun _ _ => poolReleased_fabricUp ..) s.tiers.leaving s
  unfold placementInForce
  exact ite_fabricUp hleaving hleaving

theorem releasePoolPages_fabricUp (s : State) : fabricUp (releasePoolPages s) = fabricUp s :=
  forEach_fabricUp (f := fun p t => modTiers (fun k => { k with pages := sset .unmapped k.pages p .unmapped })
    (modServe (fun v => { v with poolPages := v.poolPages.erase p }) t)) (fun _ _ => rfl) _ s

theorem stopLaunches_fabricUp (s : State) : fabricUp (stopLaunches s) = fabricUp s := by
  obtain ⟨_, h⟩ := stopLaunches_eq s
  rw [h]
  rfl

/-- A step that may be left out keeps the fabric as the step does. -/
theorem maybe_fabricUp {f : State → State} {p : Prop} [Decidable p] (hf : ∀ s, fabricUp (f s) = fabricUp s) (s : State) :
    fabricUp (if p then f s else s) = fabricUp s := ite_fabricUp (hf s) rfl

theorem setAct_fabricUp (k : Nat) (s : State) : fabricUp (setAct k s) = fabricUp s := by
  have hlen : ∀ s, fabricUp (rebuildImage (sendLenReq (setLen s))) = fabricUp s := fun s =>
    (rebuildImage_fabricUp _).trans ((sendLenReq_fabricUp _).trans (setLen_fabricUp s))
  have hplace : ∀ s, fabricUp (quotasInForce (placementInForce s)) = fabricUp s := placementInForce_fabricUp
  change fabricUp (autoActs k s) = _
  unfold autoActs
  exact (maybe_fabricUp hlen _).trans ((maybe_fabricUp releasePoolPages_fabricUp _).trans
    ((maybe_fabricUp hplace _).trans (maybe_fabricUp stopLaunches_fabricUp s)))

theorem decideOn_fabricUp (ring : Nat) (c : Completion) (s : State) : fabricUp (decideOn ring c s) = fabricUp s := rfl

theorem serveCompletion_fabricUp (q : ServeReq) (sess kind code reason tokens acc len : Nat) (s : State) :
    fabricUp (serveCompletion q sess kind code reason tokens acc len s) = fabricUp s := by
  rw [serveCompletion, decideOn_fabricUp]

theorem remember_fabricUp (n tag : Nat) (s : State) : fabricUp (remember n tag s) = fabricUp s := by
  unfold remember
  split <;> rfl

theorem lastFault_fabricUp (n code : Nat) (s : State) : fabricUp (lastFault n code s) = fabricUp s := rfl

theorem serveRefuse_fabricUp (r : ServeReq) (ends : Bool) (fault : Nat × List Byte) (last : Bool) (s : State) :
    fabricUp (serveRefuse r ends fault last s) = fabricUp s := by
  have hlast : ∀ (n : Nat) (t : State), fabricUp (if last then lastFault n fault.1 t else t) = fabricUp t := fun n t =>
    ite_fabricUp (lastFault_fabricUp ..) rfl
  have hremember : ∀ (n : Nat) (t : State), fabricUp (if ends then t else remember n r.reqTag t) = fabricUp t := fun n t =>
    ite_fabricUp rfl (remember_fabricUp ..)
  unfold serveRefuse
  dsimp only
  split
  · rw [serveCompletion_fabricUp, requestFault_fabricUp]
  · rw [hlast, hremember, serveCompletion_fabricUp, requestFault_fabricUp]

theorem weightRefused_fabricUp (w : WeightCmd) (s : State) : fabricUp (weightRefused w s) = fabricUp s := by
  have hfree : fabricUp (takeFree s).2 = fabricUp s := rfl
  rw [weightRefused, weightFault, weightDone, decideOn_fabricUp, requestFault_fabricUp, hfree]

theorem jobRefuse_fabricUp (j : JobCmd) (code : Nat) (detail : List Byte) (s : State) : fabricUp (jobRefuse j code detail s) = fabricUp s := by
  rw [jobRefuse, jobCompletion, decideOn_fabricUp, requestFault_fabricUp]

theorem refuseEntry_fabricUp (ring : RingId) (e : BitVec 512) (slot : Nat) (s : State) :
    fabricUp (refuseEntry ring e slot s) = fabricUp s := by
  unfold refuseEntry
  refine ite_fabricUp ?_ (ite_fabricUp (serveRefuse_fabricUp ..) (ite_fabricUp (weightRefused_fabricUp ..) (jobRefuse_fabricUp ..)))
  rw [decideOn_fabricUp, requestFault_fabricUp]

theorem countAdmit_fabricUp (ring : Nat) (s : State) : fabricUp (countAdmit ring s) = fabricUp s := rfl

theorem ringInvalid_fabricUp (ring : RingId) (s : State) : fabricUp (ringInvalid ring s) = fabricUp s := by
  unfold ringInvalid
  rw [forEach_fabricUp fun x t => ?_]
  rw [refuseEntry_fabricUp, countAdmit_fabricUp]

theorem admitInvalid_fabricUp (s : State) : fabricUp (admitInvalid s) = fabricUp s := by
  unfold admitInvalid
  refine ite_fabricUp rfl ?_
  rw [forEach_fabricUp fun n t => ?_]
  exact maybe_fabricUp (ringInvalid_fabricUp n) t

theorem openNine_fabricUp (s : State) : fabricUp (openNine s) = fabricUp s := by
  unfold openNine
  refine ite_fabricUp ?_ rfl
  rw [admitInvalid_fabricUp, setAct_fabricUp]

/-! ## The Hitches that resume -/

theorem deliver_fabricUp (w : Waiter) (v : Word) (s : State) : fabricUp (deliver w v s) = fabricUp s := by
  have hsreg : ∀ (c : Nat) (r : RegNo), fabricUp (setSreg c r v s) = fabricUp s := fun c r => ite_fabricUp rfl rfl
  unfold deliver
  split
  · split
    · exact hsreg ..
    · rfl
  · exact sendSyncRsp_fabricUp ..

theorem hitchAdd_fabricUp (n : Nat) (s : State) : fabricUp (hitchAdd n s) = fabricUp s := by
  unfold hitchAdd
  refine ite_fabricUp ?_ rfl
  unfold counterPut
  exact (forEach_fabricUp (fun _ _ => deliver_fabricUp ..) _ _).trans rfl

theorem transferCharge_fabricUp (k a n : Nat) (s : State) : fabricUp (transferCharge k a n s) = fabricUp s :=
  forEach_fabricUp (f := fun p t => curbCharge p k 1 t) (fun _ _ => rfl) _ s

theorem transferCount_fabricUp (n0 k a n : Nat) (s : State) : fabricUp (transferCount n0 k a n s) = fabricUp s := by
  unfold transferCount
  rw [forEach_fabricUp fun i t => ?_]
  exact ite_fabricUp rfl rfl

theorem hitchBytes_fabricUp (n0 a n : Nat) (s : State) : fabricUp (hitchBytes n0 a n s) = fabricUp s := by
  rw [hitchBytes, transferCount_fabricUp, portTouch_fabricUp, transferCharge_fabricUp]

theorem combineRow_fabricUp (d : Hld) (ep : BitVec 3) (i : Nat) (r : HRow) (s : State) :
    fabricUp (combineRow d ep i r s) = fabricUp s := by
  have hclamp : ∀ f : Mgmt → Mgmt, fabricUp (modMgmt f s) = fabricUp s := fun _ => rfl
  unfold combineRow
  refine ite_fabricUp ?_ ?_
  · rw [writeBytes_fabricUp, hclamp]
  · rw [writeBytes_fabricUp, writeBytes_fabricUp, hclamp]

theorem modHst_fabricUp (h i : Nat) (f : HldState → HldState) (s : State) : fabricUp (modHst h i f s) = fabricUp s := rfl

theorem combineLaunch_fabricUp (h i : Nat) (s : State) : fabricUp (combineLaunch h i s) = fabricUp s := by
  unfold combineLaunch
  rw [hitchAdd_fabricUp, modHst_fabricUp, hitchBytes_fabricUp, hitchBytes_fabricUp, forEach_fabricUp fun p t => ?_, hitchBytes_fabricUp]
  exact combineRow_fabricUp ..

theorem modTiers_fabricUp (f : Tiers → Tiers) (s : State) : fabricUp (modTiers f s) = fabricUp s := rfl

theorem mapConsult_fabricUp (d a : Nat) (s : State) : fabricUp (mapConsult d a s) = fabricUp s := by
  unfold mapConsult
  split
  · exact ite_fabricUp rfl (modTiers_fabricUp ..)
  · exact ite_fabricUp rfl (modTiers_fabricUp ..)
  · rfl

theorem hitchConsult_fabricUp (h : Nat) (l : List (Bool × Nat × Nat)) (s : State) : fabricUp (hitchConsult h l s) = fabricUp s := by
  unfold hitchConsult
  rw [forEach_fabricUp fun x t => ?_]
  exact forEach_fabricUp (mapConsult_fabricUp _) _ t

theorem hitchMiss_fabricUp (h i page a : Nat) (s : State) : fabricUp (hitchMiss h i page a s) = fabricUp s := by
  have hcount : ∀ (f : Mgmt → Mgmt) (t : State), fabricUp (modMgmt f t) = fabricUp t := fun _ _ => rfl
  unfold hitchMiss
  refine ite_fabricUp rfl ?_
  rw [event_fabricUp, hcount, modHst_fabricUp]

theorem hitchReach_fabricUp {hole go : State → State} (hhole : ∀ s, fabricUp (hole s) = fabricUp s) (hgo : ∀ s, fabricUp (go s) = fabricUp s)
    (h i : Nat) (l : List (Bool × Nat × Nat)) (s : State) : fabricUp (hitchReach h i l hole go s) = fabricUp s := by
  rw [← hitchConsult_fabricUp h l s]
  unfold hitchReach
  dsimp only
  split
  · exact hitchMiss_fabricUp ..
  · rw [hhole, jobFault_fabricUp]
  · refine ite_fabricUp ?_ rfl
    rw [hgo, modHst_fabricUp]

theorem gatherDone_fabricUp (h i : Nat) (s : State) : fabricUp (gatherDone h i s) = fabricUp s := by
  unfold gatherDone
  exact ite_fabricUp (hitchReach_fabricUp (modHst_fabricUp h i launchClose) (combineLaunch_fabricUp h i) ..) rfl

theorem hitchResume_fabricUp (s : State) : fabricUp (hitchResume s) = fabricUp s := by
  unfold hitchResume
  rw [forEach_fabricUp fun h t => ?_]
  exact forEach_fabricUp (gatherDone_fabricUp h) _ t

theorem modJob_fabricUp (f : Job → Job) (s : State) : fabricUp (modJob f s) = fabricUp s := rfl

/-- The accounts of the clients leave the fabric as it is. -/
theorem raiseUsed_fabricUp (s : State) : fabricUp (raiseUsed s) = fabricUp s := by
  unfold raiseUsed
  rw [modJob_fabricUp]
  split
  · rfl
  · rw [forEach_fabricUp fun c t => ?_]
    rfl

end Sys2Proof.Machine
end

section
/-! # Strides (R66 to R100, R138) -/
namespace Sys2Proof.Machine

/-! ## Boundaries -/

section Boundary

variable {b : BoundaryIn} {c : CoreId} {r : Running} {n : Nat} {s : State}

/-- The state that a boundary goes on from. -/
def boundaryOpened (b : BoundaryIn) (s : State) : State := strideInForce (hostAges (openWindow (takeMeasures b s)))

theorem exec_strideBoundary (hdue : boundaryDue s = true) : exec (.strideBoundary b) s =
    .next (if (boundaryOpened b s).chipFault.isSome then dumpGo (curbLoad (rebuildImage (setLen (boundaryOpened b s))))
      else boundaryWork (boundaryOpened b s)) := by
  change execStrideBoundary b s = _
  simp only [execStrideBoundary, hdue, Bool.not_true, Bool.false_eq_true, ↓reduceIte]
  rfl

/-- The boundary window closes. -/
def windowClosed (s : State) : State :=
  modStride (fun t => { t with window := false, act := 0, markerTack := 0, markerAdvance := false, markerLen := none })
    { s with pins := { s.pins with strideOut := 0 } }

theorem exec_issueSpanStart_stopped (hwindow : s.stride.window = true) (hdown : fabricUp s = false) :
    exec .issueSpanStart s = .next (windowClosed s) := by
  have hdown' : fabricUp (windowClosed s) = false := hdown
  change execIssueSpanStart s = _
  simp only [execIssueSpanStart, hwindow, hdown, Bool.not_true, Bool.false_eq_true, ↓reduceIte]
  exact congrArg Host.Outcome.next (if_neg (Bool.eq_false_iff.mp hdown'))

/-- What the issue span does first leaves the fabric as it is. -/
theorem fabricUp_window (s : State) : fabricUp (windowClosed (hitchResume (raiseUsed (openNine s)))) = fabricUp s := by
  have hclose : ∀ t, fabricUp (windowClosed t) = fabricUp t := fun _ => rfl
  rw [hclose, hitchResume_fabricUp, raiseUsed_fabricUp, openNine_fabricUp]

theorem exec_issueSpanStart_running (hwindow : s.stride.window = true) (hup : fabricUp s = true) :
    exec .issueSpanStart s = .next (stepOpen (windowClosed (hitchResume (raiseUsed (openNine s))))) := by
  have hup' : fabricUp (windowClosed (hitchResume (raiseUsed (openNine s)))) = true := (fabricUp_window s).trans hup
  change execIssueSpanStart s = _
  simp only [execIssueSpanStart, hwindow, hup, Bool.not_true, Bool.false_eq_true, ↓reduceIte]
  exact congrArg Host.Outcome.next (if_pos hup')

/-- The job with its step opened. -/
def stepOpened (held : Bool) (r : Running) : Running :=
  { r with avail := r.stride + 1, openSteps := r.openSteps ++ [r.stride]
           unchecked := if r.draining || held then r.unchecked ++ [r.stride] else r.unchecked }

/-- A job that has begun opens its step. -/
theorem stepOpen_run (hrun : s.job.run = some r) (hstarted : r.started = true) (hnew : r.openSteps.contains r.stride = false) :
    (stepOpen s).job.run = some (stepOpened (jobHeld s) r) := by
  have hopen : ¬ (!r.started || r.openSteps.contains r.stride) = true := by
    rw [hstarted, hnew]
    exact Bool.false_ne_true
  change (s.job.run).map _ = some _
  rw [hrun]
  exact congrArg some (if_neg hopen)

/-- The window is closed, and the step of a job that has begun open. -/
theorem stepOpen_windowClosed (s : State) : (stepOpen (windowClosed s)).stride.window = false ∧ (stepOpen (windowClosed s)).stride.act = 0 ∧
    (s.job.run = some r → r.started = true → r.openSteps.contains r.stride = false →
      ∃ q, (stepOpen (windowClosed s)).job.run = some q ∧ q.avail = r.stride + 1 ∧ q.openSteps = r.openSteps ++ [r.stride]) :=
  ⟨rfl, rfl, fun hrun hstarted hnew => ⟨_, stepOpen_run (s := windowClosed s) hrun hstarted hnew, rfl, rfl⟩⟩

theorem exec_stepBegin (hup : fabricUp s = true) (hwindow : s.stride.window = false) (hhalt : (coreOf s c.val).halted = false)
    (hstale : coreStale s c.val = false) : exec (.stepBegin c) s = .next (forEach (coreEngines c.val) (fun e => engineAdvance e)
      (forEach (List.range 8) (fun t => threadAdvance c.val t) s)) := by
  change execStepBegin c s = _
  simp only [execStepBegin, hup, hwindow, hhalt, hstale, Bool.not_false, Bool.and_self, ↓reduceIte]

theorem event_job (code : Nat) (detail : List Byte) (s : State) : (event code detail s).job = s.job := by
  obtain ⟨_, _, _, h⟩ := onlyRecords_event code detail s
  rw [h]

/-- The records of the engines that wait leave the jobs alone. -/
theorem forEach_waitRecord_job (l : List Nat) (s : State) : (forEach l waitRecord s).job = s.job :=
  forEach_eq_of_forall State.job (fun _ _ => event_job ..) l s

theorem exec_boundaryTimer (hstage : 5 ≤ s.boot.stage) (hrestart : s.boot.restart = false) (hlate : 2 * s.stride.len + s.stride.leadNow < n) :
    exec (.boundaryTimer n) s = .next (chipStop 0x0105 [] false s) := by
  change execBoundaryTimer n s = _
  simp only [execBoundaryTimer, Nat.not_lt.mpr hstage, hrestart, Nat.not_le.mpr hlate, decide_false, Bool.or_self, Bool.false_eq_true,
    ↓reduceIte]

/-- The job as the watchdog leaves it (R86). -/
def watchdogged (n : Nat) (r : Running) : Running :=
  { r with quiet := 0, hardStop := r.draining, stop := if r.draining then 0x0101 else r.stop
           drainStart := if r.draining then n + 1 else r.drainStart }

/-- The job of a state that has taken a fault. -/
theorem jobFault_run (code : Nat) (detail : List Byte) (hrun : s.job.run = some r) : (jobFault code detail s).job.run =
    some { r with code := if r.code = 0 then code else r.code, reason := some 4, linkLost := r.linkLost || linkCode code } := by
  obtain ⟨_, _, _, h⟩ := onlyRecords_record 1 2 code detail s
  rw [jobFault, h]
  change (s.job.run).map _ = _
  rw [hrun]
  rfl

/-- The fault and the records of the engines that wait. -/
def watchdogFault (r : Running) (s : State) : State :=
  forEach (((allCores.flatMap coreEngines).filter (fun e => (jobEngines s).contains e && (engWait s e = 1 || engWait s e = 2))).take 64)
    waitRecord (jobFault 0x0101 (item 8 (r.stride - 1) ++ item 2 ((firstOwed s).getD 0)) (setAct 1 s))

/-- The state that the watchdog leaves. -/
def watchdogStopped (r : Running) (s : State) : State :=
  modRun (watchdogged (watchdogFault r s).stride.count) (watchdogFault r s)

/-- A job that has stood still for two strides is stopped, or stops hard (R86). -/
theorem exec_strideWatchdog (hrun : s.job.run = some r) (hact : mayAct s 1 = true) (hquiet : 2 ≤ r.quiet) (hstop : r.hardStop = false) :
    ∃ u, exec .strideWatchdog s = .next u ∧
      (∃ q, u.job.run = some q ∧ q.quiet = 0 ∧ q.reason = some 4 ∧ q.hardStop = r.draining) := by
  have hrun' : (setAct 1 s).job.run = some r := by
    rw [setAct_of_lt_four (by decide)]
    exact hrun
  refine ⟨watchdogStopped r s, ?_, watchdogged (watchdogFault r s).stride.count { r with
    code := if r.code = 0 then 0x0101 else r.code, reason := some 4, linkLost := r.linkLost || linkCode 0x0101 }, ?_, rfl, rfl, rfl⟩
  · change execStrideWatchdog s = _
    simp only [execStrideWatchdog, hrun, hact, hstop, Nat.not_lt.mpr hquiet, decide_false, Bool.not_true, Bool.or_self,
      Bool.false_eq_true, ↓reduceIte]
    rfl
  · change ((watchdogFault r s).job.run).map _ = _
    rw [watchdogFault, forEach_waitRecord_job, jobFault_run _ _ hrun']
    rfl

end Boundary

/-! ## Markers and the messages of a domain (R88 to R98) -/

section Markers

variable {r : Running} {body : BitVec 256} {ph : Int} {ch : BitVec 16} {n t : Nat} {s : State}

/-- The marker that the root sends. -/
def rootMarker (s : State) : Marker :=
  { stride := nextStride s, len := s.stride.requests.foldl (fun n r => Nat.max n r.2) s.stride.lenReq
    delay := 0, advance := advanceNext s, code := s.stride.sendCode, tackId := 0 }

theorem exec_markerSend (hup : fabricUp s = true) (hwindow : s.stride.window = false) (hmulti : multiChip s = true)
    (hroot : s.stride.root = true) (htack : s.stride.sendTack = 0) :
    exec .markerSend s = .next (modStride (fun t => { t with sendCode := 0, sendTack := 0, aligned := t.sourceNow ≤ 1 })
      (markerForward (rootMarker s) (markerGroup s 0) (ownChip s) (markerSays (rootMarker s) s))) := by
  have hsends : sendsMarkers s = true := by
    simp only [sendsMarkers, hmulti, hroot, ↓reduceIte]
  change execMarkerSend s = _
  simp only [execMarkerSend, hup, hwindow, hsends, htack, Bool.not_true, Bool.or_self, Bool.false_eq_true, ↓reduceIte]
  rfl

theorem strideBody_of_kind (hup : fabricUp s = true) (hrsvd : bodyRsvd body = false) {kind : Nat} (hkind : bodyKind body = kind)
    (f : Marker → State → State) : strideBody kind body f s = f (bodyMarker body) s := by
  simp only [strideBody, hup, hrsvd, hkind, ne_eq, not_true_eq_false, Bool.not_true, Bool.false_eq_true, ↓reduceIte]

theorem strideBody_of_reserved (hup : fabricUp s = true) (hrsvd : bodyRsvd body = true) (kind : Nat) (f : Marker → State → State) :
    strideBody kind body f s = modMgmt (fun m => { m with badPackets := statInc 32 m.badPackets }) s := by
  simp only [strideBody, hup, hrsvd, Bool.not_true, Bool.false_eq_true, ↓reduceIte]

theorem takeMarker_of_group {m : Marker} (hgroup : 2 ≤ (markerGroup s m.tackId).length)
    (hroot : rootOf (markerGroup s m.tackId) ≠ ownChip s) : takeMarker ph m s =
      markerForward m (markerGroup s m.tackId) (rootOf (markerGroup s m.tackId)) (markerAlign m ph (markerSays m s)) := by
  simp only [takeMarker, Nat.not_lt.mpr hgroup, hroot, decide_false, Bool.or_self, Bool.false_eq_true, ↓reduceIte]

theorem takeMarker_of_none {m : Marker} (h : (markerGroup s m.tackId).length < 2 ∨ rootOf (markerGroup s m.tackId) = ownChip s) :
    takeMarker ph m s = s := by
  refine if_pos ?_
  rcases h with h | h <;> simp [h]

section Loss

variable (hup : fabricUp s = true) (hmulti : multiChip s = true) (hroot : s.stride.root = false)

include hup hmulti hroot

theorem exec_markerLoss_waits (hsource : s.stride.sourceNow < 2) (hmissing : s.stride.missing < 3) :
    exec .markerLoss s = .next (modStride (fun t => { t with missing := t.missing + 1 }) s) := by
  change execMarkerLoss s = _
  simp only [execMarkerLoss, hup, hmulti, hroot, Nat.not_le.mpr hsource, decide_false, Bool.not_true, Bool.or_self, Bool.false_eq_true,
    ↓reduceIte]
  exact congrArg Host.Outcome.next (if_pos (Nat.succ_lt_succ hmissing))

theorem exec_markerLoss_fallback (hmissing : 3 ≤ s.stride.missing) (hsource : s.stride.sourceNow = 0)
    (hfallback : s.stride.fallback = false) : exec .markerLoss s = .next (event 0x0181 []
      (modStride (fun t => { t with fallback := true, aligned := false }) (modStride (fun t => { t with missing := t.missing + 1 }) s))) := by
  change execMarkerLoss s = _
  simp only [execMarkerLoss, modStride, hup, hmulti, hroot, hsource, hfallback, show ¬ (s.stride.missing + 1 < 4) by omega,
    show ¬ (2 ≤ 0) by decide, decide_false, Bool.not_true, Bool.or_self, Bool.false_eq_true, ↓reduceIte]

theorem exec_markerLoss_freeRun (hmissing : 3 ≤ s.stride.missing) (hsource : s.stride.sourceNow = 1)
    (hfree : s.stride.freeRun = false) : exec .markerLoss s =
      .next (sendStride s.stride.domainRoot 2 { stride := jobStride s, code := 0x0103 }
        (jobFault 0x0103 (item 8 (jobStride s)) (modStride (fun t => { t with freeRun := true, aligned := false })
          (modStride (fun t => { t with missing := t.missing + 1 }) s)))) := by
  change execMarkerLoss s = _
  simp only [execMarkerLoss, modStride, hup, hmulti, hroot, hsource, hfree, show ¬ (s.stride.missing + 1 < 4) by omega,
    show ¬ (2 ≤ 1) by decide, show ¬ (1 = 0) by decide, decide_false, Bool.not_true, Bool.or_self, Bool.false_eq_true, ↓reduceIte]
  rfl

end Loss

theorem takeLenReq_of_root {m : Marker} (hmulti : multiChip s = true) (hroot : s.stride.root = true) :
    takeLenReq ch m s = modStride (fun t => { t with requests := sset 0 t.requests ch.toNat (Nat.min m.len 4194304) }) s := by
  simp only [takeLenReq, hmulti, hroot, Bool.and_self, ↓reduceIte]
  rfl

theorem takeEvent_of_fault {m : Marker} (hmulti : multiChip s = true) (hroot : s.stride.root = true)
    (hcode : m.code = 0x0801 ∨ m.code = 0x0103) : takeEvent ch m s = announce m.code s := by
  have hfault : domainFault m.code = true := by
    rcases hcode with h | h <;> simp [domainFault, h]
  have hnonzero : (decide (m.code = 0) && decide (m.tackId ≠ 0)) = false := by
    rcases hcode with h | h <;> simp [h]
  simp only [takeEvent, hmulti, hroot, hfault, hnonzero, Bool.and_self, Bool.false_eq_true, ↓reduceIte]

theorem announce_sendCode {code : Nat} (h : s.stride.sendCode = 0) : (announce code s).stride.sendCode = code := if_pos h

theorem exec_slotStagedReport (hup : fabricUp s = true) (hnew : s.job.groupReady.contains (ch.toNat, t) = false) :
    exec (.slotStagedReport ch t) s = .next (modJob (fun j => { j with groupReady := j.groupReady ++ [(ch.toNat, t)] }) s) := by
  change execSlotStagedReport ch t s = _
  simp only [execSlotStagedReport, stagedReport, hup, hnew, Bool.not_true, Bool.or_self, Bool.false_eq_true, ↓reduceIte]

theorem exec_strideInEdge (hsource : s.stride.sourceNow = 3) (hstage : 5 ≤ s.boot.stage) (htripped : s.thermal.tripped = false) :
    exec (.strideInEdge n) s = .next (if n < 2048 then event 0x0182 [] s
      else modStride (fun t => { t with edgeSeen := true, freeRun := false, aligned := true })
        { s with pins := { s.pins with strideOut := 64 } }) := by
  change execStrideInEdge n s = _
  simp only [execStrideInEdge, hsource, htripped, Nat.not_lt.mpr hstage, ne_eq, not_true_eq_false, decide_false, Bool.or_self,
    Bool.false_eq_true, ↓reduceIte]

theorem exec_strideInTimeout (hsource : s.stride.sourceNow = 3) (hlate : 4 * s.stride.len ≤ n) :
    exec (.strideInTimeout n) s = .next (modStride (fun t => { t with freeRun := true, aligned := false }) s) := by
  change execStrideInTimeout n s = _
  simp only [execStrideInTimeout, hsource, hlate, decide_true, Bool.and_self, ↓reduceIte]

end Markers

/-- Settles O59: one equation per command; nothing before the issue span is a chip fault, so the fabric that was up opens the step. -/
theorem stridesRun : Obligations.StridesRun := by
  intro b c body ph n t ch r s
  refine ⟨fun hdue => ⟨fun hfault => ?_, fun hfault => ?_⟩,
    fun hwindow hdown => ⟨_, exec_issueSpanStart_stopped hwindow hdown, rfl, rfl, rfl, rfl, rfl⟩,
    fun hwindow hup => ⟨_, exec_issueSpanStart_running hwindow hup, stepOpen_windowClosed _⟩,
    exec_stepBegin, fun hrun hact _ hquiet hstop => exec_strideWatchdog hrun hact hquiet hstop, exec_boundaryTimer,
    fun hup hwindow hmulti hroot _ htack _ => exec_markerSend hup hwindow hmulti hroot htack,
    fun hup hrsvd hkind => ⟨fun hgroup hroot => ?_, fun hnone => ?_⟩, fun hup hrsvd =>
      congrArg Host.Outcome.next (strideBody_of_reserved hup hrsvd 0 (takeMarker ph)),
    fun hup hmulti hroot hsource => ⟨exec_markerLoss_waits hup hmulti hroot hsource, exec_markerLoss_fallback hup hmulti hroot,
      exec_markerLoss_freeRun hup hmulti hroot⟩,
    fun hup hmulti hroot hrsvd => ⟨fun hkind => ?_, fun hkind hcode => ⟨_, ?_, announce_sendCode⟩⟩, exec_slotStagedReport,
    fun hsource hstage htripped => ⟨fun hsoon => ?_, fun hlate => ?_⟩, exec_strideInTimeout⟩
  · rw [exec_strideBoundary hdue]
    exact congrArg Host.Outcome.next (if_pos hfault)
  · rw [exec_strideBoundary hdue]
    refine congrArg Host.Outcome.next (if_neg ?_)
    change ¬ (strideInForce (hostAges (openWindow (takeMeasures b s)))).chipFault.isSome = true
    rw [hfault]
    exact Bool.false_ne_true
  · exact congrArg Host.Outcome.next ((strideBody_of_kind hup hrsvd hkind (takeMarker ph)).trans (takeMarker_of_group hgroup hroot))
  · exact congrArg Host.Outcome.next ((strideBody_of_kind hup hrsvd hkind (takeMarker ph)).trans (takeMarker_of_none hnone))
  · exact congrArg Host.Outcome.next ((strideBody_of_kind hup hrsvd hkind (takeLenReq ch)).trans (takeLenReq_of_root hmulti hroot))
  · exact congrArg Host.Outcome.next ((strideBody_of_kind hup hrsvd hkind (takeEvent ch)).trans (takeEvent_of_fault hmulti hroot hcode))
  · rw [exec_strideInEdge hsource hstage htripped, if_pos hsoon]
  · rw [exec_strideInEdge hsource hstage htripped, if_neg (Nat.not_lt.mpr hlate)]

end Sys2Proof.Machine
end

section
/-! # Registers and entries after reset (R17, R95, R145, R271, R312, R520, R546)

After reset every indexed store is empty, so that a register reads the same whatever unit it stands for: one unit is evaluated. -/
namespace Sys2Proof.Machine

theorem ringRegs_reset (r : Nat) : bitsOf (regRead State.reset (.ringSq r)) 3 0 = 4 ∧ bitsOf (regRead State.reset (.ringCq r)) 3 0 = 4 ∧
    bitsOf (regRead State.reset (.ringCfg r)) 10 8 = 7 := by
  have hsq : regRead State.reset (.ringSq r) = regRead State.reset (.ringSq 0) := rfl
  have hcq : regRead State.reset (.ringCq r) = regRead State.reset (.ringCq 0) := rfl
  have hcfg : regRead State.reset (.ringCfg r) = regRead State.reset (.ringCfg 0) := rfl
  rw [hsq, hcq, hcfg]
  decide

theorem curbBudget_reset (p k : Nat) : bitsOf (regRead State.reset (.curbBudget p k)) 31 0 = 0xFFFFFFFF := by
  have h : regRead State.reset (.curbBudget p k) = regRead State.reset (.curbBudget 0 0) := rfl
  rw [h]
  decide

theorem portStatus_reset (p : Nat) : bitsOf (regRead State.reset (.portStatus p)) 15 12 = 0xF ∧
    bitsOf (regRead State.reset (.portStatus p)) 11 8 = 0xF ∧ bitsOf (regRead State.reset (.portStatus p)) 2 0 = 1 := by
  have h : regRead State.reset (.portStatus p) = regRead State.reset (.portStatus 0) := rfl
  rw [h]
  decide

theorem engState_reset (e : Nat) : bitsOf (regRead State.reset (.engState e)) 3 0 = 4 := by
  have h : regRead State.reset (.engState e) = regRead State.reset (.engState 0) := rfl
  rw [h]
  decide

theorem sregAt_reset (c r : Nat) : regRead State.reset (.sregAt c r) = 0 := by
  change sreg State.reset c (BitVec.ofNat 6 r) = 0
  unfold sreg
  split <;> rfl

/-- Settles O60: one unit of each register is evaluated, and stands for all. -/
theorem resetLeaves : Obligations.ResetLeaves := by
  refine ⟨rfl, ?_, fun r _ => ringRegs_reset r, fun p k _ _ => curbBudget_reset p k, ?_, ?_, fun p _ => portStatus_reset p,
    fun e _ => engState_reset e, fun c r _ _ => sregAt_reset c r, ?_⟩ <;> decide

end Sys2Proof.Machine
end
